-- ==== Sys2Proof/Word.lean ====
section
/-! DEFINITION. The word types of the device: bytes, 64-bit words (R10, R43) and the 512-bit descriptor register (R43). -/

namespace Sys2Proof

/-- One byte of device memory. -/
abbrev Byte := BitVec 8

/-- A 64-bit register or memory word (R10, R43). -/
abbrev Word := BitVec 64

/-- A descriptor register, 64 bytes (R43); byte `k` is bits `8*k+7 .. 8*k` (R8). -/
abbrev Desc := BitVec 512

end Sys2Proof
end

