-- ==== Sys2Proof/Types.lean ====
section
/-! DEFINITION. The operand types of the commands: which core issues an instruction, the two widths of an immediate, and the
register and field numbers of the formats of R65. -/

namespace Sys2Proof

/-- A core that issues GFI instructions: one of the 256 flow sequencers, or one of the 16 steward cores (R43). -/
inductive Core where
  | fsq (n : BitVec 8)
  | stew (k : BitVec 4)
  deriving DecidableEq, Repr

/-- The immediate of an I- or B-format instruction: the 16-bit field, or the 32-bit word of a prefixed group (R66). -/
inductive Imm where
  | short (v : BitVec 16)
  | long (v : BitVec 32)
  deriving DecidableEq, Repr

/-- A register field of an instruction (R65). -/
abbrev RegNo := BitVec 5

/-- Who submitted a job, holds a ticket or orders its accesses: a flow context or a steward core (R57). -/
inductive Agent where
  | ctx (n : Nat)
  | stew (k : Nat)
  deriving DecidableEq, Repr

/-- What an entry of a journal record says (R240, R251, R294, R301, R418). The spec gives the layout of only some of these entries in
bytes; a record carries what they say. (log 68, DESIGN CHOICE, safe) -/
inductive Act where
  /-- A relocation entry of R240 for position `(pool * 2^26 + frame) * 32 + position`, and its removal. -/
  | reloc (key member chunk : Nat)
  | unreloc (key : Nat)
  /-- A member state, and a segment table entry. -/
  | member (pool m st : Nat)
  | segment (pool seg entry : Nat)
  /-- LOST is set for a slot (R272). -/
  | lost (slot : Nat)
  /-- The entry of a TUN record (R251). -/
  | tun (img pool kind seg frame state mask : Nat)
  /-- A volume's new ROOT, an index domain record, a snapshot table entry, and a change of OWNER. -/
  | root (vol slot : Nat)
  /-- The home of an index page, by domain and page number, with the entries that its home copy on the drives holds (R241). -/
  | ixHome (key slot : Nat) (ents : List (Nat × Nat × Nat))
  /-- The home of a slot-reference page, by slot identifier over 512 (R241). -/
  | srtHome (key slot : Nat)
  | domain (key entries level split : Nat) (keys : Option (Nat × Nat))
  | snapshot (num : Nat) (entry : List Byte)
  | owner (g head oepoch : Nat)
  /-- The entries of a cut, volume and snapshot, with its CGID (R296), and a freed page's home slot and slot words (R301). -/
  | cut (ents : List (Nat × Nat)) (cgid : Nat)
  | freed (slot : Nat) (words : List Nat)
  /-- A band table entry (R283), and the switch-over of a pool to its target geometry (R286). -/
  | band (pool e entry : Nat)
  | switchover (pool : Nat)
  deriving DecidableEq, Repr

/-- A journal record as it is received: its bytes and their offset in the ring, what its entries say, and the slot copies that came with it, each for an offset of a tun
image with its bytes (R251, R252). (log 7, DESIGN CHOICE, unsafe) -/
structure Rec where
  off : Nat
  bytes : List Byte
  acts : List Act
  copies : List (Nat × Nat × List Byte)
  deriving DecidableEq, Repr

/-- What a head sends its partner at SYNC (R116, R435, R521): registers by address, the SHA-512 of its loaded flow program set, memory
ranges, the placement tables and the rest of the pool record, and the unretired records of its ring. (log 7, DESIGN CHOICE, unsafe) -/
structure SyncCopy where
  words : List (Nat × Word)
  setHash : List Byte
  mem : List (Nat × List Byte)
  place : List (Nat × Nat)
  acts : List Act
  ring : List Rec
  deriving DecidableEq, Repr

/-- The messages the two heads send each other over the partner link. -/
inductive PMsg where
  /-- The bung messages of R115; PREPARE carries the low 64 bits of the SHA-512 of the sender's flow program set. -/
  | bungPrepare (setId : Word)
  | bungAck
  | bungNak
  | bungCommit
  | bungAbort
  | bungConfirm
  /-- A journal record with its slot copies (R252), and a slot reference change (R425). -/
  | record (r : Rec)
  /-- A journal record as XE_PLINK.EN seals it (R223): the counter of its nonce, the sealed bytes of the record and of its slot copies, the tag,
  and what is not bytes: the offset in the ring, what the entries say, and the image, offset and length of each copy. -/
  | sealed (ctr : Nat) (text tag : List Byte) (off : Nat) (acts : List Act) (lens : List (Nat × Nat × Nat))
  | slotRef (slot entry : Nat)
  /-- A heartbeat on a P port (R421). -/
  | heartbeat (port : Nat) (bytes : List Byte)
  /-- The messages of the link rekey (R422). -/
  | rekey (epoch : Nat) (en : Bool)
  | rekeyAck
  | rekeyNak
  | rekeySwitch (qp : Nat)
  /-- The messages of a pair cut (R299). -/
  | cutReady (cgid : Nat) (ents : List (Nat × Nat))
  | cutGo (cgid : Nat)
  | cutCut (cgid : Nat)
  | cutAbort (cgid : Nat)
  | cutConfirm
  /-- A new stream epoch (R309) with the OLDLAST that its first message carries. -/
  | streamEpoch (stream epoch oldlast : Nat)
  /-- A handover begins for a group (R437). -/
  | handover (g : Nat)
  /-- A command forwarded to its OWNER with the host's HOSTID, its volume and the host data that this head has staged, and its result (R41). -/
  | forward (hq cid host vol : Nat) (sqe data : List Byte)
  /-- An Error Information entry for a lost range of a volume, for the partner's ring too (R343). -/
  | lostRange (vol first len : Nat)
  /-- A Sanitize has begun (R355). -/
  | sanitize
  | forwardResult (hq cid status dw0 : Nat)
  /-- The frames of a band are FREE on this head (R285). -/
  | bandFree (pool e : Nat)
  /-- The announcement of an activation (R523). -/
  | activation (time : Word)
  /-- The data of a forwarded command for the host from an offset of its SGL on, which the partner stages and passes on (R41). -/
  | hostData (hq cid off : Nat) (data : List Byte)
  /-- What SYNC copies (R435). -/
  | sync (c : SyncCopy)
  deriving DecidableEq, Repr

/-- What a drive answers to the read of one block: its data and metadata, an unrecovered error, or nothing in time. (log 7, DESIGN CHOICE, unsafe) -/
inductive DriveAns where
  | block (data md : List Byte)
  | media
  | timeout
  deriving DecidableEq, Repr

/-- An access to a CSR offset: the steward core, and the value where it is a write (R12). -/
structure CsrAccess where
  core : BitVec 4
  write : Option Word
  deriving DecidableEq, Repr

/-- What comes with a forwarded command: its volume, its submission queue entry and the host data that the partner staged (R41, R346). -/
structure FwdCmd where
  vol : BitVec 18
  sqe : List Byte
  data : List Byte
  deriving DecidableEq, Repr

/-- The result of a forwarded command: Dword 0, and the data for the host, each piece with its offset in the SGL (R41). -/
structure FwdResult where
  dw0 : BitVec 32
  data : List (Nat × List Byte)
  deriving DecidableEq, Repr

/-- The parameters of a Fabrics Connect (R321, R326, R329): the connection and CID, the transport, whether it names the discovery
subsystem, QID, CNTLID, entries, KATO, the host's HOSTID and NQN. -/
structure ConnArgs where
  conn : Nat
  cid : Nat
  tcp : Bool
  disc : Bool
  qid : Nat
  cntlid : Nat
  size : Nat
  kato : Nat
  host : Nat
  nqn : List Byte
  deriving DecidableEq, Repr

/-- What the steward does for a Format (R354): the ring entry, the unused volume number, its new key epoch and, for SES 2, its key slot. -/
structure FormatArgs where
  entry : Nat
  vol : Nat
  keyEpoch : Nat
  slot : Nat
  deriving DecidableEq, Repr

/-- A step of the steward's for a Sanitize (R355): it starts, with the ring entry; the partner's message has come; the erase; a namespace's
new volume with its key epoch and slot; progress; its end; a failed step; and Exit Failure Mode. -/
inductive SanStep where
  | start (entry : Nat)
  | theirs
  | purge
  | blockErase
  | renew (nsid vol keyEpoch slot : Nat)
  | progress (n : Nat)
  | done
  | failed
  | exitFailure (entry : Nat)
  deriving DecidableEq, Repr

/-- What the steward does for a reservation command (R345): the ring entry, the volume, the notification type as NVMe numbers it and the new table entry where it changes, the
status and Dword 0, and the controllers to be notified. -/
structure ResvArgs where
  entry : Nat
  vol : Nat
  kind : Nat
  table : Option (List Byte)
  status : Nat
  dw0 : Nat
  notices : List Nat
  deriving DecidableEq, Repr

/-- The fields of a replication message header that the receiver uses (R310). -/
structure StrHdr where
  stream : Nat
  seq : Nat
  prev : Nat
  epoch : Nat
  oldlast : Nat
  deriving DecidableEq, Repr

/-- An entry of an OFFER or DATA (R311): FP, LBA and FLAGS. -/
structure StrEnt where
  fp : List Byte
  lba : Nat
  flags : Nat
  deriving DecidableEq, Repr

/-- A connection request of the IB connection manager (R364, R365): the lane group and MAC it came on, the remote QPN and its first PSN, the
fields of the attribute record that the request gives, the host's responder resources, and whether it is for an I/O queue. -/
structure CmReq where
  group : Nat
  mac : Nat
  rqpn : Nat
  psn : Nat
  rip : Nat
  vlan : Nat
  dscp : Nat
  pmtu : Nat
  sip : Nat
  dmac : Nat
  resources : Nat
  ioq : Bool
  deriving DecidableEq, Repr

/-- The transport header of a RoCEv2 packet: the QPN it names, its opcode as IBTA numbers it, its PSN, whether its ICRC is right and whether
the frame carries ECN CE (R362, R363, R377). -/
structure Bth where
  qpn : Nat
  op : Nat
  psn : Nat
  icrcOk : Bool
  ce : Bool
  deriving DecidableEq, Repr

/-- A TCP PDU (R326, R333, R383): a command capsule with its in-capsule data, data for a READ job or for the staging of a forwarded command (R41), and what breaks the connection: a reset, a
header digest failure or a PDU against the rules. -/
inductive TcpPdu where
  | capsule (sqe data : List Byte) (digestBad : Bool)
  | h2cData (job : Nat) (data : List Byte) (digestBad : Bool)
  | h2cStage (cid : Nat) (data : List Byte) (digestBad : Bool)
  | broken
  deriving DecidableEq, Repr

/-- A frame of a cell link (R407): the fields of its header, whether its CRC is right, and its 256 cell bytes. -/
structure LinkFrame where
  fseq : Nat
  ackseq : Nat
  credsum : Nat
  crcOk : Bool
  cell : List Byte
  deriving DecidableEq, Repr

/-- What the vault configuration records of a binding (R112, R499): the SHA-512 of its flow program set, both banks and BANKSEL. -/
structure BindRec where
  hash : List Byte
  bank0 : List Byte
  bank1 : List Byte
  sel : Nat
  deriving DecidableEq, Repr

/-- A step of the boot (R495): the boot ROM's verdict on the two banks; the memories, with the GiB of the DIMM of each DDR5 channel (R23); the
V fields of the board record, the copies of the vault configuration and of the table checkpoint as the drives yield them, each with its
number, and the blocks that a vault spare takes over, each with what the other three drives hold of it (R464, R496, R497, R500); the tables
rebuilt in memory, with the bytes of the flow program set; the steward image with its entry point, and at the
first start of a NONREV bank the table checkpoint and the configuration as they are converted (R520); step 6; step 7 with the records that the own-journal
image holds; and a failure of a step with its cause. (log 7, DESIGN CHOICE, unsafe; 133, DESIGN CHOICE, safe) -/
inductive BootStep where
  | rom (okA okB : Bool)
  | memory (dimms : List Nat)
  | restore (board : List (Nat × Word)) (cfg tbl : List (Nat × List Byte)) (spare : List (Nat × List (List Byte × List Byte)))
  | tables (mem : List (Nat × List Byte)) (set : List Byte)
  | image (entry : Word) (conv : Option (List Byte × List Byte))
  | steward
  | finish (ring : List Rec)
  | fail (step cause : Nat)
  deriving DecidableEq, Repr

/-- What a queue pair sends (R362, R375 to R377): a message from a PSN on, with the key that a SEND invalidates; a READ request and a READ
response; an acknowledgement; a NAK with its syndrome; a CNP; and the answers of the connection manager. -/
inductive RdmaOut where
  | send (psn : Nat) (data : List Byte)
  | write (psn addr rkey : Nat) (data : List Byte)
  | readReq (psn addr rkey len : Nat)
  | readResp (psn : Nat) (data : List Byte)
  | ack (psn : Nat)
  | nak (psn syndrome : Nat)
  | cnp
  | rep (spsn : Nat)
  | drep
  | dreq
  deriving DecidableEq, Repr

/-- What leaves the device: a completion on a host queue (its queue, command identifier, status field as R347 lays it out, dword 0, SQHD, and the key that its SEND invalidates), the result of a forwarded command for the head that received the capsule (R41), a message to the
partner. (log 148, DESIGN CHOICE, unsafe) -/
inductive Out where
  | completion (hq cid status dw0 sqhd : Nat) (inv : Option Nat)
  /-- The answer to a Connect on a new connection: its identity, CID, status and Dword 0. -/
  | connected (conn cid status dw0 : Nat)
  /-- Data returned to a host for a command: queue and CID, and the bytes, or the fields of a log page (R342). -/
  | hostData (hq cid : Nat) (data : List Byte)
  | logPage (hq cid lid : Nat) (ents : List (List Nat))
  /-- A command forwarded to another chip of the gang (R441). -/
  | gangForward (chip hq cid host vol : Nat) (sqe data : List Byte)
  /-- The answer to a TCP connection request (R571): accepted or reset. -/
  | tcpAnswer (accepted : Bool)
  /-- A TCP connection that this head closes (R337), and a Sanitize block erase for a pool member: its pool and number (R355). -/
  | tcpClose (conn : Nat)
  | driveSanitize (pool member : Nat)
  | forwardResult (hq cid status dw0 : Nat)
  | partner (m : PMsg)
  /-- A steward read of a register: its address and the value returned. -/
  | csrRead (addr : Nat) (v : Word)
  /-- A flush of the cellar buffer to the vault drives of a mask: the header and the copy (R536). -/
  | vaultCellar (drives : Nat) (header : List Byte) (image : List (Nat × Byte))
  /-- A write sent to another chip of the gang (R542). -/
  | gangWrite (chip addr : Nat) (v : Word)
  /-- The data of an SMBus read (R544). -/
  | smbus (data : List Byte)
  /-- A write of blocks to a pool member with FUA: its pool and number, the drive LBA, the data and the metadata (R231). -/
  | driveWrite (pool member lba : Nat) (data md : List Byte)
  /-- A command passed to a drive namespace (R358): root port, device, namespace, opcode, dwords 10 to 15 and the data written. -/
  | drivePass (port dev nsid opc : Nat) (cdw data : List Byte)
  /-- The completion of a replication message (R312 to R315): stream, SEQ, status as in `completion`, and Dwords 0 and 1. -/
  | streamAnswer (stream seq status dw0 dw1 : Nat)
  /-- A queue pair sends; the connection manager rejects a request with a reason (R364, R571). -/
  | rdma (qp : Nat) (m : RdmaOut)
  | cmReject (reason : Nat)
  /-- An R2T and C2HData on a TCP queue (R383): queue, CID, transfer tag, offset and length or data. -/
  | tcpR2t (hq cid ttag off len : Nat)
  | tcpData (hq cid off : Nat) (data : List Byte)
  /-- A cell delivered to the block behind a port (R401); an Ethernet frame that leaves (R403); a PFC pause (R396). -/
  | cell (port : Nat) (c : List Byte)
  | frame (port : Nat) (data : List Byte)
  | pfcPause (port prio : Nat)
  /-- A frame on a cell link (R407): link, KIND, FSEQ, ACKSEQ, CREDSUM and the cell bytes. -/
  | linkFrame (link kind fseq ackseq credsum : Nat) (cell : List Byte)
  /-- A Reservation Register (0), Acquire (1) or Release (2) at the arbiter (R430, R435): its root port, device, namespace and key. -/
  | arbiter (op port dev nsid key : Nat)
  /-- A target sent over AVSBus, and the rails commanded off or on over PMBus (R450, R492, R494). -/
  | avs (mv : Nat)
  | rails (on : Bool)
  /-- Blocks written to vault drives with FUA: drive, drive block, data and metadata (R461 to R463, R501, R514). -/
  | vaultWrite (blocks : List (Nat × Nat × List Byte × List Byte))
  /-- A bank of xSPI is written (R514, R517): the bank, the offset and the bytes. -/
  | xspi (bank off : Nat) (data : List Byte)
  /-- A PPS edge (R564), and what the TAP shifts out (R563). -/
  | pps
  | tap (data : List Bool)
  deriving DecidableEq, Repr

end Sys2Proof
end

