-- ==== Sys2Proof/Syntax.lean ====
section
/-! DEFINITION. The commands: one constructor for every row of spec/opcode_table.json. An instruction of the Genewin flow
instruction set is the command that a core issues it; every other command is an event, a message, a register access or a
step of an engine job that spec/ gives a meaning. -/

namespace Sys2Proof

/-- The commands of the device. -/
inductive Instr where
  /-- A steward core writes a CSR (R9 to R12). -/
  | csrWrite (k : BitVec 4) (addr : Word) (v : Word)
  /-- A steward core reads a CSR (R9, R14). -/
  | rcRead (k : BitVec 4) (addr : Word)
  /-- A steward core reads, or writes a value to, a CSR offset that holds no register (R12). -/
  | csrUnmappedAccess (addr : Word) (acc : CsrAccess)
  /-- An I/O capsule arrives on a queue, with its in-capsule data; the last operand says that a data digest failed (R331, R333). -/
  | ioCapsuleReceived (hq : BitVec 16) (sqe : List Byte) (data : List Byte) (digestBad : Bool)
  /-- A flow context is free for the oldest command that waits (R33). -/
  | contextAllocation
  /-- The OWNER receives a command that its partner forwarded, with the HOSTID of its sender, its volume and the host data that the partner staged (R41, R346). -/
  | forwardedCommandReceived (hq : BitVec 16) (cid : BitVec 16) (host : BitVec 128) (cmd : FwdCmd)
  /-- The OWNER's result of a forwarded command arrives, after the data that it returned for the host, each piece with its offset in the SGL (R41). -/
  | forwardedResultReceived (hq : BitVec 16) (cid : BitVec 16) (st : BitVec 16) (res : FwdResult)
  /-- The governor decides (R42). -/
  | governorDecision (kind : BitVec 8) (object : BitVec 32) (new : BitVec 32)
  /-- The scheduler admits one context (R52); the operand names the logic die that has already admitted one in this CORE cycle. -/
  | contextAdmission (used : Option Bool)
  /-- The page-in of a context ends (R48). -/
  | pageInComplete (ctx : Nat)
  /-- The class deficit of a sequencer is spent (R53). -/
  | quantumExpired (seq : BitVec 8)
  /-- The data of the load or atomic that a context waits for returns (R54). -/
  | memoryLoadReturn (ctx : Nat)
  /-- The controller performs the store in an entry of the store buffer of a context (R54). -/
  | storePerformed (ctx : Nat) (idx : Nat)
  /-- The wake time of a parked context is reached (R50). -/
  | parkWake (ctx : Nat)
  /-- An instruction of the RUNNING context would exceed its budget (R81); the operand is the instruction word. -/
  | budgetExhausted (seq : BitVec 8) (word : BitVec 32)
  /-- No ticket of a FAULTED context is PENDING any more (R75). -/
  | faultDrainDone (ctx : Nat)
  /-- A ticket has been PENDING longer than TKAGE (R82). -/
  | ticketAgeExpiry (owner : Agent) (t : BitVec 4)
  /-- A sequencer with a READY context has retired nothing for 16,777,216 FLOW cycles (R83). -/
  | sequencerHang (seq : BitVec 8)
  /-- ADD of R68, issued by a core. -/
  | add (core : Core) (rd : RegNo) (ra : RegNo) (rb : RegNo)
  /-- SUB of R68, issued by a core. -/
  | sub (core : Core) (rd : RegNo) (ra : RegNo) (rb : RegNo)
  /-- AND of R68, issued by a core. -/
  | and (core : Core) (rd : RegNo) (ra : RegNo) (rb : RegNo)
  /-- OR of R68, issued by a core. -/
  | or (core : Core) (rd : RegNo) (ra : RegNo) (rb : RegNo)
  /-- XOR of R68, issued by a core. -/
  | xor (core : Core) (rd : RegNo) (ra : RegNo) (rb : RegNo)
  /-- ANDN of R68, issued by a core. -/
  | andn (core : Core) (rd : RegNo) (ra : RegNo) (rb : RegNo)
  /-- SLL of R68, issued by a core. -/
  | sll (core : Core) (rd : RegNo) (ra : RegNo) (rb : RegNo)
  /-- SRL of R68, issued by a core. -/
  | srl (core : Core) (rd : RegNo) (ra : RegNo) (rb : RegNo)
  /-- SRA of R68, issued by a core. -/
  | sra (core : Core) (rd : RegNo) (ra : RegNo) (rb : RegNo)
  /-- SLT of R68, issued by a core. -/
  | slt (core : Core) (rd : RegNo) (ra : RegNo) (rb : RegNo)
  /-- SLTU of R68, issued by a core. -/
  | sltu (core : Core) (rd : RegNo) (ra : RegNo) (rb : RegNo)
  /-- MIN of R68, issued by a core. -/
  | min (core : Core) (rd : RegNo) (ra : RegNo) (rb : RegNo)
  /-- MAX of R68, issued by a core. -/
  | max (core : Core) (rd : RegNo) (ra : RegNo) (rb : RegNo)
  /-- MINU of R68, issued by a core. -/
  | minu (core : Core) (rd : RegNo) (ra : RegNo) (rb : RegNo)
  /-- MAXU of R68, issued by a core. -/
  | maxu (core : Core) (rd : RegNo) (ra : RegNo) (rb : RegNo)
  /-- MUL of R68, issued by a core. -/
  | mul (core : Core) (rd : RegNo) (ra : RegNo) (rb : RegNo)
  /-- MULHU of R68, issued by a core. -/
  | mulhu (core : Core) (rd : RegNo) (ra : RegNo) (rb : RegNo)
  /-- DIVU of R68, issued by a core. -/
  | divu (core : Core) (rd : RegNo) (ra : RegNo) (rb : RegNo)
  /-- REMU of R68, issued by a core. -/
  | remu (core : Core) (rd : RegNo) (ra : RegNo) (rb : RegNo)
  /-- CLZ of R68, issued by a core. -/
  | clz (core : Core) (rd : RegNo) (ra : RegNo) (rb : RegNo)
  /-- CTZ of R68, issued by a core. -/
  | ctz (core : Core) (rd : RegNo) (ra : RegNo) (rb : RegNo)
  /-- POPC of R68, issued by a core. -/
  | popc (core : Core) (rd : RegNo) (ra : RegNo) (rb : RegNo)
  /-- BSWAP of R68, issued by a core. -/
  | bswap (core : Core) (rd : RegNo) (ra : RegNo) (rb : RegNo)
  /-- ADDI of R69. -/
  | addi (core : Core) (rd : RegNo) (ra : RegNo) (imm : Imm)
  /-- ANDI of R69. -/
  | andi (core : Core) (rd : RegNo) (ra : RegNo) (imm : Imm)
  /-- ORI of R69. -/
  | ori (core : Core) (rd : RegNo) (ra : RegNo) (imm : Imm)
  /-- XORI of R69. -/
  | xori (core : Core) (rd : RegNo) (ra : RegNo) (imm : Imm)
  /-- SLTI of R69. -/
  | slti (core : Core) (rd : RegNo) (ra : RegNo) (imm : Imm)
  /-- SLTIU of R69. -/
  | sltiu (core : Core) (rd : RegNo) (ra : RegNo) (imm : Imm)
  /-- SLLI of R69, with its whole immediate field. -/
  | slli (core : Core) (rd : RegNo) (ra : RegNo) (imm : BitVec 16)
  /-- SRLI of R69, with its whole immediate field. -/
  | srli (core : Core) (rd : RegNo) (ra : RegNo) (imm : BitVec 16)
  /-- SRAI of R69, with its whole immediate field. -/
  | srai (core : Core) (rd : RegNo) (ra : RegNo) (imm : BitVec 16)
  /-- LUI of R69, with its whole ra field. -/
  | lui (core : Core) (rd : RegNo) (ra : RegNo) (imm : Imm)
  /-- LD of R70. -/
  | ld (core : Core) (rd : RegNo) (ra : RegNo) (imm : Imm)
  /-- LW of R70. -/
  | lw (core : Core) (rd : RegNo) (ra : RegNo) (imm : Imm)
  /-- LWS of R70. -/
  | lws (core : Core) (rd : RegNo) (ra : RegNo) (imm : Imm)
  /-- LH of R70. -/
  | lh (core : Core) (rd : RegNo) (ra : RegNo) (imm : Imm)
  /-- LB of R70. -/
  | lb (core : Core) (rd : RegNo) (ra : RegNo) (imm : Imm)
  /-- SD of R70; rd names the register stored. -/
  | sd (core : Core) (rd : RegNo) (ra : RegNo) (imm : Imm)
  /-- SW of R70; rd names the register stored. -/
  | sw (core : Core) (rd : RegNo) (ra : RegNo) (imm : Imm)
  /-- SH of R70; rd names the register stored. -/
  | sh (core : Core) (rd : RegNo) (ra : RegNo) (imm : Imm)
  /-- SB of R70; rd names the register stored. -/
  | sb (core : Core) (rd : RegNo) (ra : RegNo) (imm : Imm)
  /-- AMOADD of R71. -/
  | amoadd (core : Core) (rd : RegNo) (ra : RegNo) (rb : RegNo)
  /-- AMOSWAP of R71. -/
  | amoswap (core : Core) (rd : RegNo) (ra : RegNo) (rb : RegNo)
  /-- AMOCAS of R71. -/
  | amocas (core : Core) (rd : RegNo) (ra : RegNo) (rb : RegNo)
  /-- AMOAND of R71. -/
  | amoand (core : Core) (rd : RegNo) (ra : RegNo) (rb : RegNo)
  /-- AMOOR of R71. -/
  | amoor (core : Core) (rd : RegNo) (ra : RegNo) (rb : RegNo)
  /-- AMOMAXU of R71. -/
  | amomaxu (core : Core) (rd : RegNo) (ra : RegNo) (rb : RegNo)
  /-- BEQ of R72. -/
  | beq (core : Core) (ra : RegNo) (rb : RegNo) (off : Imm)
  /-- BNE of R72. -/
  | bne (core : Core) (ra : RegNo) (rb : RegNo) (off : Imm)
  /-- BLT of R72. -/
  | blt (core : Core) (ra : RegNo) (rb : RegNo) (off : Imm)
  /-- BGE of R72. -/
  | bge (core : Core) (ra : RegNo) (rb : RegNo) (off : Imm)
  /-- BLTU of R72. -/
  | bltu (core : Core) (ra : RegNo) (rb : RegNo) (off : Imm)
  /-- BGEU of R72. -/
  | bgeu (core : Core) (ra : RegNo) (rb : RegNo) (off : Imm)
  /-- J of R72. -/
  | j (core : Core) (off : BitVec 26)
  /-- JAL of R72. -/
  | jal (core : Core) (off : BitVec 26)
  /-- JR of R72, with every field of its X format. -/
  | jr (core : Core) (rd : RegNo) (ra : RegNo) (aux : Byte)
  /-- JALR of R72, with every field of its X format. -/
  | jalr (core : Core) (rd : RegNo) (ra : RegNo) (aux : Byte)
  /-- END of R51, with every field of its X format. -/
  | endFlow (core : Core) (rd : RegNo) (ra : RegNo) (aux : Byte)
  /-- YIELD of R73, with every field of its X format. -/
  | yield (core : Core) (rd : RegNo) (ra : RegNo) (aux : Byte)
  /-- PARK of R50, with every field of its X format. -/
  | park (core : Core) (rd : RegNo) (ra : RegNo) (aux : Byte)
  /-- CTXID of R73, with every field of its X format. -/
  | ctxid (core : Core) (rd : RegNo) (ra : RegNo) (aux : Byte)
  /-- SEQID of R73, with every field of its X format. -/
  | seqid (core : Core) (rd : RegNo) (ra : RegNo) (aux : Byte)
  /-- DTIME of R73, with every field of its X format. -/
  | dtime (core : Core) (rd : RegNo) (ra : RegNo) (aux : Byte)
  /-- FENCE of R60, with every field of its X format. -/
  | fence (core : Core) (rd : RegNo) (ra : RegNo) (aux : Byte)
  /-- FENCE_L of R60, with every field of its X format. -/
  | fenceL (core : Core) (rd : RegNo) (ra : RegNo) (aux : Byte)
  /-- FENCE_S of R60, with every field of its X format. -/
  | fenceS (core : Core) (rd : RegNo) (ra : RegNo) (aux : Byte)
  /-- ICINV of R64, with every field of its X format. -/
  | icinv (core : Core) (rd : RegNo) (ra : RegNo) (aux : Byte)
  /-- DLD of R73, with every field of its X format. -/
  | dld (core : Core) (rd : RegNo) (ra : RegNo) (aux : Byte)
  /-- DST of R73, with every field of its X format. -/
  | dst (core : Core) (rd : RegNo) (ra : RegNo) (aux : Byte)
  /-- DCLR of R73, with every field of its X format. -/
  | dclr (core : Core) (rd : RegNo) (ra : RegNo) (aux : Byte)
  /-- MFS of R76, with every field of its X format. -/
  | mfs (core : Core) (rd : RegNo) (ra : RegNo) (aux : Byte)
  /-- MTS of R76, with every field of its X format. -/
  | mts (core : Core) (rd : RegNo) (ra : RegNo) (aux : Byte)
  /-- ERET of R77, with every field of its X format. -/
  | eret (core : Core) (rd : RegNo) (ra : RegNo) (aux : Byte)
  /-- TRAP of R77, with every field of its X format. -/
  | trap (core : Core) (rd : RegNo) (ra : RegNo) (aux : Byte)
  /-- A steward core takes an event (R531). -/
  | eventDelivery (k : BitVec 4)
  /-- SUBMIT of R90, with every field of its E format. -/
  | submit (core : Core) (t : BitVec 4) (d : BitVec 3) (cls : BitVec 6) (flags : BitVec 13)
  /-- WAIT of R94, with every field of its X format. -/
  | wait (core : Core) (rd : RegNo) (ra : RegNo) (aux : Byte)
  /-- POLL of R94, with every field of its X format. -/
  | poll (core : Core) (rd : RegNo) (ra : RegNo) (aux : Byte)
  /-- WAITANY of R94, with every field of its X format. -/
  | waitany (core : Core) (rd : RegNo) (ra : RegNo) (aux : Byte)
  /-- DROP of R94, with every field of its X format. -/
  | drop (core : Core) (rd : RegNo) (ra : RegNo) (aux : Byte)
  /-- The engine class of a submitted job accepts it, or queues it held (R93, R98, R102). -/
  | jobAccepted (job : Nat)
  /-- A held job whose predecessor has completed is released or skipped (R91). -/
  | heldJobRelease (job : Nat)
  /-- A job that has finished writes its result and makes its ticket READY (R62, R100). -/
  | jobComplete (job : Nat)
  /-- The deadline of a running job passes with a number of its units done (R99). -/
  | deadlineExpired (job : Nat) (units : Nat)
  /-- The data mover runs a COPY job (R105). -/
  | dmovCopy (job : Nat)
  /-- The data mover runs a COMPARE job (R105). -/
  | dmovCompare (job : Nat)
  /-- The data mover runs a FILL job (R105). -/
  | dmovFill (job : Nat)
  /-- A steward writes FSQ_CTL (R85). -/
  | fsqCtlWrite (v : Word)
  /-- A core writes FSQ_PSET_CTL (R117). -/
  | fsqPsetCtlWrite (v : Word)
  /-- A steward writes FSQ_BUNG_CTL (R113, R115, R120). -/
  | bungGo (v : Word)
  /-- The last old-epoch context has ended (R113). -/
  | bungDrainDone
  /-- A PREPARE of the partner is received, with the low 64 bits of the SHA-512 of its flow program set (R115). -/
  | bungPrepare (setId : Word)
  /-- An ACK of the partner is received (R115). -/
  | bungAck
  /-- A NAK of the partner is received (R115). -/
  | bungNak
  /-- A COMMIT of the partner is received (R115). -/
  | bungCommit
  /-- An ABORT of the partner is received (R115). -/
  | bungAbort
  /-- 1 ms has passed without an answer to PREPARE (R115). -/
  | bungPrepareTimeout
  /-- 100 µs have passed since COMMIT or ABORT was last sent (R115). -/
  | bungResendTimer
  /-- The map engine recounts MAPPED of a volume (R570). -/
  | volumeRecount (vol : BitVec 18)
  /-- A pipe runs a LOOKUP job (R152). -/
  | mapLookup (job : Nat)
  /-- A pipe runs an UPDATE job (R135, R152). -/
  | mapUpdate (job : Nat)
  /-- A pipe runs an SRTINC job (R133, R152). -/
  | srtinc (job : Nat)
  /-- A pipe runs an SRTDEC job (R132, R152). -/
  | srtdec (job : Nat)
  /-- A pipe runs a GENRES job (R136, R152). -/
  | genres (job : Nat)
  /-- A pipe runs a PREFETCH job (R152). -/
  | prefetch (job : Nat)
  /-- A map pipe runs a SNAP job with sub-operation CUT (R296, R299). -/
  | snapCut (job : Nat)
  /-- A map pipe runs a SNAP job with sub-operation DELETE (R301). -/
  | snapDelete (job : Nat)
  /-- A map pipe runs a SNAP job with sub-operation CLONE (R302). -/
  | snapClone (job : Nat)
  /-- A map pipe runs a SNAP job with sub-operation RELEASE (R301). -/
  | snapRelease (job : Nat)
  /-- A map pipe runs a DIFF job (R304). -/
  | diff (job : Nat)
  /-- A pipe runs a WBVOL job (R152). -/
  | wbvol (job : Nat)
  /-- The read of a metadata page completes; the operand gives what the positions of its home's frame answered for the block (R130, R141). -/
  | pageInstalled (page : Nat) (reads : List DriveAns)
  /-- The map engine starts to write a dirty page back (R140). -/
  | writebackStart (page : Nat)
  /-- A page reaches its new home, the slot to which its write-back goes (R138). -/
  | writebackHomed (page : Nat) (slot : Nat)
  /-- The clock of HBM, or of the DDR overflow area, evicts a frame (R139). -/
  | frameEvict (ddr : Bool)
  /-- A write of MC_CTL (R145 to R147). -/
  | mcCtlWrite (v : Word)
  /-- The last dirty line of a disable is clean (R147). -/
  | mcDisableDone
  /-- A write of MC_MAINT with GO and OP CLEAN (R148). -/
  | mcClean (v : Word)
  /-- A write of MC_MAINT with GO and OP INVALIDATE (R148, R149). -/
  | mcInvalidate (v : Word)
  /-- A write of MC_MAINT with GO and OP LOCKFILL (R149). -/
  | mcLockfill (v : Word)
  /-- The fill of a line, named by its address over 256, lands (R149). -/
  | mcFillLanded (line : Nat)
  /-- The maintenance operation has visited its last address (R150). -/
  | mcMaintDone
  /-- A grist unit runs an FP job (R162). -/
  | gristFp (job : Nat)
  /-- SEC takes grist unit 0 of L0 for a signature, or gives it back (R163). -/
  | secBorrow (take : Bool)
  /-- A write of GL_CTL (R164, R184). -/
  | glEnable (v : Word)
  /-- A bank runs a PROBE job (R166). -/
  | lauterProbe (job : Nat)
  /-- A bank runs an INSERT job (R167). -/
  | lauterInsert (job : Nat)
  /-- A bank runs a DELETE job (R168). -/
  | lauterDelete (job : Nat)
  /-- The build of a domain begins, reads its next page, or ends (R169). -/
  | filterBuild
  /-- The probe window of a volume ends (R170). -/
  | admissionWindowEnd (vol : BitVec 18)
  /-- A pipe runs a LOOKUP job; the operand is the slot with its trailer where the byte compare reads it from the drives (R175, R176). -/
  | fpxLookup (job : Nat) (read : Option (List Byte × List Byte))
  /-- A pipe runs an INSERT job (R181). -/
  | fpxInsert (job : Nat)
  /-- A pipe runs a REMOVE job (R181). -/
  | fpxRemove (job : Nat)
  /-- A pipe runs a CENSUS job (R182). -/
  | fpxCensus (job : Nat)
  /-- A pipe runs a SWEEP job (R181). -/
  | fpxSweep (job : Nat)
  /-- A pipe runs a RESET job (R181). -/
  | fpxReset (job : Nat)
  /-- The oldest queued insertion runs (R178). -/
  | fpInsertion
  /-- The oldest slot of the removal queue is handled; the operand is the slot with its trailer where it is read from the drives (R179). -/
  | fpRemoval (read : Option (List Byte × List Byte))
  /-- The coder runs a CODE job (R193 to R198). -/
  | compCode (job : Nat)
  /-- The decoder runs a DECODE job (R199). -/
  | decompDecode (job : Nat)
  /-- The trial of a volume has all its blocks (R204). -/
  | skipTrialEnd (vol : BitVec 18)
  /-- A steward writes SEC_KEYCMD with GO and OP GENERATE for a slot (R212). -/
  | keyGenerate (slot : BitVec 16)
  /-- A steward writes SEC_KEYCMD with GO and OP WRAP for a slot (R212). -/
  | keyWrap (slot : BitVec 16)
  /-- A steward writes SEC_KEYCMD with GO and OP LOAD for a slot (R212). -/
  | keyLoad (slot : BitVec 16)
  /-- A steward writes SEC_KEYCMD with GO and OP CLEAR for a slot (R213). -/
  | keyClear (slot : BitVec 16)
  /-- A steward writes SEC_KEYCMD with GO and OP ERASE for a slot (R213). -/
  | keyErase (slot : BitVec 16)
  /-- The jobs on the old key have ended and its derived keys are purged (R213). -/
  | keyPurgeDone
  /-- An engine runs an ENC job (R216, R219). -/
  | cipherEnc (job : Nat)
  /-- An engine runs a DEC job (R221). -/
  | cipherDec (job : Nat)
  /-- An engine runs an SENC job (R222). -/
  | cipherSenc (job : Nat)
  /-- An engine runs an SDEC job (R222). -/
  | cipherSdec (job : Nat)
  /-- The allocator runs a SLOT job (R242, R243). -/
  | allocSlot (job : Nat)
  /-- The allocator runs a FLUSH job (R243). -/
  | allocFlush (job : Nat)
  /-- The allocator runs a MOVE job (R243). -/
  | allocMove (job : Nat)
  /-- SEALUS have passed since the first slot of a tun (R244). -/
  | sealTimer (img : Nat)
  /-- The SEALING record of a tun is durable in both heads (R245). -/
  | tunSealingDurable (img : Nat)
  /-- The parity of a tun is done (R245). -/
  | tunParityDone (img : Nat)
  /-- Every strip write of a tun has completed (R245). -/
  | tunStripsWritten (img : Nat)
  /-- A strip write of a tun fails or is late (R258). -/
  | stripWriteFail (img : Nat) (pos : Nat)
  /-- The parity engine runs a GEN job (R247). -/
  | parityGen (job : Nat)
  /-- The parity engine runs a REC job (R247). -/
  | parityRec (job : Nat)
  /-- Drive I/O runs a SLOTRD job with what the positions of the frame answer for the slot's block (R249, R269). -/
  | slotrd (job : Nat) (reads : List DriveAns)
  /-- Drive I/O runs a BLKRD job with what the member answers for its blocks (R248). -/
  | blkrd (job : Nat) (reads : List DriveAns)
  /-- Drive I/O runs a BLKWR job with the member's answer (R248). -/
  | blkwr (job : Nat) (ans : DriveAns)
  /-- Drive I/O runs a SLOTREC job with what the positions of the frame answer for the slot's block (R270). -/
  | slotrec (job : Nat) (reads : List DriveAns)
  /-- Drive I/O passes a command to a drive namespace, which answers with its status, dword 0 and data, or not in time (R358). -/
  | drvioPass (job : Nat) (ans : Option (BitVec 15 × BitVec 32 × List Byte))
  /-- The journal engine runs an APPEND job (R252). -/
  | jrnlAppend (job : Nat)
  /-- The journal engine runs a MARK job (R252). -/
  | jrnlMark (job : Nat)
  /-- The writes of the lowest record not yet DONE are complete in both places (R253). -/
  | jrnlRecordDone
  /-- Retirement has freed ring room, and a held APPEND proceeds (R257). -/
  | appendUnblocked (job : Nat)
  /-- A record of the partner arrives, and whether its tag verified (R223, R254). -/
  | mirrorRecordReceived (r : Rec) (good : Bool)
  /-- The oldest record of the own ring, or of the mirror, retires (R255). -/
  | recordRetire (mirror : Bool)
  /-- The own ring or the mirror is replayed with the records read from it (R256). -/
  | journalReplay (mirror : Bool) (recs : List Rec)
  /-- The governor looks for a segment to move in a pool (R259). -/
  | leesSelect (pool : BitVec 3)
  /-- The allocator moves the slots of a segment with the blocks read for them (R260). -/
  | segmentMove (pool : BitVec 3) (seg : BitVec 26) (reads : List (Nat × DriveAns))
  /-- A steward writes PLC_PTCMD with GO for a pool (R238). -/
  | placementLoad (pool : BitVec 3)
  /-- A steward writes the register of a member (R266, R280). -/
  | memberStateWrite (pool : BitVec 3) (member : Byte) (v : Word)
  /-- The link of a root port has stayed down for 100 ms (R267). -/
  | linkRetrainTimeout (port : Byte)
  /-- A member reports CSTS.CFS or is not ready in time (R267). -/
  | controllerFatal (pool : BitVec 3) (member : Byte)
  /-- A command to a member exceeds its timeout (R267). -/
  | memberCommandTimeout (pool : BitVec 3) (member : Byte)
  /-- A member has returned MEDIA (R267). -/
  | mediaResult (pool : BitVec 3) (member : Byte)
  /-- The SMART critical warning of a member is read (R267). -/
  | smartPoll (pool : BitVec 3) (member : Byte) (warning : Byte)
  /-- A read of a SLOW member has waited WAITUS (R271). -/
  | readAroundStart (job : Nat)
  /-- The governor takes the mean latency of a member in µs (R271). -/
  | slowMark (pool : BitVec 3) (member : Byte) (mean : Nat)
  /-- The rebuild sequencer scans the frames of a pool (R277). -/
  | rebuildScan (pool : BitVec 3)
  /-- The first position of a pool's scan is rebuilt with what the frame's positions answer for each block (R278). -/
  | rebuildPosition (pool : BitVec 3) (rows : List (List DriveAns))
  /-- The next position is copied back onto a member with what the frame's positions answer for each block (R280). -/
  | copybackStrip (pool : BitVec 3) (member : Byte) (rows : List (List DriveAns))
  /-- The next queued lost slot is resolved, or the partner reports a volume, first LBA and length that it resolved (R273). -/
  | lostSlotResolve (theirs : Option (Nat × Nat × Nat))
  /-- The next sealed frame is checked with what its positions answer for each block, and with the volume, LBA and GEN that the steward jobs of the DEEP check name for its slots (R281). -/
  | spargeVisit (pool : BitVec 3) (rows : List (List DriveAns)) (deep : List (Nat × Nat × Nat × Nat))
  /-- A steward writes PLC_RKCTL with GO for a pool (R284). -/
  | rackingGo (pool : BitVec 3)
  /-- The racker goes on with the lowest old band; the operand says that the partner has reported it FREE (R285). -/
  | bandDrain (pool : BitVec 3) (theirs : Bool)
  /-- No old band remains (R286). -/
  | rackingSwitchover (pool : BitVec 3)
  /-- The map engine reaches the SEQ of a cut record (R296). -/
  | cutApply
  /-- The last pinned page of a snapshot's cut is homed (R297). -/
  | snapshotReady (snap : BitVec 24)
  /-- The delete walk visits its next page (R301). -/
  | deleteWalk
  /-- READY arrives with the partner's list of volumes and snapshots (R299). -/
  | pairCutReady (cgid : BitVec 32) (ents : List (Nat × Nat))
  /-- GO arrives (R299). -/
  | pairCutGo (cgid : BitVec 32)
  /-- CUT arrives (R299). -/
  | pairCutCut (cgid : BitVec 32)
  /-- ABORT arrives (R299). -/
  | pairCutAbort (cgid : BitVec 32)
  /-- PREPUS passes at head A (R299). -/
  | pairCutTimeout
  /-- A steward writes TA_STRCMD (R319). -/
  | streamCycleGo (v : Word)
  /-- A stream context of a stream starts where one is due, or a running one reports that it could not deliver a message (R307, R308). -/
  | streamContextStart (stream : BitVec 12) (broken : Option Byte)
  /-- An OFFER arrives at the receiver (R312). -/
  | offer (h : StrHdr) (ents : List StrEnt)
  /-- A DATA arrives at the receiver, whose flow has stored the blocks it carries in the slots of the operand, with the generations it reserved (R312, R314). -/
  | data (h : StrHdr) (ents : List StrEnt) (words : List (Nat × Nat))
  /-- A MARK arrives at the receiver (R315). -/
  | mark (h : StrHdr)
  /-- A held message has waited HOLDMS (R314). -/
  | streamHoldTimeout (stream : BitVec 12) (seq : Word)
  /-- The sender of a stream changes (R309, R316). -/
  | streamEpochRaise (stream : BitVec 12)
  /-- The partner's message with a stream's new epoch arrives (R309). -/
  | streamEpochMessage (stream : BitVec 12) (epoch : BitVec 32) (oldlast : Word)
  /-- A Fabrics Connect arrives on a new connection (R321). -/
  | connect (a : ConnArgs)
  /-- A Property Set arrives on an admin queue; admin queues have the indices from 65,536 on (R333, R338). -/
  | propertySet (hq : BitVec 17) (cid : BitVec 16) (off : BitVec 16) (v : Word)
  /-- A Property Get arrives (R338). -/
  | propertyGet (hq : BitVec 17) (cid : BitVec 16) (off : BitVec 16)
  /-- A Fabrics Disconnect arrives (R333). -/
  | disconnect (hq : BitVec 17) (cid : BitVec 16)
  /-- A queue-fatal event happens on a queue (R333). -/
  | queueFreeze (hq : BitVec 17)
  /-- The Keep Alive timer of a controller expires (R329). -/
  | katoExpiry (cntlid : BitVec 16)
  /-- A Flush arrives on an I/O queue (R334). -/
  | flush (hq : BitVec 16) (sqe : List Byte)
  /-- A Get Log Page arrives; the last operand gives the partner's counters for the SMART page (R342, R344). -/
  | getLogPage (hq : BitVec 17) (cid : BitVec 16) (lid : Byte) (rae : Bool) (rgo : Bool) (sqe : List Byte) (peer : List Nat)
  /-- An Identify arrives (R324, R339). -/
  | identify (hq : BitVec 17) (cid : BitVec 16) (cns : Byte) (nsid : BitVec 32)
  /-- An Abort arrives (R335). -/
  | abort (hq : BitVec 17) (cid : BitVec 16)
  /-- A Set Features arrives (R341). -/
  | setFeatures (hq : BitVec 17) (cid : BitVec 16) (fid : Byte) (sv : Bool) (dw11 : BitVec 32) (nsid : BitVec 32)
  /-- A Get Features arrives (R341). -/
  | getFeatures (hq : BitVec 17) (cid : BitVec 16) (fid : Byte) (sel : Byte) (dw11 : BitVec 32) (nsid : BitVec 32)
  /-- An Asynchronous Event Request arrives (R338). -/
  | asyncEventRequest (hq : BitVec 17) (cid : BitVec 16)
  /-- A Keep Alive command arrives (R329). -/
  | keepAlive (hq : BitVec 17) (cid : BitVec 16)
  /-- A Namespace Management command arrives (R340). -/
  | namespaceManagement (hq : BitVec 17) (sqe : List Byte)
  /-- A Namespace Attachment arrives, or the steward serves it with the ring entry, the host NQNs, the NSID and the direction (R323, R340). -/
  | namespaceAttachment (hq : BitVec 17) (sqe : List Byte) (serve : Option (Nat × List (List Byte) × Nat × Bool))
  /-- A Format NVM arrives, or the steward serves it (R354). -/
  | formatNvm (hq : BitVec 17) (sqe : List Byte) (serve : Option FormatArgs)
  /-- A Sanitize arrives, or the steward takes a step of one (R355). -/
  | sanitize (hq : BitVec 17) (sqe : List Byte) (step : Option SanStep)
  /-- A reservation command arrives, or the steward serves it (R345). -/
  | reservationCommand (hq : BitVec 16) (sqe : List Byte) (serve : Option ResvArgs)
  /-- A steward writes HFE_SVCCMP (R340). -/
  | serviceCompletion (v : Word)
  /-- A steward writes HFE_DISC (R328). -/
  | discoveryGenctrWrite (v : Word)
  /-- A held command passes HOLDMS (R351). -/
  | anaHoldTimeout (hq : BitVec 16) (cid : BitVec 16)
  /-- The ANA state of a group has changed or settled (R351, R352). -/
  | anaStateChange (g : BitVec 10)
  /-- The host engine runs an OK job (R347). -/
  | hostOk (job : Nat)
  /-- The host engine runs an ERR job (R349). -/
  | hostErr (job : Nat)
  /-- The host engine runs a BADLEN job (R347). -/
  | hostBadlen (job : Nat)
  /-- The host engine runs a PIGEN job (R347). -/
  | hostPigen (job : Nat)
  /-- The host engine runs a STATUS job (R347). -/
  | hostStatus (job : Nat)
  /-- 50 ms of DRAIN have passed (R337). -/
  | drainTimeout
  /-- A connection request arrives over QP1 (R364, R571). -/
  | cmReq (a : CmReq)
  /-- An RTU arrives for a queue pair (R366). -/
  | cmRtu (qp : BitVec 17)
  /-- A DREQ arrives for a queue pair (R367). -/
  | cmDreq (qp : BitVec 17)
  /-- A TCP connection request arrives (R571). -/
  | tcpConnect
  /-- A TCP PDU arrives on a queue (R333, R383). -/
  | tcpPduReceived (hq : BitVec 17) (p : TcpPdu)
  /-- A SEND packet arrives (R375). -/
  | rdmaSendReceived (h : Bth) (data : List Byte)
  /-- A packet of an RDMA WRITE arrives; address, key and length count on its first or only packet (R372, R375). -/
  | rdmaWriteRequest (h : Bth) (va : Word) (rkey : BitVec 32) (len : BitVec 32) (data : List Byte)
  /-- An RDMA READ request arrives (R372, R375). -/
  | rdmaReadRequest (h : Bth) (va : Word) (rkey : BitVec 32) (len : BitVec 32)
  /-- An acknowledgement arrives, or a READ response packet with its data (R376). -/
  | rdmaAckReceived (h : Bth) (data : List Byte)
  /-- A NAK arrives with its syndrome as IBTA numbers it (R367, R376). -/
  | rdmaNakReceived (h : Bth) (syn : Byte)
  /-- A CNP arrives (R378). -/
  | cnpReceived (h : Bth)
  /-- ACKTO expires on a queue pair (R376). -/
  | rdmaAckTimeout (qp : BitVec 17)
  /-- The timer of an RNR NAK ends (R376). -/
  | rnrTimer (qp : BitVec 17)
  /-- The rate step timer of a queue pair expires (R378). -/
  | ccTimer (qp : BitVec 17)
  /-- QUIET has passed since a queue pair went to RESET (R366). -/
  | qpQuietExpiry (qp : BitVec 17)
  /-- A steward writes RXE_QPCMD with OP 1 (R369). -/
  | qpCreate (v : Word)
  /-- A steward writes RXE_QPCMD with OP 2 (R369). -/
  | qpModify (v : Word)
  /-- A steward writes RXE_QPCMD with OP 3 (R369). -/
  | qpQuery (v : Word)
  /-- A steward writes RXE_QPCMD with OP 4 (R369). -/
  | qpDestroy (v : Word)
  /-- The RDMA engine runs a READ job, with the transfer tag of the R2T that it may send (R326, R381, R383). -/
  | rdmaRead (job : Nat) (ttag : BitVec 16)
  /-- The RDMA engine runs a WRITE job (R381). -/
  | rdmaWrite (job : Nat)
  /-- The RDMA engine runs a CMD job (R381). -/
  | rdmaCmd (job : Nat)
  /-- A steward writes RXE_WINCMD with OP 1 (R370, R387). -/
  | windowRegister (v : Word)
  /-- A steward writes RXE_WINCMD with OP 2 (R374). -/
  | windowRevoke (v : Word)
  /-- A steward writes RXE_WINCMD with OP 3 (R387). -/
  | windowQuery (v : Word)
  /-- No request from before the fence of a window remains (R374). -/
  | revokeDrainDone (win : BitVec 16)
  /-- A frame arrives at an Ethernet MAC behind a port, as the cells it makes (R396). -/
  | ethernetFrameReceived (port : BitVec 7) (pfc : Bool) (prio : BitVec 3) (cells : List (List Byte))
  /-- The central scheduler has a parity error (R400). -/
  | schedulerParityError
  /-- A cell of a transfer inside the device passes a port, at admission or at departure, with its first 64 bytes, its wait in ns and the cells queued for its output (R405). -/
  | tapCapture (dep : Bool) (inp : BitVec 7) (outp : BitVec 7) (bytes : List Byte) (wait : BitVec 32) (queued : Nat)
  /-- A CELL frame arrives on a cell link (R409). -/
  | cellFrame (link : Fin 3) (f : LinkFrame)
  /-- A RETRY frame arrives on a cell link (R410). -/
  | retryFrame (link : Fin 3) (f : LinkFrame)
  /-- An IDLE frame arrives on a cell link (R409). -/
  | idleFrame (link : Fin 3) (f : LinkFrame)
  /-- The receiver examines a position for the mark, of which a number of bits differ (R408). -/
  | syncMark (link : Fin 3) (diff : BitVec 7)
  /-- ACKSEQ has not advanced for RTMO (R410). -/
  | replayTimeout (link : Fin 3)
  /-- The expected frame has not arrived within RTMO of a RETRY (R409). -/
  | retryResendTimeout (link : Fin 3)
  /-- A steward writes GANG_LNK CTL (R412, R414). -/
  | cellLinkEnable (link : Fin 3) (v : Word)
  /-- PMA and FEC lock on all lanes of a link (R412). -/
  | cellLinkTrained (link : Fin 3)
  /-- Lock or FEC lock has stayed lost for LINKTMO, with the chips that can still be reached (R412). -/
  | cellLinkDown (link : Fin 3) (reach : BitVec 4)
  /-- A heartbeat arrives on a P port (R421). -/
  | heartbeat (port : BitVec 7) (bytes : List Byte)
  /-- 8 µs have passed since the last heartbeats were sent (R421). -/
  | heartbeatSend
  /-- A heartbeat period ends (R421, R429). -/
  | heartbeatPeriodEnd
  /-- 20 µs have passed without an edge on PARTNER_HEALTH_IN (R429). -/
  | healthTimeout
  /-- The arbiter answers an Acquire with success or with Reservation Conflict (R430). -/
  | arbiterAnswer (won : Bool)
  /-- ARBMS passes without an answer of the arbiter (R430). -/
  | arbiterRetry
  /-- FENCE_IN_N is asserted (R431). -/
  | fenceIn
  /-- The survivor takes over (R432). -/
  | takeover
  /-- A load of a steward core through the partner window has had no answer for 100 µs (R26). -/
  | partnerReadTimeout (k : BitVec 4) (addr : Word)
  /-- A slot reference change of the partner arrives (R425). -/
  | slotRefMessage (slot : BitVec 48) (entry : Word)
  /-- The survivor starts SYNC, or the returning head takes what the survivor sent (R435). -/
  | syncStart (copy : Option SyncCopy)
  /-- The apply lag is within LAGMAX (R435). -/
  | syncComplete
  /-- 10 s of SYNC have passed without a heartbeat of the partner (R435). -/
  | syncPartnerTimeout
  /-- The head has been ACTIVE for SETTLE seconds (R436). -/
  | failbackSettle
  /-- A handover of a group begins, from this head or, where the operand says so, by the partner's message (R437). -/
  | handoverStart (g : BitVec 10) (theirs : Bool)
  /-- The flows of a GIVING group have ended, or 1 ms has passed (R437). -/
  | handoverWaitExpiry (g : BitVec 10)
  /-- A steward writes XE_PLINK_NEXT (R422). -/
  | rekeyGo (v : Word)
  /-- REKEY arrives (R422). -/
  | rekey (epoch : BitVec 32) (en : Bool)
  /-- ACK arrives (R422). -/
  | rekeyAck
  /-- NAK arrives, or 1 ms has passed without an answer (R422). -/
  | rekeyNak
  /-- SWITCH arrives on a PARTNER queue pair, or every record sent on the queue pairs has been acknowledged and SWITCH is sent (R422). -/
  | rekeySwitch (qp : Option (BitVec 17))
  /-- The PFAIL inputs change; true is asserted (R451). -/
  | pfailInput (a : Bool) (b : Bool)
  /-- The power-fail sequence starts, or reaches a step (R452, R453). -/
  | powerFailStart (step : BitVec 3)
  /-- The PFAIL input of a present supply has been deasserted for 10 ms (R454). -/
  | powerReturn
  /-- A vault drive fails a write or does not answer within 100 ms (R464). -/
  | vaultDriveTimeout (d : BitVec 2)
  /-- 50 µs have passed since the last step of the AVS target; the operand says whether the regulator acknowledges the step now sent (R450). -/
  | avsStep (acked : Bool)
  /-- 1 ms has passed without an acknowledgement of a step (R450). -/
  | avsAckTimeout
  /-- A region's voltage falls below the droop threshold (R465). -/
  | droopTrip (n : BitVec 5)
  /-- A region's voltage has been above the threshold for HOLD (R465). -/
  | droopRelease (n : BitVec 5)
  /-- PERIODUS has passed (R467). -/
  | sensorConversion
  /-- A sensor converts to 1/16 °C, or has not converted within 100 µs (R467 to R474). -/
  | sensorResult (n : BitVec 5) (raw : Option (BitVec 16))
  /-- RST_N has been asserted for 1 µs (R484, R493). -/
  | rstN
  /-- The asserted head reset runs (R486). -/
  | headReset
  /-- VDD_AON rises above 0.70 V (R483, R559). -/
  | coldPowerOn
  /-- VDD_CORE has been below 0.60 V for 1 µs (R484). -/
  | coreBrownOut
  /-- An uncorrectable error in the flow store, volume table, key store or a CSR (R484). -/
  | memoryEcc
  /-- An uncorrectable cell error (R393). -/
  | switchEcc
  /-- REFCLK_A, or B where the operand says so, shows no edge for 200 ns (R561). -/
  | refclkLoss (b : Bool)
  /-- Both references have been lost for 10 µs (R561). -/
  | clockLoss
  /-- PWRGOOD changes (R559). -/
  | pwrgoodChange (up : Bool)
  /-- A step of the boot (R495). -/
  | boot (b : BootStep)
  /-- A steward writes SYS_CORE (R80). -/
  | coreRelease (v : Word)
  /-- A steward writes SYS_SWDT (R503). -/
  | swdtWrite (v : Word)
  /-- A watchdog period has passed without a kick (R503). -/
  | swdtExpiry
  /-- A steward writes SYS_RSTCMD (R504). -/
  | resetRequest (v : Word)
  /-- A steward writes SYS_CKPT, or the write in progress ends, with the vault drives that failed (R501). -/
  | checkpointGo (v : Option Word) (failed : BitVec 4)
  /-- A steward writes PWR_PSTATE with REQ 1, or the handovers and the drain of a request have ended (R490). -/
  | standbyRequest (v : Option Word)
  /-- 100 ms have passed since a STANDBY or PARK request began its drain (R490, R492). -/
  | standbyDrainTimeout
  /-- A steward writes PWR_PSTATE with REQ 0 (R491). -/
  | standbyExit (v : Word)
  /-- A steward writes PWR_PSTATE with REQ 2, or the handovers and the drain have ended (R492). -/
  | parkRequest (v : Option Word)
  /-- A wake reaches a head in PARK (R493, R494). -/
  | parkWakeRequest
  /-- Every valid sensor has read below THROT for 10 s after an orderly stop (R493). -/
  | autowakeTimer
  /-- A steward writes UPD_CMD with OP 1; the operand says that every write to xSPI and the vault succeeds (R514). -/
  | stage (v : Word) (writes : Bool)
  /-- A steward writes UPD_CMD with OP 2 (R523). -/
  | arm (v : Word)
  /-- A steward writes UPD_CMD with OP 3 (R523). -/
  | disarm (v : Word)
  /-- A steward writes UPD_CMD with OP 4 (R518). -/
  | commit (v : Word)
  /-- A steward writes UPD_CMD with OP 5 (R509). -/
  | enroll (v : Word)
  /-- A steward writes UPD_CMD with OP 6 (R509). -/
  | seal (v : Word)
  /-- A steward writes UPD_CMD with OP 7 (R509). -/
  | ukexp (v : Word)
  /-- DTIME has reached TIME, or a heartbeat later the conditions are checked again (R523). -/
  | activationTime
  /-- WAITS seconds have passed since TIME (R523). -/
  | activationWaitExpiry
  /-- The partner announces the start of its activation (R523). -/
  | activationAnnounce (time : Word)
  /-- Every record of the own ring has retired during a DRAIN for activation (R522). -/
  | ringDrained
  /-- DRAINMS has passed (R522). -/
  | ringDrainTimeout
  /-- A steward writes SEC_ATTCMD (R526). -/
  | attestQuote (v : Word)
  /-- A steward writes CEL_EVRAISE (R529). -/
  | celEvraiseWrite (v : Word)
  /-- A steward reads CEL_EVQn_POP (R531). -/
  | eventPop (q : BitVec 4)
  /-- The log takes the next record of its input queue (R534). -/
  | cellarRecord
  /-- A steward reads CEL_WIN0 (R535). -/
  | celWin0Read
  /-- A steward reads CEL_WIN3 (R535). -/
  | celWin3Read
  /-- A steward writes CEL_SWREC3 (R535). -/
  | stewardRecordSubmit (v : Word)
  /-- A flush is requested for a reason (R536). -/
  | cellarFlush (reason : BitVec 3)
  /-- The running flush ends; the operand marks the vault drives that failed (R536). -/
  | cellarFlushDone (failed : BitVec 4)
  /-- A write of PMC_FREEZE (R542), by a steward or as the broadcast of chip 0. -/
  | pmcFreeze (v : Word) (gang : Bool)
  /-- A write of PMC_SNAP (R542), by a steward or as the broadcast of chip 0. -/
  | pmcSnap (v : Word) (gang : Bool)
  /-- A steward writes PMC_CNTn (R541). -/
  | pmcCounterWrite (n : BitVec 10) (v : Word)
  /-- An occurrence takes counter n past 2^48 − 1 (R541). -/
  | counterOverflow (n : BitVec 10)
  /-- The BMC reads ID (R544). -/
  | smbId
  /-- The BMC reads STATE (R544). -/
  | smbState
  /-- The BMC reads RESET (R544). -/
  | smbReset
  /-- The BMC reads ALERTS (R544). -/
  | smbAlerts
  /-- The BMC writes ALERTCLR (R544). -/
  | smbAlertclr (v : Byte)
  /-- The BMC reads HOTTEST (R544). -/
  | smbHottest
  /-- The BMC reads AVS (R544). -/
  | smbAvs
  /-- The BMC reads TEMPn (R544). -/
  | smbTemp (n : BitVec 5)
  /-- The BMC reads CELCNT (R544). -/
  | smbCelcnt
  /-- The BMC reads CELREC (R544). -/
  | smbCelrec
  /-- The BMC writes CELRST (R544). -/
  | smbCelrst (v : Byte)
  /-- The BMC reads CELLOST (R544). -/
  | smbCellost
  /-- The BMC sends the wake command (R493, R544). -/
  | smbWake
  /-- The SMBus target answers the Alert Response Address (R543). -/
  | alertResponseAddress
  /-- PPS_IN rises (R564). -/
  | ppsInEdge
  /-- DTIME reaches a whole second (R564). -/
  | ppsOutSecond
  /-- The TAP receives BYPASS (R563). -/
  | tapBypass
  /-- The TAP receives IDCODE (R563). -/
  | tapIdcode
  /-- The TAP receives SAMPLE/PRELOAD: the pins as they stand and the bits shifted in (R563). -/
  | tapSample (pins : List Bool) (pre : List Bool)
  /-- The TAP receives EXTEST (R563). -/
  | tapExtest
  /-- The TAP receives CLAMP (R563). -/
  | tapClamp
  /-- The TAP receives HIGHZ (R563). -/
  | tapHighz
  /-- RST_N is deasserted (R484). -/
  | rstNRelease
  /-- FENCE_IN_N is deasserted (R431). -/
  | fenceInRelease
  /-- VDD_AON falls below its operating range (R428, R456, R559). -/
  | vddAonLoss
  /-- REFCLK_A, or B where the operand says so, shows edges again (R561). -/
  | refclkReturn (b : Bool)
  /-- An edge arrives on PARTNER_HEALTH_IN (R428). -/
  | partnerHealthEdge
  /-- The link of a root port goes down (R267). -/
  | rootPortLinkDown (port : Byte)
  /-- The link of a root port retrains within 100 ms (R267). -/
  | rootPortLinkRetrained (port : Byte)
  /-- 100 µs pass with a pair cut message not confirmed (R299). -/
  | pairCutResendTimer
  /-- The partner confirms a pair cut message (R299). -/
  | pairCutConfirm
  /-- The partner confirms COMMIT or ABORT (R115). -/
  | bungConfirm
  /-- The three words at the pc, of which the first is no assigned instruction or the group is misused (R66, R67). -/
  | unassignedEncoding (core : Core) (w0 : BitVec 32) (w1 : BitVec 32) (w2 : BitVec 32)
  /-- A PTP message gives the time of the source; the operand says whether the module is locked with it (R443). -/
  | ptpMessage (time : Word) (locks : Bool)
  deriving DecidableEq, Repr

end Sys2Proof
end

