-- ==== Sys2Proof/Decode.lean ====
section
/-! DEFINITION. The commands that words of the opcode table spell. -/

namespace Sys2Proof

/-- The command that a word of `nbits` bits spells by the table's bits. The table gives no row any bits: the commands of this block are
events, messages, register accesses and job steps, and the table lists an instruction of a flow or a steward core by its mnemonic alone,
so no word spells one. (log 6, DESIGN CHOICE, safe) -/
def decodeTableWord (_nbits _w : Nat) : Option Instr := none

end Sys2Proof
end

