-- ==== Sys2Proof/Config.lean ====
section
/-! DEFINITION. What the spec leaves open: constants without a body. Nothing in Lean can evaluate one, so a statement about the
model holds whatever the hardware puts there. Each is applied to the counter `free` of the state, which the step that uses
it advances, or to the operands it depends on. -/

namespace Sys2Proof.Config

/-- A free 64-bit value: the value of a result, a register or a field that the spec leaves undefined. (log 2, DESIGN CHOICE, safe) -/
opaque freeWord : Nat → Word

/-- A free byte of memory: output that the spec leaves undefined (R99, R101). (log 2, DESIGN CHOICE, safe) -/
opaque freeByte : Nat → Byte

/-- The token stream that the coder makes of a block, with its length in bits (R192: the choice of tokens is the coder's own). (log 60, DESIGN CHOICE, safe) -/
opaque coder : Nat → List Byte → Nat × List Byte

/-- The bytes of the fused device root key (R210). (log 63, DESIGN CHOICE, safe) -/
opaque rootKeyByte : Nat → Byte

/-- The bytes of the boot ROM (R21). (log 23, DESIGN CHOICE, safe) -/
opaque bootRomByte : Nat → Byte

/-- The fused SHA-512 of Ovfin's public key (R508). (log 63, DESIGN CHOICE, safe) -/
opaque ovfinHashByte : Nat → Byte

/-- The manifest that the maker placed in bank A before delivery (R509 to R517). (log 139, DESIGN CHOICE, safe) -/
opaque makerManifest : List Byte

/-- The size in blocks of the namespace of each vault drive (R459, R516). (log 139, DESIGN CHOICE, safe) -/
opaque vaultNsze : Nat → Nat

/-- How many entries the pending fingerprint table and the removal queue hold (R164, R178, R179). (log 53, DESIGN CHOICE, safe) -/
opaque pendSize : Nat
@[inherit_doc pendSize] opaque removalSize : Nat

/-- How many cells an ingress queue of an Ethernet MAC holds (R396). (log 104, DESIGN CHOICE, safe) -/
opaque ingressCells : Nat

/-- The number of an engine or of a core among the blocks of its switch group, and the group and number of the memory block that holds an address
of HBM or of an internal store (R390 to R392). (log 184, DESIGN CHOICE, safe) -/
opaque blockNo (cls inst : Nat) : Nat
@[inherit_doc blockNo] opaque memGroup (addr : Nat) : Bool
@[inherit_doc blockNo] opaque memNo (addr : Nat) : Nat

/-- The hash that selects the port on which a block of a group receives (R391). (log 184, DESIGN CHOICE, safe) -/
opaque portHash (group block : Nat) : Nat

/-- Whether the block `dblk` behind a port is an Ethernet MAC (R390, R403). (log 191, DESIGN CHOICE, safe) -/
opaque macBlock (port dblk : Nat) : Bool

/-- How many jobs beyond one the queue of an engine instance holds, by class (R19). (log 149, DESIGN CHOICE, safe) -/
opaque instQueue : Nat → Nat

/-- The fused core voltage in mV, and the correction for the hottest reading of the logic dies in 1/16 °C (R450). (log 122, DESIGN CHOICE, safe) -/
opaque avsFused : Nat
@[inherit_doc avsFused] opaque avsCorrection : Int → Int

/-- Whether the namespace `nsid` of device `dev` behind root port `port` offers the NVMe LBA format that a pool member needs (R231). (log 169, DESIGN CHOICE, safe) -/
opaque driveFormat (port dev nsid : Nat) : Bool

end Sys2Proof.Config
end

