-- ==== Sys2Proof/Machine/KMap.lean ====
section
/-! DEFINITION. Sparse tables as sorted lists of keys and values: memory, registers, contexts, jobs and every other table of the
device is held in this one form, so that equal tables are equal lists. -/

namespace Sys2Proof.Machine

/-- A sparse table: keys with their values, keys strictly rising. -/
abbrev KMap (α : Type) := List (Nat × α)

/-- The value held for a key. -/
def kget {α : Type} : KMap α → Nat → Option α
  | [], _ => none
  | (k, v) :: m, i => if i = k then some v else kget m i

/-- Sets the value of a key, keeping the keys rising. -/
def kput {α : Type} : KMap α → Nat → α → KMap α
  | [], i, x => [(i, x)]
  | (k, v) :: m, i, x =>
    if i < k then (i, x) :: (k, v) :: m
    else if i = k then (i, x) :: m
    else (k, v) :: kput m i x

/-- Removes a key. -/
def kdel {α : Type} : KMap α → Nat → KMap α
  | [], _ => []
  | (k, v) :: m, i => if i = k then m else (k, v) :: kdel m i

/-- The value held for a key, or the value an unlisted key has. -/
def kgetD {α : Type} (m : KMap α) (i : Nat) (d : α) : α := (kget m i).getD d

/-- Sets the value of a key in a table whose unlisted keys have the value `d`: that value is never listed. -/
def kputD {α : Type} [DecidableEq α] (d : α) (m : KMap α) (i : Nat) (x : α) : KMap α :=
  if x = d then kdel m i else kput m i x

/-- Changes the value of a listed key. -/
def kmod {α : Type} (m : KMap α) (i : Nat) (f : α → α) : KMap α :=
  match kget m i with
  | some v => kput m i (f v)
  | none => m

/-- The keys are strictly rising from `lo` on. -/
def keysFrom {α : Type} : Nat → KMap α → Bool
  | _, [] => true
  | lo, (k, _) :: m => decide (lo ≤ k) && keysFrom (k + 1) m

/-- The canonical form of a table whose unlisted keys have the value `d`. -/
def canonical {α : Type} [DecidableEq α] (d : α) (m : KMap α) : Bool :=
  keysFrom 0 m && m.all fun kv => decide (kv.2 ≠ d)

/-- The first entry whose value passes a test. -/
def kfind {α : Type} (m : KMap α) (p : Nat → α → Bool) : Option (Nat × α) := m.find? fun kv => p kv.1 kv.2

/-- Changes every value. -/
def kmapV {α : Type} (m : KMap α) (f : Nat → α → α) : KMap α := m.map fun kv => (kv.1, f kv.1 kv.2)

/-- How many entries pass a test. -/
def kcount {α : Type} (m : KMap α) (p : Nat → α → Bool) : Nat := m.countP fun kv => p kv.1 kv.2

/-- The least number below `n` that is no key, if there is one. -/
def kfree {α : Type} (m : KMap α) (n : Nat) : Option Nat :=
  let k := m.foldl (fun c kv => if kv.1 = c then c + 1 else c) 0
  if k < n then some k else none

end Sys2Proof.Machine
end

