-- ==== Sys2Proof/Machine/Bits.lean ====
section
/-! DEFINITION. Bit fields, byte order (R8) and sign extension, in one place. -/

namespace Sys2Proof.Machine

/-- Bits `hi .. lo` of a number. -/
def bitsN (n hi lo : Nat) : Nat := (n / 2 ^ lo) % 2 ^ (hi + 1 - lo)

/-- Bits `hi .. lo` of a word, as a number. -/
def bits (w : Word) (hi lo : Nat) : Nat := bitsN w.toNat hi lo

/-- The ones in bits `hi .. lo`. -/
def maskW (hi lo : Nat) : Word := BitVec.ofNat 64 ((2 ^ (hi + 1 - lo) - 1) * 2 ^ lo)

/-- A word with bits `hi .. lo` replaced by a number (its low bits). -/
def setBits (w : Word) (hi lo v : Nat) : Word :=
  (w &&& ~~~(maskW hi lo)) ||| BitVec.ofNat 64 ((v % 2 ^ (hi + 1 - lo)) * 2 ^ lo)

/-- One bit of a word. -/
def bit (w : Word) (n : Nat) : Bool := w.getLsbD n

/-- One or zero. -/
def b2n (b : Bool) : Nat := if b then 1 else 0

/-- The number that bytes hold in ascending order, least significant first (R8). -/
def leNat : List Byte → Nat
  | [] => 0
  | b :: l => b.toNat + 256 * leNat l

/-- The low `n` bytes of a number, least significant first (R8). -/
def leBytes : Nat → Nat → List Byte
  | 0, _ => []
  | n + 1, v => BitVec.ofNat 8 v :: leBytes n (v / 256)

/-- The number that bytes hold, most significant first: the order of the fields that the NVMe, Ethernet and IP standards
define as big-endian (R8). -/
def beNat (l : List Byte) : Nat := leNat l.reverse

/-- The low `n` bytes of a number, most significant first. -/
def beBytes (n v : Nat) : List Byte := (leBytes n v).reverse

/-- A number of `n` bits, sign-extended to 64 bits. -/
def sextW (n v : Nat) : Word :=
  if v % 2 ^ n < 2 ^ (n - 1) then BitVec.ofNat 64 (v % 2 ^ n) else BitVec.ofInt 64 ((v % 2 ^ n : Int) - 2 ^ n)

/-- Bytes `lo .. lo + n - 1` of a descriptor, as a number. -/
def descN (d : Desc) (lo n : Nat) : Nat := (d.extractLsb' (8 * lo) (8 * n)).toNat

/-- Bytes `lo .. lo + n - 1` of a list, as a little-endian number. -/
def fieldN (l : List Byte) (lo n : Nat) : Nat := leNat ((l.drop lo).take n)

/-- A list of bytes with those from `lo` on replaced. -/
def putBytes (l : List Byte) (lo : Nat) (v : List Byte) : List Byte := l.take lo ++ v ++ l.drop (lo + v.length)

/-- Zero bytes. -/
def zeros (n : Nat) : List Byte := List.replicate n 0

/-- The numbers of the set bits of a mask below `n`, ascending. -/
def bitsSet (n : Nat) (m : Nat) : List Nat := (List.range n).filter fun i => m.testBit i

end Sys2Proof.Machine
end

