-- ==== Sys2Proof/Machine/Regs.lean ====
section
/-! DEFINITION. The register file of the device as the register tables of spec/ give it (R3 to R6, R85 to R89, R117 to R121, R156, R157,
R184, R185, R207, R208, R228 to R230, R263 to R265, R287 to R289, R318, R319, R359, R360, R385 to R389, R413 to R415,
R422, R444 to R447, R480 to R482, R505, R506, R527, R528, R545, R546, R565 to R567): every register's unit, offset, fields,
types (R9), reset values and keep classes (R15). A bit of a register that no field below covers is reserved (R11). -/

namespace Sys2Proof.Machine

/-- The register types of R9. -/
inductive CsrTy where
  | ro | rw | wo | w1c | w1s | rc
  deriving DecidableEq, Repr

/-- The keep classes of R15. -/
inductive Keep where
  | F | V | A | H | S
  deriving DecidableEq, Repr

/-- One field of a register: its bits, its type, its reset value and its keep class. -/
structure FieldDef where
  hi : Nat
  lo : Nat
  ty : CsrTy
  reset : Nat
  keep : Keep
  deriving DecidableEq, Repr

/-- One register, or an array of them with up to two indices: its unit, the offset of its first element, the number of
elements and their distance for each index, and its fields. -/
structure RegDef where
  unit : Nat
  off : Nat
  n1 : Nat
  s1 : Nat
  n2 : Nat
  s2 : Nat
  fields : List FieldDef
  deriving DecidableEq, Repr

/-- The names of the registers; an array of registers has one name and is indexed. -/
inductive RegName where
  /-- R3. -/
  | SYS_ID
  /-- R4. -/
  | SYS_CAP0
  /-- R5. -/
  | SYS_CAP1
  /-- R6. -/
  | SYS_CAP2
  /-- R85. -/
  | FSQ_CTL
  /-- R86. -/
  | FSQ_STAT
  /-- R87. -/
  | FSQ_WDT
  /-- R88. -/
  | FSQ_FLT0
  /-- R88. -/
  | FSQ_FLT1
  /-- R88. -/
  | FSQ_FLT2
  /-- R89. -/
  | FSQ_FWIN_BASE
  /-- R89. -/
  | FSQ_FWIN_LIM
  /-- R117. -/
  | FSQ_PSET_CTL
  /-- R118. -/
  | FSQ_ENTRY
  /-- R119. -/
  | FSQ_BIND
  /-- R120. -/
  | FSQ_BUNG_CTL
  /-- R121. -/
  | FSQ_BUNG_STAT
  /-- R156. -/
  | ME_CTL
  /-- R156. -/
  | ME_RSV
  /-- R156. -/
  | ME_FRAMES
  /-- R156. -/
  | ME_DDRPG
  /-- R156. -/
  | ME_FREE
  /-- R156. -/
  | ME_FAULT
  /-- R156. -/
  | ME_FAULT_CNT
  /-- R156. -/
  | ME_CKPT_SEQ
  /-- R156. -/
  | ME_LOST
  /-- R157. -/
  | MC_CTL
  /-- R157. -/
  | MC_STAT
  /-- R157. -/
  | MC_MAINT
  /-- R157. -/
  | MC_MAINT_BASE
  /-- R157. -/
  | MC_MAINT_LEN
  /-- R157. -/
  | MC_MAINT_SKIPPED
  /-- R157. -/
  | MC_MAINT_SKADDR
  /-- R184. -/
  | GL_CTL
  /-- R184. -/
  | GL_FCAP
  /-- R184. -/
  | GL_FSTAT
  /-- R184. -/
  | GL_BCMP
  /-- R184. -/
  | GL_ADMIT
  /-- R184. -/
  | GL_BUILD
  /-- R185. -/
  | GL_PROBE_CNT
  /-- R185. -/
  | GL_MAYBE_CNT
  /-- R185. -/
  | GL_FALSE_CNT
  /-- R185. -/
  | GL_EVICT_CNT
  /-- R185. -/
  | GL_DUPINS_CNT
  /-- R185. -/
  | GL_IXFULL_CNT
  /-- R185. -/
  | GL_COLL_CNT
  /-- R185. -/
  | GL_KEYMIS_CNT
  /-- R185. -/
  | GL_RMQFULL_CNT
  /-- R207. -/
  | CE_SKIP
  /-- R207. -/
  | CE_SKIPX
  /-- R207. -/
  | CE_WIN
  /-- R208. -/
  | CE_CODE_CNT
  /-- R208. -/
  | CE_S1_CNT
  /-- R208. -/
  | CE_S2_CNT
  /-- R208. -/
  | CE_S3_CNT
  /-- R208. -/
  | CE_NOSHRINK_CNT
  /-- R208. -/
  | CE_VERIFY_CNT
  /-- R208. -/
  | CE_NOSPACE_CNT
  /-- R208. -/
  | CE_DECODE_CNT
  /-- R208. -/
  | CE_CHECK_CNT
  /-- R208. -/
  | CE_WINOPEN_CNT
  /-- R208. -/
  | CE_SKIPPED_CNT
  /-- R228. -/
  | SEC_KEYIN
  /-- R228. -/
  | SEC_KEYCMD
  /-- R228. -/
  | SEC_KEYSTAT
  /-- R228. -/
  | SEC_KEYOUT
  /-- R228. -/
  | SEC_KEYCNT
  /-- R229. -/
  | XE_SCA
  /-- R229. -/
  | XE_PLINK
  /-- R230. -/
  | XE_ENC_CNT
  /-- R230. -/
  | XE_DEC_CNT
  /-- R230. -/
  | XE_CHECK_CNT
  /-- R230. -/
  | XE_KEYEMPTY_CNT
  /-- R230. -/
  | XE_KEYDENIED_CNT
  /-- R230. -/
  | XE_DKMISS_CNT
  /-- R230. -/
  | XE_AUTHFAIL_CNT
  /-- R263. -/
  | TA_CTL
  /-- R263. -/
  | TA_JCFG
  /-- R263. -/
  | TA_JSEQ
  /-- R263. -/
  | TA_JTAIL
  /-- R263. -/
  | TA_JFILL
  /-- R263. -/
  | TA_LEES
  /-- R263. -/
  | TA_STAT
  /-- R264. -/
  | PLC_GEOM
  /-- R264. -/
  | PLC_SPARE
  /-- R264. -/
  | PLC_FRAMES
  /-- R264. -/
  | PLC_SST
  /-- R264. -/
  | PLC_FWD
  /-- R264. -/
  | PLC_PTADDR
  /-- R264. -/
  | PLC_PTCMD
  /-- R264. -/
  | PLC_PTSTAT
  /-- R264. -/
  | PLC_MEM
  /-- R265. -/
  | DRV_CTL
  /-- R265. -/
  | DRV_RTAG_CNT
  /-- R265. -/
  | DRV_MEDIA_CNT
  /-- R265. -/
  | DRV_WERR_CNT
  /-- R265. -/
  | TA_SLOT_CNT
  /-- R265. -/
  | TA_SEAL_CNT
  /-- R265. -/
  | TA_PADK_CNT
  /-- R265. -/
  | TA_RELOC_CNT
  /-- R265. -/
  | TA_MOVE_CNT
  /-- R265. -/
  | TA_LEES_CNT
  /-- R265. -/
  | TA_HELD_CNT
  /-- R265. -/
  | TA_REPLAY_CNT
  /-- R265. -/
  | PE_GEN_CNT
  /-- R265. -/
  | PE_REC_CNT
  /-- R287. -/
  | PLC_RBRATE
  /-- R287. -/
  | PLC_RBCTL
  /-- R287. -/
  | PLC_RBSTAT
  /-- R287. -/
  | PLC_SPG
  /-- R287. -/
  | PLC_RKCTL
  /-- R287. -/
  | PLC_RKGEOM
  /-- R287. -/
  | PLC_RKPT
  /-- R287. -/
  | PLC_RKSTAT
  /-- R287. -/
  | PLC_BAND
  /-- R287. -/
  | PLC_SPGSTAT
  /-- R288. -/
  | DRV_HEALTH
  /-- R288. -/
  | DRV_RA
  /-- R289. -/
  | DRV_RA_CNT
  /-- R289. -/
  | DRV_RAWIN_CNT
  /-- R289. -/
  | DRV_DEGR_CNT
  /-- R289. -/
  | DRV_REPAIR_CNT
  /-- R289. -/
  | DRV_CONSIST_CNT
  /-- R289. -/
  | PLC_RBSTRIP_CNT
  /-- R289. -/
  | PLC_LOSTSLOT_CNT
  /-- R289. -/
  | PLC_SPG_REPAIR_CNT
  /-- R289. -/
  | PLC_SPG_UNLOC_CNT
  /-- R289. -/
  | PLC_SPG_TAG_CNT
  /-- R289. -/
  | PLC_SPG_HDR_CNT
  /-- R289. -/
  | PLC_NOSPARE_CNT
  /-- R318. -/
  | ME_SNAPTAB
  /-- R318. -/
  | ME_SNAPCTL
  /-- R318. -/
  | ME_SNAPSTAT
  /-- R318. -/
  | ME_CGSTAT
  /-- R319. -/
  | TA_STRBASE
  /-- R319. -/
  | TA_STRMAP
  /-- R319. -/
  | TA_STRCTL
  /-- R319. -/
  | TA_STRCMD
  /-- R359. -/
  | HFE_CTL
  /-- R359. -/
  | HFE_NSTAB
  /-- R359. -/
  | HFE_ATTACH
  /-- R359. -/
  | HFE_RESVTAB
  /-- R359. -/
  | HFE_PASSTAB
  /-- R359. -/
  | HFE_IMG
  /-- R359. -/
  | HFE_SVC
  /-- R359. -/
  | HFE_RXPOOL
  /-- R359. -/
  | HFE_SVCIDX
  /-- R359. -/
  | HFE_SVCCMP
  /-- R359. -/
  | HFE_SANSTAT
  /-- R359. -/
  | HFE_DISC
  /-- R359. -/
  | HFE_STAT
  /-- R359. -/
  | HFE_IOQ
  /-- R360. -/
  | HFE_RDCMD_CNT
  /-- R360. -/
  | HFE_WRCMD_CNT
  /-- R360. -/
  | HFE_RDDU_CNT
  /-- R360. -/
  | HFE_WRDU_CNT
  /-- R360. -/
  | HFE_FREEZE_CNT
  /-- R360. -/
  | HFE_CANCEL_CNT
  /-- R360. -/
  | HFE_HELD_CNT
  /-- R360. -/
  | HFE_KATO_CNT
  /-- R385. -/
  | RXE_CTL
  /-- R385. -/
  | RXE_STAT
  /-- R386. -/
  | RXE_QPCMD
  /-- R387. -/
  | RXE_WINCMD
  /-- R387. -/
  | RXE_WINATTR0
  /-- R387. -/
  | RXE_WINATTR1
  /-- R387. -/
  | RXE_WINKEY
  /-- R388. -/
  | RXE_CC
  /-- R389. -/
  | RXE_RAERR_CNT
  /-- R389. -/
  | RXE_QPERR_CNT
  /-- R389. -/
  | RXE_DUP_CNT
  /-- R389. -/
  | RXE_RETRY_CNT
  /-- R389. -/
  | RXE_ICRC_CNT
  /-- R389. -/
  | RXE_NOQP_CNT
  /-- R389. -/
  | RXE_CNPTX_CNT
  /-- R389. -/
  | RXE_CNPRX_CNT
  /-- R389. -/
  | RXE_CMREJ_CNT
  /-- R413. -/
  | SWC_BUF
  /-- R413. -/
  | SWC_CM
  /-- R413. -/
  | SWC_TCW
  /-- R413. -/
  | SWC_STAT
  /-- R413. -/
  | SWC_TAP_CTL
  /-- R413. -/
  | SWC_TAP_MASK
  /-- R413. -/
  | SWC_TAP_MATCH
  /-- R413. -/
  | SWC_TAP_BASE
  /-- R413. -/
  | SWC_TAP_LEN
  /-- R413. -/
  | SWC_TAP_HEAD
  /-- R413. -/
  | SWC_TAP_TAIL
  /-- R414. -/
  | GANG_LNK_CTL
  /-- R414. -/
  | GANG_LNK_STAT
  /-- R415. -/
  | SWC_CM_CNT
  /-- R415. -/
  | SWC_TAPLOST_CNT
  /-- R415. -/
  | SWC_ETHDROP_CNT
  /-- R415. -/
  | SWC_RESEQ_CNT
  /-- R415. -/
  | SWC_ITER_CNT
  /-- R415. -/
  | GANG_LNK_CRC_CNT
  /-- R415. -/
  | GANG_LNK_RETRY_CNT
  /-- R415. -/
  | GANG_LNK_LOCKLOSS_CNT
  /-- R422. -/
  | XE_PLINK_NEXT
  /-- R444. -/
  | SYS_HEAD
  /-- R444. -/
  | SYS_PTR_CTL
  /-- R444. -/
  | SYS_PTR_STAT
  /-- R444. -/
  | SYS_PTR_ARB
  /-- R444. -/
  | SYS_PTR_SEQ
  /-- R444. -/
  | SYS_PTR_LAG
  /-- R445. -/
  | SYS_GRP
  /-- R446. -/
  | GANG_CFG
  /-- R446. -/
  | GANG_STAT
  /-- R447. -/
  | SYS_TAKE_CNT
  /-- R447. -/
  | SYS_FAILBACK_CNT
  /-- R447. -/
  | SYS_HBMISS_CNT
  /-- R447. -/
  | SYS_RACE_CNT
  /-- R447. -/
  | SYS_REFWD_CNT
  /-- R480. -/
  | PWR_PSU
  /-- R480. -/
  | PWR_PF
  /-- R480. -/
  | PWR_VAULT
  /-- R480. -/
  | PWR_VSTAT
  /-- R480. -/
  | PWR_AVS
  /-- R480. -/
  | PWR_DROOP
  /-- R480. -/
  | PWR_DROOPSTAT
  /-- R481. -/
  | THM_CTL
  /-- R481. -/
  | THM_LIM
  /-- R481. -/
  | THM_STAT
  /-- R481. -/
  | THM_SEN
  /-- R481. -/
  | THM_LVL
  /-- R482. -/
  | PWR_PF_CNT
  /-- R482. -/
  | PWR_PSULOSS_CNT
  /-- R482. -/
  | PWR_DROOP_CNT
  /-- R482. -/
  | THM_BROKEN_CNT
  /-- R482. -/
  | THM_THROT_CNT
  /-- R482. -/
  | THM_STOP_CNT
  /-- R482. -/
  | THM_TRIP_CNT
  /-- R505. -/
  | SYS_RSTSRC
  /-- R505. -/
  | SYS_RSTCMD
  /-- R505. -/
  | SYS_SWDT
  /-- R505. -/
  | SYS_CKPT
  /-- R505. -/
  | SYS_CKPTSTAT
  /-- R505. -/
  | SYS_CORE
  /-- R505. -/
  | SYS_CORE_ENTRY
  /-- R506. -/
  | PWR_PSTATE
  /-- R527. -/
  | UPD_STG
  /-- R527. -/
  | UPD_STGLEN
  /-- R527. -/
  | UPD_CMD
  /-- R527. -/
  | UPD_STAT
  /-- R527. -/
  | UPD_ACT
  /-- R527. -/
  | UPD_CTL
  /-- R527. -/
  | UPD_BANK
  /-- R527. -/
  | UPD_FUSE
  /-- R527. -/
  | UPD_FMT
  /-- R527. -/
  | UPD_KEYIN
  /-- R527. -/
  | UPD_UKOUT
  /-- R528. -/
  | SEC_IDPUB
  /-- R528. -/
  | SEC_ATTNONCE
  /-- R528. -/
  | SEC_ATTBUF
  /-- R528. -/
  | SEC_ATTCMD
  /-- R528. -/
  | SEC_ATTSIG
  /-- R545. -/
  | CEL_CTL
  /-- R545. -/
  | CEL_STAT
  /-- R545. -/
  | CEL_RPOS
  /-- R545. -/
  | CEL_LOST
  /-- R545. -/
  | CEL_EVQ_CTL
  /-- R545. -/
  | CEL_EVQ_POP
  /-- R545. -/
  | CEL_EVRAISE
  /-- R545. -/
  | CEL_EVRT
  /-- R546. -/
  | PMC_FREEZE
  /-- R546. -/
  | PMC_SNAP
  /-- R546. -/
  | PMC_SNAPTIME
  /-- R546. -/
  | PMC_STAT
  /-- R546. -/
  | PMC_OVF
  /-- R546. -/
  | PMC_CNT
  /-- R546. -/
  | PMC_SHD
  /-- R546. -/
  | PMC_SEL
  /-- R565. -/
  | CLK_REF
  /-- R566. -/
  | LANE_HCFG
  /-- R566. -/
  | LANE_GCFG
  /-- R566. -/
  | LANE_DCFG
  /-- R567. -/
  | MGT_PPSIN
  /-- R567. -/
  | MGT_PMB
  /-- R88. -/
  | FSQ_FAULT_CNT
  /-- R88. -/
  | FSQ_FLT_STAT
  /-- R121. -/
  | FSQ_BUNG_EPOCH
  /-- R386. -/
  | RXE_QPATTR
  /-- R545. -/
  | CEL_WIN
  /-- R545. -/
  | CEL_SWREC
  /-- R546. -/
  | MGT_SMB
  /-- R319. -/
  | ME_COW_CNT
  /-- R319. -/
  | ME_CUT_CNT
  /-- R319. -/
  | ME_PGFREE_CNT
  /-- R319. -/
  | ME_DIFFPG_CNT
  /-- R319. -/
  | TA_STRSPAWN_CNT
  /-- R319. -/
  | TA_STRWAIT_CNT
  /-- R319. -/
  | TA_STRBRK_CNT
  deriving DecidableEq, Repr

/-- The registers of each CSR unit (R21, the unit table of "CSR units"). -/
def RegName.ofUnit : Nat → List RegName
  | 0x0 => [.SYS_ID, .SYS_CAP0, .SYS_CAP1, .SYS_CAP2, .SYS_HEAD, .SYS_PTR_CTL, .SYS_PTR_STAT, .SYS_PTR_ARB, .SYS_PTR_SEQ, .SYS_PTR_LAG, .SYS_GRP, .SYS_TAKE_CNT, .SYS_FAILBACK_CNT, .SYS_HBMISS_CNT, .SYS_RACE_CNT, .SYS_REFWD_CNT, .SYS_RSTSRC, .SYS_RSTCMD, .SYS_SWDT, .SYS_CKPT, .SYS_CKPTSTAT, .SYS_CORE, .SYS_CORE_ENTRY]
  | 0x1 => [.CLK_REF]
  | 0x2 => [.PWR_PSU, .PWR_PF, .PWR_VAULT, .PWR_VSTAT, .PWR_AVS, .PWR_DROOP, .PWR_DROOPSTAT, .PWR_PF_CNT, .PWR_PSULOSS_CNT, .PWR_DROOP_CNT, .PWR_PSTATE]
  | 0x3 => [.THM_CTL, .THM_LIM, .THM_STAT, .THM_SEN, .THM_LVL, .THM_BROKEN_CNT, .THM_THROT_CNT, .THM_STOP_CNT, .THM_TRIP_CNT]
  | 0x4 => [.CEL_CTL, .CEL_STAT, .CEL_RPOS, .CEL_LOST, .CEL_EVQ_CTL, .CEL_EVQ_POP, .CEL_EVRAISE, .CEL_EVRT, .CEL_WIN, .CEL_SWREC]
  | 0x5 => [.PMC_FREEZE, .PMC_SNAP, .PMC_SNAPTIME, .PMC_STAT, .PMC_OVF, .PMC_CNT, .PMC_SHD, .PMC_SEL]
  | 0x6 => [.SEC_KEYIN, .SEC_KEYCMD, .SEC_KEYSTAT, .SEC_KEYOUT, .SEC_KEYCNT, .SEC_IDPUB, .SEC_ATTNONCE, .SEC_ATTBUF, .SEC_ATTCMD, .SEC_ATTSIG]
  | 0x7 => [.UPD_STG, .UPD_STGLEN, .UPD_CMD, .UPD_STAT, .UPD_ACT, .UPD_CTL, .UPD_BANK, .UPD_FUSE, .UPD_FMT, .UPD_KEYIN, .UPD_UKOUT]
  | 0x8 => [.SWC_BUF, .SWC_CM, .SWC_TCW, .SWC_STAT, .SWC_TAP_CTL, .SWC_TAP_MASK, .SWC_TAP_MATCH, .SWC_TAP_BASE, .SWC_TAP_LEN, .SWC_TAP_HEAD, .SWC_TAP_TAIL, .SWC_CM_CNT, .SWC_TAPLOST_CNT, .SWC_ETHDROP_CNT, .SWC_RESEQ_CNT, .SWC_ITER_CNT]
  | 0x9 => [.HFE_CTL, .HFE_NSTAB, .HFE_ATTACH, .HFE_RESVTAB, .HFE_PASSTAB, .HFE_IMG, .HFE_SVC, .HFE_RXPOOL, .HFE_SVCIDX, .HFE_SVCCMP, .HFE_SANSTAT, .HFE_DISC, .HFE_STAT, .HFE_IOQ, .HFE_RDCMD_CNT, .HFE_WRCMD_CNT, .HFE_RDDU_CNT, .HFE_WRDU_CNT, .HFE_FREEZE_CNT, .HFE_CANCEL_CNT, .HFE_HELD_CNT, .HFE_KATO_CNT]
  | 0xa => [.RXE_CTL, .RXE_STAT, .RXE_QPCMD, .RXE_WINCMD, .RXE_WINATTR0, .RXE_WINATTR1, .RXE_WINKEY, .RXE_CC, .RXE_RAERR_CNT, .RXE_QPERR_CNT, .RXE_DUP_CNT, .RXE_RETRY_CNT, .RXE_ICRC_CNT, .RXE_NOQP_CNT, .RXE_CNPTX_CNT, .RXE_CNPRX_CNT, .RXE_CMREJ_CNT, .RXE_QPATTR]
  | 0xb => [.PLC_GEOM, .PLC_SPARE, .PLC_FRAMES, .PLC_SST, .PLC_FWD, .PLC_PTADDR, .PLC_PTCMD, .PLC_PTSTAT, .PLC_MEM, .PLC_RBRATE, .PLC_RBCTL, .PLC_RBSTAT, .PLC_SPG, .PLC_RKCTL, .PLC_RKGEOM, .PLC_RKPT, .PLC_RKSTAT, .PLC_BAND, .PLC_SPGSTAT, .PLC_RBSTRIP_CNT, .PLC_LOSTSLOT_CNT, .PLC_SPG_REPAIR_CNT, .PLC_SPG_UNLOC_CNT, .PLC_SPG_TAG_CNT, .PLC_SPG_HDR_CNT, .PLC_NOSPARE_CNT]
  | 0xc => [.FSQ_CTL, .FSQ_STAT, .FSQ_WDT, .FSQ_FLT0, .FSQ_FLT1, .FSQ_FLT2, .FSQ_FWIN_BASE, .FSQ_FWIN_LIM, .FSQ_PSET_CTL, .FSQ_ENTRY, .FSQ_BIND, .FSQ_BUNG_CTL, .FSQ_BUNG_STAT, .FSQ_FAULT_CNT, .FSQ_FLT_STAT, .FSQ_BUNG_EPOCH]
  | 0xd => [.ME_CTL, .ME_RSV, .ME_FRAMES, .ME_DDRPG, .ME_FREE, .ME_FAULT, .ME_FAULT_CNT, .ME_CKPT_SEQ, .ME_LOST, .ME_SNAPTAB, .ME_SNAPCTL, .ME_SNAPSTAT, .ME_CGSTAT, .ME_COW_CNT, .ME_CUT_CNT, .ME_PGFREE_CNT, .ME_DIFFPG_CNT]
  | 0xe => [.GL_CTL, .GL_FCAP, .GL_FSTAT, .GL_BCMP, .GL_ADMIT, .GL_BUILD, .GL_PROBE_CNT, .GL_MAYBE_CNT, .GL_FALSE_CNT, .GL_EVICT_CNT, .GL_DUPINS_CNT, .GL_IXFULL_CNT, .GL_COLL_CNT, .GL_KEYMIS_CNT, .GL_RMQFULL_CNT]
  | 0xf => [.CE_SKIP, .CE_SKIPX, .CE_WIN, .CE_CODE_CNT, .CE_S1_CNT, .CE_S2_CNT, .CE_S3_CNT, .CE_NOSHRINK_CNT, .CE_VERIFY_CNT, .CE_NOSPACE_CNT, .CE_DECODE_CNT, .CE_CHECK_CNT, .CE_WINOPEN_CNT, .CE_SKIPPED_CNT]
  | 0x10 => [.XE_SCA, .XE_PLINK, .XE_ENC_CNT, .XE_DEC_CNT, .XE_CHECK_CNT, .XE_KEYEMPTY_CNT, .XE_KEYDENIED_CNT, .XE_DKMISS_CNT, .XE_AUTHFAIL_CNT, .XE_PLINK_NEXT]
  | 0x11 => [.PE_GEN_CNT, .PE_REC_CNT]
  | 0x12 => [.TA_CTL, .TA_JCFG, .TA_JSEQ, .TA_JTAIL, .TA_JFILL, .TA_LEES, .TA_STAT, .TA_SLOT_CNT, .TA_SEAL_CNT, .TA_PADK_CNT, .TA_RELOC_CNT, .TA_MOVE_CNT, .TA_LEES_CNT, .TA_HELD_CNT, .TA_REPLAY_CNT, .TA_STRBASE, .TA_STRMAP, .TA_STRCTL, .TA_STRCMD, .TA_STRSPAWN_CNT, .TA_STRWAIT_CNT, .TA_STRBRK_CNT]
  | 0x14 => [.LANE_HCFG, .LANE_GCFG, .LANE_DCFG]
  | 0x17 => [.DRV_CTL, .DRV_RTAG_CNT, .DRV_MEDIA_CNT, .DRV_WERR_CNT, .DRV_HEALTH, .DRV_RA, .DRV_RA_CNT, .DRV_RAWIN_CNT, .DRV_DEGR_CNT, .DRV_REPAIR_CNT, .DRV_CONSIST_CNT]
  | 0x18 => [.MC_CTL, .MC_STAT, .MC_MAINT, .MC_MAINT_BASE, .MC_MAINT_LEN, .MC_MAINT_SKIPPED, .MC_MAINT_SKADDR]
  | 0x19 => [.GANG_LNK_CTL, .GANG_LNK_STAT, .GANG_LNK_CRC_CNT, .GANG_LNK_RETRY_CNT, .GANG_LNK_LOCKLOSS_CNT, .GANG_CFG, .GANG_STAT]
  | 0x1a => [.MGT_PPSIN, .MGT_PMB, .MGT_SMB]
  | _ => []

/-- The place and the fields of each register, from its table. -/
def RegName.info : RegName → RegDef
  | .SYS_ID => ⟨0x0, 0x0, 1, 0x0, 1, 0x0, [⟨63, 48, .ro, 0x4f56, .F⟩, ⟨47, 32, .ro, 0x9024, .F⟩, ⟨31, 24, .ro, 0x4, .F⟩, ⟨23, 16, .ro, 0x1, .F⟩, ⟨15, 8, .ro, 0x1, .F⟩]⟩
  | .SYS_CAP0 => ⟨0x0, 0x8, 1, 0x0, 1, 0x0, [⟨55, 48, .ro, 0x4, .F⟩, ⟨47, 40, .ro, 0x8, .F⟩, ⟨39, 36, .ro, 0xc, .F⟩, ⟨35, 28, .ro, 0x10, .F⟩, ⟨27, 16, .ro, 0x100, .F⟩, ⟨15, 0, .ro, 0x400, .F⟩]⟩
  | .SYS_CAP1 => ⟨0x0, 0x10, 1, 0x0, 1, 0x0, [⟨63, 56, .ro, 0x10, .F⟩, ⟨55, 48, .ro, 0x30, .F⟩, ⟨47, 40, .ro, 0x20, .F⟩, ⟨39, 32, .ro, 0x20, .F⟩, ⟨31, 16, .ro, 0x180, .F⟩, ⟨15, 0, .ro, 0x140, .F⟩]⟩
  | .SYS_CAP2 => ⟨0x0, 0x18, 1, 0x0, 1, 0x0, [⟨63, 56, .ro, 0x8, .F⟩, ⟨55, 48, .ro, 0x10, .F⟩, ⟨47, 40, .ro, 0x8, .F⟩, ⟨39, 32, .ro, 0x4, .F⟩, ⟨23, 0, .ro, 0x400000, .F⟩]⟩
  | .FSQ_CTL => ⟨0xc, 0x0, 1, 0x0, 1, 0x0, [⟨0, 0, .rw, 0x0, .H⟩]⟩
  | .FSQ_STAT => ⟨0xc, 0x8, 1, 0x0, 1, 0x0, [⟨48, 32, .ro, 0x0, .H⟩, ⟨22, 0, .ro, 0x0, .H⟩]⟩
  | .FSQ_WDT => ⟨0xc, 0x10, 1, 0x0, 1, 0x0, [⟨47, 32, .rw, 0x1f4, .H⟩, ⟨15, 0, .rw, 0x400, .H⟩]⟩
  | .FSQ_FLT0 => ⟨0xc, 0x28, 1, 0x0, 1, 0x0, [⟨37, 16, .ro, 0x0, .H⟩, ⟨15, 8, .ro, 0x0, .H⟩, ⟨7, 0, .ro, 0x0, .H⟩]⟩
  | .FSQ_FLT1 => ⟨0xc, 0x30, 1, 0x0, 1, 0x0, [⟨63, 32, .ro, 0x0, .H⟩, ⟨31, 0, .ro, 0x0, .H⟩]⟩
  | .FSQ_FLT2 => ⟨0xc, 0x38, 1, 0x0, 1, 0x0, [⟨47, 0, .ro, 0x0, .H⟩]⟩
  | .FSQ_FWIN_BASE => ⟨0xc, 0x100, 8, 0x10, 1, 0x0, [⟨47, 12, .rw, 0x0, .H⟩, ⟨1, 1, .rw, 0x0, .H⟩, ⟨0, 0, .rw, 0x0, .H⟩]⟩
  | .FSQ_FWIN_LIM => ⟨0xc, 0x108, 8, 0x10, 1, 0x0, [⟨47, 12, .rw, 0x0, .H⟩]⟩
  | .FSQ_PSET_CTL => ⟨0xc, 0x1000, 1, 0x0, 1, 0x0, [⟨29, 29, .rw, 0x0, .V⟩, ⟨28, 16, .rw, 0x0, .V⟩, ⟨0, 0, .w1s, 0x0, .H⟩]⟩
  | .FSQ_ENTRY => ⟨0xc, 0x4000, 2048, 0x8, 1, 0x0, [⟨54, 32, .rw, 0x0, .V⟩, ⟨22, 0, .rw, 0x0, .V⟩]⟩
  | .FSQ_BIND => ⟨0xc, 0x10000, 2, 0x8000, 4096, 0x8, [⟨63, 63, .rw, 0x0, .V⟩, ⟨59, 48, .rw, 0x0, .V⟩, ⟨47, 47, .rw, 0x0, .V⟩, ⟨43, 32, .rw, 0x0, .V⟩, ⟨31, 31, .rw, 0x0, .V⟩, ⟨27, 16, .rw, 0x0, .V⟩, ⟨15, 15, .rw, 0x0, .V⟩, ⟨11, 0, .rw, 0x0, .V⟩]⟩
  | .FSQ_BUNG_CTL => ⟨0xc, 0x1100, 1, 0x0, 1, 0x0, [⟨2, 2, .rw, 0x0, .H⟩, ⟨1, 1, .rw, 0x0, .H⟩, ⟨0, 0, .wo, 0x0, .H⟩]⟩
  | .FSQ_BUNG_STAT => ⟨0xc, 0x1108, 1, 0x0, 1, 0x0, [⟨54, 32, .ro, 0x0, .H⟩, ⟨24, 16, .ro, 0x0, .H⟩, ⟨7, 6, .ro, 0x0, .H⟩, ⟨4, 4, .w1c, 0x0, .H⟩, ⟨3, 3, .w1c, 0x0, .H⟩, ⟨2, 2, .w1c, 0x0, .H⟩, ⟨1, 1, .w1c, 0x0, .H⟩, ⟨0, 0, .ro, 0x0, .H⟩]⟩
  | .ME_CTL => ⟨0xd, 0x0, 1, 0x0, 1, 0x0, [⟨15, 8, .rw, 0x80, .H⟩, ⟨1, 1, .rw, 0x1, .H⟩, ⟨0, 0, .rw, 0x0, .H⟩]⟩
  | .ME_RSV => ⟨0xd, 0x8, 1, 0x0, 1, 0x0, [⟨15, 0, .rw, 0x400, .V⟩]⟩
  | .ME_FRAMES => ⟨0xd, 0x10, 1, 0x0, 1, 0x0, [⟨63, 32, .ro, 0x0, .H⟩, ⟨31, 0, .ro, 0x2800000, .H⟩]⟩
  | .ME_DDRPG => ⟨0xd, 0x18, 1, 0x0, 1, 0x0, [⟨63, 48, .rw, 0x0, .V⟩, ⟨47, 12, .rw, 0x0, .V⟩]⟩
  | .ME_FREE => ⟨0xd, 0x20, 1, 0x0, 1, 0x0, [⟨63, 32, .ro, 0x0, .H⟩, ⟨31, 0, .ro, 0x0, .H⟩]⟩
  | .ME_FAULT => ⟨0xd, 0x28, 1, 0x0, 1, 0x0, [⟨19, 0, .ro, 0x0, .H⟩]⟩
  | .ME_FAULT_CNT => ⟨0xd, 0x30, 1, 0x0, 1, 0x0, [⟨47, 0, .rc, 0x0, .H⟩]⟩
  | .ME_CKPT_SEQ => ⟨0xd, 0x38, 1, 0x0, 1, 0x0, [⟨63, 0, .ro, 0xffffffffffffffff, .H⟩]⟩
  | .ME_LOST => ⟨0xd, 0x40, 1, 0x0, 1, 0x0, [⟨31, 0, .rc, 0x0, .H⟩]⟩
  | .MC_CTL => ⟨0x18, 0x0, 1, 0x0, 1, 0x0, [⟨31, 16, .rw, 0x0, .S⟩, ⟨0, 0, .rw, 0x0, .S⟩]⟩
  | .MC_STAT => ⟨0x18, 0x8, 1, 0x0, 1, 0x0, [⟨4, 4, .w1c, 0x0, .S⟩, ⟨3, 3, .w1c, 0x0, .S⟩, ⟨2, 2, .ro, 0x0, .S⟩, ⟨1, 1, .ro, 0x0, .S⟩, ⟨0, 0, .w1c, 0x0, .S⟩]⟩
  | .MC_MAINT => ⟨0x18, 0x10, 1, 0x0, 1, 0x0, [⟨9, 9, .w1c, 0x0, .S⟩, ⟨8, 8, .ro, 0x0, .S⟩, ⟨4, 4, .rw, 0x0, .S⟩, ⟨3, 3, .rw, 0x0, .S⟩, ⟨2, 1, .rw, 0x0, .S⟩, ⟨0, 0, .wo, 0x0, .S⟩]⟩
  | .MC_MAINT_BASE => ⟨0x18, 0x18, 1, 0x0, 1, 0x0, [⟨47, 8, .rw, 0x0, .S⟩]⟩
  | .MC_MAINT_LEN => ⟨0x18, 0x20, 1, 0x0, 1, 0x0, [⟨39, 8, .rw, 0x0, .S⟩]⟩
  | .MC_MAINT_SKIPPED => ⟨0x18, 0x28, 1, 0x0, 1, 0x0, [⟨31, 0, .ro, 0x0, .S⟩]⟩
  | .MC_MAINT_SKADDR => ⟨0x18, 0x30, 1, 0x0, 1, 0x0, [⟨47, 8, .ro, 0x0, .S⟩]⟩
  | .GL_CTL => ⟨0xe, 0x0, 1, 0x0, 1, 0x0, [⟨1, 1, .rw, 0x1, .H⟩, ⟨0, 0, .rw, 0x0, .H⟩]⟩
  | .GL_FCAP => ⟨0xe, 0x8, 1, 0x0, 1, 0x0, [⟨5, 0, .ro, 0x0, .H⟩]⟩
  | .GL_FSTAT => ⟨0xe, 0x10, 1, 0x0, 1, 0x0, [⟨40, 0, .ro, 0x0, .H⟩]⟩
  | .GL_BCMP => ⟨0xe, 0x18, 1, 0x0, 1, 0x0, [⟨63, 0, .rw, 0x0, .V⟩]⟩
  | .GL_ADMIT => ⟨0xe, 0x20, 1, 0x0, 1, 0x0, [⟨39, 16, .rw, 0x10000, .V⟩, ⟨15, 0, .rw, 0x148, .V⟩]⟩
  | .GL_BUILD => ⟨0xe, 0x28, 1, 0x0, 1, 0x0, [⟨47, 32, .ro, 0x0, .H⟩, ⟨16, 16, .ro, 0x0, .H⟩, ⟨12, 10, .ro, 0x0, .H⟩, ⟨9, 0, .ro, 0x0, .H⟩]⟩
  | .GL_PROBE_CNT => ⟨0xe, 0x40, 1, 0x0, 1, 0x0, [⟨47, 0, .rc, 0x0, .H⟩]⟩
  | .GL_MAYBE_CNT => ⟨0xe, 0x48, 1, 0x0, 1, 0x0, [⟨47, 0, .rc, 0x0, .H⟩]⟩
  | .GL_FALSE_CNT => ⟨0xe, 0x50, 1, 0x0, 1, 0x0, [⟨47, 0, .rc, 0x0, .H⟩]⟩
  | .GL_EVICT_CNT => ⟨0xe, 0x58, 1, 0x0, 1, 0x0, [⟨47, 0, .rc, 0x0, .H⟩]⟩
  | .GL_DUPINS_CNT => ⟨0xe, 0x60, 1, 0x0, 1, 0x0, [⟨47, 0, .rc, 0x0, .H⟩]⟩
  | .GL_IXFULL_CNT => ⟨0xe, 0x68, 1, 0x0, 1, 0x0, [⟨47, 0, .rc, 0x0, .H⟩]⟩
  | .GL_COLL_CNT => ⟨0xe, 0x70, 1, 0x0, 1, 0x0, [⟨47, 0, .rc, 0x0, .H⟩]⟩
  | .GL_KEYMIS_CNT => ⟨0xe, 0x78, 1, 0x0, 1, 0x0, [⟨47, 0, .rc, 0x0, .H⟩]⟩
  | .GL_RMQFULL_CNT => ⟨0xe, 0x80, 1, 0x0, 1, 0x0, [⟨47, 0, .rc, 0x0, .H⟩]⟩
  | .CE_SKIP => ⟨0xf, 0x0, 1, 0x0, 1, 0x0, [⟨48, 48, .rw, 0x1, .V⟩, ⟨47, 40, .rw, 0xf, .V⟩, ⟨39, 32, .rw, 0x10, .V⟩, ⟨20, 16, .rw, 0x10, .V⟩, ⟨12, 8, .rw, 0x6, .V⟩]⟩
  | .CE_SKIPX => ⟨0xf, 0x8, 1, 0x0, 1, 0x0, [⟨63, 0, .rw, 0x0, .V⟩]⟩
  | .CE_WIN => ⟨0xf, 0x10, 1, 0x0, 1, 0x0, [⟨18, 0, .ro, 0x0, .H⟩]⟩
  | .CE_CODE_CNT => ⟨0xf, 0x40, 1, 0x0, 1, 0x0, [⟨47, 0, .rc, 0x0, .H⟩]⟩
  | .CE_S1_CNT => ⟨0xf, 0x48, 1, 0x0, 1, 0x0, [⟨47, 0, .rc, 0x0, .H⟩]⟩
  | .CE_S2_CNT => ⟨0xf, 0x50, 1, 0x0, 1, 0x0, [⟨47, 0, .rc, 0x0, .H⟩]⟩
  | .CE_S3_CNT => ⟨0xf, 0x58, 1, 0x0, 1, 0x0, [⟨47, 0, .rc, 0x0, .H⟩]⟩
  | .CE_NOSHRINK_CNT => ⟨0xf, 0x60, 1, 0x0, 1, 0x0, [⟨47, 0, .rc, 0x0, .H⟩]⟩
  | .CE_VERIFY_CNT => ⟨0xf, 0x68, 1, 0x0, 1, 0x0, [⟨47, 0, .rc, 0x0, .H⟩]⟩
  | .CE_NOSPACE_CNT => ⟨0xf, 0x70, 1, 0x0, 1, 0x0, [⟨47, 0, .rc, 0x0, .H⟩]⟩
  | .CE_DECODE_CNT => ⟨0xf, 0x78, 1, 0x0, 1, 0x0, [⟨47, 0, .rc, 0x0, .H⟩]⟩
  | .CE_CHECK_CNT => ⟨0xf, 0x80, 1, 0x0, 1, 0x0, [⟨47, 0, .rc, 0x0, .H⟩]⟩
  | .CE_WINOPEN_CNT => ⟨0xf, 0x88, 1, 0x0, 1, 0x0, [⟨47, 0, .rc, 0x0, .H⟩]⟩
  | .CE_SKIPPED_CNT => ⟨0xf, 0x90, 1, 0x0, 1, 0x0, [⟨47, 0, .rc, 0x0, .H⟩]⟩
  | .SEC_KEYIN => ⟨0x6, 0x1000, 7, 0x8, 1, 0x0, [⟨63, 0, .wo, 0x0, .S⟩]⟩
  | .SEC_KEYCMD => ⟨0x6, 0x1040, 1, 0x0, 1, 0x0, [⟨31, 16, .rw, 0x0, .H⟩, ⟨3, 1, .rw, 0x0, .H⟩, ⟨0, 0, .wo, 0x0, .H⟩]⟩
  | .SEC_KEYSTAT => ⟨0x6, 0x1048, 1, 0x0, 1, 0x0, [⟨63, 32, .ro, 0x0, .V⟩, ⟨15, 8, .ro, 0x0, .H⟩, ⟨2, 2, .w1c, 0x0, .H⟩, ⟨1, 1, .w1c, 0x0, .H⟩, ⟨0, 0, .ro, 0x0, .H⟩]⟩
  | .SEC_KEYOUT => ⟨0x6, 0x1050, 7, 0x8, 1, 0x0, [⟨63, 0, .ro, 0x0, .H⟩]⟩
  | .SEC_KEYCNT => ⟨0x6, 0x1088, 1, 0x0, 1, 0x0, [⟨16, 0, .ro, 0x0, .H⟩]⟩
  | .XE_SCA => ⟨0x10, 0x0, 1, 0x0, 1, 0x0, [⟨4, 4, .rw, 0x1, .V⟩, ⟨3, 0, .rw, 0x4, .V⟩]⟩
  | .XE_PLINK => ⟨0x10, 0x8, 1, 0x0, 1, 0x0, [⟨63, 32, .rw, 0x0, .H⟩, ⟨31, 16, .rw, 0x0, .V⟩, ⟨0, 0, .rw, 0x0, .V⟩]⟩
  | .XE_ENC_CNT => ⟨0x10, 0x40, 1, 0x0, 1, 0x0, [⟨47, 0, .rc, 0x0, .H⟩]⟩
  | .XE_DEC_CNT => ⟨0x10, 0x48, 1, 0x0, 1, 0x0, [⟨47, 0, .rc, 0x0, .H⟩]⟩
  | .XE_CHECK_CNT => ⟨0x10, 0x50, 1, 0x0, 1, 0x0, [⟨47, 0, .rc, 0x0, .H⟩]⟩
  | .XE_KEYEMPTY_CNT => ⟨0x10, 0x58, 1, 0x0, 1, 0x0, [⟨47, 0, .rc, 0x0, .H⟩]⟩
  | .XE_KEYDENIED_CNT => ⟨0x10, 0x60, 1, 0x0, 1, 0x0, [⟨47, 0, .rc, 0x0, .H⟩]⟩
  | .XE_DKMISS_CNT => ⟨0x10, 0x68, 1, 0x0, 1, 0x0, [⟨47, 0, .rc, 0x0, .H⟩]⟩
  | .XE_AUTHFAIL_CNT => ⟨0x10, 0x70, 1, 0x0, 1, 0x0, [⟨47, 0, .rc, 0x0, .H⟩]⟩
  | .TA_CTL => ⟨0x12, 0x0, 1, 0x0, 1, 0x0, [⟨47, 32, .rw, 0x3e8, .H⟩, ⟨15, 8, .rw, 0x4, .H⟩, ⟨1, 1, .ro, 0x0, .H⟩, ⟨0, 0, .rw, 0x0, .H⟩]⟩
  | .TA_JCFG => ⟨0x12, 0x8, 1, 0x0, 1, 0x0, [⟨8, 0, .rw, 0x100, .V⟩]⟩
  | .TA_JSEQ => ⟨0x12, 0x10, 1, 0x0, 1, 0x0, [⟨63, 0, .rw, 0x0, .H⟩]⟩
  | .TA_JTAIL => ⟨0x12, 0x18, 1, 0x0, 1, 0x0, [⟨63, 0, .ro, 0x0, .H⟩]⟩
  | .TA_JFILL => ⟨0x12, 0x20, 1, 0x0, 1, 0x0, [⟨34, 0, .ro, 0x0, .H⟩]⟩
  | .TA_LEES => ⟨0x12, 0x28, 1, 0x0, 1, 0x0, [⟨47, 32, .rw, 0x800, .V⟩, ⟨23, 16, .rw, 0x2, .V⟩, ⟨15, 8, .rw, 0xa, .V⟩, ⟨0, 0, .rw, 0x1, .V⟩]⟩
  | .TA_STAT => ⟨0x12, 0x30, 1, 0x0, 1, 0x0, [⟨40, 32, .ro, 0x0, .H⟩, ⟨24, 16, .ro, 0x0, .H⟩, ⟨8, 0, .ro, 0x0, .H⟩]⟩
  | .PLC_GEOM => ⟨0xb, 0x100, 8, 0x40, 1, 0x0, [⟨47, 32, .rw, 0x0, .V⟩, ⟨24, 16, .rw, 0x0, .V⟩, ⟨12, 8, .rw, 0x0, .V⟩, ⟨0, 0, .rw, 0x0, .V⟩]⟩
  | .PLC_SPARE => ⟨0xb, 0x108, 8, 0x40, 1, 0x0, [⟨31, 0, .rw, 0x0, .V⟩]⟩
  | .PLC_FRAMES => ⟨0xb, 0x110, 8, 0x40, 1, 0x0, [⟨63, 32, .ro, 0x0, .H⟩, ⟨31, 0, .ro, 0x0, .H⟩]⟩
  | .PLC_SST => ⟨0xb, 0x118, 8, 0x40, 1, 0x0, [⟨47, 12, .rw, 0x0, .V⟩]⟩
  | .PLC_FWD => ⟨0xb, 0x120, 8, 0x40, 1, 0x0, [⟨47, 12, .rw, 0x0, .V⟩, ⟨11, 0, .rw, 0x0, .V⟩]⟩
  | .PLC_PTADDR => ⟨0xb, 0x40, 1, 0x0, 1, 0x0, [⟨47, 12, .rw, 0x0, .H⟩]⟩
  | .PLC_PTCMD => ⟨0xb, 0x48, 1, 0x0, 1, 0x0, [⟨3, 1, .rw, 0x0, .H⟩, ⟨0, 0, .wo, 0x0, .H⟩]⟩
  | .PLC_PTSTAT => ⟨0xb, 0x50, 1, 0x0, 1, 0x0, [⟨31, 16, .ro, 0x0, .H⟩, ⟨1, 1, .w1c, 0x0, .H⟩, ⟨0, 0, .w1c, 0x0, .H⟩]⟩
  | .PLC_MEM => ⟨0xb, 0x10000, 8, 0x800, 256, 0x8, [⟨63, 32, .rw, 0x0, .V⟩, ⟨27, 24, .rw, 0x0, .V⟩, ⟨23, 16, .rw, 0x0, .V⟩, ⟨11, 8, .rw, 0x0, .V⟩, ⟨7, 0, .rw, 0x0, .V⟩]⟩
  | .DRV_CTL => ⟨0x17, 0x0, 1, 0x0, 1, 0x0, [⟨31, 16, .rw, 0x64, .H⟩, ⟨15, 0, .rw, 0xc8, .H⟩]⟩
  | .DRV_RTAG_CNT => ⟨0x17, 0x40, 1, 0x0, 1, 0x0, [⟨47, 0, .rc, 0x0, .H⟩]⟩
  | .DRV_MEDIA_CNT => ⟨0x17, 0x48, 1, 0x0, 1, 0x0, [⟨47, 0, .rc, 0x0, .H⟩]⟩
  | .DRV_WERR_CNT => ⟨0x17, 0x50, 1, 0x0, 1, 0x0, [⟨47, 0, .rc, 0x0, .H⟩]⟩
  | .TA_SLOT_CNT => ⟨0x12, 0x40, 1, 0x0, 1, 0x0, [⟨47, 0, .rc, 0x0, .H⟩]⟩
  | .TA_SEAL_CNT => ⟨0x12, 0x48, 1, 0x0, 1, 0x0, [⟨47, 0, .rc, 0x0, .H⟩]⟩
  | .TA_PADK_CNT => ⟨0x12, 0x50, 1, 0x0, 1, 0x0, [⟨47, 0, .rc, 0x0, .H⟩]⟩
  | .TA_RELOC_CNT => ⟨0x12, 0x58, 1, 0x0, 1, 0x0, [⟨47, 0, .rc, 0x0, .H⟩]⟩
  | .TA_MOVE_CNT => ⟨0x12, 0x60, 1, 0x0, 1, 0x0, [⟨47, 0, .rc, 0x0, .H⟩]⟩
  | .TA_LEES_CNT => ⟨0x12, 0x68, 1, 0x0, 1, 0x0, [⟨47, 0, .rc, 0x0, .H⟩]⟩
  | .TA_HELD_CNT => ⟨0x12, 0x70, 1, 0x0, 1, 0x0, [⟨47, 0, .rc, 0x0, .H⟩]⟩
  | .TA_REPLAY_CNT => ⟨0x12, 0x78, 1, 0x0, 1, 0x0, [⟨47, 0, .rc, 0x0, .H⟩]⟩
  | .PE_GEN_CNT => ⟨0x11, 0x40, 1, 0x0, 1, 0x0, [⟨47, 0, .rc, 0x0, .H⟩]⟩
  | .PE_REC_CNT => ⟨0x11, 0x48, 1, 0x0, 1, 0x0, [⟨47, 0, .rc, 0x0, .H⟩]⟩
  | .PLC_RBRATE => ⟨0xb, 0x58, 1, 0x0, 1, 0x0, [⟨47, 32, .rw, 0x7d0, .V⟩, ⟨15, 0, .rw, 0x1f4, .V⟩]⟩
  | .PLC_RBCTL => ⟨0xb, 0x128, 8, 0x40, 1, 0x0, [⟨47, 12, .rw, 0x0, .V⟩, ⟨1, 1, .rw, 0x0, .V⟩, ⟨0, 0, .rw, 0x1, .V⟩]⟩
  | .PLC_RBSTAT => ⟨0xb, 0x130, 8, 0x40, 1, 0x0, [⟨57, 32, .ro, 0x0, .H⟩, ⟨29, 28, .ro, 0x0, .H⟩, ⟨25, 0, .ro, 0x0, .H⟩]⟩
  | .PLC_SPG => ⟨0xb, 0x138, 8, 0x40, 1, 0x0, [⟨47, 32, .rw, 0x150, .V⟩, ⟨1, 1, .rw, 0x0, .V⟩, ⟨0, 0, .rw, 0x1, .V⟩]⟩
  | .PLC_RKCTL => ⟨0xb, 0x60, 1, 0x0, 1, 0x0, [⟨4, 4, .rw, 0x0, .H⟩, ⟨3, 1, .rw, 0x0, .H⟩, ⟨0, 0, .wo, 0x0, .H⟩]⟩
  | .PLC_RKGEOM => ⟨0xb, 0x68, 1, 0x0, 1, 0x0, [⟨47, 32, .rw, 0x0, .V⟩, ⟨24, 16, .rw, 0x0, .V⟩, ⟨12, 8, .rw, 0x0, .V⟩]⟩
  | .PLC_RKPT => ⟨0xb, 0x70, 1, 0x0, 1, 0x0, [⟨47, 12, .rw, 0x0, .V⟩]⟩
  | .PLC_RKSTAT => ⟨0xb, 0x78, 1, 0x0, 1, 0x0, [⟨40, 40, .w1c, 0x0, .H⟩, ⟨39, 39, .w1c, 0x0, .H⟩, ⟨38, 38, .ro, 0x0, .H⟩, ⟨37, 37, .ro, 0x0, .H⟩, ⟨36, 36, .ro, 0x0, .H⟩, ⟨35, 32, .ro, 0x0, .H⟩, ⟨29, 16, .ro, 0x0, .H⟩, ⟨13, 0, .ro, 0x0, .H⟩]⟩
  | .PLC_BAND => ⟨0xb, 0x400, 8, 0x10, 1, 0x0, [⟨47, 12, .rw, 0x0, .V⟩, ⟨0, 0, .ro, 0x0, .V⟩]⟩
  | .PLC_SPGSTAT => ⟨0xb, 0x408, 8, 0x10, 1, 0x0, [⟨48, 48, .w1c, 0x0, .V⟩, ⟨47, 32, .ro, 0x0, .V⟩, ⟨25, 0, .ro, 0x0, .V⟩]⟩
  | .DRV_HEALTH => ⟨0x17, 0x8, 1, 0x0, 1, 0x0, [⟨31, 16, .rw, 0x40, .V⟩, ⟨7, 0, .rw, 0x3, .V⟩]⟩
  | .DRV_RA => ⟨0x17, 0x10, 1, 0x0, 1, 0x0, [⟨56, 56, .rw, 0x1, .V⟩, ⟨51, 48, .rw, 0x2, .V⟩, ⟨47, 40, .rw, 0xa, .V⟩, ⟨31, 16, .rw, 0x1f4, .V⟩, ⟨15, 0, .rw, 0xc8, .V⟩]⟩
  | .DRV_RA_CNT => ⟨0x17, 0x58, 1, 0x0, 1, 0x0, [⟨47, 0, .rc, 0x0, .H⟩]⟩
  | .DRV_RAWIN_CNT => ⟨0x17, 0x60, 1, 0x0, 1, 0x0, [⟨47, 0, .rc, 0x0, .H⟩]⟩
  | .DRV_DEGR_CNT => ⟨0x17, 0x68, 1, 0x0, 1, 0x0, [⟨47, 0, .rc, 0x0, .H⟩]⟩
  | .DRV_REPAIR_CNT => ⟨0x17, 0x70, 1, 0x0, 1, 0x0, [⟨47, 0, .rc, 0x0, .H⟩]⟩
  | .DRV_CONSIST_CNT => ⟨0x17, 0x78, 1, 0x0, 1, 0x0, [⟨47, 0, .rc, 0x0, .H⟩]⟩
  | .PLC_RBSTRIP_CNT => ⟨0xb, 0x300, 1, 0x0, 1, 0x0, [⟨47, 0, .rc, 0x0, .H⟩]⟩
  | .PLC_LOSTSLOT_CNT => ⟨0xb, 0x308, 1, 0x0, 1, 0x0, [⟨47, 0, .rc, 0x0, .H⟩]⟩
  | .PLC_SPG_REPAIR_CNT => ⟨0xb, 0x310, 1, 0x0, 1, 0x0, [⟨47, 0, .rc, 0x0, .H⟩]⟩
  | .PLC_SPG_UNLOC_CNT => ⟨0xb, 0x318, 1, 0x0, 1, 0x0, [⟨47, 0, .rc, 0x0, .H⟩]⟩
  | .PLC_SPG_TAG_CNT => ⟨0xb, 0x320, 1, 0x0, 1, 0x0, [⟨47, 0, .rc, 0x0, .H⟩]⟩
  | .PLC_SPG_HDR_CNT => ⟨0xb, 0x328, 1, 0x0, 1, 0x0, [⟨47, 0, .rc, 0x0, .H⟩]⟩
  | .PLC_NOSPARE_CNT => ⟨0xb, 0x330, 1, 0x0, 1, 0x0, [⟨47, 0, .rc, 0x0, .H⟩]⟩
  | .ME_SNAPTAB => ⟨0xd, 0x100, 1, 0x0, 1, 0x0, [⟨47, 12, .rw, 0x0, .V⟩]⟩
  | .ME_SNAPCTL => ⟨0xd, 0x108, 1, 0x0, 1, 0x0, [⟨15, 0, .rw, 0x3e8, .V⟩]⟩
  | .ME_SNAPSTAT => ⟨0xd, 0x110, 1, 0x0, 1, 0x0, [⟨56, 32, .ro, 0x0, .H⟩, ⟨24, 0, .ro, 0x0, .H⟩]⟩
  | .ME_CGSTAT => ⟨0xd, 0x118, 1, 0x0, 1, 0x0, [⟨63, 32, .ro, 0x0, .H⟩, ⟨3, 3, .w1c, 0x0, .H⟩, ⟨2, 2, .w1c, 0x0, .H⟩, ⟨1, 0, .ro, 0x0, .H⟩]⟩
  | .TA_STRBASE => ⟨0x12, 0x100, 1, 0x0, 1, 0x0, [⟨47, 12, .rw, 0x0, .V⟩]⟩
  | .TA_STRMAP => ⟨0x12, 0x108, 1, 0x0, 1, 0x0, [⟨47, 12, .rw, 0x0, .V⟩]⟩
  | .TA_STRCTL => ⟨0x12, 0x110, 1, 0x0, 1, 0x0, [⟨19, 16, .rw, 0x8, .V⟩, ⟨15, 8, .rw, 0x10, .V⟩, ⟨0, 0, .rw, 0x0, .V⟩]⟩
  | .TA_STRCMD => ⟨0x12, 0x118, 1, 0x0, 1, 0x0, [⟨16, 16, .wo, 0x0, .H⟩, ⟨11, 0, .rw, 0x0, .H⟩]⟩
  | .HFE_CTL => ⟨0x9, 0x0, 1, 0x0, 1, 0x0, [⟨47, 32, .rw, 0x3e8, .V⟩, ⟨21, 12, .rw, 0x3ff, .V⟩, ⟨11, 8, .rw, 0x0, .V⟩, ⟨3, 3, .rw, 0x0, .V⟩, ⟨2, 2, .rw, 0x0, .V⟩, ⟨1, 1, .rw, 0x0, .V⟩, ⟨0, 0, .rw, 0x0, .H⟩]⟩
  | .HFE_NSTAB => ⟨0x9, 0x8, 1, 0x0, 1, 0x0, [⟨47, 12, .rw, 0x0, .V⟩]⟩
  | .HFE_ATTACH => ⟨0x9, 0x10, 1, 0x0, 1, 0x0, [⟨47, 12, .rw, 0x0, .V⟩]⟩
  | .HFE_RESVTAB => ⟨0x9, 0x18, 1, 0x0, 1, 0x0, [⟨47, 12, .rw, 0x0, .V⟩]⟩
  | .HFE_PASSTAB => ⟨0x9, 0x20, 1, 0x0, 1, 0x0, [⟨47, 12, .rw, 0x0, .V⟩]⟩
  | .HFE_IMG => ⟨0x9, 0x28, 1, 0x0, 1, 0x0, [⟨47, 12, .rw, 0x0, .V⟩]⟩
  | .HFE_SVC => ⟨0x9, 0x30, 1, 0x0, 1, 0x0, [⟨47, 12, .rw, 0x0, .V⟩]⟩
  | .HFE_RXPOOL => ⟨0x9, 0x38, 1, 0x0, 1, 0x0, [⟨47, 12, .rw, 0x0, .V⟩, ⟨11, 0, .rw, 0x0, .V⟩]⟩
  | .HFE_SVCIDX => ⟨0x9, 0x40, 1, 0x0, 1, 0x0, [⟨27, 16, .rw, 0x0, .H⟩, ⟨11, 0, .ro, 0x0, .H⟩]⟩
  | .HFE_SVCCMP => ⟨0x9, 0x48, 1, 0x0, 1, 0x0, [⟨63, 32, .wo, 0x0, .H⟩, ⟨30, 16, .wo, 0x0, .H⟩, ⟨11, 0, .wo, 0x0, .H⟩]⟩
  | .HFE_SANSTAT => ⟨0x9, 0x50, 1, 0x0, 1, 0x0, [⟨18, 16, .rw, 0x0, .V⟩, ⟨15, 0, .rw, 0x0, .V⟩]⟩
  | .HFE_DISC => ⟨0x9, 0x58, 1, 0x0, 1, 0x0, [⟨31, 0, .rw, 0x0, .H⟩]⟩
  | .HFE_STAT => ⟨0x9, 0x60, 1, 0x0, 1, 0x0, [⟨16, 0, .ro, 0x0, .H⟩]⟩
  | .HFE_IOQ => ⟨0x9, 0x68, 1, 0x0, 1, 0x0, [⟨16, 0, .ro, 0x0, .H⟩]⟩
  | .HFE_RDCMD_CNT => ⟨0x9, 0x100, 1, 0x0, 1, 0x0, [⟨47, 0, .rc, 0x0, .H⟩]⟩
  | .HFE_WRCMD_CNT => ⟨0x9, 0x108, 1, 0x0, 1, 0x0, [⟨47, 0, .rc, 0x0, .H⟩]⟩
  | .HFE_RDDU_CNT => ⟨0x9, 0x110, 1, 0x0, 1, 0x0, [⟨47, 0, .rc, 0x0, .H⟩]⟩
  | .HFE_WRDU_CNT => ⟨0x9, 0x118, 1, 0x0, 1, 0x0, [⟨47, 0, .rc, 0x0, .H⟩]⟩
  | .HFE_FREEZE_CNT => ⟨0x9, 0x120, 1, 0x0, 1, 0x0, [⟨47, 0, .rc, 0x0, .H⟩]⟩
  | .HFE_CANCEL_CNT => ⟨0x9, 0x128, 1, 0x0, 1, 0x0, [⟨47, 0, .rc, 0x0, .H⟩]⟩
  | .HFE_HELD_CNT => ⟨0x9, 0x130, 1, 0x0, 1, 0x0, [⟨47, 0, .rc, 0x0, .H⟩]⟩
  | .HFE_KATO_CNT => ⟨0x9, 0x138, 1, 0x0, 1, 0x0, [⟨47, 0, .rc, 0x0, .H⟩]⟩
  | .RXE_CTL => ⟨0xa, 0x0, 1, 0x0, 1, 0x0, [⟨63, 48, .rw, 0x2000, .V⟩, ⟨47, 32, .rw, 0x64, .V⟩, ⟨22, 20, .rw, 0x7, .V⟩, ⟨18, 16, .rw, 0x7, .V⟩, ⟨12, 8, .rw, 0x8, .V⟩, ⟨0, 0, .rw, 0x0, .H⟩]⟩
  | .RXE_STAT => ⟨0xa, 0x8, 1, 0x0, 1, 0x0, [⟨48, 32, .ro, 0x0, .H⟩, ⟨16, 0, .ro, 0x0, .H⟩]⟩
  | .RXE_QPCMD => ⟨0xa, 0x10, 1, 0x0, 1, 0x0, [⟨48, 32, .rw, 0x0, .H⟩, ⟨23, 16, .ro, 0x0, .H⟩, ⟨10, 10, .w1c, 0x0, .H⟩, ⟨9, 9, .w1c, 0x0, .H⟩, ⟨8, 8, .ro, 0x0, .H⟩, ⟨3, 1, .rw, 0x0, .H⟩, ⟨0, 0, .wo, 0x0, .H⟩]⟩
  | .RXE_WINCMD => ⟨0xa, 0x60, 1, 0x0, 1, 0x0, [⟨47, 32, .rw, 0x0, .H⟩, ⟨23, 16, .ro, 0x0, .H⟩, ⟨10, 10, .w1c, 0x0, .H⟩, ⟨9, 9, .w1c, 0x0, .H⟩, ⟨8, 8, .ro, 0x0, .H⟩, ⟨2, 1, .rw, 0x0, .H⟩, ⟨0, 0, .wo, 0x0, .H⟩]⟩
  | .RXE_WINATTR0 => ⟨0xa, 0x68, 1, 0x0, 1, 0x0, [⟨47, 12, .rw, 0x0, .H⟩, ⟨1, 1, .rw, 0x0, .H⟩, ⟨0, 0, .rw, 0x0, .H⟩]⟩
  | .RXE_WINATTR1 => ⟨0xa, 0x70, 1, 0x0, 1, 0x0, [⟨48, 32, .rw, 0x0, .H⟩, ⟨27, 0, .rw, 0x0, .H⟩]⟩
  | .RXE_WINKEY => ⟨0xa, 0x78, 1, 0x0, 1, 0x0, [⟨48, 32, .ro, 0x0, .H⟩, ⟨31, 0, .ro, 0x0, .H⟩]⟩
  | .RXE_CC => ⟨0xa, 0x80, 1, 0x0, 1, 0x0, [⟨63, 63, .rw, 0x1, .V⟩, ⟨59, 40, .rw, 0x64, .V⟩, ⟨39, 32, .rw, 0x4, .V⟩, ⟨31, 24, .rw, 0x37, .V⟩, ⟨23, 16, .rw, 0x32, .V⟩, ⟨15, 0, .rw, 0x1388, .V⟩]⟩
  | .RXE_RAERR_CNT => ⟨0xa, 0x100, 1, 0x0, 1, 0x0, [⟨47, 0, .rc, 0x0, .H⟩]⟩
  | .RXE_QPERR_CNT => ⟨0xa, 0x108, 1, 0x0, 1, 0x0, [⟨47, 0, .rc, 0x0, .H⟩]⟩
  | .RXE_DUP_CNT => ⟨0xa, 0x110, 1, 0x0, 1, 0x0, [⟨47, 0, .rc, 0x0, .H⟩]⟩
  | .RXE_RETRY_CNT => ⟨0xa, 0x118, 1, 0x0, 1, 0x0, [⟨47, 0, .rc, 0x0, .H⟩]⟩
  | .RXE_ICRC_CNT => ⟨0xa, 0x120, 1, 0x0, 1, 0x0, [⟨47, 0, .rc, 0x0, .H⟩]⟩
  | .RXE_NOQP_CNT => ⟨0xa, 0x128, 1, 0x0, 1, 0x0, [⟨47, 0, .rc, 0x0, .H⟩]⟩
  | .RXE_CNPTX_CNT => ⟨0xa, 0x130, 1, 0x0, 1, 0x0, [⟨47, 0, .rc, 0x0, .H⟩]⟩
  | .RXE_CNPRX_CNT => ⟨0xa, 0x138, 1, 0x0, 1, 0x0, [⟨47, 0, .rc, 0x0, .H⟩]⟩
  | .RXE_CMREJ_CNT => ⟨0xa, 0x140, 1, 0x0, 1, 0x0, [⟨47, 0, .rc, 0x0, .H⟩]⟩
  | .SWC_BUF => ⟨0x8, 0x0, 1, 0x0, 1, 0x0, [⟨18, 16, .rw, 0x5, .V⟩, ⟨10, 0, .rw, 0x100, .V⟩]⟩
  | .SWC_CM => ⟨0x8, 0x8, 1, 0x0, 1, 0x0, [⟨31, 31, .rw, 0x1, .V⟩, ⟨16, 0, .rw, 0x800, .V⟩]⟩
  | .SWC_TCW => ⟨0x8, 0x10, 1, 0x0, 1, 0x0, [⟨7, 0, .rw, 0x1, .V⟩, ⟨15, 8, .rw, 0x1, .V⟩, ⟨23, 16, .rw, 0x8, .V⟩, ⟨31, 24, .rw, 0x20, .V⟩, ⟨39, 32, .rw, 0x20, .V⟩, ⟨47, 40, .rw, 0x20, .V⟩, ⟨55, 48, .rw, 0x40, .V⟩]⟩
  | .SWC_STAT => ⟨0x8, 0x18, 1, 0x0, 1, 0x0, [⟨48, 32, .ro, 0x0, .H⟩, ⟨0, 0, .ro, 0x0, .H⟩]⟩
  | .SWC_TAP_CTL => ⟨0x8, 0x40, 1, 0x0, 1, 0x0, [⟨47, 32, .rw, 0x1, .H⟩, ⟨14, 8, .rw, 0x0, .H⟩, ⟨1, 1, .rw, 0x0, .H⟩, ⟨0, 0, .rw, 0x0, .H⟩]⟩
  | .SWC_TAP_MASK => ⟨0x8, 0x48, 1, 0x0, 1, 0x0, [⟨63, 0, .rw, 0x0, .H⟩]⟩
  | .SWC_TAP_MATCH => ⟨0x8, 0x50, 1, 0x0, 1, 0x0, [⟨63, 0, .rw, 0x0, .H⟩]⟩
  | .SWC_TAP_BASE => ⟨0x8, 0x58, 1, 0x0, 1, 0x0, [⟨47, 12, .rw, 0x0, .H⟩]⟩
  | .SWC_TAP_LEN => ⟨0x8, 0x60, 1, 0x0, 1, 0x0, [⟨31, 0, .rw, 0x0, .H⟩]⟩
  | .SWC_TAP_HEAD => ⟨0x8, 0x68, 1, 0x0, 1, 0x0, [⟨31, 0, .ro, 0x0, .H⟩]⟩
  | .SWC_TAP_TAIL => ⟨0x8, 0x70, 1, 0x0, 1, 0x0, [⟨31, 0, .rw, 0x0, .H⟩]⟩
  | .GANG_LNK_CTL => ⟨0x19, 0x100, 3, 0x40, 1, 0x0, [⟨47, 32, .rw, 0xa, .V⟩, ⟨31, 16, .rw, 0x800, .V⟩, ⟨2, 1, .rw, 0x0, .V⟩, ⟨0, 0, .rw, 0x0, .V⟩]⟩
  | .GANG_LNK_STAT => ⟨0x19, 0x108, 3, 0x40, 1, 0x0, [⟨11, 10, .ro, 0x0, .H⟩, ⟨9, 8, .ro, 0x0, .H⟩, ⟨2, 0, .ro, 0x0, .H⟩]⟩
  | .SWC_CM_CNT => ⟨0x8, 0x100, 1, 0x0, 1, 0x0, [⟨47, 0, .rc, 0x0, .H⟩]⟩
  | .SWC_TAPLOST_CNT => ⟨0x8, 0x108, 1, 0x0, 1, 0x0, [⟨47, 0, .rc, 0x0, .H⟩]⟩
  | .SWC_ETHDROP_CNT => ⟨0x8, 0x110, 1, 0x0, 1, 0x0, [⟨47, 0, .rc, 0x0, .H⟩]⟩
  | .SWC_RESEQ_CNT => ⟨0x8, 0x118, 1, 0x0, 1, 0x0, [⟨47, 0, .rc, 0x0, .H⟩]⟩
  | .SWC_ITER_CNT => ⟨0x8, 0x120, 1, 0x0, 1, 0x0, [⟨47, 0, .rc, 0x0, .H⟩]⟩
  | .GANG_LNK_CRC_CNT => ⟨0x19, 0x110, 3, 0x40, 1, 0x0, [⟨47, 0, .rc, 0x0, .H⟩]⟩
  | .GANG_LNK_RETRY_CNT => ⟨0x19, 0x118, 3, 0x40, 1, 0x0, [⟨47, 0, .rc, 0x0, .H⟩]⟩
  | .GANG_LNK_LOCKLOSS_CNT => ⟨0x19, 0x120, 3, 0x40, 1, 0x0, [⟨47, 0, .rc, 0x0, .H⟩]⟩
  | .XE_PLINK_NEXT => ⟨0x10, 0x10, 1, 0x0, 1, 0x0, [⟨63, 32, .rw, 0x0, .H⟩, ⟨31, 16, .rw, 0x0, .H⟩, ⟨5, 5, .w1c, 0x0, .H⟩, ⟨4, 4, .w1c, 0x0, .H⟩, ⟨3, 3, .ro, 0x0, .H⟩, ⟨2, 2, .rw, 0x0, .H⟩, ⟨1, 1, .rw, 0x0, .H⟩, ⟨0, 0, .wo, 0x0, .H⟩]⟩
  | .SYS_HEAD => ⟨0x0, 0x100, 1, 0x0, 1, 0x0, [⟨8, 8, .rw, 0x0, .V⟩, ⟨2, 0, .ro, 0x0, .H⟩]⟩
  | .SYS_PTR_CTL => ⟨0x0, 0x108, 1, 0x0, 1, 0x0, [⟨55, 48, .rw, 0x1, .V⟩, ⟨47, 32, .rw, 0x40, .V⟩, ⟨27, 16, .rw, 0x1e, .V⟩, ⟨0, 0, .rw, 0x1, .V⟩]⟩
  | .SYS_PTR_STAT => ⟨0x0, 0x110, 1, 0x0, 1, 0x0, [⟨17, 17, .ro, 0x0, .H⟩, ⟨16, 16, .ro, 0x0, .H⟩, ⟨13, 12, .ro, 0x0, .H⟩, ⟨10, 8, .ro, 0x0, .H⟩, ⟨5, 5, .ro, 0x0, .H⟩, ⟨4, 4, .ro, 0x0, .H⟩, ⟨3, 0, .ro, 0x0, .H⟩]⟩
  | .SYS_PTR_ARB => ⟨0x0, 0x118, 1, 0x0, 1, 0x0, [⟨23, 16, .rw, 0x0, .V⟩, ⟨11, 8, .rw, 0x0, .V⟩, ⟨7, 0, .rw, 0x0, .V⟩]⟩
  | .SYS_PTR_SEQ => ⟨0x0, 0x120, 1, 0x0, 1, 0x0, [⟨63, 0, .ro, 0x0, .H⟩]⟩
  | .SYS_PTR_LAG => ⟨0x0, 0x128, 1, 0x0, 1, 0x0, [⟨31, 0, .ro, 0x0, .H⟩]⟩
  | .SYS_GRP => ⟨0x0, 0x1000, 1024, 0x8, 1, 0x0, [⟨63, 32, .ro, 0x0, .V⟩, ⟨4, 2, .ro, 0x1, .H⟩, ⟨1, 1, .ro, 0x0, .V⟩, ⟨0, 0, .rw, 0x0, .V⟩]⟩
  | .GANG_CFG => ⟨0x19, 0x0, 1, 0x0, 1, 0x0, [⟨5, 4, .rw, 0x0, .V⟩, ⟨1, 0, .rw, 0x0, .V⟩]⟩
  | .GANG_STAT => ⟨0x19, 0x8, 1, 0x0, 1, 0x0, [⟨3, 0, .ro, 0x0, .H⟩]⟩
  | .SYS_TAKE_CNT => ⟨0x0, 0x200, 1, 0x0, 1, 0x0, [⟨47, 0, .rc, 0x0, .H⟩]⟩
  | .SYS_FAILBACK_CNT => ⟨0x0, 0x208, 1, 0x0, 1, 0x0, [⟨47, 0, .rc, 0x0, .H⟩]⟩
  | .SYS_HBMISS_CNT => ⟨0x0, 0x210, 1, 0x0, 1, 0x0, [⟨47, 0, .rc, 0x0, .H⟩]⟩
  | .SYS_RACE_CNT => ⟨0x0, 0x218, 1, 0x0, 1, 0x0, [⟨47, 0, .rc, 0x0, .H⟩]⟩
  | .SYS_REFWD_CNT => ⟨0x0, 0x220, 1, 0x0, 1, 0x0, [⟨47, 0, .rc, 0x0, .H⟩]⟩
  | .PWR_PSU => ⟨0x2, 0x0, 1, 0x0, 1, 0x0, [⟨16, 16, .w1c, 0x0, .A⟩, ⟨9, 9, .ro, 0x0, .A⟩, ⟨8, 8, .ro, 0x0, .A⟩, ⟨1, 1, .rw, 0x1, .V⟩, ⟨0, 0, .rw, 0x1, .V⟩]⟩
  | .PWR_PF => ⟨0x2, 0x8, 1, 0x0, 1, 0x0, [⟨47, 40, .rw, 0x20, .V⟩, ⟨9, 9, .ro, 0x0, .A⟩, ⟨8, 8, .ro, 0x0, .A⟩, ⟨2, 0, .ro, 0x0, .A⟩]⟩
  | .PWR_VAULT => ⟨0x2, 0x10, 1, 0x0, 1, 0x0, [⟨48, 48, .rw, 0x0, .V⟩, ⟨40, 40, .rw, 0x0, .V⟩, ⟨39, 32, .rw, 0x0, .V⟩, ⟨7, 0, .rw, 0x0, .V⟩, ⟨15, 8, .rw, 0x0, .V⟩, ⟨23, 16, .rw, 0x0, .V⟩, ⟨31, 24, .rw, 0x0, .V⟩]⟩
  | .PWR_VSTAT => ⟨0x2, 0x18, 1, 0x0, 1, 0x0, [⟨9, 9, .ro, 0x0, .A⟩, ⟨8, 8, .ro, 0x0, .A⟩, ⟨3, 0, .ro, 0x0, .A⟩]⟩
  | .PWR_AVS => ⟨0x2, 0x20, 1, 0x0, 1, 0x0, [⟨33, 33, .w1c, 0x0, .A⟩, ⟨32, 32, .rw, 0x1, .V⟩, ⟨23, 16, .rw, 0x0, .V⟩, ⟨9, 0, .ro, 0x2ee, .A⟩]⟩
  | .PWR_DROOP => ⟨0x2, 0x28, 1, 0x0, 1, 0x0, [⟨32, 32, .rw, 0x1, .V⟩, ⟨31, 16, .rw, 0x40, .V⟩, ⟨6, 0, .rw, 0x28, .V⟩]⟩
  | .PWR_DROOPSTAT => ⟨0x2, 0x30, 1, 0x0, 1, 0x0, [⟨31, 0, .ro, 0x0, .H⟩]⟩
  | .THM_CTL => ⟨0x3, 0x0, 1, 0x0, 1, 0x0, [⟨25, 25, .rw, 0x1, .V⟩, ⟨24, 24, .rw, 0x0, .V⟩, ⟨19, 16, .rw, 0x8, .V⟩, ⟨15, 0, .rw, 0x3e8, .V⟩]⟩
  | .THM_LIM => ⟨0x3, 0x8, 1, 0x0, 1, 0x0, [⟨47, 40, .rw, 0x5a, .V⟩, ⟨39, 32, .ro, 0x73, .F⟩, ⟨31, 24, .ro, 0x69, .F⟩, ⟨23, 16, .rw, 0x64, .V⟩, ⟨15, 8, .rw, 0x5f, .V⟩, ⟨7, 0, .rw, 0x5a, .V⟩]⟩
  | .THM_STAT => ⟨0x3, 0x10, 1, 0x0, 1, 0x0, [⟨63, 32, .ro, 0x0, .A⟩, ⟨26, 26, .w1c, 0x0, .A⟩, ⟨25, 25, .ro, 0x0, .H⟩, ⟨24, 24, .ro, 0x0, .H⟩, ⟨20, 16, .ro, 0x0, .A⟩, ⟨15, 0, .ro, 0x0, .A⟩]⟩
  | .THM_SEN => ⟨0x3, 0x100, 32, 0x8, 1, 0x0, [⟨18, 18, .ro, 0x0, .A⟩, ⟨17, 17, .ro, 0x0, .A⟩, ⟨16, 16, .ro, 0x0, .A⟩, ⟨15, 0, .ro, 0x0, .A⟩]⟩
  | .THM_LVL => ⟨0x3, 0x200, 32, 0x8, 1, 0x0, [⟨8, 8, .ro, 0x0, .H⟩, ⟨7, 4, .ro, 0x0, .H⟩, ⟨3, 2, .ro, 0x0, .H⟩, ⟨1, 0, .ro, 0x0, .H⟩]⟩
  | .PWR_PF_CNT => ⟨0x2, 0x100, 1, 0x0, 1, 0x0, [⟨47, 0, .rc, 0x0, .H⟩]⟩
  | .PWR_PSULOSS_CNT => ⟨0x2, 0x108, 1, 0x0, 1, 0x0, [⟨47, 0, .rc, 0x0, .H⟩]⟩
  | .PWR_DROOP_CNT => ⟨0x2, 0x110, 1, 0x0, 1, 0x0, [⟨47, 0, .rc, 0x0, .H⟩]⟩
  | .THM_BROKEN_CNT => ⟨0x3, 0x300, 1, 0x0, 1, 0x0, [⟨47, 0, .rc, 0x0, .H⟩]⟩
  | .THM_THROT_CNT => ⟨0x3, 0x308, 1, 0x0, 1, 0x0, [⟨47, 0, .rc, 0x0, .H⟩]⟩
  | .THM_STOP_CNT => ⟨0x3, 0x310, 1, 0x0, 1, 0x0, [⟨47, 0, .rc, 0x0, .H⟩]⟩
  | .THM_TRIP_CNT => ⟨0x3, 0x318, 1, 0x0, 1, 0x0, [⟨47, 0, .rc, 0x0, .H⟩]⟩
  | .SYS_RSTSRC => ⟨0x0, 0x40, 1, 0x0, 1, 0x0, [⟨47, 32, .ro, 0x0, .A⟩, ⟨31, 16, .ro, 0x0, .A⟩, ⟨7, 0, .ro, 0x0, .A⟩]⟩
  | .SYS_RSTCMD => ⟨0x0, 0x48, 1, 0x0, 1, 0x0, [⟨63, 32, .wo, 0x0, .H⟩, ⟨0, 0, .wo, 0x0, .H⟩]⟩
  | .SYS_SWDT => ⟨0x0, 0x50, 1, 0x0, 1, 0x0, [⟨47, 32, .rw, 0x0, .H⟩, ⟨0, 0, .wo, 0x0, .H⟩]⟩
  | .SYS_CKPT => ⟨0x0, 0x58, 1, 0x0, 1, 0x0, [⟨47, 12, .rw, 0x0, .H⟩, ⟨2, 1, .rw, 0x0, .H⟩, ⟨0, 0, .wo, 0x0, .H⟩]⟩
  | .SYS_CKPTSTAT => ⟨0x0, 0x60, 1, 0x0, 1, 0x0, [⟨63, 32, .ro, 0x0, .H⟩, ⟨15, 12, .ro, 0x0, .H⟩, ⟨11, 8, .ro, 0x0, .H⟩, ⟨2, 2, .w1c, 0x0, .H⟩, ⟨1, 1, .w1c, 0x0, .H⟩, ⟨0, 0, .ro, 0x0, .H⟩]⟩
  | .SYS_CORE => ⟨0x0, 0x68, 1, 0x0, 1, 0x0, [⟨15, 0, .w1s, 0x1, .H⟩]⟩
  | .SYS_CORE_ENTRY => ⟨0x0, 0x70, 1, 0x0, 1, 0x0, [⟨47, 2, .rw, 0x0, .H⟩]⟩
  | .PWR_PSTATE => ⟨0x2, 0x38, 1, 0x0, 1, 0x0, [⟨16, 16, .rw, 0x1, .V⟩, ⟨11, 9, .ro, 0x0, .A⟩, ⟨8, 8, .w1c, 0x0, .A⟩, ⟨5, 4, .ro, 0x0, .A⟩, ⟨1, 0, .wo, 0x0, .A⟩]⟩
  | .UPD_STG => ⟨0x7, 0x0, 1, 0x0, 1, 0x0, [⟨47, 12, .rw, 0x0, .H⟩]⟩
  | .UPD_STGLEN => ⟨0x7, 0x8, 1, 0x0, 1, 0x0, [⟨31, 0, .rw, 0x0, .H⟩]⟩
  | .UPD_CMD => ⟨0x7, 0x10, 1, 0x0, 1, 0x0, [⟨63, 32, .rw, 0x0, .H⟩, ⟨15, 8, .rw, 0x0, .H⟩, ⟨3, 1, .rw, 0x0, .H⟩, ⟨0, 0, .wo, 0x0, .H⟩]⟩
  | .UPD_STAT => ⟨0x7, 0x18, 1, 0x0, 1, 0x0, [⟨15, 8, .ro, 0x0, .H⟩, ⟨3, 3, .ro, 0x0, .H⟩, ⟨2, 2, .w1c, 0x0, .H⟩, ⟨1, 1, .w1c, 0x0, .H⟩, ⟨0, 0, .ro, 0x0, .H⟩]⟩
  | .UPD_ACT => ⟨0x7, 0x20, 1, 0x0, 1, 0x0, [⟨63, 0, .rw, 0x0, .H⟩]⟩
  | .UPD_CTL => ⟨0x7, 0x28, 1, 0x0, 1, 0x0, [⟨47, 32, .rw, 0x7d0, .H⟩, ⟨15, 0, .rw, 0x258, .H⟩]⟩
  | .UPD_BANK => ⟨0x7, 0x30, 1, 0x0, 1, 0x0, [⟨19, 16, .ro, 0x0, .V⟩, ⟨10, 8, .ro, 0x0, .V⟩, ⟨6, 4, .ro, 0x0, .V⟩, ⟨0, 0, .ro, 0x0, .V⟩]⟩
  | .UPD_FUSE => ⟨0x7, 0x38, 1, 0x0, 1, 0x0, [⟨16, 16, .ro, 0x0, .F⟩, ⟨15, 12, .ro, 0x0, .F⟩, ⟨11, 8, .ro, 0x0, .F⟩, ⟨6, 0, .ro, 0x0, .F⟩]⟩
  | .UPD_FMT => ⟨0x7, 0x40, 1, 0x0, 1, 0x0, [⟨39, 0, .ro, 0x0, .H⟩]⟩
  | .UPD_KEYIN => ⟨0x7, 0x80, 4, 0x8, 1, 0x0, [⟨63, 0, .wo, 0x0, .H⟩]⟩
  | .UPD_UKOUT => ⟨0x7, 0xa0, 4, 0x8, 1, 0x0, [⟨63, 0, .ro, 0x0, .H⟩]⟩
  | .SEC_IDPUB => ⟨0x6, 0x2000, 4, 0x8, 1, 0x0, [⟨63, 0, .ro, 0x0, .H⟩]⟩
  | .SEC_ATTNONCE => ⟨0x6, 0x2020, 4, 0x8, 1, 0x0, [⟨63, 0, .wo, 0x0, .H⟩]⟩
  | .SEC_ATTBUF => ⟨0x6, 0x2040, 1, 0x0, 1, 0x0, [⟨47, 12, .rw, 0x0, .H⟩]⟩
  | .SEC_ATTCMD => ⟨0x6, 0x2048, 1, 0x0, 1, 0x0, [⟨31, 16, .ro, 0x0, .H⟩, ⟨3, 3, .w1c, 0x0, .H⟩, ⟨2, 2, .w1c, 0x0, .H⟩, ⟨1, 1, .ro, 0x0, .H⟩, ⟨0, 0, .wo, 0x0, .H⟩]⟩
  | .SEC_ATTSIG => ⟨0x6, 0x2050, 8, 0x8, 1, 0x0, [⟨63, 0, .ro, 0x0, .H⟩]⟩
  | .CEL_CTL => ⟨0x4, 0x0, 1, 0x0, 1, 0x0, [⟨1, 1, .rw, 0x1, .V⟩, ⟨0, 0, .wo, 0x0, .H⟩]⟩
  | .CEL_STAT => ⟨0x4, 0x8, 1, 0x0, 1, 0x0, [⟨53, 50, .ro, 0x0, .A⟩, ⟨49, 49, .w1c, 0x0, .A⟩, ⟨48, 48, .ro, 0x0, .A⟩, ⟨46, 32, .ro, 0x0, .A⟩, ⟨13, 0, .ro, 0x0, .A⟩]⟩
  | .CEL_RPOS => ⟨0x4, 0x10, 1, 0x0, 1, 0x0, [⟨13, 0, .ro, 0x0, .H⟩]⟩
  | .CEL_LOST => ⟨0x4, 0x18, 1, 0x0, 1, 0x0, [⟨47, 32, .ro, 0x0, .A⟩, ⟨31, 0, .ro, 0x0, .A⟩]⟩
  | .CEL_EVQ_CTL => ⟨0x4, 0x100, 16, 0x10, 1, 0x0, [⟨45, 32, .ro, 0x0, .H⟩, ⟨7, 4, .rw, 0x0, .V⟩, ⟨3, 3, .rw, 0x0, .V⟩, ⟨2, 0, .rw, 0x0, .V⟩]⟩
  | .CEL_EVQ_POP => ⟨0x4, 0x108, 16, 0x10, 1, 0x0, [⟨63, 32, .rc, 0x0, .H⟩, ⟨31, 16, .rc, 0x0, .H⟩, ⟨15, 15, .rc, 0x0, .H⟩, ⟨12, 0, .rc, 0x0, .H⟩]⟩
  | .CEL_EVRAISE => ⟨0x4, 0x300, 1, 0x0, 1, 0x0, [⟨63, 32, .wo, 0x0, .H⟩, ⟨12, 0, .wo, 0x0, .H⟩]⟩
  | .CEL_EVRT => ⟨0x4, 0x10000, 8192, 0x8, 1, 0x0, [⟨6, 6, .ro, 0x0, .H⟩, ⟨5, 5, .rw, 0x0, .V⟩, ⟨4, 4, .rw, 0x0, .V⟩, ⟨3, 0, .rw, 0x0, .V⟩]⟩
  | .PMC_FREEZE => ⟨0x5, 0x0, 1, 0x0, 1, 0x0, [⟨1, 1, .rw, 0x0, .H⟩, ⟨0, 0, .rw, 0x0, .H⟩]⟩
  | .PMC_SNAP => ⟨0x5, 0x8, 1, 0x0, 1, 0x0, [⟨1, 1, .rw, 0x0, .H⟩, ⟨0, 0, .wo, 0x0, .H⟩]⟩
  | .PMC_SNAPTIME => ⟨0x5, 0x10, 1, 0x0, 1, 0x0, [⟨63, 0, .ro, 0x0, .H⟩]⟩
  | .PMC_STAT => ⟨0x5, 0x18, 1, 0x0, 1, 0x0, [⟨0, 0, .w1c, 0x0, .H⟩]⟩
  | .PMC_OVF => ⟨0x5, 0x100, 16, 0x8, 1, 0x0, [⟨63, 0, .w1c, 0x0, .H⟩]⟩
  | .PMC_CNT => ⟨0x5, 0x2000, 1024, 0x8, 1, 0x0, [⟨47, 0, .rw, 0x0, .H⟩]⟩
  | .PMC_SHD => ⟨0x5, 0x4000, 1024, 0x8, 1, 0x0, [⟨47, 0, .ro, 0x0, .H⟩]⟩
  | .PMC_SEL => ⟨0x5, 0x6000, 1024, 0x8, 1, 0x0, [⟨35, 27, .rw, 0x0, .H⟩, ⟨26, 26, .rw, 0x0, .H⟩, ⟨18, 18, .rw, 0x0, .H⟩, ⟨17, 17, .rw, 0x0, .H⟩, ⟨16, 16, .rw, 0x0, .H⟩, ⟨15, 0, .rw, 0x0, .H⟩]⟩
  | .CLK_REF => ⟨0x1, 0x0, 1, 0x0, 1, 0x0, [⟨11, 11, .w1c, 0x0, .A⟩, ⟨10, 10, .ro, 0x0, .A⟩, ⟨9, 9, .ro, 0x0, .A⟩, ⟨8, 8, .ro, 0x0, .A⟩, ⟨0, 0, .rw, 0x0, .V⟩]⟩
  | .LANE_HCFG => ⟨0x14, 0x0, 1, 0x0, 1, 0x0, [⟨1, 0, .rw, 0x0, .V⟩]⟩
  | .LANE_GCFG => ⟨0x14, 0x8, 1, 0x0, 1, 0x0, [⟨4, 2, .rw, 0x0, .V⟩, ⟨1, 0, .rw, 0x0, .V⟩]⟩
  | .LANE_DCFG => ⟨0x14, 0x10, 2, 0x8, 1, 0x0, [⟨63, 0, .rw, 0x5555555555555555, .V⟩]⟩
  | .MGT_PPSIN => ⟨0x1a, 0x108, 1, 0x0, 1, 0x0, [⟨63, 0, .ro, 0x0, .A⟩]⟩
  | .MGT_PMB => ⟨0x1a, 0x110, 1, 0x0, 1, 0x0, [⟨55, 0, .rw, 0x0, .V⟩]⟩
  | .FSQ_FAULT_CNT => ⟨0xc, 0x18, 1, 0x0, 1, 0x0, [⟨31, 0, .rc, 0x0, .H⟩]⟩
  | .FSQ_FLT_STAT => ⟨0xc, 0x20, 1, 0x0, 1, 0x0, [⟨1, 1, .w1c, 0x0, .H⟩, ⟨0, 0, .w1c, 0x0, .H⟩]⟩
  | .FSQ_BUNG_EPOCH => ⟨0xc, 0x1110, 1, 0x0, 1, 0x0, [⟨31, 0, .ro, 0x0, .H⟩]⟩
  | .RXE_QPATTR => ⟨0xa, 0x20, 8, 0x8, 1, 0x0, [⟨63, 0, .rw, 0x0, .H⟩]⟩
  | .CEL_WIN => ⟨0x4, 0x20, 4, 0x8, 1, 0x0, [⟨63, 0, .ro, 0x0, .H⟩]⟩
  | .CEL_SWREC => ⟨0x4, 0x40, 4, 0x8, 1, 0x0, [⟨63, 0, .wo, 0x0, .H⟩]⟩
  | .MGT_SMB => ⟨0x1a, 0x100, 1, 0x0, 1, 0x0, [⟨6, 0, .rw, 0x4c, .V⟩]⟩
  | .ME_COW_CNT => ⟨0xd, 0x140, 1, 0x0, 1, 0x0, [⟨47, 0, .rc, 0x0, .H⟩]⟩
  | .ME_CUT_CNT => ⟨0xd, 0x148, 1, 0x0, 1, 0x0, [⟨47, 0, .rc, 0x0, .H⟩]⟩
  | .ME_PGFREE_CNT => ⟨0xd, 0x150, 1, 0x0, 1, 0x0, [⟨47, 0, .rc, 0x0, .H⟩]⟩
  | .ME_DIFFPG_CNT => ⟨0xd, 0x158, 1, 0x0, 1, 0x0, [⟨47, 0, .rc, 0x0, .H⟩]⟩
  | .TA_STRSPAWN_CNT => ⟨0x12, 0x140, 1, 0x0, 1, 0x0, [⟨47, 0, .rc, 0x0, .H⟩]⟩
  | .TA_STRWAIT_CNT => ⟨0x12, 0x148, 1, 0x0, 1, 0x0, [⟨47, 0, .rc, 0x0, .H⟩]⟩
  | .TA_STRBRK_CNT => ⟨0x12, 0x150, 1, 0x0, 1, 0x0, [⟨47, 0, .rc, 0x0, .H⟩]⟩

/-- A named field of a register. -/
structure Fld where
  reg : RegName
  hi : Nat
  lo : Nat
  deriving DecidableEq, Repr

namespace F
/-- R3: SYS_ID.VENDOR. -/
abbrev SYS_ID_VENDOR : Fld := ⟨.SYS_ID, 63, 48⟩
/-- R3: SYS_ID.PART. -/
abbrev SYS_ID_PART : Fld := ⟨.SYS_ID, 47, 32⟩
/-- R3: SYS_ID.MEMBER. -/
abbrev SYS_ID_MEMBER : Fld := ⟨.SYS_ID, 31, 24⟩
/-- R3: SYS_ID.STEP_MAJ. -/
abbrev SYS_ID_STEP_MAJ : Fld := ⟨.SYS_ID, 23, 16⟩
/-- R3: SYS_ID.STEP_MIN. -/
abbrev SYS_ID_STEP_MIN : Fld := ⟨.SYS_ID, 15, 8⟩
/-- R4: SYS_CAP0.GANGMAX. -/
abbrev SYS_CAP0_GANGMAX : Fld := ⟨.SYS_CAP0, 55, 48⟩
/-- R4: SYS_CAP0.HBMSTK. -/
abbrev SYS_CAP0_HBMSTK : Fld := ⟨.SYS_CAP0, 47, 40⟩
/-- R4: SYS_CAP0.DDRCH. -/
abbrev SYS_CAP0_DDRCH : Fld := ⟨.SYS_CAP0, 39, 36⟩
/-- R4: SYS_CAP0.STEW. -/
abbrev SYS_CAP0_STEW : Fld := ⟨.SYS_CAP0, 35, 28⟩
/-- R4: SYS_CAP0.FSQ. -/
abbrev SYS_CAP0_FSQ : Fld := ⟨.SYS_CAP0, 27, 16⟩
/-- R4: SYS_CAP0.LANES. -/
abbrev SYS_CAP0_LANES : Fld := ⟨.SYS_CAP0, 15, 0⟩
/-- R5: SYS_CAP1.PARITY. -/
abbrev SYS_CAP1_PARITY : Fld := ⟨.SYS_CAP1, 63, 56⟩
/-- R5: SYS_CAP1.CIPHER. -/
abbrev SYS_CAP1_CIPHER : Fld := ⟨.SYS_CAP1, 55, 48⟩
/-- R5: SYS_CAP1.COMP. -/
abbrev SYS_CAP1_COMP : Fld := ⟨.SYS_CAP1, 47, 40⟩
/-- R5: SYS_CAP1.GRIST. -/
abbrev SYS_CAP1_GRIST : Fld := ⟨.SYS_CAP1, 39, 32⟩
/-- R5: SYS_CAP1.HBM_GIB. -/
abbrev SYS_CAP1_HBM_GIB : Fld := ⟨.SYS_CAP1, 31, 16⟩
/-- R5: SYS_CAP1.SRAM_MIB. -/
abbrev SYS_CAP1_SRAM_MIB : Fld := ⟨.SYS_CAP1, 15, 0⟩
/-- R6: SYS_CAP2.FSTORE_MIB. -/
abbrev SYS_CAP2_FSTORE_MIB : Fld := ⟨.SYS_CAP2, 63, 56⟩
/-- R6: SYS_CAP2.DMOV. -/
abbrev SYS_CAP2_DMOV : Fld := ⟨.SYS_CAP2, 55, 48⟩
/-- R6: SYS_CAP2.LAUTER. -/
abbrev SYS_CAP2_LAUTER : Fld := ⟨.SYS_CAP2, 47, 40⟩
/-- R6: SYS_CAP2.MAPPIPES. -/
abbrev SYS_CAP2_MAPPIPES : Fld := ⟨.SYS_CAP2, 39, 32⟩
/-- R6: SYS_CAP2.FLOWCTX. -/
abbrev SYS_CAP2_FLOWCTX : Fld := ⟨.SYS_CAP2, 23, 0⟩
/-- R85: FSQ_CTL.EN. -/
abbrev FSQ_CTL_EN : Fld := ⟨.FSQ_CTL, 0, 0⟩
/-- R86: FSQ_STAT.RESIDENT. -/
abbrev FSQ_STAT_RESIDENT : Fld := ⟨.FSQ_STAT, 48, 32⟩
/-- R86: FSQ_STAT.QUEUED. -/
abbrev FSQ_STAT_QUEUED : Fld := ⟨.FSQ_STAT, 22, 0⟩
/-- R87: FSQ_WDT.TKAGE. -/
abbrev FSQ_WDT_TKAGE : Fld := ⟨.FSQ_WDT, 47, 32⟩
/-- R87: FSQ_WDT.BUDGET. -/
abbrev FSQ_WDT_BUDGET : Fld := ⟨.FSQ_WDT, 15, 0⟩
/-- R88: FSQ_FLT0.CTX. -/
abbrev FSQ_FLT0_CTX : Fld := ⟨.FSQ_FLT0, 37, 16⟩
/-- R88: FSQ_FLT0.SEQ. -/
abbrev FSQ_FLT0_SEQ : Fld := ⟨.FSQ_FLT0, 15, 8⟩
/-- R88: FSQ_FLT0.CODE. -/
abbrev FSQ_FLT0_CODE : Fld := ⟨.FSQ_FLT0, 7, 0⟩
/-- R88: FSQ_FLT1.INSN. -/
abbrev FSQ_FLT1_INSN : Fld := ⟨.FSQ_FLT1, 63, 32⟩
/-- R88: FSQ_FLT1.PC. -/
abbrev FSQ_FLT1_PC : Fld := ⟨.FSQ_FLT1, 31, 0⟩
/-- R88: FSQ_FLT2.ADDR. -/
abbrev FSQ_FLT2_ADDR : Fld := ⟨.FSQ_FLT2, 47, 0⟩
/-- R89: FSQ_FWIN_BASE.BASE. -/
abbrev FSQ_FWIN_BASE_BASE : Fld := ⟨.FSQ_FWIN_BASE, 47, 12⟩
/-- R89: FSQ_FWIN_BASE.WR. -/
abbrev FSQ_FWIN_BASE_WR : Fld := ⟨.FSQ_FWIN_BASE, 1, 1⟩
/-- R89: FSQ_FWIN_BASE.RD. -/
abbrev FSQ_FWIN_BASE_RD : Fld := ⟨.FSQ_FWIN_BASE, 0, 0⟩
/-- R89: FSQ_FWIN_LIM.LAST. -/
abbrev FSQ_FWIN_LIM_LAST : Fld := ⟨.FSQ_FWIN_LIM, 47, 12⟩
/-- R117: FSQ_PSET_CTL.BANKSEL. -/
abbrev FSQ_PSET_CTL_BANKSEL : Fld := ⟨.FSQ_PSET_CTL, 29, 29⟩
/-- R117: FSQ_PSET_CTL.ENTRIES. -/
abbrev FSQ_PSET_CTL_ENTRIES : Fld := ⟨.FSQ_PSET_CTL, 28, 16⟩
/-- R117: FSQ_PSET_CTL.ACTIVE. -/
abbrev FSQ_PSET_CTL_ACTIVE : Fld := ⟨.FSQ_PSET_CTL, 0, 0⟩
/-- R118: FSQ_ENTRY.OFF_HI. -/
abbrev FSQ_ENTRY_OFF_HI : Fld := ⟨.FSQ_ENTRY, 54, 32⟩
/-- R118: FSQ_ENTRY.OFF_LO. -/
abbrev FSQ_ENTRY_OFF_LO : Fld := ⟨.FSQ_ENTRY, 22, 0⟩
/-- R119: FSQ_BIND.E3. -/
abbrev FSQ_BIND_E3 : Fld := ⟨.FSQ_BIND, 63, 48⟩
/-- R119: FSQ_BIND.E2. -/
abbrev FSQ_BIND_E2 : Fld := ⟨.FSQ_BIND, 47, 32⟩
/-- R119: FSQ_BIND.E1. -/
abbrev FSQ_BIND_E1 : Fld := ⟨.FSQ_BIND, 31, 16⟩
/-- R119: FSQ_BIND.E0. -/
abbrev FSQ_BIND_E0 : Fld := ⟨.FSQ_BIND, 15, 0⟩
/-- R120: FSQ_BUNG_CTL.STAGED. -/
abbrev FSQ_BUNG_CTL_STAGED : Fld := ⟨.FSQ_BUNG_CTL, 2, 2⟩
/-- R120: FSQ_BUNG_CTL.PAIR. -/
abbrev FSQ_BUNG_CTL_PAIR : Fld := ⟨.FSQ_BUNG_CTL, 1, 1⟩
/-- R120: FSQ_BUNG_CTL.GO. -/
abbrev FSQ_BUNG_CTL_GO : Fld := ⟨.FSQ_BUNG_CTL, 0, 0⟩
/-- R121: FSQ_BUNG_STAT.OLDCTX. -/
abbrev FSQ_BUNG_STAT_OLDCTX : Fld := ⟨.FSQ_BUNG_STAT, 54, 32⟩
/-- R121: FSQ_BUNG_STAT.PENDSEQ. -/
abbrev FSQ_BUNG_STAT_PENDSEQ : Fld := ⟨.FSQ_BUNG_STAT, 24, 16⟩
/-- R121: FSQ_BUNG_STAT.PSTATE. -/
abbrev FSQ_BUNG_STAT_PSTATE : Fld := ⟨.FSQ_BUNG_STAT, 7, 6⟩
/-- R121: FSQ_BUNG_STAT.SOLO. -/
abbrev FSQ_BUNG_STAT_SOLO : Fld := ⟨.FSQ_BUNG_STAT, 4, 4⟩
/-- R121: FSQ_BUNG_STAT.REFUSED. -/
abbrev FSQ_BUNG_STAT_REFUSED : Fld := ⟨.FSQ_BUNG_STAT, 3, 3⟩
/-- R121: FSQ_BUNG_STAT.ROLLBACK. -/
abbrev FSQ_BUNG_STAT_ROLLBACK : Fld := ⟨.FSQ_BUNG_STAT, 2, 2⟩
/-- R121: FSQ_BUNG_STAT.DONE. -/
abbrev FSQ_BUNG_STAT_DONE : Fld := ⟨.FSQ_BUNG_STAT, 1, 1⟩
/-- R121: FSQ_BUNG_STAT.BUSY. -/
abbrev FSQ_BUNG_STAT_BUSY : Fld := ⟨.FSQ_BUNG_STAT, 0, 0⟩
/-- R156: ME_CTL.PFDIST. -/
abbrev ME_CTL_PFDIST : Fld := ⟨.ME_CTL, 15, 8⟩
/-- R156: ME_CTL.PFEN. -/
abbrev ME_CTL_PFEN : Fld := ⟨.ME_CTL, 1, 1⟩
/-- R156: ME_CTL.EN. -/
abbrev ME_CTL_EN : Fld := ⟨.ME_CTL, 0, 0⟩
/-- R156: ME_RSV.MIB. -/
abbrev ME_RSV_MIB : Fld := ⟨.ME_RSV, 15, 0⟩
/-- R156: ME_FRAMES.DDR. -/
abbrev ME_FRAMES_DDR : Fld := ⟨.ME_FRAMES, 63, 32⟩
/-- R156: ME_FRAMES.HBM. -/
abbrev ME_FRAMES_HBM : Fld := ⟨.ME_FRAMES, 31, 0⟩
/-- R156: ME_DDRPG.GIB. -/
abbrev ME_DDRPG_GIB : Fld := ⟨.ME_DDRPG, 63, 48⟩
/-- R156: ME_DDRPG.BASE. -/
abbrev ME_DDRPG_BASE : Fld := ⟨.ME_DDRPG, 47, 12⟩
/-- R156: ME_FREE.DIRTY. -/
abbrev ME_FREE_DIRTY : Fld := ⟨.ME_FREE, 63, 32⟩
/-- R156: ME_FREE.FREE. -/
abbrev ME_FREE_FREE : Fld := ⟨.ME_FREE, 31, 0⟩
/-- R156: ME_FAULT.OUT. -/
abbrev ME_FAULT_OUT : Fld := ⟨.ME_FAULT, 19, 0⟩
/-- R156: ME_CKPT_SEQ.SEQ. -/
abbrev ME_CKPT_SEQ_SEQ : Fld := ⟨.ME_CKPT_SEQ, 63, 0⟩
/-- R156: ME_LOST.COUNT. -/
abbrev ME_LOST_COUNT : Fld := ⟨.ME_LOST, 31, 0⟩
/-- R157: MC_CTL.WAYLOCK. -/
abbrev MC_CTL_WAYLOCK : Fld := ⟨.MC_CTL, 31, 16⟩
/-- R157: MC_CTL.EN. -/
abbrev MC_CTL_EN : Fld := ⟨.MC_CTL, 0, 0⟩
/-- R157: MC_STAT.WLREFUSED. -/
abbrev MC_STAT_WLREFUSED : Fld := ⟨.MC_STAT, 4, 4⟩
/-- R157: MC_STAT.MREFUSED. -/
abbrev MC_STAT_MREFUSED : Fld := ⟨.MC_STAT, 3, 3⟩
/-- R157: MC_STAT.DISBUSY. -/
abbrev MC_STAT_DISBUSY : Fld := ⟨.MC_STAT, 2, 2⟩
/-- R157: MC_STAT.INVOK. -/
abbrev MC_STAT_INVOK : Fld := ⟨.MC_STAT, 1, 1⟩
/-- R157: MC_STAT.ENFAIL. -/
abbrev MC_STAT_ENFAIL : Fld := ⟨.MC_STAT, 0, 0⟩
/-- R157: MC_MAINT.DONE. -/
abbrev MC_MAINT_DONE : Fld := ⟨.MC_MAINT, 9, 9⟩
/-- R157: MC_MAINT.BUSY. -/
abbrev MC_MAINT_BUSY : Fld := ⟨.MC_MAINT, 8, 8⟩
/-- R157: MC_MAINT.FORCE. -/
abbrev MC_MAINT_FORCE : Fld := ⟨.MC_MAINT, 4, 4⟩
/-- R157: MC_MAINT.ALL. -/
abbrev MC_MAINT_ALL : Fld := ⟨.MC_MAINT, 3, 3⟩
/-- R157: MC_MAINT.OP. -/
abbrev MC_MAINT_OP : Fld := ⟨.MC_MAINT, 2, 1⟩
/-- R157: MC_MAINT.GO. -/
abbrev MC_MAINT_GO : Fld := ⟨.MC_MAINT, 0, 0⟩
/-- R157: MC_MAINT_BASE.BASE. -/
abbrev MC_MAINT_BASE_BASE : Fld := ⟨.MC_MAINT_BASE, 47, 8⟩
/-- R157: MC_MAINT_LEN.LEN. -/
abbrev MC_MAINT_LEN_LEN : Fld := ⟨.MC_MAINT_LEN, 39, 8⟩
/-- R157: MC_MAINT_SKIPPED.COUNT. -/
abbrev MC_MAINT_SKIPPED_COUNT : Fld := ⟨.MC_MAINT_SKIPPED, 31, 0⟩
/-- R157: MC_MAINT_SKADDR.ADDR. -/
abbrev MC_MAINT_SKADDR_ADDR : Fld := ⟨.MC_MAINT_SKADDR, 47, 8⟩
/-- R184: GL_CTL.ADMITEN. -/
abbrev GL_CTL_ADMITEN : Fld := ⟨.GL_CTL, 1, 1⟩
/-- R184: GL_CTL.EN. -/
abbrev GL_CTL_EN : Fld := ⟨.GL_CTL, 0, 0⟩
/-- R184: GL_FCAP.LOG2E. -/
abbrev GL_FCAP_LOG2E : Fld := ⟨.GL_FCAP, 5, 0⟩
/-- R184: GL_FSTAT.HELD. -/
abbrev GL_FSTAT_HELD : Fld := ⟨.GL_FSTAT, 40, 0⟩
/-- R184: GL_BCMP.CLASS. -/
abbrev GL_BCMP_CLASS : Fld := ⟨.GL_BCMP, 63, 0⟩
/-- R184: GL_ADMIT.WINDOW. -/
abbrev GL_ADMIT_WINDOW : Fld := ⟨.GL_ADMIT, 39, 16⟩
/-- R184: GL_ADMIT.THRESH. -/
abbrev GL_ADMIT_THRESH : Fld := ⟨.GL_ADMIT, 15, 0⟩
/-- R184: GL_BUILD.QUEUED. -/
abbrev GL_BUILD_QUEUED : Fld := ⟨.GL_BUILD, 47, 32⟩
/-- R184: GL_BUILD.BUSY. -/
abbrev GL_BUILD_BUSY : Fld := ⟨.GL_BUILD, 16, 16⟩
/-- R184: GL_BUILD.POOL. -/
abbrev GL_BUILD_POOL : Fld := ⟨.GL_BUILD, 12, 10⟩
/-- R184: GL_BUILD.GROUP. -/
abbrev GL_BUILD_GROUP : Fld := ⟨.GL_BUILD, 9, 0⟩
/-- R207: CE_SKIP.EN. -/
abbrev CE_SKIP_EN : Fld := ⟨.CE_SKIP, 48, 48⟩
/-- R207: CE_SKIP.THRESH. -/
abbrev CE_SKIP_THRESH : Fld := ⟨.CE_SKIP, 47, 40⟩
/-- R207: CE_SKIP.PROBE. -/
abbrev CE_SKIP_PROBE : Fld := ⟨.CE_SKIP, 39, 32⟩
/-- R207: CE_SKIP.LMAX. -/
abbrev CE_SKIP_LMAX : Fld := ⟨.CE_SKIP, 20, 16⟩
/-- R207: CE_SKIP.LMIN. -/
abbrev CE_SKIP_LMIN : Fld := ⟨.CE_SKIP, 12, 8⟩
/-- R207: CE_SKIPX.CLASS. -/
abbrev CE_SKIPX_CLASS : Fld := ⟨.CE_SKIPX, 63, 0⟩
/-- R207: CE_WIN.OPEN. -/
abbrev CE_WIN_OPEN : Fld := ⟨.CE_WIN, 18, 0⟩
/-- R228: SEC_KEYIN.DATA. -/
abbrev SEC_KEYIN_DATA : Fld := ⟨.SEC_KEYIN, 63, 0⟩
/-- R228: SEC_KEYCMD.SLOT. -/
abbrev SEC_KEYCMD_SLOT : Fld := ⟨.SEC_KEYCMD, 31, 16⟩
/-- R228: SEC_KEYCMD.OP. -/
abbrev SEC_KEYCMD_OP : Fld := ⟨.SEC_KEYCMD, 3, 1⟩
/-- R228: SEC_KEYCMD.GO. -/
abbrev SEC_KEYCMD_GO : Fld := ⟨.SEC_KEYCMD, 0, 0⟩
/-- R228: SEC_KEYSTAT.MINSERIAL. -/
abbrev SEC_KEYSTAT_MINSERIAL : Fld := ⟨.SEC_KEYSTAT, 63, 32⟩
/-- R228: SEC_KEYSTAT.ERR. -/
abbrev SEC_KEYSTAT_ERR : Fld := ⟨.SEC_KEYSTAT, 15, 8⟩
/-- R228: SEC_KEYSTAT.REFUSED. -/
abbrev SEC_KEYSTAT_REFUSED : Fld := ⟨.SEC_KEYSTAT, 2, 2⟩
/-- R228: SEC_KEYSTAT.DONE. -/
abbrev SEC_KEYSTAT_DONE : Fld := ⟨.SEC_KEYSTAT, 1, 1⟩
/-- R228: SEC_KEYSTAT.BUSY. -/
abbrev SEC_KEYSTAT_BUSY : Fld := ⟨.SEC_KEYSTAT, 0, 0⟩
/-- R228: SEC_KEYOUT.DATA. -/
abbrev SEC_KEYOUT_DATA : Fld := ⟨.SEC_KEYOUT, 63, 0⟩
/-- R228: SEC_KEYCNT.LOADED. -/
abbrev SEC_KEYCNT_LOADED : Fld := ⟨.SEC_KEYCNT, 16, 0⟩
/-- R229: XE_SCA.SHUF. -/
abbrev XE_SCA_SHUF : Fld := ⟨.XE_SCA, 4, 4⟩
/-- R229: XE_SCA.DUMMY. -/
abbrev XE_SCA_DUMMY : Fld := ⟨.XE_SCA, 3, 0⟩
/-- R229: XE_PLINK.EPOCH. -/
abbrev XE_PLINK_EPOCH : Fld := ⟨.XE_PLINK, 63, 32⟩
/-- R229: XE_PLINK.KEYSLOT. -/
abbrev XE_PLINK_KEYSLOT : Fld := ⟨.XE_PLINK, 31, 16⟩
/-- R229: XE_PLINK.EN. -/
abbrev XE_PLINK_EN : Fld := ⟨.XE_PLINK, 0, 0⟩
/-- R263: TA_CTL.SEALUS. -/
abbrev TA_CTL_SEALUS : Fld := ⟨.TA_CTL, 47, 32⟩
/-- R263: TA_CTL.OPENMAX. -/
abbrev TA_CTL_OPENMAX : Fld := ⟨.TA_CTL, 15, 8⟩
/-- R263: TA_CTL.SOLO. -/
abbrev TA_CTL_SOLO : Fld := ⟨.TA_CTL, 1, 1⟩
/-- R263: TA_CTL.EN. -/
abbrev TA_CTL_EN : Fld := ⟨.TA_CTL, 0, 0⟩
/-- R263: TA_JCFG.TUNS. -/
abbrev TA_JCFG_TUNS : Fld := ⟨.TA_JCFG, 8, 0⟩
/-- R263: TA_JSEQ.NEXT. -/
abbrev TA_JSEQ_NEXT : Fld := ⟨.TA_JSEQ, 63, 0⟩
/-- R263: TA_JTAIL.OLDEST. -/
abbrev TA_JTAIL_OLDEST : Fld := ⟨.TA_JTAIL, 63, 0⟩
/-- R263: TA_JFILL.BYTES. -/
abbrev TA_JFILL_BYTES : Fld := ⟨.TA_JFILL, 34, 0⟩
/-- R263: TA_LEES.MAXSEG. -/
abbrev TA_LEES_MAXSEG : Fld := ⟨.TA_LEES, 47, 32⟩
/-- R263: TA_LEES.HARD. -/
abbrev TA_LEES_HARD : Fld := ⟨.TA_LEES, 23, 16⟩
/-- R263: TA_LEES.LOW. -/
abbrev TA_LEES_LOW : Fld := ⟨.TA_LEES, 15, 8⟩
/-- R263: TA_LEES.EN. -/
abbrev TA_LEES_EN : Fld := ⟨.TA_LEES, 0, 0⟩
/-- R263: TA_STAT.IMGFREE. -/
abbrev TA_STAT_IMGFREE : Fld := ⟨.TA_STAT, 40, 32⟩
/-- R263: TA_STAT.SEALING. -/
abbrev TA_STAT_SEALING : Fld := ⟨.TA_STAT, 24, 16⟩
/-- R263: TA_STAT.OPEN. -/
abbrev TA_STAT_OPEN : Fld := ⟨.TA_STAT, 8, 0⟩
/-- R264: PLC_GEOM.EPOCHCH. -/
abbrev PLC_GEOM_EPOCHCH : Fld := ⟨.PLC_GEOM, 47, 32⟩
/-- R264: PLC_GEOM.MEMBERS. -/
abbrev PLC_GEOM_MEMBERS : Fld := ⟨.PLC_GEOM, 24, 16⟩
/-- R264: PLC_GEOM.K. -/
abbrev PLC_GEOM_K : Fld := ⟨.PLC_GEOM, 12, 8⟩
/-- R264: PLC_GEOM.EN. -/
abbrev PLC_GEOM_EN : Fld := ⟨.PLC_GEOM, 0, 0⟩
/-- R264: PLC_SPARE.SPARECH. -/
abbrev PLC_SPARE_SPARECH : Fld := ⟨.PLC_SPARE, 31, 0⟩
/-- R264: PLC_FRAMES.TOTAL. -/
abbrev PLC_FRAMES_TOTAL : Fld := ⟨.PLC_FRAMES, 63, 32⟩
/-- R264: PLC_FRAMES.FREE. -/
abbrev PLC_FRAMES_FREE : Fld := ⟨.PLC_FRAMES, 31, 0⟩
/-- R264: PLC_SST.BASE. -/
abbrev PLC_SST_BASE : Fld := ⟨.PLC_SST, 47, 12⟩
/-- R264: PLC_FWD.BASE. -/
abbrev PLC_FWD_BASE : Fld := ⟨.PLC_FWD, 47, 12⟩
/-- R264: PLC_FWD.GIB. -/
abbrev PLC_FWD_GIB : Fld := ⟨.PLC_FWD, 11, 0⟩
/-- R264: PLC_PTADDR.BASE. -/
abbrev PLC_PTADDR_BASE : Fld := ⟨.PLC_PTADDR, 47, 12⟩
/-- R264: PLC_PTCMD.POOL. -/
abbrev PLC_PTCMD_POOL : Fld := ⟨.PLC_PTCMD, 3, 1⟩
/-- R264: PLC_PTCMD.GO. -/
abbrev PLC_PTCMD_GO : Fld := ⟨.PLC_PTCMD, 0, 0⟩
/-- R264: PLC_PTSTAT.ERR. -/
abbrev PLC_PTSTAT_ERR : Fld := ⟨.PLC_PTSTAT, 31, 16⟩
/-- R264: PLC_PTSTAT.REFUSED. -/
abbrev PLC_PTSTAT_REFUSED : Fld := ⟨.PLC_PTSTAT, 1, 1⟩
/-- R264: PLC_PTSTAT.DONE. -/
abbrev PLC_PTSTAT_DONE : Fld := ⟨.PLC_PTSTAT, 0, 0⟩
/-- R264: PLC_MEM.CHUNKS. -/
abbrev PLC_MEM_CHUNKS : Fld := ⟨.PLC_MEM, 63, 32⟩
/-- R264: PLC_MEM.NSID. -/
abbrev PLC_MEM_NSID : Fld := ⟨.PLC_MEM, 27, 24⟩
/-- R264: PLC_MEM.DEV. -/
abbrev PLC_MEM_DEV : Fld := ⟨.PLC_MEM, 23, 16⟩
/-- R264: PLC_MEM.STATE. -/
abbrev PLC_MEM_STATE : Fld := ⟨.PLC_MEM, 11, 8⟩
/-- R264: PLC_MEM.PORT. -/
abbrev PLC_MEM_PORT : Fld := ⟨.PLC_MEM, 7, 0⟩
/-- R265: DRV_CTL.RTMO. -/
abbrev DRV_CTL_RTMO : Fld := ⟨.DRV_CTL, 31, 16⟩
/-- R265: DRV_CTL.WTMO. -/
abbrev DRV_CTL_WTMO : Fld := ⟨.DRV_CTL, 15, 0⟩
/-- R287: PLC_RBRATE.CRIT. -/
abbrev PLC_RBRATE_CRIT : Fld := ⟨.PLC_RBRATE, 47, 32⟩
/-- R287: PLC_RBRATE.RATE. -/
abbrev PLC_RBRATE_RATE : Fld := ⟨.PLC_RBRATE, 15, 0⟩
/-- R287: PLC_RBCTL.MAPBASE. -/
abbrev PLC_RBCTL_MAPBASE : Fld := ⟨.PLC_RBCTL, 47, 12⟩
/-- R287: PLC_RBCTL.PAUSE. -/
abbrev PLC_RBCTL_PAUSE : Fld := ⟨.PLC_RBCTL, 1, 1⟩
/-- R287: PLC_RBCTL.EN. -/
abbrev PLC_RBCTL_EN : Fld := ⟨.PLC_RBCTL, 0, 0⟩
/-- R287: PLC_RBSTAT.CRITLEFT. -/
abbrev PLC_RBSTAT_CRITLEFT : Fld := ⟨.PLC_RBSTAT, 57, 32⟩
/-- R287: PLC_RBSTAT.PHASE. -/
abbrev PLC_RBSTAT_PHASE : Fld := ⟨.PLC_RBSTAT, 29, 28⟩
/-- R287: PLC_RBSTAT.LEFT. -/
abbrev PLC_RBSTAT_LEFT : Fld := ⟨.PLC_RBSTAT, 25, 0⟩
/-- R287: PLC_SPG.CYCLEH. -/
abbrev PLC_SPG_CYCLEH : Fld := ⟨.PLC_SPG, 47, 32⟩
/-- R287: PLC_SPG.DEEP. -/
abbrev PLC_SPG_DEEP : Fld := ⟨.PLC_SPG, 1, 1⟩
/-- R287: PLC_SPG.EN. -/
abbrev PLC_SPG_EN : Fld := ⟨.PLC_SPG, 0, 0⟩
/-- R287: PLC_RKCTL.PAUSE. -/
abbrev PLC_RKCTL_PAUSE : Fld := ⟨.PLC_RKCTL, 4, 4⟩
/-- R287: PLC_RKCTL.POOL. -/
abbrev PLC_RKCTL_POOL : Fld := ⟨.PLC_RKCTL, 3, 1⟩
/-- R287: PLC_RKCTL.GO. -/
abbrev PLC_RKCTL_GO : Fld := ⟨.PLC_RKCTL, 0, 0⟩
/-- R287: PLC_RKGEOM.EPOCHCH. -/
abbrev PLC_RKGEOM_EPOCHCH : Fld := ⟨.PLC_RKGEOM, 47, 32⟩
/-- R287: PLC_RKGEOM.MEMBERS. -/
abbrev PLC_RKGEOM_MEMBERS : Fld := ⟨.PLC_RKGEOM, 24, 16⟩
/-- R287: PLC_RKGEOM.K. -/
abbrev PLC_RKGEOM_K : Fld := ⟨.PLC_RKGEOM, 12, 8⟩
/-- R287: PLC_RKPT.BASE. -/
abbrev PLC_RKPT_BASE : Fld := ⟨.PLC_RKPT, 47, 12⟩
/-- R287: PLC_RKSTAT.REFUSED. -/
abbrev PLC_RKSTAT_REFUSED : Fld := ⟨.PLC_RKSTAT, 40, 40⟩
/-- R287: PLC_RKSTAT.DONE. -/
abbrev PLC_RKSTAT_DONE : Fld := ⟨.PLC_RKSTAT, 39, 39⟩
/-- R287: PLC_RKSTAT.WAITP. -/
abbrev PLC_RKSTAT_WAITP : Fld := ⟨.PLC_RKSTAT, 38, 38⟩
/-- R287: PLC_RKSTAT.PAUSED. -/
abbrev PLC_RKSTAT_PAUSED : Fld := ⟨.PLC_RKSTAT, 37, 37⟩
/-- R287: PLC_RKSTAT.RUN. -/
abbrev PLC_RKSTAT_RUN : Fld := ⟨.PLC_RKSTAT, 36, 36⟩
/-- R287: PLC_RKSTAT.ERR. -/
abbrev PLC_RKSTAT_ERR : Fld := ⟨.PLC_RKSTAT, 35, 32⟩
/-- R287: PLC_RKSTAT.NEWBANDS. -/
abbrev PLC_RKSTAT_NEWBANDS : Fld := ⟨.PLC_RKSTAT, 29, 16⟩
/-- R287: PLC_RKSTAT.OLDLEFT. -/
abbrev PLC_RKSTAT_OLDLEFT : Fld := ⟨.PLC_RKSTAT, 13, 0⟩
/-- R287: PLC_BAND.BASE. -/
abbrev PLC_BAND_BASE : Fld := ⟨.PLC_BAND, 47, 12⟩
/-- R287: PLC_BAND.EN. -/
abbrev PLC_BAND_EN : Fld := ⟨.PLC_BAND, 0, 0⟩
/-- R287: PLC_SPGSTAT.OVERRUN. -/
abbrev PLC_SPGSTAT_OVERRUN : Fld := ⟨.PLC_SPGSTAT, 48, 48⟩
/-- R287: PLC_SPGSTAT.CYCLES. -/
abbrev PLC_SPGSTAT_CYCLES : Fld := ⟨.PLC_SPGSTAT, 47, 32⟩
/-- R287: PLC_SPGSTAT.NEXT. -/
abbrev PLC_SPGSTAT_NEXT : Fld := ⟨.PLC_SPGSTAT, 25, 0⟩
/-- R288: DRV_HEALTH.MEDIAMAX. -/
abbrev DRV_HEALTH_MEDIAMAX : Fld := ⟨.DRV_HEALTH, 31, 16⟩
/-- R288: DRV_HEALTH.TMOMAX. -/
abbrev DRV_HEALTH_TMOMAX : Fld := ⟨.DRV_HEALTH, 7, 0⟩
/-- R288: DRV_RA.EN. -/
abbrev DRV_RA_EN : Fld := ⟨.DRV_RA, 56, 56⟩
/-- R288: DRV_RA.MAXSLOW. -/
abbrev DRV_RA_MAXSLOW : Fld := ⟨.DRV_RA, 51, 48⟩
/-- R288: DRV_RA.BUDGET. -/
abbrev DRV_RA_BUDGET : Fld := ⟨.DRV_RA, 47, 40⟩
/-- R288: DRV_RA.SLOWUS. -/
abbrev DRV_RA_SLOWUS : Fld := ⟨.DRV_RA, 31, 16⟩
/-- R288: DRV_RA.WAITUS. -/
abbrev DRV_RA_WAITUS : Fld := ⟨.DRV_RA, 15, 0⟩
/-- R318: ME_SNAPTAB.BASE. -/
abbrev ME_SNAPTAB_BASE : Fld := ⟨.ME_SNAPTAB, 47, 12⟩
/-- R318: ME_SNAPCTL.PREPUS. -/
abbrev ME_SNAPCTL_PREPUS : Fld := ⟨.ME_SNAPCTL, 15, 0⟩
/-- R318: ME_SNAPSTAT.DELETING. -/
abbrev ME_SNAPSTAT_DELETING : Fld := ⟨.ME_SNAPSTAT, 56, 32⟩
/-- R318: ME_SNAPSTAT.LIVE. -/
abbrev ME_SNAPSTAT_LIVE : Fld := ⟨.ME_SNAPSTAT, 24, 0⟩
/-- R318: ME_CGSTAT.CGID. -/
abbrev ME_CGSTAT_CGID : Fld := ⟨.ME_CGSTAT, 63, 32⟩
/-- R318: ME_CGSTAT.DONE. -/
abbrev ME_CGSTAT_DONE : Fld := ⟨.ME_CGSTAT, 3, 3⟩
/-- R318: ME_CGSTAT.ABORTED. -/
abbrev ME_CGSTAT_ABORTED : Fld := ⟨.ME_CGSTAT, 2, 2⟩
/-- R318: ME_CGSTAT.PSTATE. -/
abbrev ME_CGSTAT_PSTATE : Fld := ⟨.ME_CGSTAT, 1, 0⟩
/-- R319: TA_STRBASE.BASE. -/
abbrev TA_STRBASE_BASE : Fld := ⟨.TA_STRBASE, 47, 12⟩
/-- R319: TA_STRMAP.BASE. -/
abbrev TA_STRMAP_BASE : Fld := ⟨.TA_STRMAP, 47, 12⟩
/-- R319: TA_STRCTL.RETRY. -/
abbrev TA_STRCTL_RETRY : Fld := ⟨.TA_STRCTL, 19, 16⟩
/-- R319: TA_STRCTL.PAR. -/
abbrev TA_STRCTL_PAR : Fld := ⟨.TA_STRCTL, 15, 8⟩
/-- R319: TA_STRCTL.EN. -/
abbrev TA_STRCTL_EN : Fld := ⟨.TA_STRCTL, 0, 0⟩
/-- R319: TA_STRCMD.GO. -/
abbrev TA_STRCMD_GO : Fld := ⟨.TA_STRCMD, 16, 16⟩
/-- R319: TA_STRCMD.STREAM. -/
abbrev TA_STRCMD_STREAM : Fld := ⟨.TA_STRCMD, 11, 0⟩
/-- R359: HFE_CTL.HOLDMS. -/
abbrev HFE_CTL_HOLDMS : Fld := ⟨.HFE_CTL, 47, 32⟩
/-- R359: HFE_CTL.MQES. -/
abbrev HFE_CTL_MQES : Fld := ⟨.HFE_CTL, 21, 12⟩
/-- R359: HFE_CTL.MDTS. -/
abbrev HFE_CTL_MDTS : Fld := ⟨.HFE_CTL, 11, 8⟩
/-- R359: HFE_CTL.SANEN. -/
abbrev HFE_CTL_SANEN : Fld := ⟨.HFE_CTL, 3, 3⟩
/-- R359: HFE_CTL.TCPEN. -/
abbrev HFE_CTL_TCPEN : Fld := ⟨.HFE_CTL, 2, 2⟩
/-- R359: HFE_CTL.RDMAEN. -/
abbrev HFE_CTL_RDMAEN : Fld := ⟨.HFE_CTL, 1, 1⟩
/-- R359: HFE_CTL.EN. -/
abbrev HFE_CTL_EN : Fld := ⟨.HFE_CTL, 0, 0⟩
/-- R359: HFE_NSTAB.BASE. -/
abbrev HFE_NSTAB_BASE : Fld := ⟨.HFE_NSTAB, 47, 12⟩
/-- R359: HFE_ATTACH.BASE. -/
abbrev HFE_ATTACH_BASE : Fld := ⟨.HFE_ATTACH, 47, 12⟩
/-- R359: HFE_RESVTAB.BASE. -/
abbrev HFE_RESVTAB_BASE : Fld := ⟨.HFE_RESVTAB, 47, 12⟩
/-- R359: HFE_PASSTAB.BASE. -/
abbrev HFE_PASSTAB_BASE : Fld := ⟨.HFE_PASSTAB, 47, 12⟩
/-- R359: HFE_IMG.BASE. -/
abbrev HFE_IMG_BASE : Fld := ⟨.HFE_IMG, 47, 12⟩
/-- R359: HFE_SVC.BASE. -/
abbrev HFE_SVC_BASE : Fld := ⟨.HFE_SVC, 47, 12⟩
/-- R359: HFE_RXPOOL.BASE. -/
abbrev HFE_RXPOOL_BASE : Fld := ⟨.HFE_RXPOOL, 47, 12⟩
/-- R359: HFE_RXPOOL.GIB. -/
abbrev HFE_RXPOOL_GIB : Fld := ⟨.HFE_RXPOOL, 11, 0⟩
/-- R359: HFE_SVCIDX.HEAD. -/
abbrev HFE_SVCIDX_HEAD : Fld := ⟨.HFE_SVCIDX, 27, 16⟩
/-- R359: HFE_SVCIDX.TAIL. -/
abbrev HFE_SVCIDX_TAIL : Fld := ⟨.HFE_SVCIDX, 11, 0⟩
/-- R359: HFE_SVCCMP.DW0. -/
abbrev HFE_SVCCMP_DW0 : Fld := ⟨.HFE_SVCCMP, 63, 32⟩
/-- R359: HFE_SVCCMP.STATUS. -/
abbrev HFE_SVCCMP_STATUS : Fld := ⟨.HFE_SVCCMP, 30, 16⟩
/-- R359: HFE_SVCCMP.ENTRY. -/
abbrev HFE_SVCCMP_ENTRY : Fld := ⟨.HFE_SVCCMP, 11, 0⟩
/-- R359: HFE_SANSTAT.SSTAT. -/
abbrev HFE_SANSTAT_SSTAT : Fld := ⟨.HFE_SANSTAT, 18, 16⟩
/-- R359: HFE_SANSTAT.SPROG. -/
abbrev HFE_SANSTAT_SPROG : Fld := ⟨.HFE_SANSTAT, 15, 0⟩
/-- R359: HFE_DISC.GENCTR. -/
abbrev HFE_DISC_GENCTR : Fld := ⟨.HFE_DISC, 31, 0⟩
/-- R359: HFE_STAT.CTRLS. -/
abbrev HFE_STAT_CTRLS : Fld := ⟨.HFE_STAT, 16, 0⟩
/-- R359: HFE_IOQ.COUNT. -/
abbrev HFE_IOQ_COUNT : Fld := ⟨.HFE_IOQ, 16, 0⟩
/-- R385: RXE_CTL.STEWQP. -/
abbrev RXE_CTL_STEWQP : Fld := ⟨.RXE_CTL, 63, 48⟩
/-- R385: RXE_CTL.QUIET. -/
abbrev RXE_CTL_QUIET : Fld := ⟨.RXE_CTL, 47, 32⟩
/-- R385: RXE_CTL.RNRRETRY. -/
abbrev RXE_CTL_RNRRETRY : Fld := ⟨.RXE_CTL, 22, 20⟩
/-- R385: RXE_CTL.RETRY. -/
abbrev RXE_CTL_RETRY : Fld := ⟨.RXE_CTL, 18, 16⟩
/-- R385: RXE_CTL.ACKTO. -/
abbrev RXE_CTL_ACKTO : Fld := ⟨.RXE_CTL, 12, 8⟩
/-- R385: RXE_CTL.EN. -/
abbrev RXE_CTL_EN : Fld := ⟨.RXE_CTL, 0, 0⟩
/-- R385: RXE_STAT.IOQPS. -/
abbrev RXE_STAT_IOQPS : Fld := ⟨.RXE_STAT, 48, 32⟩
/-- R385: RXE_STAT.QPS. -/
abbrev RXE_STAT_QPS : Fld := ⟨.RXE_STAT, 16, 0⟩
/-- R386: RXE_QPCMD.QP. -/
abbrev RXE_QPCMD_QP : Fld := ⟨.RXE_QPCMD, 48, 32⟩
/-- R386: RXE_QPCMD.ERR. -/
abbrev RXE_QPCMD_ERR : Fld := ⟨.RXE_QPCMD, 23, 16⟩
/-- R386: RXE_QPCMD.REFUSED. -/
abbrev RXE_QPCMD_REFUSED : Fld := ⟨.RXE_QPCMD, 10, 10⟩
/-- R386: RXE_QPCMD.DONE. -/
abbrev RXE_QPCMD_DONE : Fld := ⟨.RXE_QPCMD, 9, 9⟩
/-- R386: RXE_QPCMD.BUSY. -/
abbrev RXE_QPCMD_BUSY : Fld := ⟨.RXE_QPCMD, 8, 8⟩
/-- R386: RXE_QPCMD.OP. -/
abbrev RXE_QPCMD_OP : Fld := ⟨.RXE_QPCMD, 3, 1⟩
/-- R386: RXE_QPCMD.GO. -/
abbrev RXE_QPCMD_GO : Fld := ⟨.RXE_QPCMD, 0, 0⟩
/-- R387: RXE_WINCMD.WIN. -/
abbrev RXE_WINCMD_WIN : Fld := ⟨.RXE_WINCMD, 47, 32⟩
/-- R387: RXE_WINCMD.ERR. -/
abbrev RXE_WINCMD_ERR : Fld := ⟨.RXE_WINCMD, 23, 16⟩
/-- R387: RXE_WINCMD.REFUSED. -/
abbrev RXE_WINCMD_REFUSED : Fld := ⟨.RXE_WINCMD, 10, 10⟩
/-- R387: RXE_WINCMD.DONE. -/
abbrev RXE_WINCMD_DONE : Fld := ⟨.RXE_WINCMD, 9, 9⟩
/-- R387: RXE_WINCMD.BUSY. -/
abbrev RXE_WINCMD_BUSY : Fld := ⟨.RXE_WINCMD, 8, 8⟩
/-- R387: RXE_WINCMD.OP. -/
abbrev RXE_WINCMD_OP : Fld := ⟨.RXE_WINCMD, 2, 1⟩
/-- R387: RXE_WINCMD.GO. -/
abbrev RXE_WINCMD_GO : Fld := ⟨.RXE_WINCMD, 0, 0⟩
/-- R387: RXE_WINATTR0.BASE. -/
abbrev RXE_WINATTR0_BASE : Fld := ⟨.RXE_WINATTR0, 47, 12⟩
/-- R387: RXE_WINATTR0.RWR. -/
abbrev RXE_WINATTR0_RWR : Fld := ⟨.RXE_WINATTR0, 1, 1⟩
/-- R387: RXE_WINATTR0.RRD. -/
abbrev RXE_WINATTR0_RRD : Fld := ⟨.RXE_WINATTR0, 0, 0⟩
/-- R387: RXE_WINATTR1.QP. -/
abbrev RXE_WINATTR1_QP : Fld := ⟨.RXE_WINATTR1, 48, 32⟩
/-- R387: RXE_WINATTR1.PAGES. -/
abbrev RXE_WINATTR1_PAGES : Fld := ⟨.RXE_WINATTR1, 27, 0⟩
/-- R387: RXE_WINKEY.LIVE. -/
abbrev RXE_WINKEY_LIVE : Fld := ⟨.RXE_WINKEY, 48, 32⟩
/-- R387: RXE_WINKEY.KEY. -/
abbrev RXE_WINKEY_KEY : Fld := ⟨.RXE_WINKEY, 31, 0⟩
/-- R388: RXE_CC.EN. -/
abbrev RXE_CC_EN : Fld := ⟨.RXE_CC, 63, 63⟩
/-- R388: RXE_CC.MINRATE. -/
abbrev RXE_CC_MINRATE : Fld := ⟨.RXE_CC, 59, 40⟩
/-- R388: RXE_CC.CNPUS. -/
abbrev RXE_CC_CNPUS : Fld := ⟨.RXE_CC, 39, 32⟩
/-- R388: RXE_CC.TIMER. -/
abbrev RXE_CC_TIMER : Fld := ⟨.RXE_CC, 31, 24⟩
/-- R388: RXE_CC.MINGAP. -/
abbrev RXE_CC_MINGAP : Fld := ⟨.RXE_CC, 23, 16⟩
/-- R388: RXE_CC.AI. -/
abbrev RXE_CC_AI : Fld := ⟨.RXE_CC, 15, 0⟩
/-- R413: SWC_BUF.ALPHA. -/
abbrev SWC_BUF_ALPHA : Fld := ⟨.SWC_BUF, 18, 16⟩
/-- R413: SWC_BUF.MIN. -/
abbrev SWC_BUF_MIN : Fld := ⟨.SWC_BUF, 10, 0⟩
/-- R413: SWC_CM.EN. -/
abbrev SWC_CM_EN : Fld := ⟨.SWC_CM, 31, 31⟩
/-- R413: SWC_CM.THRESH. -/
abbrev SWC_CM_THRESH : Fld := ⟨.SWC_CM, 16, 0⟩
/-- R413: SWC_TCW.W0. -/
abbrev SWC_TCW_W0 : Fld := ⟨.SWC_TCW, 7, 0⟩
/-- R413: SWC_TCW.W1. -/
abbrev SWC_TCW_W1 : Fld := ⟨.SWC_TCW, 15, 8⟩
/-- R413: SWC_TCW.W2. -/
abbrev SWC_TCW_W2 : Fld := ⟨.SWC_TCW, 23, 16⟩
/-- R413: SWC_TCW.W3. -/
abbrev SWC_TCW_W3 : Fld := ⟨.SWC_TCW, 31, 24⟩
/-- R413: SWC_TCW.W4. -/
abbrev SWC_TCW_W4 : Fld := ⟨.SWC_TCW, 39, 32⟩
/-- R413: SWC_TCW.W5. -/
abbrev SWC_TCW_W5 : Fld := ⟨.SWC_TCW, 47, 40⟩
/-- R413: SWC_TCW.W6. -/
abbrev SWC_TCW_W6 : Fld := ⟨.SWC_TCW, 55, 48⟩
/-- R413: SWC_STAT.SHARED. -/
abbrev SWC_STAT_SHARED : Fld := ⟨.SWC_STAT, 48, 32⟩
/-- R413: SWC_STAT.DEGRADED. -/
abbrev SWC_STAT_DEGRADED : Fld := ⟨.SWC_STAT, 0, 0⟩
/-- R413: SWC_TAP_CTL.N. -/
abbrev SWC_TAP_CTL_N : Fld := ⟨.SWC_TAP_CTL, 47, 32⟩
/-- R413: SWC_TAP_CTL.PORT. -/
abbrev SWC_TAP_CTL_PORT : Fld := ⟨.SWC_TAP_CTL, 14, 8⟩
/-- R413: SWC_TAP_CTL.DIR. -/
abbrev SWC_TAP_CTL_DIR : Fld := ⟨.SWC_TAP_CTL, 1, 1⟩
/-- R413: SWC_TAP_CTL.EN. -/
abbrev SWC_TAP_CTL_EN : Fld := ⟨.SWC_TAP_CTL, 0, 0⟩
/-- R413: SWC_TAP_MASK.MASK. -/
abbrev SWC_TAP_MASK_MASK : Fld := ⟨.SWC_TAP_MASK, 63, 0⟩
/-- R413: SWC_TAP_MATCH.MATCH. -/
abbrev SWC_TAP_MATCH_MATCH : Fld := ⟨.SWC_TAP_MATCH, 63, 0⟩
/-- R413: SWC_TAP_BASE.BASE. -/
abbrev SWC_TAP_BASE_BASE : Fld := ⟨.SWC_TAP_BASE, 47, 12⟩
/-- R413: SWC_TAP_LEN.ENTRIES. -/
abbrev SWC_TAP_LEN_ENTRIES : Fld := ⟨.SWC_TAP_LEN, 31, 0⟩
/-- R413: SWC_TAP_HEAD.HEAD. -/
abbrev SWC_TAP_HEAD_HEAD : Fld := ⟨.SWC_TAP_HEAD, 31, 0⟩
/-- R413: SWC_TAP_TAIL.TAIL. -/
abbrev SWC_TAP_TAIL_TAIL : Fld := ⟨.SWC_TAP_TAIL, 31, 0⟩
/-- R414: GANG_LNK_CTL.LINKTMO. -/
abbrev GANG_LNK_CTL_LINKTMO : Fld := ⟨.GANG_LNK_CTL, 47, 32⟩
/-- R414: GANG_LNK_CTL.RTMO. -/
abbrev GANG_LNK_CTL_RTMO : Fld := ⟨.GANG_LNK_CTL, 31, 16⟩
/-- R414: GANG_LNK_CTL.WIDTH. -/
abbrev GANG_LNK_CTL_WIDTH : Fld := ⟨.GANG_LNK_CTL, 2, 1⟩
/-- R414: GANG_LNK_CTL.EN. -/
abbrev GANG_LNK_CTL_EN : Fld := ⟨.GANG_LNK_CTL, 0, 0⟩
/-- R414: GANG_LNK_STAT.PEER. -/
abbrev GANG_LNK_STAT_PEER : Fld := ⟨.GANG_LNK_STAT, 11, 10⟩
/-- R414: GANG_LNK_STAT.MISS. -/
abbrev GANG_LNK_STAT_MISS : Fld := ⟨.GANG_LNK_STAT, 9, 8⟩
/-- R414: GANG_LNK_STAT.STATE. -/
abbrev GANG_LNK_STAT_STATE : Fld := ⟨.GANG_LNK_STAT, 2, 0⟩
/-- R422: XE_PLINK_NEXT.EPOCH. -/
abbrev XE_PLINK_NEXT_EPOCH : Fld := ⟨.XE_PLINK_NEXT, 63, 32⟩
/-- R422: XE_PLINK_NEXT.KEYSLOT. -/
abbrev XE_PLINK_NEXT_KEYSLOT : Fld := ⟨.XE_PLINK_NEXT, 31, 16⟩
/-- R422: XE_PLINK_NEXT.REFUSED. -/
abbrev XE_PLINK_NEXT_REFUSED : Fld := ⟨.XE_PLINK_NEXT, 5, 5⟩
/-- R422: XE_PLINK_NEXT.DONE. -/
abbrev XE_PLINK_NEXT_DONE : Fld := ⟨.XE_PLINK_NEXT, 4, 4⟩
/-- R422: XE_PLINK_NEXT.BUSY. -/
abbrev XE_PLINK_NEXT_BUSY : Fld := ⟨.XE_PLINK_NEXT, 3, 3⟩
/-- R422: XE_PLINK_NEXT.STAGED. -/
abbrev XE_PLINK_NEXT_STAGED : Fld := ⟨.XE_PLINK_NEXT, 2, 2⟩
/-- R422: XE_PLINK_NEXT.EN. -/
abbrev XE_PLINK_NEXT_EN : Fld := ⟨.XE_PLINK_NEXT, 1, 1⟩
/-- R422: XE_PLINK_NEXT.GO. -/
abbrev XE_PLINK_NEXT_GO : Fld := ⟨.XE_PLINK_NEXT, 0, 0⟩
/-- R444: SYS_HEAD.ID. -/
abbrev SYS_HEAD_ID : Fld := ⟨.SYS_HEAD, 8, 8⟩
/-- R444: SYS_HEAD.STATE. -/
abbrev SYS_HEAD_STATE : Fld := ⟨.SYS_HEAD, 2, 0⟩
/-- R444: SYS_PTR_CTL.ARBMS. -/
abbrev SYS_PTR_CTL_ARBMS : Fld := ⟨.SYS_PTR_CTL, 55, 48⟩
/-- R444: SYS_PTR_CTL.LAGMAX. -/
abbrev SYS_PTR_CTL_LAGMAX : Fld := ⟨.SYS_PTR_CTL, 47, 32⟩
/-- R444: SYS_PTR_CTL.SETTLE. -/
abbrev SYS_PTR_CTL_SETTLE : Fld := ⟨.SYS_PTR_CTL, 27, 16⟩
/-- R444: SYS_PTR_CTL.FBEN. -/
abbrev SYS_PTR_CTL_FBEN : Fld := ⟨.SYS_PTR_CTL, 0, 0⟩
/-- R444: SYS_PTR_STAT.SYNCD. -/
abbrev SYS_PTR_STAT_SYNCD : Fld := ⟨.SYS_PTR_STAT, 17, 17⟩
/-- R444: SYS_PTR_STAT.TAKE. -/
abbrev SYS_PTR_STAT_TAKE : Fld := ⟨.SYS_PTR_STAT, 16, 16⟩
/-- R444: SYS_PTR_STAT.RACE. -/
abbrev SYS_PTR_STAT_RACE : Fld := ⟨.SYS_PTR_STAT, 13, 12⟩
/-- R444: SYS_PTR_STAT.PSTATE. -/
abbrev SYS_PTR_STAT_PSTATE : Fld := ⟨.SYS_PTR_STAT, 10, 8⟩
/-- R444: SYS_PTR_STAT.LINK. -/
abbrev SYS_PTR_STAT_LINK : Fld := ⟨.SYS_PTR_STAT, 5, 5⟩
/-- R444: SYS_PTR_STAT.HLTH. -/
abbrev SYS_PTR_STAT_HLTH : Fld := ⟨.SYS_PTR_STAT, 4, 4⟩
/-- R444: SYS_PTR_STAT.MISSED. -/
abbrev SYS_PTR_STAT_MISSED : Fld := ⟨.SYS_PTR_STAT, 3, 0⟩
/-- R444: SYS_PTR_ARB.DEV. -/
abbrev SYS_PTR_ARB_DEV : Fld := ⟨.SYS_PTR_ARB, 23, 16⟩
/-- R444: SYS_PTR_ARB.NSID. -/
abbrev SYS_PTR_ARB_NSID : Fld := ⟨.SYS_PTR_ARB, 11, 8⟩
/-- R444: SYS_PTR_ARB.PORT. -/
abbrev SYS_PTR_ARB_PORT : Fld := ⟨.SYS_PTR_ARB, 7, 0⟩
/-- R444: SYS_PTR_SEQ.MACC. -/
abbrev SYS_PTR_SEQ_MACC : Fld := ⟨.SYS_PTR_SEQ, 63, 0⟩
/-- R444: SYS_PTR_LAG.ENTRIES. -/
abbrev SYS_PTR_LAG_ENTRIES : Fld := ⟨.SYS_PTR_LAG, 31, 0⟩
/-- R445: SYS_GRP.OEPOCH. -/
abbrev SYS_GRP_OEPOCH : Fld := ⟨.SYS_GRP, 63, 32⟩
/-- R445: SYS_GRP.POS. -/
abbrev SYS_GRP_POS : Fld := ⟨.SYS_GRP, 4, 2⟩
/-- R445: SYS_GRP.OWNER. -/
abbrev SYS_GRP_OWNER : Fld := ⟨.SYS_GRP, 1, 1⟩
/-- R445: SYS_GRP.HOME. -/
abbrev SYS_GRP_HOME : Fld := ⟨.SYS_GRP, 0, 0⟩
/-- R446: GANG_CFG.CHIPS. -/
abbrev GANG_CFG_CHIPS : Fld := ⟨.GANG_CFG, 5, 4⟩
/-- R446: GANG_CFG.CHIP. -/
abbrev GANG_CFG_CHIP : Fld := ⟨.GANG_CFG, 1, 0⟩
/-- R446: GANG_STAT.REACH. -/
abbrev GANG_STAT_REACH : Fld := ⟨.GANG_STAT, 3, 0⟩
/-- R480: PWR_PSU.LOSTONE. -/
abbrev PWR_PSU_LOSTONE : Fld := ⟨.PWR_PSU, 16, 16⟩
/-- R480: PWR_PSU.PFB. -/
abbrev PWR_PSU_PFB : Fld := ⟨.PWR_PSU, 9, 9⟩
/-- R480: PWR_PSU.PFA. -/
abbrev PWR_PSU_PFA : Fld := ⟨.PWR_PSU, 8, 8⟩
/-- R480: PWR_PSU.PRESB. -/
abbrev PWR_PSU_PRESB : Fld := ⟨.PWR_PSU, 1, 1⟩
/-- R480: PWR_PSU.PRESA. -/
abbrev PWR_PSU_PRESA : Fld := ⟨.PWR_PSU, 0, 0⟩
/-- R480: PWR_PF.HOMS. -/
abbrev PWR_PF_HOMS : Fld := ⟨.PWR_PF, 47, 40⟩
/-- R480: PWR_PF.RETURN. -/
abbrev PWR_PF_RETURN : Fld := ⟨.PWR_PF, 9, 9⟩
/-- R480: PWR_PF.VDONE. -/
abbrev PWR_PF_VDONE : Fld := ⟨.PWR_PF, 8, 8⟩
/-- R480: PWR_PF.STEP. -/
abbrev PWR_PF_STEP : Fld := ⟨.PWR_PF, 2, 0⟩
/-- R480: PWR_VAULT.EN. -/
abbrev PWR_VAULT_EN : Fld := ⟨.PWR_VAULT, 48, 48⟩
/-- R480: PWR_VAULT.SPAREEN. -/
abbrev PWR_VAULT_SPAREEN : Fld := ⟨.PWR_VAULT, 40, 40⟩
/-- R480: PWR_VAULT.SPARE. -/
abbrev PWR_VAULT_SPARE : Fld := ⟨.PWR_VAULT, 39, 32⟩
/-- R480: PWR_VAULT.PORT0. -/
abbrev PWR_VAULT_PORT0 : Fld := ⟨.PWR_VAULT, 7, 0⟩
/-- R480: PWR_VAULT.PORT1. -/
abbrev PWR_VAULT_PORT1 : Fld := ⟨.PWR_VAULT, 15, 8⟩
/-- R480: PWR_VAULT.PORT2. -/
abbrev PWR_VAULT_PORT2 : Fld := ⟨.PWR_VAULT, 23, 16⟩
/-- R480: PWR_VAULT.PORT3. -/
abbrev PWR_VAULT_PORT3 : Fld := ⟨.PWR_VAULT, 31, 24⟩
/-- R480: PWR_VSTAT.LOSTIMG. -/
abbrev PWR_VSTAT_LOSTIMG : Fld := ⟨.PWR_VSTAT, 9, 9⟩
/-- R480: PWR_VSTAT.DEGR. -/
abbrev PWR_VSTAT_DEGR : Fld := ⟨.PWR_VSTAT, 8, 8⟩
/-- R480: PWR_VSTAT.FAILED. -/
abbrev PWR_VSTAT_FAILED : Fld := ⟨.PWR_VSTAT, 3, 0⟩
/-- R480: PWR_AVS.NACK. -/
abbrev PWR_AVS_NACK : Fld := ⟨.PWR_AVS, 33, 33⟩
/-- R480: PWR_AVS.EN. -/
abbrev PWR_AVS_EN : Fld := ⟨.PWR_AVS, 32, 32⟩
/-- R480: PWR_AVS.OFFSET. -/
abbrev PWR_AVS_OFFSET : Fld := ⟨.PWR_AVS, 23, 16⟩
/-- R480: PWR_AVS.TARGET. -/
abbrev PWR_AVS_TARGET : Fld := ⟨.PWR_AVS, 9, 0⟩
/-- R480: PWR_DROOP.EN. -/
abbrev PWR_DROOP_EN : Fld := ⟨.PWR_DROOP, 32, 32⟩
/-- R480: PWR_DROOP.HOLD. -/
abbrev PWR_DROOP_HOLD : Fld := ⟨.PWR_DROOP, 31, 16⟩
/-- R480: PWR_DROOP.THRESH. -/
abbrev PWR_DROOP_THRESH : Fld := ⟨.PWR_DROOP, 6, 0⟩
/-- R480: PWR_DROOPSTAT.ACTIVE. -/
abbrev PWR_DROOPSTAT_ACTIVE : Fld := ⟨.PWR_DROOPSTAT, 31, 0⟩
/-- R481: THM_CTL.GOVEN. -/
abbrev THM_CTL_GOVEN : Fld := ⟨.THM_CTL, 25, 25⟩
/-- R481: THM_CTL.XCHK. -/
abbrev THM_CTL_XCHK : Fld := ⟨.THM_CTL, 24, 24⟩
/-- R481: THM_CTL.GOVMAXM. -/
abbrev THM_CTL_GOVMAXM : Fld := ⟨.THM_CTL, 19, 16⟩
/-- R481: THM_CTL.PERIODUS. -/
abbrev THM_CTL_PERIODUS : Fld := ⟨.THM_CTL, 15, 0⟩
/-- R481: THM_LIM.TRIPCLR. -/
abbrev THM_LIM_TRIPCLR : Fld := ⟨.THM_LIM, 47, 40⟩
/-- R481: THM_LIM.TRIP. -/
abbrev THM_LIM_TRIP : Fld := ⟨.THM_LIM, 39, 32⟩
/-- R481: THM_LIM.STOP. -/
abbrev THM_LIM_STOP : Fld := ⟨.THM_LIM, 31, 24⟩
/-- R481: THM_LIM.HOT. -/
abbrev THM_LIM_HOT : Fld := ⟨.THM_LIM, 23, 16⟩
/-- R481: THM_LIM.THROT. -/
abbrev THM_LIM_THROT : Fld := ⟨.THM_LIM, 15, 8⟩
/-- R481: THM_LIM.WARN. -/
abbrev THM_LIM_WARN : Fld := ⟨.THM_LIM, 7, 0⟩
/-- R481: THM_STAT.BROKEN. -/
abbrev THM_STAT_BROKEN : Fld := ⟨.THM_STAT, 63, 32⟩
/-- R481: THM_STAT.TRIPPED. -/
abbrev THM_STAT_TRIPPED : Fld := ⟨.THM_STAT, 26, 26⟩
/-- R481: THM_STAT.NOSTOP. -/
abbrev THM_STAT_NOSTOP : Fld := ⟨.THM_STAT, 25, 25⟩
/-- R481: THM_STAT.STOPPING. -/
abbrev THM_STAT_STOPPING : Fld := ⟨.THM_STAT, 24, 24⟩
/-- R481: THM_STAT.HOTREG. -/
abbrev THM_STAT_HOTREG : Fld := ⟨.THM_STAT, 20, 16⟩
/-- R481: THM_STAT.HOTTEST. -/
abbrev THM_STAT_HOTTEST : Fld := ⟨.THM_STAT, 15, 0⟩
/-- R481: THM_SEN.SUBST. -/
abbrev THM_SEN_SUBST : Fld := ⟨.THM_SEN, 18, 18⟩
/-- R481: THM_SEN.BROKEN. -/
abbrev THM_SEN_BROKEN : Fld := ⟨.THM_SEN, 17, 17⟩
/-- R481: THM_SEN.VALID. -/
abbrev THM_SEN_VALID : Fld := ⟨.THM_SEN, 16, 16⟩
/-- R481: THM_SEN.TEMP. -/
abbrev THM_SEN_TEMP : Fld := ⟨.THM_SEN, 15, 0⟩
/-- R481: THM_LVL.DROOP. -/
abbrev THM_LVL_DROOP : Fld := ⟨.THM_LVL, 8, 8⟩
/-- R481: THM_LVL.SKIPM. -/
abbrev THM_LVL_SKIPM : Fld := ⟨.THM_LVL, 7, 4⟩
/-- R481: THM_LVL.FLOOR. -/
abbrev THM_LVL_FLOOR : Fld := ⟨.THM_LVL, 3, 2⟩
/-- R481: THM_LVL.MODE. -/
abbrev THM_LVL_MODE : Fld := ⟨.THM_LVL, 1, 0⟩
/-- R505: SYS_RSTSRC.COUNT. -/
abbrev SYS_RSTSRC_COUNT : Fld := ⟨.SYS_RSTSRC, 47, 32⟩
/-- R505: SYS_RSTSRC.ALSO. -/
abbrev SYS_RSTSRC_ALSO : Fld := ⟨.SYS_RSTSRC, 31, 16⟩
/-- R505: SYS_RSTSRC.CODE. -/
abbrev SYS_RSTSRC_CODE : Fld := ⟨.SYS_RSTSRC, 7, 0⟩
/-- R505: SYS_RSTCMD.KEY. -/
abbrev SYS_RSTCMD_KEY : Fld := ⟨.SYS_RSTCMD, 63, 32⟩
/-- R505: SYS_RSTCMD.GO. -/
abbrev SYS_RSTCMD_GO : Fld := ⟨.SYS_RSTCMD, 0, 0⟩
/-- R505: SYS_SWDT.PERIOD. -/
abbrev SYS_SWDT_PERIOD : Fld := ⟨.SYS_SWDT, 47, 32⟩
/-- R505: SYS_SWDT.KICK. -/
abbrev SYS_SWDT_KICK : Fld := ⟨.SYS_SWDT, 0, 0⟩
/-- R505: SYS_CKPT.BASE. -/
abbrev SYS_CKPT_BASE : Fld := ⟨.SYS_CKPT, 47, 12⟩
/-- R505: SYS_CKPT.AREA. -/
abbrev SYS_CKPT_AREA : Fld := ⟨.SYS_CKPT, 2, 1⟩
/-- R505: SYS_CKPT.GO. -/
abbrev SYS_CKPT_GO : Fld := ⟨.SYS_CKPT, 0, 0⟩
/-- R505: SYS_CKPTSTAT.GEN. -/
abbrev SYS_CKPTSTAT_GEN : Fld := ⟨.SYS_CKPTSTAT, 63, 32⟩
/-- R505: SYS_CKPTSTAT.DEGR. -/
abbrev SYS_CKPTSTAT_DEGR : Fld := ⟨.SYS_CKPTSTAT, 15, 12⟩
/-- R505: SYS_CKPTSTAT.ERR. -/
abbrev SYS_CKPTSTAT_ERR : Fld := ⟨.SYS_CKPTSTAT, 11, 8⟩
/-- R505: SYS_CKPTSTAT.REFUSED. -/
abbrev SYS_CKPTSTAT_REFUSED : Fld := ⟨.SYS_CKPTSTAT, 2, 2⟩
/-- R505: SYS_CKPTSTAT.DONE. -/
abbrev SYS_CKPTSTAT_DONE : Fld := ⟨.SYS_CKPTSTAT, 1, 1⟩
/-- R505: SYS_CKPTSTAT.BUSY. -/
abbrev SYS_CKPTSTAT_BUSY : Fld := ⟨.SYS_CKPTSTAT, 0, 0⟩
/-- R505: SYS_CORE.RUN. -/
abbrev SYS_CORE_RUN : Fld := ⟨.SYS_CORE, 15, 0⟩
/-- R505: SYS_CORE_ENTRY.ENTRY. -/
abbrev SYS_CORE_ENTRY_ENTRY : Fld := ⟨.SYS_CORE_ENTRY, 47, 2⟩
/-- R506: PWR_PSTATE.AUTOWAKE. -/
abbrev PWR_PSTATE_AUTOWAKE : Fld := ⟨.PWR_PSTATE, 16, 16⟩
/-- R506: PWR_PSTATE.ERR. -/
abbrev PWR_PSTATE_ERR : Fld := ⟨.PWR_PSTATE, 11, 9⟩
/-- R506: PWR_PSTATE.REFUSED. -/
abbrev PWR_PSTATE_REFUSED : Fld := ⟨.PWR_PSTATE, 8, 8⟩
/-- R506: PWR_PSTATE.CUR. -/
abbrev PWR_PSTATE_CUR : Fld := ⟨.PWR_PSTATE, 5, 4⟩
/-- R506: PWR_PSTATE.REQ. -/
abbrev PWR_PSTATE_REQ : Fld := ⟨.PWR_PSTATE, 1, 0⟩
/-- R527: UPD_STG.BASE. -/
abbrev UPD_STG_BASE : Fld := ⟨.UPD_STG, 47, 12⟩
/-- R527: UPD_STGLEN.LEN. -/
abbrev UPD_STGLEN_LEN : Fld := ⟨.UPD_STGLEN, 31, 0⟩
/-- R527: UPD_CMD.ULABEL. -/
abbrev UPD_CMD_ULABEL : Fld := ⟨.UPD_CMD, 63, 32⟩
/-- R527: UPD_CMD.ARG. -/
abbrev UPD_CMD_ARG : Fld := ⟨.UPD_CMD, 15, 8⟩
/-- R527: UPD_CMD.OP. -/
abbrev UPD_CMD_OP : Fld := ⟨.UPD_CMD, 3, 1⟩
/-- R527: UPD_CMD.GO. -/
abbrev UPD_CMD_GO : Fld := ⟨.UPD_CMD, 0, 0⟩
/-- R527: UPD_STAT.ERR. -/
abbrev UPD_STAT_ERR : Fld := ⟨.UPD_STAT, 15, 8⟩
/-- R527: UPD_STAT.ARMED. -/
abbrev UPD_STAT_ARMED : Fld := ⟨.UPD_STAT, 3, 3⟩
/-- R527: UPD_STAT.REFUSED. -/
abbrev UPD_STAT_REFUSED : Fld := ⟨.UPD_STAT, 2, 2⟩
/-- R527: UPD_STAT.DONE. -/
abbrev UPD_STAT_DONE : Fld := ⟨.UPD_STAT, 1, 1⟩
/-- R527: UPD_STAT.BUSY. -/
abbrev UPD_STAT_BUSY : Fld := ⟨.UPD_STAT, 0, 0⟩
/-- R527: UPD_ACT.TIME. -/
abbrev UPD_ACT_TIME : Fld := ⟨.UPD_ACT, 63, 0⟩
/-- R527: UPD_CTL.DRAINMS. -/
abbrev UPD_CTL_DRAINMS : Fld := ⟨.UPD_CTL, 47, 32⟩
/-- R527: UPD_CTL.WAITS. -/
abbrev UPD_CTL_WAITS : Fld := ⟨.UPD_CTL, 15, 0⟩
/-- R527: UPD_BANK.TRIES. -/
abbrev UPD_BANK_TRIES : Fld := ⟨.UPD_BANK, 19, 16⟩
/-- R527: UPD_BANK.BSTATE. -/
abbrev UPD_BANK_BSTATE : Fld := ⟨.UPD_BANK, 10, 8⟩
/-- R527: UPD_BANK.ASTATE. -/
abbrev UPD_BANK_ASTATE : Fld := ⟨.UPD_BANK, 6, 4⟩
/-- R527: UPD_BANK.ACTIVE. -/
abbrev UPD_BANK_ACTIVE : Fld := ⟨.UPD_BANK, 0, 0⟩
/-- R527: UPD_FUSE.SEALED. -/
abbrev UPD_FUSE_SEALED : Fld := ⟨.UPD_FUSE, 16, 16⟩
/-- R527: UPD_FUSE.REVOKED. -/
abbrev UPD_FUSE_REVOKED : Fld := ⟨.UPD_FUSE, 15, 12⟩
/-- R527: UPD_FUSE.ENROLLED. -/
abbrev UPD_FUSE_ENROLLED : Fld := ⟨.UPD_FUSE, 11, 8⟩
/-- R527: UPD_FUSE.RBCNT. -/
abbrev UPD_FUSE_RBCNT : Fld := ⟨.UPD_FUSE, 6, 0⟩
/-- R527: UPD_FMT.FMT. -/
abbrev UPD_FMT_FMT : Fld := ⟨.UPD_FMT, 39, 0⟩
/-- R527: UPD_KEYIN.DATA. -/
abbrev UPD_KEYIN_DATA : Fld := ⟨.UPD_KEYIN, 63, 0⟩
/-- R527: UPD_UKOUT.DATA. -/
abbrev UPD_UKOUT_DATA : Fld := ⟨.UPD_UKOUT, 63, 0⟩
/-- R528: SEC_IDPUB.DATA. -/
abbrev SEC_IDPUB_DATA : Fld := ⟨.SEC_IDPUB, 63, 0⟩
/-- R528: SEC_ATTNONCE.DATA. -/
abbrev SEC_ATTNONCE_DATA : Fld := ⟨.SEC_ATTNONCE, 63, 0⟩
/-- R528: SEC_ATTBUF.BASE. -/
abbrev SEC_ATTBUF_BASE : Fld := ⟨.SEC_ATTBUF, 47, 12⟩
/-- R528: SEC_ATTCMD.LEN. -/
abbrev SEC_ATTCMD_LEN : Fld := ⟨.SEC_ATTCMD, 31, 16⟩
/-- R528: SEC_ATTCMD.REFUSED. -/
abbrev SEC_ATTCMD_REFUSED : Fld := ⟨.SEC_ATTCMD, 3, 3⟩
/-- R528: SEC_ATTCMD.DONE. -/
abbrev SEC_ATTCMD_DONE : Fld := ⟨.SEC_ATTCMD, 2, 2⟩
/-- R528: SEC_ATTCMD.BUSY. -/
abbrev SEC_ATTCMD_BUSY : Fld := ⟨.SEC_ATTCMD, 1, 1⟩
/-- R528: SEC_ATTCMD.GO. -/
abbrev SEC_ATTCMD_GO : Fld := ⟨.SEC_ATTCMD, 0, 0⟩
/-- R528: SEC_ATTSIG.DATA. -/
abbrev SEC_ATTSIG_DATA : Fld := ⟨.SEC_ATTSIG, 63, 0⟩
/-- R545: CEL_CTL.CRITFLUSH. -/
abbrev CEL_CTL_CRITFLUSH : Fld := ⟨.CEL_CTL, 1, 1⟩
/-- R545: CEL_CTL.FLUSH. -/
abbrev CEL_CTL_FLUSH : Fld := ⟨.CEL_CTL, 0, 0⟩
/-- R545: CEL_STAT.FDEGR. -/
abbrev CEL_STAT_FDEGR : Fld := ⟨.CEL_STAT, 53, 50⟩
/-- R545: CEL_STAT.FDONE. -/
abbrev CEL_STAT_FDONE : Fld := ⟨.CEL_STAT, 49, 49⟩
/-- R545: CEL_STAT.FBUSY. -/
abbrev CEL_STAT_FBUSY : Fld := ⟨.CEL_STAT, 48, 48⟩
/-- R545: CEL_STAT.UNREAD. -/
abbrev CEL_STAT_UNREAD : Fld := ⟨.CEL_STAT, 46, 32⟩
/-- R545: CEL_STAT.WPOS. -/
abbrev CEL_STAT_WPOS : Fld := ⟨.CEL_STAT, 13, 0⟩
/-- R545: CEL_RPOS.RPOS. -/
abbrev CEL_RPOS_RPOS : Fld := ⟨.CEL_RPOS, 13, 0⟩
/-- R545: CEL_LOST.DROP. -/
abbrev CEL_LOST_DROP : Fld := ⟨.CEL_LOST, 47, 32⟩
/-- R545: CEL_LOST.OVER. -/
abbrev CEL_LOST_OVER : Fld := ⟨.CEL_LOST, 31, 0⟩
/-- R545: CEL_EVQ_CTL.PENDING. -/
abbrev CEL_EVQ_CTL_PENDING : Fld := ⟨.CEL_EVQ_CTL, 45, 32⟩
/-- R545: CEL_EVQ_CTL.CORE. -/
abbrev CEL_EVQ_CTL_CORE : Fld := ⟨.CEL_EVQ_CTL, 7, 4⟩
/-- R545: CEL_EVQ_CTL.EN. -/
abbrev CEL_EVQ_CTL_EN : Fld := ⟨.CEL_EVQ_CTL, 3, 3⟩
/-- R545: CEL_EVQ_CTL.PRIO. -/
abbrev CEL_EVQ_CTL_PRIO : Fld := ⟨.CEL_EVQ_CTL, 2, 0⟩
/-- R545: CEL_EVQ_POP.PARAM. -/
abbrev CEL_EVQ_POP_PARAM : Fld := ⟨.CEL_EVQ_POP, 63, 32⟩
/-- R545: CEL_EVQ_POP.COUNT. -/
abbrev CEL_EVQ_POP_COUNT : Fld := ⟨.CEL_EVQ_POP, 31, 16⟩
/-- R545: CEL_EVQ_POP.VALID. -/
abbrev CEL_EVQ_POP_VALID : Fld := ⟨.CEL_EVQ_POP, 15, 15⟩
/-- R545: CEL_EVQ_POP.SOURCE. -/
abbrev CEL_EVQ_POP_SOURCE : Fld := ⟨.CEL_EVQ_POP, 12, 0⟩
/-- R545: CEL_EVRAISE.PARAM. -/
abbrev CEL_EVRAISE_PARAM : Fld := ⟨.CEL_EVRAISE, 63, 32⟩
/-- R545: CEL_EVRAISE.SOURCE. -/
abbrev CEL_EVRAISE_SOURCE : Fld := ⟨.CEL_EVRAISE, 12, 0⟩
/-- R545: CEL_EVRT.PEND. -/
abbrev CEL_EVRT_PEND : Fld := ⟨.CEL_EVRT, 6, 6⟩
/-- R545: CEL_EVRT.ALERT. -/
abbrev CEL_EVRT_ALERT : Fld := ⟨.CEL_EVRT, 5, 5⟩
/-- R545: CEL_EVRT.EN. -/
abbrev CEL_EVRT_EN : Fld := ⟨.CEL_EVRT, 4, 4⟩
/-- R545: CEL_EVRT.QUEUE. -/
abbrev CEL_EVRT_QUEUE : Fld := ⟨.CEL_EVRT, 3, 0⟩
/-- R546: PMC_FREEZE.LOCAL. -/
abbrev PMC_FREEZE_LOCAL : Fld := ⟨.PMC_FREEZE, 1, 1⟩
/-- R546: PMC_FREEZE.FROZEN. -/
abbrev PMC_FREEZE_FROZEN : Fld := ⟨.PMC_FREEZE, 0, 0⟩
/-- R546: PMC_SNAP.LOCAL. -/
abbrev PMC_SNAP_LOCAL : Fld := ⟨.PMC_SNAP, 1, 1⟩
/-- R546: PMC_SNAP.GO. -/
abbrev PMC_SNAP_GO : Fld := ⟨.PMC_SNAP, 0, 0⟩
/-- R546: PMC_SNAPTIME.DTIME. -/
abbrev PMC_SNAPTIME_DTIME : Fld := ⟨.PMC_SNAPTIME, 63, 0⟩
/-- R546: PMC_STAT.MISS. -/
abbrev PMC_STAT_MISS : Fld := ⟨.PMC_STAT, 0, 0⟩
/-- R546: PMC_OVF.OVF. -/
abbrev PMC_OVF_OVF : Fld := ⟨.PMC_OVF, 63, 0⟩
/-- R546: PMC_CNT.COUNT. -/
abbrev PMC_CNT_COUNT : Fld := ⟨.PMC_CNT, 47, 0⟩
/-- R546: PMC_SHD.COUNT. -/
abbrev PMC_SHD_COUNT : Fld := ⟨.PMC_SHD, 47, 0⟩
/-- R546: PMC_SEL.INST. -/
abbrev PMC_SEL_INST : Fld := ⟨.PMC_SEL, 35, 27⟩
/-- R546: PMC_SEL.INSTEN. -/
abbrev PMC_SEL_INSTEN : Fld := ⟨.PMC_SEL, 26, 26⟩
/-- R546: PMC_SEL.OVFEV. -/
abbrev PMC_SEL_OVFEV : Fld := ⟨.PMC_SEL, 18, 18⟩
/-- R546: PMC_SEL.CHAIN. -/
abbrev PMC_SEL_CHAIN : Fld := ⟨.PMC_SEL, 17, 17⟩
/-- R546: PMC_SEL.EN. -/
abbrev PMC_SEL_EN : Fld := ⟨.PMC_SEL, 16, 16⟩
/-- R546: PMC_SEL.EVENT. -/
abbrev PMC_SEL_EVENT : Fld := ⟨.PMC_SEL, 15, 0⟩
/-- R565: CLK_REF.SWITCHED. -/
abbrev CLK_REF_SWITCHED : Fld := ⟨.CLK_REF, 11, 11⟩
/-- R565: CLK_REF.BLOS. -/
abbrev CLK_REF_BLOS : Fld := ⟨.CLK_REF, 10, 10⟩
/-- R565: CLK_REF.ALOS. -/
abbrev CLK_REF_ALOS : Fld := ⟨.CLK_REF, 9, 9⟩
/-- R565: CLK_REF.ACTIVE. -/
abbrev CLK_REF_ACTIVE : Fld := ⟨.CLK_REF, 8, 8⟩
/-- R565: CLK_REF.PREF. -/
abbrev CLK_REF_PREF : Fld := ⟨.CLK_REF, 0, 0⟩
/-- R566: LANE_HCFG.MODE. -/
abbrev LANE_HCFG_MODE : Fld := ⟨.LANE_HCFG, 1, 0⟩
/-- R566: LANE_GCFG.ETH. -/
abbrev LANE_GCFG_ETH : Fld := ⟨.LANE_GCFG, 4, 2⟩
/-- R566: LANE_GCFG.MODE. -/
abbrev LANE_GCFG_MODE : Fld := ⟨.LANE_GCFG, 1, 0⟩
/-- R566: LANE_DCFG.OCTET. -/
abbrev LANE_DCFG_OCTET : Fld := ⟨.LANE_DCFG, 63, 0⟩
/-- R567: MGT_PPSIN.DTIME. -/
abbrev MGT_PPSIN_DTIME : Fld := ⟨.MGT_PPSIN, 63, 0⟩
/-- R567: MGT_PMB.ADDR. -/
abbrev MGT_PMB_ADDR : Fld := ⟨.MGT_PMB, 55, 0⟩
/-- R88: FSQ_FAULT_CNT.COUNT. -/
abbrev FSQ_FAULT_CNT_COUNT : Fld := ⟨.FSQ_FAULT_CNT, 31, 0⟩
/-- R88: FSQ_FLT_STAT.MORE. -/
abbrev FSQ_FLT_STAT_MORE : Fld := ⟨.FSQ_FLT_STAT, 1, 1⟩
/-- R88: FSQ_FLT_STAT.VALID. -/
abbrev FSQ_FLT_STAT_VALID : Fld := ⟨.FSQ_FLT_STAT, 0, 0⟩
/-- R121: FSQ_BUNG_EPOCH.COUNT. -/
abbrev FSQ_BUNG_EPOCH_COUNT : Fld := ⟨.FSQ_BUNG_EPOCH, 31, 0⟩
/-- R386: RXE_QPATTR.DATA. -/
abbrev RXE_QPATTR_DATA : Fld := ⟨.RXE_QPATTR, 63, 0⟩
/-- R545: CEL_WIN.DATA. -/
abbrev CEL_WIN_DATA : Fld := ⟨.CEL_WIN, 63, 0⟩
/-- R545: CEL_SWREC.DATA. -/
abbrev CEL_SWREC_DATA : Fld := ⟨.CEL_SWREC, 63, 0⟩
/-- R546: MGT_SMB.ADDR. -/
abbrev MGT_SMB_ADDR : Fld := ⟨.MGT_SMB, 6, 0⟩
end F

end Sys2Proof.Machine
end

