-- ==== Sys2Proof/Machine/CompState.lean ====
section
/-! DEFINITION. The state of the compression governor (R204 to R206). -/

namespace Sys2Proof.Machine

/-- The parameters of CE_SKIP that a trial runs with (R206). -/
structure SkipPar where
  probe : Nat := 0
  thresh : Nat := 0
  lmin : Nat := 0
  lmax : Nat := 0
  deriving DecidableEq, Repr

/-- The governor's record of a volume: its window size, 0 standing for 2^LMIN, the counted blocks and NOSHRINK blocks of the trial,
whether the previous trial opened a window (R204), and the parameters that the trial took with its first counted block (R206). (log 62, DEDUCED, unsafe) -/
structure SkipSt where
  n : Nat := 0
  count : Nat := 0
  noshrink : Nat := 0
  opened : Bool := false
  par : SkipPar := {}
  deriving DecidableEq, Repr

/-- The compression governor: its records by volume, and for jobs that have finished and not completed the volume and the outcomes to
be counted, a NOSHRINK block as true. -/
structure CompSt where
  skip : KMap SkipSt := []
  outcomes : KMap (Nat × List Bool) := []
  deriving DecidableEq, Repr

end Sys2Proof.Machine
end

