-- ==== Sys2Proof/Machine/FlowState.lean ====
section
/-! DEFINITION. The state of the programmable cores: register files, tickets, flow contexts, store buffers, sequencers, steward
cores and engine jobs (R43 to R54, R76 to R80, R90 to R102). -/

namespace Sys2Proof.Machine

/-- A ticket that is not FREE (R44): PENDING or READY, the job it was given, and the code of the result when READY. -/
structure Ticket where
  ready : Bool
  job : Nat
  code : Nat
  deriving DecidableEq, Repr

/-- The general registers, the pc and the tickets of a flow context or steward core (R43). A register not listed holds zero
and a ticket not listed is FREE. -/
structure RegFile where
  g : KMap Word
  pc : Word
  tk : KMap Ticket
  deriving DecidableEq, Repr

/-- The atomics of R71. -/
inductive AmoKind where
  | add | swap | cas | and | or | maxu
  deriving DecidableEq, Repr

/-- The load or atomic whose data a WAITING context waits for (R54). An atomic carries its operand and its compare value. -/
inductive MemOp where
  | load (rd addr size : Nat) (sext : Bool)
  | block (d addr : Nat)
  | amo (k : AmoKind) (rd addr : Nat) (src cmp : Word)
  deriving DecidableEq, Repr

/-- What a WAITING context waits for (R49). -/
inductive WaitFor where
  | ticket (t rd : Nat)
  | anyTicket (mask rd : Nat)
  | memory (op : MemOp)
  | buffer (need : Nat)
  deriving DecidableEq, Repr

/-- A flow fault: its code, sequencer, instruction word, pc and address (R74, R75, R88). -/
structure FlowFault where
  code : Nat
  seq : Nat
  insn : Nat
  pc : Nat
  addr : Nat
  deriving DecidableEq, Repr

/-- The states of a flow context (R49). `paging` is the page-in, during which the context holds its frame and does not
issue. -/
inductive CtxState where
  | queued
  | paging
  | ready
  | running
  | waiting (w : WaitFor)
  | parked (wake : Word)
  | faulted (f : FlowFault)
  deriving DecidableEq, Repr

/-- One entry of a context's store buffer (R54, R93): a store not yet performed, or a SUBMIT not yet accepted. `fence`
counts the store fences before it (R60). `grp` numbers the DST it belongs to, 0 for none: the stores of one DST are
performed in order (R57). -/
inductive SbEntry where
  | store (addr size : Nat) (val : Word) (fence grp : Nat)
  | submit (job : Nat)
  deriving DecidableEq, Repr

/-- A flow context (R45 to R54). Its record, frame, descriptor registers and result slots lie in memory. `used` counts the
instructions of its life (R81), `epoch` is the epoch of its binding (R107, R113), `posted` says that the host engine
accepted its completion (R75), `cancelled` that its queue froze or its association ended (R333). `hq` and `cid` name the command it serves. -/
structure Ctx where
  st : CtxState
  cls : Nat
  vol : Nat
  hq : Nat
  cid : Nat
  seq : Nat
  frame : Nat
  rf : RegFile
  sbuf : List SbEntry
  fences : Nat
  dsts : Nat
  used : Nat
  epoch : Nat
  posted : Bool
  fwd : Bool
  cancelled : Bool := false
  deriving DecidableEq, Repr

/-- A flow sequencer (R53): its RUNNING context, its READY contexts in the order of their turns, the policy class whose
quantum is running and whether that quantum is spent. -/
structure Seq where
  running : Option Nat
  readyQ : List Nat
  cls : Nat
  spent : Bool
  deriving DecidableEq, Repr

/-- The context scheduler (R52): the FIFO of each policy class, the class whose turn it is and how many more it may take. (log 157, DESIGN CHOICE, safe) -/
structure Sched where
  fifo : KMap (List Nat)
  cls : Nat
  credit : Nat
  deriving DecidableEq, Repr

/-- A steward core (R76 to R80). `mode` and `emode` are the special registers MODE and EMODE: bit 0 P, bit 1 INEV, bit 2
EVEN. `run` is false while the core is held. -/
structure Stew where
  run : Bool
  rf : RegFile
  mode : Nat
  epc : Word
  ecause : Nat
  eaddr : Nat
  evbase : Word
  emode : Nat
  scratch : KMap Word
  rgnb : KMap Word
  rgnl : KMap Word
  deriving DecidableEq, Repr

/-- The result of a job (R100), without INST. -/
structure JobResult where
  code : Nat
  rflags : Nat
  count : Nat
  value : Nat
  deriving DecidableEq, Repr

/-- Where a job stands. `issued` holds a store-buffer entry of its submitter until its class takes it (R93); `chain` is the
predecessor's job number and the ANY flag (R91). `held` waits for the predecessor, whose code is known once it has
completed. `done` has its result, which JOB_COMPLETE writes. -/
inductive JobPhase where
  | issued (chain : Option (Nat × Bool))
  | held (pred : Nat) (any : Bool)
  | accepted
  | done (r : JobResult)
  deriving DecidableEq, Repr

/-- An engine job (R90 to R102). `predCode` is the code of its completed predecessor; `ord` numbers the jobs that their classes have
accepted, in the order of acceptance, and `started` says that its instance has started it (R93); `cap` is the number of bytes that a
DECODE job may read, as its acceptance found it (R102, R200). -/
structure Job where
  owner : Agent
  tk : Nat
  cls : Nat
  desc : Desc
  phase : JobPhase
  predCode : Option Nat
  inst : Nat
  ord : Option Nat := none
  started : Bool := false
  cap : Nat := 0
  deriving DecidableEq, Repr

/-- A command that waits for a free flow context (R33, R107): its queue and identifier, class, volume, entry point offset, the
epoch of the binding it read, its 64-byte submission queue entry and whether the partner forwarded it. -/
structure WaitCmd where
  hq : Nat
  cid : Nat
  cls : Nat
  vol : Nat
  pc : Nat
  epoch : Nat
  sqe : List Byte
  fwd : Bool
  deriving DecidableEq, Repr

/-- The bung (R113, R115): the epoch of new commands, whether the bung in progress or last done is a pair bung and whether it ran
without the partner, and the message that is repeated until the partner confirms it. `setHash` is the SHA-512 of the loaded
flow program set (R109, R116). -/
structure Bung where
  epoch : Nat := 0
  pair : Bool := false
  solo : Bool := false
  resend : Option PMsg := none
  setHash : List Byte := []
  deriving DecidableEq, Repr

end Sys2Proof.Machine
end

