-- ==== Sys2Proof/Machine/HostState.lean ====
section
/-! DEFINITION. The state of the host front end that no register and no table in memory shows (R320 to R361). -/

namespace Sys2Proof.Machine

/-- A live controller (R321, R329, R333, R341): whether it is a discovery controller, the host NQN and HOSTID of its admin Connect, KATO,
the CC property, whether its association has ended (CC.EN cleared), the I/O queues granted, the CIDs of its outstanding AERs,
the Asynchronous Event Configuration, the temperature thresholds, its Changed Namespace List, its reservation notification masks
by namespace, the notifications logged for it, the queue indices it had before a controller reset and the critical warning bits that hold (R343). -/
structure Ctrl where
  disc : Bool
  nqn : List Byte
  hostid : Nat
  kato : Nat
  cc : Nat := 0
  granted : Nat := 128
  aers : List Nat := []
  aec : Nat := 0
  tover : Nat := 0
  tunder : Nat := 0
  changed : List Nat := []
  mask : KMap Nat := []
  resvLog : Nat := 0
  old : List Nat := []
  warned : Nat := 0
  deriving DecidableEq, Repr

/-- A live queue (R326, R332, R333): its controller and QID, its entries, whether it is TCP and frozen, its outstanding commands, its head and
the identity of its connection. -/
structure HQueue where
  ctrl : Nat
  qid : Nat
  size : Nat
  tcp : Bool
  frozen : Bool := false
  used : Nat := 0
  head : Nat := 0
  conn : Nat
  deriving DecidableEq, Repr

/-- A command that the front end holds or has forwarded (R351, R41): its queue, CID, the host's HOSTID and its SQE, whether the partner
forwarded it, and the volume that its namespace table entry named when it was accepted (R322). -/
structure HostCmd where
  hq : Nat
  cid : Nat
  host : Nat
  sqe : List Byte
  fwd : Bool
  vol : Nat
  deriving DecidableEq, Repr

/-- A capsule that has arrived and is not fetched (R33): its queue, its SQE and data, and whether a data digest failed. -/
structure Capsule where
  hq : Nat
  sqe : List Byte
  data : List Byte
  bad : Bool
  deriving DecidableEq, Repr

/-- An entry of the service ring that awaits its completion (R340). -/
structure SvcEnt where
  hq : Nat
  cid : Nat
  ctrl : Nat
  sqe : List Byte
  deriving DecidableEq, Repr

/-- An Error Information entry (R343): Error Count, SQID, CID, status, LBA, NSID, transport type and Command Specific Information. -/
structure ErrEnt where
  count : Nat
  sqid : Nat
  cid : Nat
  status : Nat
  lba : Nat
  nsid : Nat
  trtype : Nat
  csi : Nat
  deriving DecidableEq, Repr

/-- The front end: controllers by CNTLID, queues by host queue index (an admin queue at 65,536 + CNTLID), held, forwarded and unfetched commands,
service ring entries by number, the Error Information ring newest first with its count, the ANA change count and the states last
reported, the attachments recorded by host NQN, VALUE[33:32] of the last RDMA READ of a context that returned CHECK (R382), the
bytes counted towards the next data unit and the media errors reported (R344). `tcpOpen` are the TCP connections accepted that no Connect has used (R571). -/
structure HostSt where
  ctrls : KMap Ctrl := []
  queues : KMap HQueue := []
  held : List HostCmd := []
  fwds : List HostCmd := []
  unfetched : List Capsule := []
  svc : KMap SvcEnt := []
  errs : List ErrEnt := []
  errCount : Nat := 0
  anaCount : Nat := 0
  anaSeen : KMap Nat := []
  attached : List (List Byte × Nat) := []
  piCheck : KMap Nat := []
  rdBytes : Nat := 0
  wrBytes : Nat := 0
  mediaErrs : Nat := 0
  tcpOpen : Nat := 0
  deriving DecidableEq, Repr

end Sys2Proof.Machine
end

