-- ==== Sys2Proof/Machine/MapState.lean ====
section
/-! DEFINITION. The state of the map engine and of the metadata cache (R122 to R150). A metadata page is an object with its entries;
its parent names it by its number as well as by its home slot, because a page that has no home yet is named too. -/

namespace Sys2Proof.Machine

/-- Where a metadata page is (R138). `flash`: only its home copy. `writing` carries whether a delta has been applied since the
copy was taken. `lost`: its home copy failed (R130). -/
inductive PageSt where
  | flash
  | reading
  | clean
  | dirty
  | writing (again : Bool)
  | lost
  deriving DecidableEq, Repr

/-- A metadata page (R125 to R130, R138). `ent` holds its 256 entries of two words, `kid` the page numbers of its children;
`hent` and `hkid` are those of its home copy, `cent` and `ckid` those of the copy in flight. `ck` and `pck` are the pending
CKSEQ of this head's ring and of the partner's (R424), `seen` and `pseen` the highest SEQ of each that has changed the page (R256),
`last` the SEQ of the last delta in it (R129), `home` the home slot (0: none yet) and `dest` the slot that the copy in flight goes to, `pin` the snapshot at whose cut it is
pinned (R297), `waiters` the jobs that wait for its read and `held` those that waited for the last one (R139), `move` that it is
READING from DDR, not from flash, and `pre` that its first lines go to the side buffer once it is read (R143). The entries of a
slot-reference page are in `MapEng.srt`. (log 46, DESIGN CHOICE, unsafe) -/
structure Page where
  ty : Nat
  level : Nat
  owner : Nat
  index : Nat
  epoch : Nat
  ent : KMap (Nat × Nat) := []
  kid : KMap Nat := []
  hent : KMap (Nat × Nat) := []
  hkid : KMap Nat := []
  cent : KMap (Nat × Nat) := []
  ckid : KMap Nat := []
  st : PageSt
  ddr : Bool := false
  frame : Nat := 0
  ck : Option Nat := none
  pck : Option Nat := none
  last : Nat := 0
  seen : Option Nat := none
  pseen : Option Nat := none
  home : Nat := 0
  dest : Nat := 0
  pin : Option Nat := none
  waiters : List Nat := []
  held : List Nat := []
  move : Bool := false
  pre : Bool := false
  deriving DecidableEq, Repr

/-- A sequence number of the journal ring of this head, or of the partner's (R424). -/
structure RingSeq where
  mirror : Bool
  seq : Nat
  deriving DecidableEq, Repr

/-- The map engine: its pages, the root pages of volumes and of snapshots, the slot-reference pages by slot identifier over 512 with
their entries by slot (R131, R241), the hands of the eviction clocks of HBM and of DDR (R139), and for running jobs how many pages
they have read or written. (log 46, DESIGN CHOICE, unsafe) -/
structure MapEng where
  pages : KMap Page := []
  nextPage : Nat := 0
  root : KMap Nat := []
  snapRoot : KMap Nat := []
  srt : KMap Nat := []
  srtPage : KMap Nat := []
  hand : Nat := 0
  ddrHand : Nat := 0
  jobPages : KMap Nat := []
  deriving DecidableEq, Repr

/-- A line of the metadata cache (R144): its way, and whether it is dirty and locked. -/
structure McLine where
  way : Nat
  dirty : Bool
  locked : Bool
  deriving DecidableEq, Repr

/-- A fill on its way into the cache or the prefetch side buffer (R143, R149). -/
structure McFill where
  side : Bool
  doomed : Bool
  dirty : Bool
  deriving DecidableEq, Repr

/-- The metadata cache: its lines and pending fills by line address over 256, the side buffer first in first out, and the
maintenance operation that runs: its operation, whether over all, the lines forced and the first of them. -/
structure McState where
  lines : KMap McLine := []
  side : List Nat := []
  fills : KMap McFill := []
  maint : Option (Nat × Bool) := none
  deriving DecidableEq, Repr

end Sys2Proof.Machine
end

