-- ==== Sys2Proof/Machine/ObsState.lean ====
section
/-! DEFINITION. The state of the cellar log, the event queues, the BMC window and the resets that no register shows (R484 to R486,
R529 to R544). -/

namespace Sys2Proof.Machine

/-- A cellar record on its way to the buffer (R533). -/
structure CelRec where
  code : Nat
  unit : Nat
  sev : Nat
  first : Nat
  p0 : Nat
  p1 : Nat
  p2 : Nat
  sw : Bool
  deriving DecidableEq, Repr

/-- A pending event source (R530): its raises and its last parameter. -/
structure Pend where
  count : Nat
  param : Nat
  deriving DecidableEq, Repr

/-- A flush of the cellar buffer (R536): the reason, the bits of ALSO, and the copy taken at its start. -/
structure Flush where
  reason : Nat
  also : Nat
  dtime : Nat
  image : List (Nat × BitVec 8)
  count : Nat
  wpos : Nat
  lost : Nat
  drop : Nat
  deriving DecidableEq, Repr

/-- The cellar log and the event queues. `inq` is the input queue of R534, `total` how many records the buffer holds, `armed`
says that the next lost record raises source 0x0410, `latch` is the record that CEL_WIN0 latched, `swrec` the steward's
record in the making. `evq` and `pend` hold the event queues of R530. `bmcUnread` and `bmcLost` place the BMC cursor
(R544); `alerts` is bits 1 to 7 of the ALERTS byte. -/
structure Cellar where
  inq : List CelRec := []
  total : Nat := 0
  armed : Bool := true
  latch : List Byte := []
  swrec : KMap Word := []
  evq : KMap (List Nat) := []
  pend : KMap Pend := []
  flush : Option Flush := none
  flushReq : Option (Nat × Nat) := none
  bmcUnread : Nat := 0
  bmcLost : Nat := 0
  alerts : Nat := 0
  deriving DecidableEq, Repr

/-- Head resets (R484 to R486): the code of a reset that has been asserted and not yet run, the reset that waits for the
end of a power fail (R488), whether RST_N is held, and whether the released head still waits for it. `t0` is the AON cycle of
T0. `health` says that HEALTH_OUT toggles (R428), `idle` that the H, P and G lanes are idle, `dports` that the D root ports
are in hot reset (1: all but the vault ports, 2: all), `selfRef` that HBM and DDR5 are in self-refresh, and `first` that
steps 1 and 2 of R486 have been taken before the flush that a double fault or a fence runs. `lost` says that a slot has been marked LOST since power-on (R344). (log 148, DESIGN CHOICE, unsafe) -/
structure Resets where
  asserted : Option Nat := none
  t0 : Nat := 0
  rstn : Bool := false
  held : Bool := false
  health : Bool := false
  idle : Bool := false
  dports : Nat := 0
  selfRef : Bool := false
  first : Bool := false
  lost : Bool := false
  deriving DecidableEq, Repr

end Sys2Proof.Machine
end

