-- ==== Sys2Proof/Machine/PartnerState.lean ====
section
/-! DEFINITION. The state of the partner link, the ownership of groups and the fail-over that no register shows (R416 to R443, R574). -/

namespace Sys2Proof.Machine

/-- What a head knows of its partner. `dead` says that it has declared the partner dead (R429); `hb` that a good heartbeat arrived in
this period; `epoch` and `oxor` are what the last heartbeat carried (R421), `wasActive` that it reported ACTIVE. `fenceOut` and
`fenceIn` are FENCE_OUT_N and FENCE_IN_N asserted, `fencedSelf` that the head has fenced itself (R431), `tries` counts the Acquires
sent in a race (R430), `arb` that this head holds the arbiter. `t0` is the time of the dead declaration. `locked` says that the
module is locked to PTP (R443), `failback` that groups are being handed back (R436), and `expired` names the GIVING groups
whose flows have ended or whose 1 ms has passed (R437). `pdone` is the last SEQ of its own ring that the partner reported DONE, and
`syncing` says that SYNC has started and is not complete (R435). -/
structure Partner where
  dead : Bool := false
  hb : Bool := false
  hbnum : Nat := 0
  epoch : Nat := 0
  oxor : Nat := 0
  lastState : Nat := 0
  fenceOut : Bool := false
  fenceIn : Bool := false
  fencedSelf : Bool := false
  race : Bool := false
  tries : Nat := 0
  arb : Bool := false
  t0 : Nat := 0
  locked : Bool := false
  failback : Bool := false
  expired : List Nat := []
  pdone : Nat := 0
  syncing : Bool := false
  deriving DecidableEq, Repr

/-- The link rekey (R422): its PARTNER queue pairs, those on which SWITCH has been received, whether this head drains for it, and whether it has sent
SWITCH on each. -/
structure Rekey where
  draining : Bool := false
  switched : Bool := false
  got : List Nat := []
  qps : List Nat := []
  deriving DecidableEq, Repr

end Sys2Proof.Machine
end

