-- ==== Sys2Proof/Machine/PowerState.lean ====
section
/-! DEFINITION. The state of power, temperature, clocks, boot, firmware banks and board pins that no register shows (R448 to R567). -/

namespace Sys2Proof.Machine

/-- Power (R450 to R494): a write of PWR_PSU that waits for the next head reset (R479), the images whose headers have been written in the
running sequence (bit 0 own, bit 1 mirror), the highest GEN of an image header on the vault, the AVS target that has been sent and
not acknowledged, the sensors that are converting, whether the head stopped in order, the state that a request is making for with
the groups to hand over (1 STANDBY, 2 PARK), whether PARK follows a DRAIN, the rails on, and whether the head runs with a degraded
vault and no spare (R464), and the reset source that waits for the end of the power-fail sequence (R488). `want` is 3 while a PARK exit
waits for PWRGOOD (R559). -/
structure PwrSt where
  psuLater : Option Word := none
  images : Nat := 0
  gen : Nat := 0
  avsSent : Option Nat := none
  converting : List Nat := []
  orderly : Bool := false
  want : Option Nat := none
  parkNext : Bool := false
  rails : Bool := true
  degraded : Bool := false
  later : Option Nat := none
  deriving DecidableEq, Repr

/-- Boot and clocks (R483 to R501, R559, R561): whether VDD_AON is up, PWRGOOD, the last step of the boot that has been done and whether the
boot stopped, whether the last hardware reset was a cold power-on, whether the head waits at the end of BOOT for FENCE_IN_N, the
holdover without a reference, of each vault copy by area and copy its GEN, with the table GEN that the newest configuration
names and the checkpoint write in progress, and the configuration that the boot uses (R497). -/
structure BootSt where
  aon : Bool := true
  pwrgood : Bool := true
  step : Nat := 0
  stopped : Bool := false
  cold : Bool := true
  waits : Bool := false
  holdover : Bool := false
  copies : KMap Nat := []
  tgen : Nat := 0
  ckpt : Nat × Nat := (0, 0)
  cfg : List Byte := []
  deriving DecidableEq, Repr

/-- A firmware bank (R516, R517): its record, its manifest and its block records. -/
structure Bank where
  gen : Nat := 0
  state : Nat := 0
  tries : Nat := 0
  ulabel : Nat := 0
  manifest : List Byte := []
  blocks : List Byte := []
  deriving DecidableEq, Repr

/-- Firmware (R507 to R526): the banks by number, the hashes of the maker key slots, the measurement log, whether TIME has been reached,
whether this head and the partner has announced a start, and whether the head drains for an activation. -/
structure UpdSt where
  banks : KMap Bank := []
  maker : KMap (List Byte) := []
  log : List (List Byte) := []
  due : Bool := false
  announced : Bool := false
  theirs : Bool := false
  draining : Bool := false
  deriving DecidableEq, Repr

/-- The board pins and the TAP (R553, R563, R564): the TAP instruction (0 BYPASS, 1 IDCODE, 2 SAMPLE/PRELOAD, 3 EXTEST, 4 CLAMP, 5 HIGHZ),
the boundary register, and until when PPS_OUT is high. (log 146, DESIGN CHOICE, safe; 148, DESIGN CHOICE, unsafe) -/
structure BoardSt where
  tap : Nat := 0
  boundary : List Bool := []
  ppsUntil : Nat := 0
  deriving DecidableEq, Repr

end Sys2Proof.Machine
end

