-- ==== Sys2Proof/Machine/RdmaState.lean ====
section
/-! DEFINITION. The state of the RDMA engine that no register shows (R364 to R383). -/

namespace Sys2Proof.Machine

/-- What a send queue entry carries: a READ request, a WRITE, a CMD capsule or the response to a host. -/
inductive SendKind where
  | read | write | cmd | resp
  deriving DecidableEq, Repr

/-- A send queue entry (R376): its job, the remote address, key and length, its first PSN once it has been sent, and its data: what a WRITE
or SEND carries, what a READ has received; `stage` names the forwarded command whose host data it moves (R41). -/
structure SendEnt where
  kind : SendKind
  job : Option Nat := none
  addr : Nat := 0
  rkey : Nat := 0
  len : Nat
  psn : Nat := 0
  sent : Bool := false
  data : List Byte := []
  stage : Option Nat := none
  deriving DecidableEq, Repr

/-- An inbound WRITE whose later packets are still to come (R372): its window and device address of the next byte. -/
structure InWrite where
  win : Nat
  addr : Nat
  left : Nat
  deriving DecidableEq, Repr

/-- A queue pair that is not free (R364 to R378): its state (0 RESET while QUIET runs, 1 INIT, 2 RTR, 3 RTS, 4 ERROR) and kind, the 64-byte
attribute record as it was last written, the PSNs, RATE, TARGET, ALPHA and STEP, the times of the last reaction and of the last CNP
sent, the send queue, the retries used, whether an RNR NAK holds it, whether a gap has been answered by a NAK, the last IRD READ
requests as PSN, VA, key and length, the packets of an inbound SEND, an inbound WRITE under way, the CMD jobs that await their
response by CID, and whether it carries an I/O queue. -/
structure Qp where
  st : Nat
  kind : Nat
  attr : List Byte
  spsn : Nat := 0
  epsn : Nat := 0
  rate : Nat := 0
  target : Nat := 0
  alpha : Nat := 1024
  step : Nat := 0
  react : Option Nat := none
  cnp : Option Nat := none
  sq : List SendEnt := []
  retry : Nat := 0
  rnr : Nat := 0
  rnrHold : Bool := false
  nakked : Bool := false
  reads : List (Nat × Nat × Nat × Nat) := []
  inSend : List Byte := []
  inWrite : Option InWrite := none
  cmds : KMap Nat := []
  ioq : Bool := false
  deriving DecidableEq, Repr

/-- A window that is not FREE (R370, R374). -/
structure Win where
  revoking : Bool := false
  base : Nat
  pages : Nat
  rrd : Bool
  rwr : Bool
  qp : Nat
  tag : Nat
  deriving DecidableEq, Repr

/-- The staging of a forwarded command at the head that received its capsule (R41): the host data that has arrived, the bytes that a TCP
transfer awaits, and the OWNER's result, status and Dword 0, while its data is on its way to the host. -/
structure Stage where
  got : List Byte := []
  need : Nat := 0
  result : Option (Nat × Nat) := none
  deriving DecidableEq, Repr

/-- The RDMA engine: the queue pairs, the windows, what the READ jobs under way have received, the bytes that a TCP READ awaits (R383), and
the in-capsule data of the commands that have not completed, by queue and CID (R327). `stage` is the staging of the commands that this head
has forwarded, and `staged` the host data that came with those forwarded to it, by queue and CID (R41). -/
structure RdmaSt where
  qps : KMap Qp := []
  wins : KMap Win := []
  got : KMap (List Byte) := []
  r2t : KMap Nat := []
  capsule : KMap (List Byte) := []
  stage : KMap Stage := []
  staged : KMap (List Byte) := []
  deriving DecidableEq, Repr

end Sys2Proof.Machine
end

