-- ==== Sys2Proof/Machine/SnapState.lean ====
section
/-! DEFINITION. The state of cuts, delete walks and replication streams that no register and no table in memory shows (R291 to R319). -/

namespace Sys2Proof.Machine

/-- A cut whose record is done and that waits for the map engine (R296): its SEQ, its entries of volume and snapshot, its CGID, and whether
the record is this head's own. -/
structure CutRec where
  seq : Nat
  ents : List (Nat × Nat)
  cgid : Nat
  own : Bool
  deriving DecidableEq, Repr

/-- A delete walk (R301): of a snapshot, or of a volume's own tree, with the pages still to visit. (log 51, DEDUCED, unsafe) -/
structure Walk where
  snap : Bool
  num : Nat
  todo : List Nat
  deriving DecidableEq, Repr

/-- The pair cut (R299): the job that waits, its CGID and its own volume list, the partner's list that READY carried, and the last
SEQ that the mirror had accepted when it began. -/
structure PairCut where
  job : Option Nat := none
  cgid : Nat := 0
  ents : List (Nat × Nat) := []
  theirs : List (Nat × Nat) := []
  macc : Nat := 0
  deriving DecidableEq, Repr

/-- Cuts and delete walks. `cutting` holds the volume of each CUTTING snapshot; `fence` holds the return of DONE (R299); `resend` is the
pair cut message that is repeated until the partner confirms it. -/
structure SnapSt where
  cuts : List CutRec := []
  cutting : KMap Nat := []
  walks : List Walk := []
  fence : Bool := false
  pair : PairCut := {}
  resend : Option PMsg := none
  deriving DecidableEq, Repr

/-- A stream context (R307): its stream, opcode, SRC, the cask SEQ of its record (0 for a batch), and whether the record is the
partner's. -/
structure StrCtx where
  stream : Nat
  opc : Nat
  src : Nat
  cask : Nat
  mirror : Bool
  deriving DecidableEq, Repr

/-- A stream context that waits to be started: what it is, its submission queue entry, and whether TA_STRWAIT_CNT has counted it
(R307). -/
structure StrWait where
  info : StrCtx
  sqe : List Byte
  counted : Bool
  deriving DecidableEq, Repr

/-- A message held at the receiver (R314, R315): its header, its type, its entries, and the slot words and generations of the blocks it carries. -/
structure StrMsg where
  hdr : StrHdr
  ty : Nat
  ents : List StrEnt
  words : List (Nat × Nat)
  deriving DecidableEq, Repr

/-- Replication streams: the running and the waiting stream contexts, the messages held at a receiver, the answers given to OFFERs
by stream and SEQ with the slot words referenced (R312), the TWIN streams of which this head sends no copies until the OWNER announces an
epoch (R309), the streams whose next context is the first of an epoch, and the SEQ of the last APPEND of each context (R308). -/
structure StrSt where
  ctxs : KMap StrCtx := []
  waits : List StrWait := []
  held : List StrMsg := []
  offers : KMap (KMap (Nat × List Nat)) := []
  first : List Nat := []
  mute : List Nat := []
  lastApp : KMap Nat := []
  deriving DecidableEq, Repr

end Sys2Proof.Machine
end

