-- ==== Sys2Proof/Machine/SwitchState.lean ====
section
/-! DEFINITION. The state of the switch core and of the cell links that no register shows (R390 to R412). A cell is its 256 bytes (R392). -/

namespace Sys2Proof.Machine

/-- A cell in the switch buffer: its bytes, what it is charged to (0 the minimum of its output, 1 the control reserve, 2 the shared pool),
and the time of its admission. -/
structure BufCell where
  bytes : List Byte
  pool : Nat
  since : Nat
  deriving DecidableEq, Repr

/-- A resequencer context (R401): the next SEQ, and the early cells by SEQ. -/
structure Reseq where
  next : Nat := 0
  early : KMap (List Byte) := []
  deriving DecidableEq, Repr

/-- A cell link (R406 to R412): SEARCH 2, CONFIRM 3 with its count and LOCKED 4 in `GANG_LNK STAT`; whether the counts have started, the
expected FSEQ, whether a gap has been answered by RETRY, the next FSEQ to send, the last ACKSEQ and CREDSUM received, SENT, the cells
freed, the frames kept for replay by FSEQ, oldest first, and the cells queued for the link. -/
structure CellLink where
  confirm : Nat := 0
  begun : Bool := false
  expect : Nat := 0
  asked : Bool := false
  next : Nat := 0
  acked : Nat := 1023
  cred : Nat := 512
  sent : Nat := 0
  freed : Nat := 0
  kept : List (Nat × List Byte) := []
  queue : List (List Byte) := []
  deriving DecidableEq, Repr

/-- A transfer that has still to be sent as cells (R391, R392): the sending and the receiving block, as group * 256 + number, or for one between
two memories the addresses of its next byte at each; the destination chip, TC, TYPE, ADDR and the bytes left. -/
structure Xfer where
  src : Nat
  dst : Nat
  mem : Option (Nat × Nat) := none
  chip : Nat
  tc : Nat
  ty : Nat
  addr : Nat
  data : List Byte
  deriving DecidableEq, Repr

/-- The switch core: MIN and ALPHA as they were at the last head reset (R394), the buffered cells by `(output * 96 + input) * 8 + TC`, the
ingress queues by `input * 96 + output`, the grant and accept pointers, the start output, the TC and the cells left of its quantum of
each pair, the outputs that a G port took in the last cell time, the match that a parity error discards, the resequencer contexts by
`(port * 4 + chip) * 8 + group`, the matches of the tap and the links. `xfers` are the transfers still to be sent, `rot` the port that each
group sends on next, `seqs` the next SEQ of each group by `(group * 4 + chip) * 128 + port`, `unrel` its unreleased cells to a port of this
chip by the same key (R401), `egress` the cells of Ethernet frames that have not left by `((port * 4 + chip) * 8 + group) * 256 + block` (R403),
and `phase` the part of a cell time that the last tick left over, in 64ths (R16). -/
structure SwitchSt where
  min : Nat := 256
  alpha : Nat := 5
  buf : KMap (List BufCell) := []
  ingress : KMap (List (List Byte)) := []
  grant : KMap Nat := []
  accept : KMap Nat := []
  start : Nat := 0
  drr : KMap (Nat × Nat) := []
  gtook : List Nat := []
  discard : Bool := false
  reseq : KMap Reseq := []
  tapSeen : Nat := 0
  links : KMap CellLink := []
  xfers : List Xfer := []
  rot : KMap Nat := []
  seqs : KMap Nat := []
  unrel : KMap Nat := []
  egress : KMap (List (List Byte)) := []
  phase : Nat := 0
  deriving DecidableEq, Repr

end Sys2Proof.Machine
end

