-- ==== Sys2Proof/Machine/TaState.lean ====
section
/-! DEFINITION. The state of the allocator, the tuns, the cask journal, the pools and their repair (R231 to R290) that no register and
no table in memory shows. -/

namespace Sys2Proof.Machine

/-- The states of a tun that holds an image (R245); SEALED until its SEALED record retires. -/
inductive TunPhase where
  | opened | sealing | parity | writing | sealed
  deriving DecidableEq, Repr

/-- A tun with an image (R241, R242, R245). `kind` is 0 DATA, 1 META, 2 RECLAIM; `k` its data strips; `ck` the SEQ of the TUN record that
opened it and `seq` that of its last one, as they are appended; `next` counts the 4 KiB blocks handed out, strip by strip, and `holes` the free places in
begun blocks as KiB offset and length; `livek` the KiB handed out, `used` that its first slot has been placed, `left` the positions
whose strip is not yet written; `buf` the working buffer at the offsets of the tun image (R250), zero where not listed; `adopted`
that it was taken over from the partner. -/
structure Tun where
  pool : Nat
  kind : Nat
  seg : Nat
  frame : Nat
  k : Nat
  phase : TunPhase := .opened
  ck : Nat := 0
  seq : Nat := 0
  next : Nat := 0
  holes : List (Nat × Nat) := []
  livek : Nat := 0
  used : Bool := false
  left : List Nat := []
  buf : KMap (BitVec 8) := []
  adopted : Bool := false
  deriving DecidableEq, Repr

/-- A journal record (R251): its place in the ring as offset and units, its fields and its body, and what is copied into tun images with it
(R245, R252); the job that appended it and the code it ends with, whether its
DONE has been returned, and whether the checkpoint that contains its change is on the vault (R255). `imgs` names the images whose
slots a DELTA references, `tun` the image of a TUN record. (log 68, DESIGN CHOICE, safe) -/
structure JRec where
  seq : Nat
  off : Nat := 0
  len : Nat
  ty : Nat
  flags : Nat := 0
  arg : Nat
  nent : Nat
  body : List (BitVec 8)
  acts : List Act := []
  copies : List (Nat × Nat × List (BitVec 8)) := []
  job : Option Nat := none
  code : Nat := 0
  done : Bool := false
  ckpt : Bool := false
  imgs : List Nat := []
  tun : Option Nat := none
  deriving DecidableEq, Repr

/-- A substitute chunk of the relocation table (R240). -/
structure Reloc where
  member : Nat
  chunk : Nat
  seq : Nat
  deriving DecidableEq, Repr

/-- The allocator and the journal. `tuns` are the tuns by image number and `ptuns` the partner's as
its records tell, `recs` the unretired records in SEQ order, `woff` the ring
offset of the next record, `waiting` the device's own records that wait for ring room. `held` are
the SLOT jobs held below HARD (R259). `reads` are the slot reads that looked up a tun before it was sealed, with the segment's key,
and `bufs` the working buffers of retired tuns that such reads still need, by that key (R39). `mrecs` are the partner's records accepted
into the mirror and not yet retired, `mheld` those held behind a gap, `mstop` that the mirror receiver is stopped (R432);
what the partner's last heartbeat reported as its lowest pending SEQ of this ring is `plow` (R421). -/
structure TaSt where
  tuns : KMap Tun := []
  ptuns : KMap Tun := []
  recs : List JRec := []
  woff : Nat := 0
  waiting : List JRec := []
  mrecs : List JRec := []
  mheld : List Rec := []
  mstop : Bool := false
  held : List Nat := []
  reads : KMap Nat := []
  bufs : KMap Tun := []
  plow : Nat := 0xFFFF_FFFF_FFFF_FFFF
  deriving DecidableEq, Repr

/-- The pools. `cache` is the read cache, slots with their trailers by slot (R249). `place` holds the placement tables, entry `pool * 131072 + row * 32 + position`, and `target` a racking's target table;
`frames` the frames in use with their segment, by `pool * 2^26 + frame`; `reloc` the relocation table by
`(pool * 2^26 + frame) * 32 + position`; `fwd` the forwarding table, old slot to new slot word and references left (R260, R261);
the home directories of R241 are the homes that the pages carry (`Page.home`); `media`, `tmo` count MEDIA results (their times) and consecutive timeouts by
`pool * 256 + member`, `down` the root ports whose link is down, `slow` the members marked SLOW, `back` the positions
copied back onto a COPYBACK member (R280), `lost` the slot words queued
for resolution (R272), `scan` the positions a rebuild has still to do, by pool, as frame and position,
`rack` the pool that is being racked, `picked` and `racked` the segments that the governor and the racker picked, by `pool * 2^26 + segment`, `low` and `hard`
the pools below LOW and HARD (R259), `around` the jobs with a read-around, `raWin` the
millisecond of each pool with its reads and read-arounds (R271), `lat` the mean latencies of members, `cycle0` and `paused` the start
of a pool's sparge cycle and of a pause in it (R281), `leesRate` and `govPlace` the lees rate and the placement that the governor decided
(R42), and `leesDone` the second of each pool with the segments picked in it (R259). (log 190, DESIGN CHOICE, unsafe) -/
structure PlcSt where
  cache : KMap (List (BitVec 8) × List (BitVec 8)) := []
  place : KMap Nat := []
  target : KMap Nat := []
  frames : KMap Nat := []
  reloc : KMap Reloc := []
  fwd : KMap (Nat × Nat) := []
  media : KMap (List Nat) := []
  tmo : KMap Nat := []
  down : List Nat := []
  slow : List Nat := []
  back : List Nat := []
  lost : List Nat := []
  scan : KMap (List (Nat × Nat)) := []
  rack : Option Nat := none
  picked : List Nat := []
  racked : List Nat := []
  low : List Nat := []
  hard : List Nat := []
  around : List Nat := []
  raWin : KMap (Nat × Nat × Nat) := []
  lat : KMap Nat := []
  cycle0 : KMap Nat := []
  paused : KMap Nat := []
  leesRate : KMap Nat := []
  govPlace : KMap Nat := []
  leesDone : KMap (Nat × Nat) := []
  deriving DecidableEq, Repr

end Sys2Proof.Machine
end

