-- ==== Sys2Proof/Machine/XeState.lean ====
section
/-! DEFINITION. The state of the cipher engines, the key slots and the dedupe units that no register shows (R158 to R230). -/

namespace Sys2Proof.Machine

/-- A LOADED key slot (R209). -/
structure KeySlot where
  key : List (BitVec 8)
  mask : Nat
  serial : Nat
  deriving DecidableEq, Repr

/-- What a cipher job holds from its acceptance on (R213, R215): its slot and the slot's key, and the volume's number, key epoch,
group and flags; `dom` says that the volume deduplicates as R159 decides. -/
structure XeJob where
  slot : Nat
  key : List (BitVec 8)
  vol : Nat
  epoch : Nat
  group : Nat
  sealed : Bool
  dom : Bool
  deriving DecidableEq, Repr

/-- The tag of a derived key: its slot, and the type, identifier and epoch of its context (R214, R215). -/
structure KeyTag where
  slot : Nat
  ty : Nat
  ident : Nat
  epoch : Nat
  deriving DecidableEq, Repr

/-- The key store and the cipher engines. `minSerial` is MINSERIAL by slot, `held` what accepted jobs hold, `drain` the slot of a CLEAR
or ERASE that waits for its jobs, `dkc0` and `dkc1` the derived-key caches of the two logic dies, last used first, `linkSeq` the record
counter of the partner link (R223), and `go` the core of the last GO of SEC_KEYCMD with its device time (R213). -/
structure XeSt where
  keys : KMap KeySlot := []
  minSerial : KMap Nat := []
  held : KMap XeJob := []
  drain : Option Nat := none
  dkc0 : List KeyTag := []
  dkc1 : List KeyTag := []
  linkSeq : Nat := 0
  go : Option (Nat × Nat) := none
  deriving DecidableEq, Repr

/-- A fingerprint index domain (R172), without ENTRIES' page contents. -/
structure Domain where
  entries : Nat := 0
  level : Nat := 0
  split : Nat := 0
  keyset : Bool := false
  keyslot : Nat := 0
  keyepoch : Nat := 0
  deriving DecidableEq, Repr

/-- A fingerprint and the volume it was probed for (R177, R178). -/
structure Latch where
  fp : List (BitVec 8)
  vol : Nat
  deriving DecidableEq, Repr

/-- The admission state of a volume: the bit, and the probes and hits of its window (R170). -/
structure Admit where
  bit : Bool := true
  probes : Nat := 0
  hits : Nat := 0
  deriving DecidableEq, Repr

/-- A queued insertion into the index (R178): the slot word, the fingerprint and the volume. -/
structure FpIns where
  word : Nat
  fp : List (BitVec 8)
  vol : Nat
  deriving DecidableEq, Repr

/-- The dedupe units. `hot` names the bucket that each hot filter line holds, `evicted` counts evictions since the last record of R167,
`latch` holds the fingerprint latches by agent, `maybe` the agents whose last probe answered "maybe seen", `pend` the pending
fingerprint table by slot word, `ins` and `rem` the
queued insertions and the slots queued for removal (R178, R179), `dom` the index domains and `ixPage` their pages by domain and page number, `builds` the
domains waiting to be built and `borrow` that SEC holds grist unit 0 of L0 (R163). `building` is the
domain being built and its next page. (log 190, DESIGN CHOICE, unsafe) -/
structure GlSt where
  hot : KMap Nat := []
  evicted : Nat := 0
  latch : KMap Latch := []
  maybe : List Nat := []
  admission : KMap Admit := []
  pend : KMap Latch := []
  ins : List FpIns := []
  rem : List Nat := []
  dom : KMap Domain := []
  ixPage : KMap Nat := []
  builds : List Nat := []
  borrow : Bool := false
  building : Option (Nat × Nat) := none
  deriving DecidableEq, Repr

end Sys2Proof.Machine
end

