-- ==== Sys2Proof/Machine/State.lean ====
section
/-! DEFINITION. The state of the NZ-9024, its reset, and the reasons a step can stop. -/

namespace Sys2Proof.Machine

/-- No command of this device stops the machine with a fault: an instruction fault is a fault state of a flow or an entry
to a handler (R74 to R78), which is a next state. -/
inductive Fault where
  deriving DecidableEq, Repr

/-- The reasons why a command has no meaning. -/
inductive Refusal where
  /-- The command is not modelled; raised by its arm of `exec` alone. Safe: nothing is claimed of it. -/
  | notModelled (mnemonic : String)
  deriving DecidableEq, Repr

/-- The state of the device. `mem` lists every byte that is not zero (R21), `csr` the registers that have been written
(R8 to R16), `dtime` the device time in ns (R73; log 3, DESIGN CHOICE, unsafe). The flow machine is `ctxs`, `seqs`, `sched` and `weight`, the steward cores
`stews` (R43 to R89), the engines' jobs `jobs`, with `nextJob` and `nextOrd`, which number them and their acceptances (R90 to R104), the bung and its waiting switches `bung` and
`ctxWait` (R105 to R121), the map and its metadata `me`, `mc` and `rootRecs` (R122 to R157), lauter `gl` (R158 to R186),
compression `comp` (R187 to R208), the cipher and the keys in exchange `xe` and `rekey` (R209 to R230), tuns and journal
`ta` (R231 to R265), placement and rebuild `plc` (R266 to R290), snapshots `snap` and streams `str` (R291 to R319), hosts
`host` (R320 to R361), RDMA `rx` (R362 to R389), the switch `sw` (R390 to R415), the partner `partner` (R416 to R447),
power and thermal `pwr` (R448 to R482), resets and waits `rst` and boot `boot` (R483 to R506), update `upd` (R507 to
R528), the log and counters `cel` (R529 to R546), the board, clocks and test access `board` (R547 to R567), and the size
of DDR5 `ddrcSize` (R23; log 128, DEDUCED, unsafe). `pending` and `out` are the model's queue of commands and list of
what has left (log 6, DESIGN CHOICE, safe; log 7, DESIGN CHOICE, unsafe); `free` counts the free values drawn (log 2,
DESIGN CHOICE, safe). -/
structure State where
  pending : List Instr := []
  mem : List Host.Cell := []
  csr : KMap Word := []
  dtime : Word := 0
  free : Nat := 0
  out : List Out := []
  ddrcSize : Nat := 0
  ctxs : KMap Ctx := []
  seqs : KMap Seq := []
  sched : Sched := ⟨[], 0, 0⟩
  weight : KMap Nat := []
  stews : KMap Stew := []
  jobs : KMap Job := []
  nextJob : Nat := 0
  nextOrd : Nat := 0
  cel : Cellar := {}
  bung : Bung := {}
  ctxWait : List WaitCmd := []
  partner : Partner := {}
  me : MapEng := {}
  mc : McState := {}
  rootRecs : List Act := []
  comp : CompSt := {}
  xe : XeSt := {}
  gl : GlSt := {}
  ta : TaSt := {}
  plc : PlcSt := {}
  snap : SnapSt := {}
  str : StrSt := {}
  host : HostSt := {}
  rx : RdmaSt := {}
  sw : SwitchSt := {}
  rekey : Rekey := {}
  rst : Resets := {}
  pwr : PwrSt := {}
  boot : BootSt := {}
  upd : UpdSt := {}
  board : BoardSt := {}
  deriving DecidableEq, Repr

/-- A steward core as R80 starts it: in P mode with EVEN and INEV 0, every region disabled and every register zero. (log 152, DESIGN CHOICE, unsafe) -/
def startCore (pc : Word) : Stew :=
  { run := true, rf := ⟨[], pc, []⟩, mode := 1, epc := 0, ecause := 0, eaddr := 0, evbase := 0, emode := 0, scratch := [], rgnb := [], rgnl := [] }

/-- The device right after the release of a cold power-on reset: every register holds its reset value, memory lists
nothing, and steward core 0 stands at address 0 of the boot ROM in P mode (R80). (log 4, DESIGN CHOICE, unsafe) -/
def State.reset : State := { stews := [(0, startCore 0)] }

end Sys2Proof.Machine
end

