-- ==== Sys2Proof/Machine/Ops.lean ====
section
/-! DEFINITION. The named operations over memory, registers, the cellar log, the event queues and the performance counters that the
meanings of all commands share. -/

namespace Sys2Proof.Machine

/-- What a meaning answers. -/
abbrev Res := Host.Outcome State Fault Refusal

/-! ### Memory -/

/-- One byte of memory; a byte that nothing has written reads as zero. (log 4, DESIGN CHOICE, unsafe) -/
def mget (m : List Host.Cell) (a : Nat) : Byte := kgetD m a 0

/-- Writes one byte, keeping the canonical form. (log 4, DESIGN CHOICE, unsafe) -/
def mput (m : List Host.Cell) (a : Nat) (b : Byte) : List Host.Cell := kputD 0 m a b

/-- `n` bytes from an address, ascending. -/
def mread (m : List Host.Cell) (a n : Nat) : List Byte := (List.range n).map fun i => mget m (a + i)

/-- Writes bytes from an address on, ascending. -/
def mwrite (m : List Host.Cell) (a : Nat) : List Byte → List Host.Cell
  | [] => m
  | b :: l => mwrite (mput m a b) (a + 1) l

/-- The canonical form of the memory. (log 4, DESIGN CHOICE, unsafe) -/
abbrev Memory.wf (m : List Host.Cell) : Bool := canonical (0 : Byte) m

/-- A little-endian number of `n` bytes in memory (R8). -/
def rdN (s : State) (a n : Nat) : Nat := leNat (mread s.mem a n)

/-- Writes a little-endian number of `n` bytes to memory (R8). -/
def wrN (a n v : Nat) (s : State) : State := { s with mem := mwrite s.mem a (leBytes n v) }

/-- Bytes of memory. -/
def rdB (s : State) (a n : Nat) : List Byte := mread s.mem a n

/-- Writes bytes to memory. -/
def wrB (a : Nat) (l : List Byte) (s : State) : State := { s with mem := mwrite s.mem a l }

/-- Bits `hi .. lo` of a field of `n` bytes in memory. -/
def rdBits (s : State) (a n hi lo : Nat) : Nat := bitsN (rdN s a n) hi lo

/-- Replaces bits `hi .. lo` of a field of `n` bytes (at most 8) in memory. -/
def wrBits (a n hi lo v : Nat) (s : State) : State := wrN a n (setBits (BitVec.ofNat 64 (rdN s a n)) hi lo v).toNat s

/-- Forgets the bytes from `lo` to `hi`: they read as zero again. -/
def wipe (lo hi : Nat) (s : State) : State := { s with mem := s.mem.filter fun c => !(decide (lo ≤ c.1) && decide (c.1 ≤ hi)) }

/-- `n` bytes of which the spec says nothing: the free values of the step. (log 2, DESIGN CHOICE, safe) -/
def freeBytes (s : State) (n : Nat) : List Byte := (List.range n).map fun i => Config.freeByte (s.free + i)

/-- Writes `n` free bytes and advances the counter of free values. (log 2, DESIGN CHOICE, safe; 12, DESIGN CHOICE, safe) -/
def wrFree (a n : Nat) (s : State) : State :=
  { s with mem := mwrite s.mem a (freeBytes s n), free := s.free + n }

/-! ### Registers -/

/-- The first address of CSR space (R21). -/
def csrBase : Nat := 0x1_0000_0000

/-- The device address of a register, or of one element of an array of registers. -/
def RegName.addr (r : RegName) (i j : Nat) : Nat :=
  csrBase + r.info.unit * 0x100_0000 + r.info.off + i * r.info.s1 + j * r.info.s2

/-- The reset value of a register (R9): that of its fields, and where the rule gives the value of one element of an array on
its own, that value (R89: window 0; R545: CEL_EVQ*n*_CTL.CORE is *n*). (log 30, DEDUCED, unsafe) -/
def RegName.resetVal (r : RegName) (i : Nat) : Word :=
  match r, i with
  | .FSQ_FWIN_BASE, 0 => 0x0000006000000003
  | .FSQ_FWIN_LIM, 0 => 0x00000067FFFFF000
  | .CEL_EVQ_CTL, i => setBits 0 7 4 i
  | r, _ => r.info.fields.foldl (fun w f => setBits w f.hi f.lo f.reset) 0

/-- The bits of a register that some field covers; the others are reserved (R11). -/
def RegName.implemented (r : RegName) : Word := r.info.fields.foldl (fun w f => w ||| maskW f.hi f.lo) 0

/-- The bits of a register whose keep class is in a list (R15). (log 30, DEDUCED, unsafe) -/
def RegName.keepMask (r : RegName) (ks : List Keep) : Word :=
  r.info.fields.foldl (fun w f => if ks.contains f.keep then w ||| maskW f.hi f.lo else w) 0

/-- The element of an array that an offset from its first element names. -/
def RegDef.index (d : RegDef) (rem : Nat) : Option (Nat × Nat) :=
  let i := rem / d.s1
  let r1 := rem % d.s1
  let j := r1 / d.s2
  if i < d.n1 && j < d.n2 && decide (r1 % d.s2 = 0) then some (i, j) else none

/-- The register at an offset of a list of registers. -/
def findReg (off : Nat) : List RegName → Option (RegName × Nat × Nat)
  | [] => none
  | r :: l =>
    if r.info.off ≤ off then
      match r.info.index (off - r.info.off) with
      | some (i, j) => some (r, i, j)
      | none => findReg off l
    else findReg off l

/-- The CSR unit of a device address in CSR space. -/
def unitOf (a : Nat) : Nat := (a - csrBase) / 0x100_0000

/-- The register at a device address, if one is there (R12, R27). -/
def regAt (a : Nat) : Option (RegName × Nat × Nat) :=
  findReg ((a - csrBase) % 0x100_0000) (RegName.ofUnit (unitOf a))

/-- The stored value of a register. -/
def rd (s : State) (r : RegName) (i : Nat := 0) (j : Nat := 0) : Word := kgetD s.csr (r.addr i j) (r.resetVal i)

/-- Stores a register. -/
def wr (r : RegName) (v : Word) (s : State) (i : Nat := 0) (j : Nat := 0) : State :=
  { s with csr := kput s.csr (r.addr i j) v }

/-- The stored value of a field. -/
def getF (s : State) (f : Fld) (i : Nat := 0) (j : Nat := 0) : Nat := bits (rd s f.reg i j) f.hi f.lo

/-- Stores a field. -/
def setF (f : Fld) (v : Nat) (s : State) (i : Nat := 0) (j : Nat := 0) : State :=
  wr f.reg (setBits (rd s f.reg i j) f.hi f.lo v) s i j

/-- Whether a one-bit field is set. -/
def isF (s : State) (f : Fld) (i : Nat := 0) (j : Nat := 0) : Bool := decide (getF s f i j ≠ 0)

/-- Adds to a counter in bits 47 to 0 of its register; the count wraps. (log 33, DEDUCED, unsafe) -/
def bumpBy (n : Nat) (r : RegName) (s : State) (i : Nat := 0) : State :=
  wr r (setBits (rd s r i) 47 0 (bits (rd s r i) 47 0 + n)) s i

/-- Adds one to a counter. -/
def bump (r : RegName) (s : State) (i : Nat := 0) : State := bumpBy 1 r s i

/-- What a register holds after a steward write of `v` to it, field by field (R9): RW fields take the value, a 1 clears a W1C bit
and sets a W1S bit; everything else stays. -/
def writeFields (old v : Word) : List FieldDef → Word
  | [] => old
  | f :: l =>
    let old' := match f.ty with
      | .rw => setBits old f.hi f.lo (bits v f.hi f.lo)
      | .w1c => setBits old f.hi f.lo (bits (old &&& ~~~v) f.hi f.lo)
      | .w1s => setBits old f.hi f.lo (bits (old ||| v) f.hi f.lo)
      | .ro | .wo | .rc => old
    writeFields old' v l

/-- What a read of a register returns, field by field (R9): a WO field reads as zero, a reserved bit too (R11). (log 33, DEDUCED, unsafe) -/
def readFields (w : Word) : List FieldDef → Word
  | [] => 0
  | f :: l =>
    match f.ty with
    | .wo => readFields w l
    | .ro | .rw | .w1c | .w1s | .rc => readFields w l ||| (w &&& maskW f.hi f.lo)

/-- What a register holds after a read of it: its RC fields are cleared (R9). (log 33, DEDUCED, unsafe) -/
def clearRc (w : Word) : List FieldDef → Word
  | [] => w
  | f :: l =>
    match f.ty with
    | .rc => clearRc (w &&& ~~~(maskW f.hi f.lo)) l
    | .ro | .rw | .wo | .w1c | .w1s => clearRc w l

/-! ### Event sources -/

/-- Raises an event source (R529, R530): nothing when its route is not enabled, one more raise when it is pending, else an
entry at the tail of its queue. -/
def raise (src param : Nat) (s : State) : State :=
  if !isF s F.CEL_EVRT_EN src then s
  else
    match kget s.cel.pend src with
    | some p =>
      { s with cel := { s.cel with pend := kput s.cel.pend src ⟨min 0xFFFF (p.count + 1), param % 2 ^ 32⟩ } }
    | none =>
      let q := getF s F.CEL_EVRT_QUEUE src
      { s with cel := { s.cel with
          pend := kput s.cel.pend src ⟨1, param % 2 ^ 32⟩
          evq := kput s.cel.evq q (kgetD s.cel.evq q [] ++ [src]) } }

/-- Sets bits 1 to 7 of the BMC ALERTS byte (R544). -/
def alert (b : Nat) (s : State) : State :=
  { s with cel := { s.cel with alerts := s.cel.alerts ||| 2 ^ b } }

/-- Whether ALERT_N is asserted (R532): some bit of the ALERTS byte is 1, bit 0 while a source whose route has ALERT is
pending. -/
def alertPending (s : State) : Bool := s.cel.pend.any fun kv => isF s F.CEL_EVRT_ALERT kv.1

/-- The ALERTS byte (R544). -/
def alertsByte (s : State) : Nat := (s.cel.alerts &&& 0xFE) ||| b2n (alertPending s)

/-! ### The cellar log -/

/-- A record is lost: alert bit 7, and source 0x0410 for the first loss since the last advancing read (R529, R534). -/
def celLoss (s : State) : State :=
  let s := alert 7 s
  if s.cel.armed then
    let param := min 0xFFFF (getF s F.CEL_LOST_OVER) + 65536 * min 0xFFFF (getF s F.CEL_LOST_DROP)
    raise 0x0410 param { s with cel := { s.cel with armed := false } }
  else s

/-- A record arrives at the log: into its input queue of 64, or lost (R534). -/
def celPush (r : CelRec) (s : State) : State :=
  if s.cel.inq.length < 64 then { s with cel := { s.cel with inq := s.cel.inq ++ [r] } }
  else celLoss (setF F.CEL_LOST_DROP (min 0xFFFF (getF s F.CEL_LOST_DROP + 1)) s)

/-- A unit raises a cellar record (R533, R537). -/
def cel (code unit sev p0 p1 p2 : Nat) (s : State) : State :=
  celPush ⟨code, unit % 256, sev, s.dtime.toNat, p0 % 2 ^ 32, p1 % 2 ^ 32, p2 % 2 ^ 32, false⟩ s

/-- The record of an ignored or refused write to a register (R537 code *uu*01). (log 31, DESIGN CHOICE, unsafe) -/
def celIgnored (addr : Nat) (v : Word) (s : State) : State :=
  cel (unitOf addr * 256 + 1) 0 2 ((addr - csrBase) % 0x100_0000) (bits v 31 0) (bits v 63 32) s

/-- The record of an ignored or refused write to a named register. (log 31, DESIGN CHOICE, unsafe) -/
def celRefused (r : RegName) (v : Word) (s : State) (i : Nat := 0) (j : Nat := 0) : State :=
  celIgnored (r.addr i j) v s

/-- The record that names an address (R537 code *uu*02). (log 24, DEDUCED, unsafe; 31, DESIGN CHOICE, unsafe) -/
def celAddress (u addr : Nat) (write : Bool) (s : State) : State :=
  cel (u * 256 + 2) 0 2 (addr % 2 ^ 32) (addr / 2 ^ 32 % 65536) (b2n write) s

/-! ### Performance counters -/

/-- A counter adds occurrences, wraps at 2^48, sets its overflow bit and passes an overflow on (R540, R541). -/
def pmcAdd : Nat → Nat → Nat → State → State
  | 0, _, _, s => s
  | fuel + 1, n, k, s =>
    let c := getF s F.PMC_CNT_COUNT n + k
    let s := setF F.PMC_CNT_COUNT (c % 2 ^ 48) s n
    if c < 2 ^ 48 then s
    else
      let s := wr .PMC_OVF (rd s .PMC_OVF (n / 64) ||| BitVec.ofNat 64 (2 ^ (n % 64))) s (n / 64)
      let s := if isF s F.PMC_SEL_OVFEV n then raise 0x0510 n s else s
      if isF s F.PMC_SEL_CHAIN n && decide (n < 1023) then
        if isF s F.PMC_SEL_EN (n + 1) then pmcAdd fuel (n + 1) 1 s else s
      else s

/-- Whether counter `n` counts an event of an instance: enabled, its event selected, the instance matched, and not a link of
a chain (R538 to R540). -/
def pmcSelects (s : State) (ev inst n : Nat) : Bool :=
  isF s F.PMC_SEL_EN n && decide (getF s F.PMC_SEL_EVENT n = ev) &&
  (!isF s F.PMC_SEL_INSTEN n || decide (getF s F.PMC_SEL_INST n = inst)) &&
  !(decide (0 < n) && isF s F.PMC_SEL_CHAIN (n - 1))

/-- The counters whose PMC_SEL has been written. -/
def pmcListed (s : State) : List Nat :=
  (s.csr.filter fun kv => decide ((RegName.PMC_SEL).addr 0 0 ≤ kv.1) && decide (kv.1 ≤ (RegName.PMC_SEL).addr 1023 0)).map
    fun kv => (kv.1 - (RegName.PMC_SEL).addr 0 0) / 8

/-- Occurrences of an event in one instance reach the counters that select it, unless the counters are frozen (R538, R542). -/
def pmc (ev inst k : Nat) (s : State) : State :=
  if isF s F.PMC_FREEZE_FROZEN then s
  else (pmcListed s).foldl (fun t n => if pmcSelects s ev inst n then pmcAdd 1024 n k t else t) s

/-- A governor decision is counted and recorded (R42, R537 code 0x1310, R539). -/
def govRecord (kind object new old : Nat) (s : State) : State := pmc 0x1301 kind 1 (cel 0x1310 kind 0 object new old s)

/-! ### The blocks of the switch core (R390, R391) -/

/-- The number of chips of the gang and the chip this device is (R446). -/
def gangChips (s : State) : Nat := getF s F.GANG_CFG_CHIPS + 1
@[inherit_doc gangChips] def gangChip (s : State) : Nat := getF s F.GANG_CFG_CHIP

/-- A block of a group: the front end of group H, and the CSR network of group CTL. (log 184, DESIGN CHOICE, safe) -/
def blockOf (group cls inst : Nat) : Nat := group * 256 + Config.blockNo cls inst % 256
@[inherit_doc blockOf] def hfeBlock : Nat := blockOf 2 0x40 0
@[inherit_doc blockOf] def ctlBlock : Nat := blockOf 7 0x40 0

/-- The block of the memory that holds an address: the DDR5 channel (R23), or a block of a logic die. (log 184, DESIGN CHOICE, safe) -/
def memBlock (a : Nat) : Nat :=
  if 0x100_0000_0000 ≤ a then 6 * 256 + (a - 0x100_0000_0000) / 4096 % 12
  else b2n (Config.memGroup a) * 256 + Config.memNo a % 256

/-- A transfer is to be sent as cells (R391). (log 103, DESIGN CHOICE, unsafe) -/
def sendXfer (x : Xfer) (s : State) : State := if x.data = [] then s else { s with sw := { s.sw with xfers := s.sw.xfers ++ [x] } }

/-! ### Outputs and resets -/

/-- Something leaves the device. (log 6, DESIGN CHOICE, safe; 118, DESIGN CHOICE, unsafe) -/
def emit (o : Out) (s : State) : State := { s with out := s.out ++ [o] }

/-- Advances the counter of free values by one. (log 2, DESIGN CHOICE, safe) -/
def nextFree (s : State) : State := { s with free := s.free + 1 }

/-- Answers a next state. (log 5, DESIGN CHOICE, safe) -/
def ok (s : State) : Res := .next s

end Sys2Proof.Machine
end

