-- ==== Sys2Proof/Machine/ObsOps.lean ====
section
/-! DEFINITION. The operations of observation and reset that every unit calls: writing the cellar log (R533, R534), asking for a flush of
its buffer (R536) and asserting a head reset (R484 to R488). -/

namespace Sys2Proof.Machine

/-- The first address and the size of the cellar buffer (R24, R533). -/
def celBase : Nat := 0x2300_0000

/-- Where record `i` of the cellar buffer lies (R533). -/
def celAddr (i : Nat) : Nat := celBase + 32 * (i % 16384)

/-- Starts a flush: the copy is taken as the buffer stands now (R536). (log 41, DESIGN CHOICE, unsafe) -/
def startFlush (reason also : Nat) (s : State) : State :=
  let fl : Flush := {
    reason := reason
    also := also
    dtime := s.dtime.toNat
    image := s.mem.filter fun c => decide (celBase ≤ c.1) && decide (c.1 < celBase + 0x8_0000)
    count := s.cel.total
    wpos := getF s F.CEL_STAT_WPOS
    lost := getF s F.CEL_LOST_OVER
    drop := getF s F.CEL_LOST_DROP }
  setF F.CEL_STAT_FBUSY 1 { s with cel := { s.cel with flush := some fl } }

/-- A request for a flush (R536): it starts at once, or joins the one pending request of a running flush. The request of step 6 of
a power fail abandons a running flush and serves the pending request too. (log 41, DESIGN CHOICE, unsafe) -/
def requestFlush (reason : Nat) (s : State) : State :=
  let mark := 2 ^ (reason - 1)
  match s.cel.flush with
  | none => startFlush reason mark s
  | some _ =>
    if reason = 6 then
      let also := match s.cel.flushReq with
        | some (_, a) => a ||| mark
        | none => mark
      startFlush 6 also { s with cel := { s.cel with flushReq := none } }
    else
      match s.cel.flushReq with
      | some (r, a) => { s with cel := { s.cel with flushReq := some (r, a ||| mark) } }
      | none => { s with cel := { s.cel with flushReq := some (reason, mark) } }

/-! ### The log (R533, R534) -/

/-- The 32 bytes of a record (R533). -/
def recBytes (r : CelRec) (repeats span : Nat) (spansat : Bool) : List Byte :=
  leBytes 2 r.code ++ leBytes 1 r.unit ++ leBytes 1 (r.sev % 8 + 8 * b2n r.sw + 16 * b2n spansat) ++ leBytes 4 repeats ++
    leBytes 8 r.first ++ leBytes 4 span ++ leBytes 4 r.p0 ++ leBytes 4 r.p1 ++ leBytes 4 r.p2

/-- Whether an arriving record repeats a record of the buffer: equal in CODE, UNIT, P0, P1, P2 and SEV[3] (R534). -/
def sameRecord (r : CelRec) (b : List Byte) : Bool :=
  decide (fieldN b 0 2 = r.code) && decide (fieldN b 2 1 = r.unit) && decide (fieldN b 3 1 / 8 % 2 = b2n r.sw) &&
    decide (fieldN b 20 4 = r.p0) && decide (fieldN b 24 4 = r.p1) && decide (fieldN b 28 4 = r.p2)

/-- The position of CEL_RPOS: as many records behind WPOS as are unread (R535, R545). (log 39, DEDUCED, unsafe) -/
def rpos (s : State) : Nat := (getF s F.CEL_STAT_WPOS + 16384 * 2 - getF s F.CEL_STAT_UNREAD) % 16384

/-- A repeat is folded into the last record (R534): REPEAT counts on, SPAN runs to the repeat's own DTIME. (log 40, DEDUCED, unsafe) -/
def foldRecord (r : CelRec) (pos : Nat) (s : State) : State :=
  let a := celAddr pos
  let us := (r.first - rdN s (a + 8) 8) / 1000
  let s := wrN (a + 4) 4 (min 0xFFFFFFFF (rdN s (a + 4) 4 + 1)) s
  let s := wrN (a + 16) 4 (min 0xFFFFFFFF us) s
  if 0xFFFFFFFF < us then wrBits (a + 3) 1 4 4 1 s else s

/-- A new record is written at WPOS; a cursor that has not passed the record it replaces moves on and the loss is counted (R534,
R544). -/
def writeRecord (r : CelRec) (s : State) : State :=
  let pos := getF s F.CEL_STAT_WPOS
  let full := decide (s.cel.total = 16384)
  let lostSteward := full && decide (getF s F.CEL_STAT_UNREAD = 16384)
  let lostBmc := full && decide (s.cel.bmcUnread = 16384)
  let s := wrB (celAddr pos) (recBytes r 1 0 false) s
  let s := setF F.CEL_STAT_WPOS (pos + 1) s
  let s := { s with cel := { s.cel with
    total := min 16384 (s.cel.total + 1)
    bmcUnread := min 16384 (s.cel.bmcUnread + 1)
    bmcLost := s.cel.bmcLost + b2n lostBmc } }
  if lostSteward then celLoss (setF F.CEL_LOST_OVER (min 0xFFFFFFFF (getF s F.CEL_LOST_OVER + 1)) s)
  else setF F.CEL_STAT_UNREAD (getF s F.CEL_STAT_UNREAD + 1) s

/-- The RECORD source of a unit, for a record of severity 3 or above that it writes, a repeat included (R529). (log 40, DEDUCED, unsafe) -/
def recordSource (r : CelRec) (pos : Nat) (s : State) : State :=
  if 3 ≤ r.sev % 8 && !r.sw then raise (r.code / 256 * 256 + 1) (r.code + pos * 65536) s else s

/-- The log takes one record (R534). (log 39, DEDUCED, unsafe; 40, DEDUCED, unsafe) -/
def logRecord (r : CelRec) (s : State) : State :=
  let last := (getF s F.CEL_STAT_WPOS + 16383) % 16384
  if 0 < getF s F.CEL_STAT_UNREAD && sameRecord r (rdB s (celAddr last) 32) then recordSource r last (foldRecord r last s)
  else
    let pos := getF s F.CEL_STAT_WPOS
    let s := recordSource r pos (writeRecord r s)
    if r.sev % 8 = 4 && isF s F.CEL_CTL_CRITFLUSH then requestFlush 2 s else s

/-- Every record of the input queue is written (R486). -/
def drainLog (s : State) : State := s.cel.inq.foldl (fun t r => logRecord r t) { s with cel := { s.cel with inq := [] } }

/-! ### Head resets (R484 to R488) -/

/-- Sets the bit of a further source in SYS_RSTSRC.ALSO (R485). -/
def alsoSource (code : Nat) (s : State) : State :=
  setF F.SYS_RSTSRC_ALSO (getF s F.SYS_RSTSRC_ALSO ||| 2 ^ code) s

/-- Steps 1 and 2 of R486: HEALTH_OUT and heartbeats stop, the lanes go idle and the D root ports enter hot reset, the vault ports
only where `vault` says so. -/
def resetSteps12 (vault : Bool) (s : State) : State :=
  { s with rst := { s.rst with health := false, idle := true, dports := if vault then 2 else 1 } }

/-- A head reset source is asserted (R484, R485, R488). The first of them starts a head reset, which HEAD_RESET runs; of sources of
one AON cycle CODE takes the lowest; a later one sets its bit in ALSO. While the power-fail sequence runs, every source but
0x08 and 0x0A is only recorded, and waits for its step 7. A double fault (0x04) and a fence (0x08) take steps 1 and 2 of R486 at once, the vault ports
apart. (log 126, DEDUCED, unsafe) -/
def assertReset (code : Nat) (s : State) : State :=
  match s.rst.asserted with
  | some c =>
    if s.rst.t0 = s.dtime.toNat && decide (code < c) then
      alsoSource c (setF F.SYS_RSTSRC_CODE code { s with rst := { s.rst with asserted := some code } })
    else alsoSource code s
  | none =>
    if s.rst.held then alsoSource code s
    else if getF s F.PWR_PF_STEP ≠ 0 && getF s F.PWR_PF_STEP ≠ 7 && !(decide (code = 0x08) || decide (code = 0x0A)) then
      alsoSource code { s with pwr := { s.pwr with later := some (match s.pwr.later with | some c => min c code | none => code) } }
    else
      let s := setF F.SYS_RSTSRC_ALSO 0 s
      let s := setF F.SYS_RSTSRC_CODE code s
      let s := setF F.SYS_RSTSRC_COUNT (getF s F.SYS_RSTSRC_COUNT + 1) s
      let s := { s with rst := { s.rst with asserted := some code, t0 := s.dtime.toNat } }
      if code = 0x04 || code = 0x08 then
        resetSteps12 false { s with rst := { s.rst with first := true } }
      else s

end Sys2Proof.Machine
end

