-- ==== Sys2Proof/Machine/HostOps.lean ====
section
/-! DEFINITION. Status fields (R350), submission queue entries, posted completions and the Error Information log (R332, R343): what every
unit that answers a host shares. -/

namespace Sys2Proof.Machine

/-- The statuses that R350 marks DNR, as status code type * 256 + status code. -/
def dnrStatuses : List Nat :=
  [0x001, 0x002, 0x00B, 0x00C, 0x00F, 0x015, 0x01C, 0x020, 0x080, 0x083, 0x105, 0x109, 0x10A, 0x10D, 0x115, 0x118, 0x11A, 0x182, 0x281, 0x282,
    0x284, 0x285, 0x286]

/-- A status field of R347 from a status code type and code, with DNR as R350 marks it. -/
def status (c : Nat) : Nat := if dnrStatuses.contains c then c + 0x4000 else c

/-- Fields of a submission queue entry (R45, R330): opcode, the SGL use of byte 1, CID, NSID, SLBA, NLB + 1 and PRINFO. (log 85, PRESUMED, unsafe) -/
def sqOpc (q : List Byte) : Nat := fieldN q 0 1
@[inherit_doc sqOpc] def sqPsdt (q : List Byte) : Nat := bitsN (fieldN q 1 1) 7 6
@[inherit_doc sqOpc] def sqCid (q : List Byte) : Nat := fieldN q 2 2
@[inherit_doc sqOpc] def sqNsid (q : List Byte) : Nat := fieldN q 4 4
@[inherit_doc sqOpc] def sqLba (q : List Byte) : Nat := fieldN q 40 8
@[inherit_doc sqOpc] def sqNlb (q : List Byte) : Nat := bitsN (fieldN q 48 4) 15 0 + 1
@[inherit_doc sqOpc] def sqPrinfo (q : List Byte) : Nat := bitsN (fieldN q 48 4) 29 26

/-- The read-type and the write-type opcodes (R331), and whether a bound opcode that R330 does not list counts as write-type (R346). -/
def readType (opc : Nat) : Bool := [0x02, 0x05].contains opc
@[inherit_doc readType] def writeType (opc : Nat) : Bool := [0x01, 0x08, 0x09, 0x19].contains opc

/-- An Error Information entry joins the ring of 256 (R343). -/
def logError (e : ErrEnt) (s : State) : State :=
  { s with host := { s.host with errCount := s.host.errCount + 1, errs := ({ e with count := s.host.errCount + 1 } :: s.host.errs).take 256 } }

/-- The NSID of a volume in the namespace table (R322), 0 where none names it. -/
def nsidOf (s : State) (v : Nat) : Nat :=
  let base := getF s F.HFE_NSTAB_BASE * 4096
  let cells := s.mem.filter fun c => decide (base ≤ c.1) && decide (c.1 < base + 0x20_0000) && decide ((c.1 - base) % 8 = 2)
  match cells.find? fun c => c.2.getLsbD 4 && decide (rdBits s (c.1 - 2) 8 17 0 = v) with
  | some c => (c.1 - base) / 8 + 1
  | none => 0

/-- A lost LBA range is reported: a cellar record, an entry in this head's ring and one in the partner's (R273, R343). -/
def reportLost (vol first len : Nat) (tell : Bool) (s : State) : State :=
  let s := logError ⟨0, 0xFFFF, 0xFFFF, status 0x281, first, nsidOf s vol, 0, len⟩ s
  let s := { s with host := { s.host with mediaErrs := s.host.mediaErrs + 1 } }
  if tell then emit (.partner (.lostRange vol first len)) s else s

/-- The bytes of a completed command count towards the data units of the host (R344, R360). -/
def countUnits (opc bytes : Nat) (s : State) : State :=
  if readType opc then
    let n := s.host.rdBytes + bytes
    bumpBy (n / 512000) .HFE_RDDU_CNT { s with host := { s.host with rdBytes := n % 512000 } }
  else if opc = 0x01 then
    let n := s.host.wrBytes + bytes
    bumpBy (n / 512000) .HFE_WRDU_CNT { s with host := { s.host with wrBytes := n % 512000 } }
  else s

/-- The key that the response to a command invalidates: its SGL is a keyed data block of sub-type Fh (R326). -/
def invKey (sqe : List Byte) : Option Nat := if fieldN sqe 39 1 = 0x4F then some (fieldN sqe 35 4) else none

/-- The number of a command by its queue and CID. -/
def cmdKey (hq cid : Nat) : Nat := hq * 65536 + cid

/-- The result of a forwarded command goes to the head that received the capsule, and its host data is staged no more (R41). -/
def returnResult (hq cid st dw0 : Nat) (s : State) : State :=
  emit (.forwardResult hq cid st dw0) { s with rx := { s.rx with staged := kdel s.rx.staged (cmdKey hq cid) } }

/-- A response capsule goes out as a SEND on a queue pair in RTS: it takes the next PSN, before what waits to be sent (R365, R376). -/
def sendResponse (qp : Nat) (s : State) : State :=
  match kget s.rx.qps qp with
  | some q =>
    if q.st ≠ 3 then s
    else
      let e : SendEnt := { kind := .resp, len := 16, psn := q.spsn, sent := true }
      let sq := q.sq.filter (·.sent) ++ [e] ++ q.sq.filter fun e => !e.sent
      { s with rx := { s.rx with qps := kput s.rx.qps qp { q with spsn := (q.spsn + 1) % 2 ^ 24, sq := sq } } }
  | none => s

/-- A completion is posted on a live queue that is not frozen: it frees the command's place, is counted, and Internal Error and media
statuses are logged (R332, R333, R343, R360). -/
def postCompletion (hq cid st dw0 : Nat) (sqe : List Byte) (s : State) : State :=
  match kget s.host.queues hq with
  | none => s
  | some q =>
    if q.frozen then s
    else
      let s := { s with host := { s.host with queues := kput s.host.queues hq { q with used := q.used - 1 } } }
      let s := pmc 0x0902 0 1 (emit (.completion hq cid st dw0 q.head (if q.tcp then none else invKey sqe)) s)
      let s := { s with rx := { s.rx with capsule := kdel s.rx.capsule (cmdKey hq cid) } }
      let s := if q.tcp then s else sendResponse q.conn s
      let code := st % 2048
      let s := if code = 0x006 ∨ code / 256 = 2 then
          logError ⟨0, q.qid, cid, st, sqLba sqe, sqNsid sqe, if q.tcp then 3 else 1, 0⟩ s
        else s
      let s := if code = 0x281 then { s with host := { s.host with mediaErrs := s.host.mediaErrs + 1 } } else s
      if q.qid = 0 then s
      else
        let opc := sqOpc sqe
        let s := if readType opc then bump .HFE_RDCMD_CNT s else if writeType opc then bump .HFE_WRCMD_CNT s else s
        if code = 0 then countUnits opc (4096 * sqNlb sqe) s else s

end Sys2Proof.Machine
end

