-- ==== Sys2Proof/Machine/Tables.lean ====
section
/-! DEFINITION. The snapshot table and the stream table in memory (R294, R305, R306), and the end of a stream context (R307). -/

namespace Sys2Proof.Machine

/-! ### Snapshots (R294) -/

/-- The snapshot table entry (R294). -/
def snapAddr (s : State) (n : Nat) : Nat := getF s F.ME_SNAPTAB_BASE * 4096 + 64 * n

/-- Fields of a snapshot table entry. -/
def snapRootSlot (s : State) (n : Nat) : Nat := rdBits s (snapAddr s n) 8 47 0
@[inherit_doc snapRootSlot] def snapVol (s : State) (n : Nat) : Nat := rdBits s (snapAddr s n + 8) 4 17 0
@[inherit_doc snapRootSlot] def snapEpoch (s : State) (n : Nat) : Nat := rdN s (snapAddr s n + 12) 4
@[inherit_doc snapRootSlot] def snapState (s : State) (n : Nat) : Nat := rdN s (snapAddr s n + 16) 1
@[inherit_doc snapRootSlot] def snapCgid (s : State) (n : Nat) : Nat := rdN s (snapAddr s n + 20) 4
@[inherit_doc snapRootSlot] def snapMapped (s : State) (n : Nat) : Nat := rdN s (snapAddr s n + 40) 8
@[inherit_doc snapRootSlot] def snapSize (s : State) (n : Nat) : Nat := rdN s (snapAddr s n + 48) 8

/-- The snapshots that are not FREE, with their STATE. -/
def snapsInUse (s : State) : List (Nat × Nat) :=
  (s.mem.filter fun c => decide (snapAddr s 0 ≤ c.1) && decide (c.1 < snapAddr s 0 + 2 ^ 30) && decide ((c.1 - snapAddr s 0) % 64 = 16)).map
    fun c => ((c.1 - snapAddr s 0) / 64, c.2.toNat)

/-- How many snapshots have a STATE that passes a test (R318). -/
def snapCount (s : State) (p : Nat → Bool) : Nat := (snapsInUse s).countP fun e => p e.2

/-! ### Streams (R305, R306) -/

/-- The entry of a stream, and the one stream of a volume in the volume-to-stream map. -/
def strAddr (s : State) (n : Nat) : Nat := getF s F.TA_STRBASE_BASE * 4096 + 128 * n
@[inherit_doc strAddr] def strOfVol (s : State) (v : Nat) : Option Nat :=
  let e := rdN s (getF s F.TA_STRMAP_BASE * 4096 + 2 * v) 2
  if e.testBit 15 then some (e % 4096) else none

/-- Fields of a stream table entry. -/
def strMode (s : State) (n : Nat) : Nat := rdBits s (strAddr s n) 1 1 0
@[inherit_doc strMode] def strRecv (s : State) (n : Nat) : Bool := decide (rdBits s (strAddr s n) 1 2 2 = 1)
@[inherit_doc strMode] def strValid (s : State) (n : Nat) : Bool := decide (rdBits s (strAddr s n) 1 3 3 = 1)
@[inherit_doc strMode] def strState (s : State) (n : Nat) : Nat := rdBits s (strAddr s n) 1 5 4
@[inherit_doc strMode] def strEpoch (s : State) (n : Nat) : Nat := rdN s (strAddr s n + 4) 4
@[inherit_doc strMode] def strVol (s : State) (n : Nat) : Nat := rdBits s (strAddr s n + 8) 4 17 0
@[inherit_doc strMode] def strNext (s : State) (n : Nat) : Nat := rdN s (strAddr s n + 24) 8
@[inherit_doc strMode] def strLast (s : State) (n : Nat) : Nat := rdN s (strAddr s n + 32) 8
@[inherit_doc strMode] def strAck (s : State) (n : Nat) : Nat := rdN s (strAddr s n + 40) 8
@[inherit_doc strMode] def strOldLast (s : State) (n : Nat) : Nat := rdN s (strAddr s n + 80) 8

@[inherit_doc strMode] def strTarget (s : State) (n : Nat) : Nat := rdBits s (strAddr s n + 52) 4 23 0
@[inherit_doc strMode] def strBase (s : State) (n : Nat) : Nat := rdBits s (strAddr s n + 48) 4 24 0
@[inherit_doc strMode] def strCursor (s : State) (n : Nat) : Nat := rdN s (strAddr s n + 56) 8
@[inherit_doc strMode] def strInflight (s : State) (n : Nat) : Nat := rdN s (strAddr s n + 64) 4
@[inherit_doc strMode] def strBatch (s : State) (n : Nat) : Nat := rdN s (strAddr s n + 72) 8

/-- Sets STATE of a stream. -/
def setStrState (n v : Nat) (s : State) : State := wrBits (strAddr s n) 1 5 4 v s

/-- How many stream contexts of a cycle may run (R305, R319). -/
def strPar (s : State) (n : Nat) : Nat :=
  let p := rdN s (strAddr s n + 1) 1
  max 1 (min 64 (if p = 0 then getF s F.TA_STRCTL_PAR else p))

/-- A context number is freed: where it was a stream context, INFLIGHT counts it no more, and at the end of a cycle the stream is IDLE and
CYCLE counts up (R305, R307). (log 82, DEDUCED, unsafe) -/
def endStream (ctx : Nat) (s : State) : State :=
  let s := { s with str := { s.str with lastApp := kdel s.str.lastApp ctx } }
  match kget s.str.ctxs ctx with
  | none => s
  | some c =>
    let n := c.stream
    let s := { s with str := { s.str with ctxs := kdel s.str.ctxs ctx } }
    let s := wrN (strAddr s n + 64) 4 (strInflight s n - 1) s
    if c.opc = 0xCC then
      wrN (strAddr s n + 68) 4 (rdN s (strAddr s n + 68) 4 + 1) (if strState s n = 1 then setStrState n 0 s else s)
    else s

end Sys2Proof.Machine
end

