-- ==== Sys2Proof/Machine/AddrMap.lean ====
section
/-! DEFINITION. The device address map (R21 to R26), who may reach what of it, and the flow windows (R56, R89). -/

namespace Sys2Proof.Machine

/-- The regions of the address map (R21, R24). -/
inductive Region where
  | bootRom | mcArray | localStore | switchBuf | lauterSum | volTable | keyStore | stewStore | flowStore
  | cellarBuf | otherSram | csr | hbm | ddr | partner | unmapped
  deriving DecidableEq, Repr

/-- The first address of the flow store and of the volume table (R24). -/
def flowStoreBase : Nat := 0x2280_0000
@[inherit_doc flowStoreBase] def volTableBase : Nat := 0x2000_0000

/-- The size of the flow store (R24). -/
def flowStoreSize : Nat := 0x80_0000

/-- The region an address lies in (R21, R23, R24). -/
def regionOf (s : State) (a : Nat) : Region :=
  if a < 0x10_0000 then .bootRom
  else if a < 0x1000_0000 then .unmapped
  else if a < 0x1800_0000 then .mcArray
  else if a < 0x1C00_0000 then .localStore
  else if a < 0x1E00_0000 then .switchBuf
  else if a < 0x2000_0000 then .lauterSum
  else if a < 0x2100_0000 then .volTable
  else if a < 0x2180_0000 then .keyStore
  else if a < 0x2280_0000 then .stewStore
  else if a < 0x2300_0000 then .flowStore
  else if a < 0x2308_0000 then .cellarBuf
  else if a < 0x2400_0000 then .otherSram
  else if a < 0x1_0000_0000 then .unmapped
  else if a < 0x2_0000_0000 then .csr
  else if a < 0x10_0000_0000 then .unmapped
  else if a < 0x70_0000_0000 then .hbm
  else if a < 0x100_0000_0000 then .unmapped
  else if a < 0x100_0000_0000 + s.ddrcSize then .ddr
  else if a < 0x1000_0000_0000 then .unmapped
  else if a < 0x2000_0000_0000 then .partner
  else .unmapped

/-- Whether `n` bytes lie wholly in HBM, or wholly in DDR. -/
def inHbmDdr (s : State) (a n : Nat) : Bool :=
  let last := a + n - 1
  (decide (0x10_0000_0000 ≤ a) && decide (last < 0x70_0000_0000)) ||
  (decide (0x100_0000_0000 ≤ a) && decide (last < 0x100_0000_0000 + s.ddrcSize))

/-- Whether `n` bytes lie wholly in one region. -/
def spanIn (s : State) (r : Region) (a n : Nat) : Bool :=
  decide (regionOf s a = r) && decide (regionOf s (a + n - 1) = r)

/-- The flow window check of R56 for one right: the bytes lie wholly inside one enabled window that grants it. -/
def windowOk (s : State) (write : Bool) (a n : Nat) : Bool :=
  (List.range 8).any fun k =>
    let rights := if write then isF s F.FSQ_FWIN_BASE_WR k else isF s F.FSQ_FWIN_BASE_RD k
    rights && decide (getF s F.FSQ_FWIN_BASE_BASE k * 4096 ≤ a) &&
      decide (a + n ≤ (getF s F.FSQ_FWIN_LIM_LAST k + 1) * 4096)

/-- The address of frame `f` of sequencer `q` (R45, R46). -/
def frameAddr (q f : Nat) : Nat := 0x1800_0000 + q * 0x4_0000 + f * 0x400

/-- The address of the record of a context (R45). -/
def ctxRec (n : Nat) : Nat := 0x68_0000_0000 + 128 * n

/-- Whether a context holds a frame (R49). -/
def Ctx.resident (c : Ctx) : Bool :=
  match c.st with
  | .queued | .parked _ => false
  | .paging | .ready | .running | .waiting _ | .faulted _ => true

/-- Whether an address lies in a frame that a resident context holds (R64). -/
def frameHeld (s : State) (a : Nat) : Bool :=
  s.ctxs.any fun kv => kv.2.resident && decide (frameAddr kv.2.seq kv.2.frame ≤ a) &&
    decide (a < frameAddr kv.2.seq kv.2.frame + 0x400)

/-- The first address of the local store of a steward core (R24). -/
def stewStoreBase (k : Nat) : Nat := 0x2180_0000 + k * 0x10_0000

/-- Where descriptor register `d` of an agent lies (R43, R46). -/
def descAddr (s : State) (a : Agent) (d : Nat) : Nat :=
  match a with
  | .ctx n =>
    match kget s.ctxs n with
    | some c => frameAddr c.seq c.frame + 0x080 + 64 * d
    | none => 0
  | .stew k => stewStoreBase k + 0xF_FE00 + 64 * d

/-- Where the result slot of ticket `t` of an agent lies (R43, R46). -/
def slotAddr (s : State) (a : Agent) (t : Nat) : Nat :=
  match a with
  | .ctx n =>
    match kget s.ctxs n with
    | some c => frameAddr c.seq c.frame + 0x280 + 16 * t
    | none => 0
  | .stew k => stewStoreBase k + 0xF_FD00 + 16 * t

end Sys2Proof.Machine
end

