-- ==== Sys2Proof/Machine/Gfi.lean ====
section
/-! DEFINITION. What every GFI instruction shares: the formats of R65, the register file (R44), the choice of the RUNNING context
(R53), the checks before an instruction has its effect in the order of R568, flow faults (R75) and steward handler entry
(R77, R78). -/

namespace Sys2Proof.Machine

/-! ### Formats (R65, R66) -/

/-- An instruction as it stands at the pc: its word (for a prefixed group the word after the prefix) and its length in
bytes. -/
structure Insn where
  word : Nat
  len : Nat
  deriving DecidableEq, Repr

/-- Format A. -/
def insnA (major : Nat) (rd ra rb : RegNo) (func : Nat) : Insn :=
  ⟨major * 2 ^ 26 + rd.toNat * 2 ^ 21 + ra.toNat * 2 ^ 16 + rb.toNat * 2 ^ 11 + func, 4⟩

/-- Format I, plain or prefixed: in a group the immediate field of the instruction word is zero. -/
def insnI (major : Nat) (rd ra : RegNo) : Imm → Insn
  | .short v => ⟨major * 2 ^ 26 + rd.toNat * 2 ^ 21 + ra.toNat * 2 ^ 16 + v.toNat, 4⟩
  | .long _ => ⟨major * 2 ^ 26 + rd.toNat * 2 ^ 21 + ra.toNat * 2 ^ 16, 12⟩

/-- Format B has its two source registers in the fields of format I. -/
def insnB (major : Nat) (ra rb : RegNo) (off : Imm) : Insn := insnI major ra rb off

/-- Format J. -/
def insnJ (major : Nat) (off : BitVec 26) : Insn := ⟨major * 2 ^ 26 + off.toNat, 4⟩

/-- Format E. -/
def insnE (major : Nat) (t : BitVec 4) (d : BitVec 3) (cls : BitVec 6) (flags : BitVec 13) : Insn :=
  ⟨major * 2 ^ 26 + t.toNat * 2 ^ 22 + d.toNat * 2 ^ 19 + cls.toNat * 2 ^ 13 + flags.toNat, 4⟩

/-- Format X. -/
def insnX (major xfunc : Nat) (rd ra : RegNo) (aux : Byte) : Insn :=
  ⟨major * 2 ^ 26 + rd.toNat * 2 ^ 21 + ra.toNat * 2 ^ 16 + xfunc * 2 ^ 8 + aux.toNat, 4⟩

/-- The immediate, sign-extended: `s(x)` of R69. -/
def immS : Imm → Word
  | .short v => v.signExtend 64
  | .long v => v.signExtend 64

/-- The immediate, zero-extended: `u(x)` of R69. -/
def immZ : Imm → Word
  | .short v => v.setWidth 64
  | .long v => v.setWidth 64

/-! ### Register files (R43, R44) -/

/-- A general register; g0 reads as zero. -/
def RegFile.get (f : RegFile) (r : Nat) : Word := if r = 0 then 0 else kgetD f.g r 0

/-- Writes a general register; a write to g0 is discarded. -/
def RegFile.set (f : RegFile) (r : Nat) (v : Word) : RegFile :=
  if r = 0 then f else { f with g := kputD 0 f.g r v }

/-- The pc of the next sequential instruction: 4 on, or 12 on after a group (R66). -/
def RegFile.adv (f : RegFile) (i : Insn) : RegFile := { f with pc := f.pc + BitVec.ofNat 64 i.len }

/-- The register file of an agent. -/
def rfOf (s : State) (a : Agent) : RegFile :=
  match a with
  | .ctx n => match kget s.ctxs n with | some c => c.rf | none => ⟨[], 0, []⟩
  | .stew k => match kget s.stews k with | some c => c.rf | none => ⟨[], 0, []⟩

/-- Replaces the register file of an agent. -/
def setRf (a : Agent) (f : RegFile) (s : State) : State :=
  match a with
  | .ctx n => { s with ctxs := kmod s.ctxs n fun c => { c with rf := f } }
  | .stew k => { s with stews := kmod s.stews k fun c => { c with rf := f } }

/-- Changes a context. -/
def modCtx (n : Nat) (f : Ctx → Ctx) (s : State) : State := { s with ctxs := kmod s.ctxs n f }

/-- Changes a steward core. -/
def modStew (k : Nat) (f : Stew → Stew) (s : State) : State := { s with stews := kmod s.stews k f }

/-- A sequencer. -/
def seqOf (s : State) (n : Nat) : Seq := kgetD s.seqs n ⟨none, [], 0, false⟩

/-- Replaces a sequencer. -/
def setSeq (n : Nat) (q : Seq) (s : State) : State := { s with seqs := kput s.seqs n q }

/-! ### Selection (R53) -/

/-- A context becomes READY: it takes the last turn of its sequencer (R53). -/
def makeReady (n : Nat) (s : State) : State :=
  match kget s.ctxs n with
  | some c =>
    let q := seqOf s c.seq
    let q := { q with readyQ := q.readyQ ++ [n], running := if q.running = some n then none else q.running }
    setSeq c.seq q (modCtx n (fun c => { c with st := .ready }) s)
  | none => s

/-- The RUNNING context stops issuing on its sequencer. -/
def stopRunning (n : Nat) (s : State) : State :=
  match kget s.ctxs n with
  | some c =>
    let q := seqOf s c.seq
    setSeq c.seq { q with running := if q.running = some n then none else q.running, readyQ := q.readyQ.erase n } s
  | none => s

/-- A context starts to wait (R49). -/
def makeWait (n : Nat) (w : WaitFor) (s : State) : State := modCtx n (fun c => { c with st := .waiting w }) (stopRunning n s)

/-- The policy class of a context. -/
def clsOf (s : State) (n : Nat) : Nat := match kget s.ctxs n with | some c => c.cls | none => 0

/-- The first context of a list whose class is `k`. -/
def firstOfClass (s : State) (l : List Nat) (k : Nat) : Option Nat := l.find? fun n => clsOf s n = k

/-- The classes in the order of their turns after class `k`, `k` itself last. (log 17, DESIGN CHOICE, unsafe) -/
def classTurns (k : Nat) : List Nat := (List.range 64).map fun i => (k + 1 + i) % 64

/-- The READY context whose turn it is: one of the running class while its quantum lasts, else the first of the next class that
has one (R53). (log 17, DESIGN CHOICE, unsafe) -/
def nextTurn (s : State) (q : Seq) : Option Nat :=
  let next := (classTurns q.cls).findSome? (firstOfClass s q.readyQ)
  if q.spent then next
  else
    match firstOfClass s q.readyQ q.cls with
    | some n => some n
    | none => next

/-- A sequencer without a RUNNING context selects one (R53). (log 17, DESIGN CHOICE, unsafe) -/
def selectCtx (k : Nat) (s : State) : State :=
  let q := seqOf s k
  match q.running with
  | some _ => s
  | none =>
    match nextTurn s q with
    | some n =>
      setSeq k { running := some n, readyQ := q.readyQ.erase n, cls := clsOf s n, spent := false }
        (modCtx n (fun c => { c with st := .running }) s)
    | none => s

/-! ### Faults (R74, R75, R77, R78) -/

/-- The fault codes of R74. -/
def fIllegal : Nat := 0x01
@[inherit_doc fIllegal] def fPriv : Nat := 0x02
@[inherit_doc fIllegal] def fAlign : Nat := 0x03
@[inherit_doc fIllegal] def fAccess : Nat := 0x04
@[inherit_doc fIllegal] def fFetch : Nat := 0x05
@[inherit_doc fIllegal] def fTicket : Nat := 0x06
@[inherit_doc fIllegal] def fWatchdog : Nat := 0x07

/-- A flow faults: the instruction has no effect and the context is FAULTED (R75). -/
def flowFault (n : Nat) (code insn addr : Nat) (s : State) : State :=
  match kget s.ctxs n with
  | some c =>
    modCtx n (fun c => { c with st := .faulted ⟨code, c.seq, insn, c.rf.pc.toNat % 2 ^ 32, addr % 2 ^ 48⟩ })
      (stopRunning n s)
  | none => s

/-- The parts of MODE (R76): P, INEV and EVEN. -/
def Stew.p (c : Stew) : Bool := c.mode.testBit 0
@[inherit_doc Stew.p] def Stew.inev (c : Stew) : Bool := c.mode.testBit 1
@[inherit_doc Stew.p] def Stew.even (c : Stew) : Bool := c.mode.testBit 2

/-- Entry to a steward handler (R77): vector 0 for a fault, 1 for an event, 2 for a TRAP. P and INEV become 1. -/
def handlerEntry (k : Nat) (epc : Word) (ecause eaddr v : Nat) (s : State) : State :=
  modStew k (fun c => { c with
    emode := c.mode
    epc := epc
    ecause := ecause
    eaddr := eaddr
    mode := c.mode ||| 3
    rf := { c.rf with pc := c.evbase + BitVec.ofNat 64 (0x100 * v) } }) s

/-- A steward double fault (R78): two cellar records, which reach the buffer before its copy is taken, a flush with REASON 3 and a head
reset with code 0x04. -/
def doubleFault (k : Nat) (epc : Word) (ecause eaddr : Nat) (s : State) : State :=
  assertReset 0x04 (requestFlush 3 (drainLog
    (cel 0x0014 k 4 eaddr (eaddr / 2 ^ 32 % 65536) 0
      (cel 0x0013 k 4 ecause (bits epc 31 0) (bits epc 47 32) s))))

/-- A fault or a TRAP on a steward core: handler entry, or a double fault while INEV is 1 (R77, R78). (log 153, DESIGN CHOICE, unsafe) -/
def stewTrapEntry (k : Nat) (epc : Word) (ecause eaddr v : Nat) (s : State) : State :=
  match kget s.stews k with
  | some c => if c.inev then doubleFault k epc ecause eaddr s else handlerEntry k epc ecause eaddr v s
  | none => s

/-- A fault of the instruction at the pc of an agent. -/
def raiseFault (a : Agent) (insn code addr : Nat) (s : State) : State :=
  match a with
  | .ctx n => flowFault n code insn addr s
  | .stew k => stewTrapEntry k (rfOf s a).pc code addr 0 s

/-! ### Fetch (R55, R72, R79) -/

/-- The rights a region of R76 grants: `r` is 0 for R, 1 for W, 2 for X. (log 20, DEDUCED, unsafe) -/
def regionRight (b : Word) (p : Bool) (r : Nat) : Bool := bit b (1 + r + if p then 3 else 0)

/-- The region check of R79 for one right: the lowest-numbered enabled region that contains the access decides; where none
does, P mode may and U mode may not. -/
def Stew.mayRegion (c : Stew) (a n r : Nat) : Bool :=
  match (List.range 64).find? fun i =>
      bit (kgetD c.rgnb i 0) 0 && decide (bits (kgetD c.rgnb i 0) 47 12 * 4096 ≤ a) &&
        decide (a + n ≤ (bits (kgetD c.rgnl i 0) 47 12 + 1) * 4096) with
  | some i => regionRight (kgetD c.rgnb i 0) c.p r
  | none => c.p

/-- Where a steward core may fetch `n` bytes (R79): the boot ROM in P mode, its own local store, HBM and DDR, where its regions
give it the X right. -/
def stewFetchOk (s : State) (k : Nat) (c : Stew) (a n : Nat) : Bool :=
  ((c.p && spanIn s .bootRom a n) ||
    (decide (stewStoreBase k ≤ a) && decide (a + n ≤ stewStoreBase k + 0x10_0000)) || inHbmDdr s a n) &&
  c.mayRegion a n 2

/-- Whether a core may fetch, or transfer control to, an address: 4-aligned and in its fetch regions (R55, R72, R79). (log 1, DESIGN CHOICE, unsafe; 21, DEDUCED, unsafe) -/
def fetchOk (s : State) (a : Agent) (pc : Word) (n : Nat) : Bool :=
  decide (pc.toNat % 4 = 0) &&
  match a with
  | .ctx _ => decide (pc.toNat + n ≤ flowStoreSize)
  | .stew k => match kget s.stews k with | some c => stewFetchOk s k c pc.toNat n | none => false

/-! ### Issue -/

/-- Whether the FLOW clock is stopped: from step 4 of the power-fail sequence on, and in STANDBY and PARK (R453, R489). -/
def flowStopped (s : State) : Bool := decide (4 ≤ getF s F.PWR_PF_STEP) || decide (getF s F.PWR_PSTATE_CUR ≠ 0)

/-- What an instruction does once it has issued: it faults with a code and an address, it is done, or it cannot execute yet and
will issue again. -/
inductive Eff where
  | fault (code addr : Nat)
  | done (s : State)
  | retry (s : State)

/-- Which privilege an instruction needs (R74, R76): none, a flow, a steward core, or a steward core in P mode. -/
inductive Needs where
  | any | flow | steward | pmode
  deriving DecidableEq, Repr

/-- The ILLEGAL and PRIV checks of an instruction on a core, in the order of R568: an instruction barred on this core is ILLEGAL,
the privileged ones are PRIV on a sequencer and in U mode (R74, R76). (log 25, DEDUCED, unsafe) -/
def barred (s : State) (a : Agent) (illegal : Bool) (need : Needs) : Option Nat :=
  let wrongCore := match need, a with
    | .flow, .stew _ => true
    | .steward, .ctx _ => true
    | .flow, .ctx _ | .steward, .stew _ | .any, _ | .pmode, _ => false
  if illegal || wrongCore then some fIllegal
  else
    match need, a with
    | .pmode, .ctx _ => some fPriv
    | .pmode, .stew k => match kget s.stews k with | some c => if c.p then none else some fPriv | none => none
    | .any, _ | .flow, _ | .steward, _ => none

/-- An instruction has retired: it counts against the budget of its context (R81) and in event 0x0C01 (R539). `s` is the state
before it, which names the sequencer even where the instruction freed the context. -/
def retire (a : Agent) (s t : State) : State :=
  match a with
  | .ctx n =>
    match kget s.ctxs n with
    | some c => pmc 0x0C01 c.seq 1 (modCtx n (fun c => { c with used := c.used + 1 }) t)
    | none => t
  | .stew _ => t

/-- The instruction budget of a context (R81, R87): 0 acts as 1. (log 28, DESIGN CHOICE, safe) -/
def budget (s : State) : Nat := max 1 (getF s F.FSQ_WDT_BUDGET) * 1024

/-- An agent issues an instruction: fetch, ILLEGAL, PRIV and then the instruction's own effect (R568). (log 1, DESIGN CHOICE, unsafe; 19, DEDUCED, unsafe; 153, DESIGN CHOICE, unsafe; 155, DEDUCED, unsafe) -/
def issueOn (a : Agent) (i : Insn) (illegal : Bool) (need : Needs) (body : Agent → RegFile → State → Eff) (s : State) : State :=
  if !fetchOk s a (rfOf s a).pc i.len then raiseFault a i.word fFetch (rfOf s a).pc.toNat s
  else
    match barred s a illegal need with
    | some code => raiseFault a i.word code 0 s
    | none =>
      match body a (rfOf s a) s with
      | .fault code addr => raiseFault a i.word code addr s
      | .done t => retire a s t
      | .retry t => t

/-- A core issues an instruction. On a sequencer it is the RUNNING context's, selected first where none runs, and the budget is
checked before it issues (R53, R81). A sequencer with no READY context or without its clock, and a steward core that is held,
issue nothing. (log 1, DESIGN CHOICE, unsafe; 153, DESIGN CHOICE, unsafe) -/
def issue (c : Core) (i : Insn) (illegal : Bool) (need : Needs) (body : Agent → RegFile → State → Eff) (s : State) : State :=
  match c with
  | .fsq q =>
    let s := if flowStopped s then s else selectCtx q.toNat s
    match (if flowStopped s then none else (seqOf s q.toNat).running) with
    | none => s
    | some n =>
      match kget s.ctxs n with
      | none => s
      | some x =>
        if budget s ≤ x.used then flowFault n fWatchdog i.word 0 s
        else issueOn (.ctx n) i illegal need body s
  | .stew k =>
    match kget s.stews k.toNat with
    | none => s
    | some x => if x.run then issueOn (.stew k.toNat) i illegal need body s else s

/-- A flow may not name g29 as its destination (R44). -/
def badDest (c : Core) (rd : RegNo) : Bool :=
  match c with
  | .fsq _ => decide (rd = 29)
  | .stew _ => false

/-- An instruction that only writes a register from the register file. (log 25, DEDUCED, unsafe) -/
def regOp (c : Core) (i : Insn) (illegal : Bool) (rd : RegNo) (f : RegFile → Word) (s : State) : State :=
  issue c i (illegal || badDest c rd) .any
    (fun a rf t => .done (setRf a ((rf.set rd.toNat (f rf)).adv i) t)) s

end Sys2Proof.Machine
end

