-- ==== Sys2Proof/Machine/Operands.lean ====
section
/-! DEFINITION. The operand values of the integer instructions: shift amounts, comparisons as numbers, products, quotients and bit
counts (R68). -/

namespace Sys2Proof.Machine

/-- The shift amount in bits 5 to 0. -/
def shamt (w : Word) : Nat := w.toNat % 64

/-- 1 where a comparison holds, else 0. -/
def flag (b : Bool) : Word := if b then 1 else 0

/-- The high 64 bits of the unsigned product. -/
def mulHigh (a b : Word) : Word := BitVec.ofNat 64 (a.toNat * b.toNat / 2 ^ 64)

/-- The unsigned quotient, all ones for a divisor of zero. -/
def divu (a b : Word) : Word := if b = 0 then BitVec.allOnes 64 else BitVec.ofNat 64 (a.toNat / b.toNat)

/-- The unsigned remainder, the dividend for a divisor of zero. -/
def remu (a b : Word) : Word := if b = 0 then a else BitVec.ofNat 64 (a.toNat % b.toNat)

/-- How many of the bits below `n` are zero above the highest one. -/
def leadingZeros (w : Word) : Nat → Nat
  | 0 => 0
  | n + 1 => if w.getLsbD n then 0 else 1 + leadingZeros w n

/-- How many of the bits from `n` on, of `fuel`, are zero below the lowest one. -/
def trailingZeros (w : Word) : Nat → Nat → Nat
  | 0, _ => 0
  | fuel + 1, n => if w.getLsbD n then 0 else 1 + trailingZeros w fuel (n + 1)

/-- How many of the bits below `n` are one. -/
def onesBelow (w : Word) : Nat → Nat
  | 0 => 0
  | n + 1 => b2n (w.getLsbD n) + onesBelow w n

/-- Leading zeros, 64 for zero. -/
def clz64 (w : Word) : Word := BitVec.ofNat 64 (leadingZeros w 64)

/-- Trailing zeros, 64 for zero. -/
def ctz64 (w : Word) : Word := BitVec.ofNat 64 (trailingZeros w 64 0)

/-- The number of one bits. -/
def popc64 (w : Word) : Word := BitVec.ofNat 64 (onesBelow w 64)

/-- The eight bytes reversed. -/
def bswap64 (w : Word) : Word := BitVec.ofNat 64 (leNat (leBytes 8 w.toNat).reverse)

end Sys2Proof.Machine
end

