-- ==== Sys2Proof/Machine/GfiCtx.lean ====
section
/-! DEFINITION. Flow contexts: the context instructions, fences and DCLR (R50, R51, R60, R73), admission, page-in, preemption,
stores being performed and flow faults draining (R48 to R54, R75, R81 to R83). -/

namespace Sys2Proof.Machine

/-! ### The store buffer (R54, R58, R60) -/

/-- A store becomes visible. (log 15, DEDUCED, unsafe) -/
def applyStore (e : SbEntry) (s : State) : State :=
  match e with
  | .store a n v _ _ => wrN a n v.toNat s
  | .submit _ => s

/-- Whether two ranges of bytes share an aligned 8-byte word. -/
def sameWord (a n b m : Nat) : Bool := decide (a / 8 ≤ (b + m - 1) / 8) && decide (b / 8 ≤ (a + n - 1) / 8)

/-- Whether an older entry of the buffer must be performed first: a store to the same word (R58), one before a store fence that
the younger comes after (R60), or an earlier store of the same DST (R57). -/
def mustPrecede (old young : SbEntry) : Bool :=
  match old, young with
  | .store a n _ f g, .store b m _ f' g' => sameWord a n b m || decide (f < f') || (decide (g = g') && decide (g ≠ 0))
  | .submit _, _ | .store .., .submit _ => false

/-- Every store of a context still in its buffer is performed, oldest first. (log 16, DEDUCED, unsafe) -/
def drainStores (l : List SbEntry) (s : State) : State := l.foldl (fun t e => applyStore e t) s

/-- What a load of `n` bytes sees: memory, with the context's own stores over it (R58). -/
def ownView (l : List SbEntry) (s : State) (a n : Nat) : Nat := rdN (drainStores l s) a n

/-- A context waiting for entries of its store buffer becomes READY once enough are free (R54). -/
def wakeBuffer (n : Nat) (s : State) : State :=
  match kget s.ctxs n with
  | some c =>
    match c.st with
    | .waiting (.buffer need) => if c.sbuf.length + need ≤ 8 then makeReady n s else s
    | _ => s
  | none => s

/-- STORE_PERFORMED (R54): the controller performs the store in entry `idx` of the buffer of a context, unless an older entry must
be performed first. The entry frees, and the context may become READY. -/
def execStorePerformed (ctx idx : Nat) (s : State) : Res :=
  ok (match kget s.ctxs ctx with
    | some c =>
      match c.sbuf[idx]? with
      | some (.store a n v f g) =>
        if (c.sbuf.take idx).any (mustPrecede · (.store a n v f g)) then s
        else wakeBuffer ctx (modCtx ctx (fun c => { c with sbuf := c.sbuf.eraseIdx idx }) (wrN a n v.toNat s))
      | some (.submit _) | none => s
    | none => s)

/-! ### Queues of contexts (R52) -/

/-- A context is queued in its policy class. (log 157, DESIGN CHOICE, safe) -/
def queueCtx (n : Nat) (s : State) : State :=
  match kget s.ctxs n with
  | some c =>
    { s with sched := { s.sched with fifo := kput s.sched.fifo c.cls (kgetD s.sched.fifo c.cls [] ++ [n]) },
             ctxs := kput s.ctxs n { c with st := .queued } }
  | none => s

/-- The weight of a policy class, from 1 to 255 as the governor sets it. (log 14, DESIGN CHOICE, unsafe; 17, DESIGN CHOICE, unsafe) -/
def weightOf (s : State) (k : Nat) : Nat := max 1 (kgetD s.weight k 1)

/-- The class that admits next and how many more it may take: the class whose turn it is while it has both a credit and a QUEUED
context, else the next class that has a context, with its weight (R52). (log 17, DESIGN CHOICE, unsafe) -/
def admitClass (s : State) : Option (Nat × Nat) :=
  let waits k := decide (kgetD s.sched.fifo k [] ≠ [])
  if waits s.sched.cls && decide (0 < s.sched.credit) then some (s.sched.cls, s.sched.credit)
  else ((classTurns s.sched.cls).find? waits).map fun k => (k, weightOf s k)

/-- How many frames of a sequencer resident contexts hold. -/
def framesUsed (s : State) (q : Nat) : Nat := kcount s.ctxs fun _ c => c.resident && decide (c.seq = q)

/-- The sequencers of a logic die (R19 table: 128 each), or of both. -/
def seqsOf : Option Bool → List Nat
  | none => List.range 256
  | some false => List.range 128
  | some true => (List.range 128).map (· + 128)

/-- The sequencer with the most free frames, the lower-numbered on a tie; none where no frame is free. -/
def freestSeq (s : State) (l : List Nat) : Option Nat :=
  (l.foldl (fun best q =>
    let u := framesUsed s q
    match best with
    | some (_, bu) => if u < bu then some (q, u) else best
    | none => if u < 256 then some (q, u) else none) none).map Prod.fst

/-- The free frames of a sequencer. -/
def freeFrames256 (s : State) (q : Nat) : List Nat :=
  (List.range 256).filter fun f => !(s.ctxs.any fun kv => kv.2.resident && decide (kv.2.seq = q) && decide (kv.2.frame = f))

/-- A free frame of a sequencer: the rules do not say which, so a free value picks it. (log 18, DESIGN CHOICE, safe) -/
def freeFrame (s : State) (q : Nat) : Option Nat :=
  let l := freeFrames256 s q
  if l = [] then none else some (l.getD ((Config.freeWord s.free).toNat % l.length) 0)

/-- CONTEXT_ADMISSION (R52): the next class admits its oldest QUEUED context into the sequencer with the most free frames; where that
lies on the die that has already admitted in this cycle, into the one of the other die. Nothing is admitted while
FSQ_CTL.EN is 0 (R85), nor on the way into STANDBY or PARK (R490). -/
def execContextAdmission (used : Option Bool) (s : State) : Res :=
  ok (if !isF s F.FSQ_CTL_EN || s.pwr.want.isSome then s
    else
      match admitClass s with
      | none => s
      | some (k, credit) =>
        match kgetD s.sched.fifo k [], freestSeq s (seqsOf (used.map not)) with
        | n :: rest, some q =>
          match freeFrame s q with
          | some f =>
            let s := { s with sched := ⟨kput s.sched.fifo k rest, k, credit - 1⟩ }
            pmc 0x0C03 k 1 (modCtx n (fun c => { c with st := .paging, seq := q, frame := f }) (nextFree s))
          | none => s
        | _, _ => s)

/-- The fingerprint latch of a context is cleared (R177). -/
def clearLatch (n : Nat) (s : State) : State := { s with gl := { s.gl with latch := kdel s.gl.latch n, maybe := s.gl.maybe.erase n } }

/-- PAGE_IN_COMPLETE (R48): the frame takes a copy of the record, and zeros in the descriptor registers, the result slots and the
scratch area; the registers come from the record, and the context is READY. -/
def execPageInComplete (ctx : Nat) (s : State) : Res :=
  ok (match kget s.ctxs ctx with
    | some c =>
      match c.st with
      | .paging =>
        let a := frameAddr c.seq c.frame
        let rec' := rdB s (ctxRec ctx) 128
        let g := (List.range 6).foldl (fun m i => kputD 0 m (i + 1) (BitVec.ofNat 64 (fieldN rec' (80 + 8 * i) 8))) ([] : KMap Word)
        let rf : RegFile := ⟨kputD 0 g 29 (BitVec.ofNat 64 a), BitVec.ofNat 64 (fieldN rec' 72 4), []⟩
        let s := clearLatch ctx (wrB a (rec' ++ zeros 896) s)
        makeReady ctx (modCtx ctx (fun c => { c with rf := rf, fences := 0, dsts := 0 }) s)
      | _ => s
    | none => s)

/-- QUANTUM_EXPIRED (R53): the class deficit is spent, and the RUNNING context is preempted. -/
def execQuantumExpired (seq : BitVec 8) (s : State) : Res :=
  ok (match (seqOf s seq.toNat).running with
    | some n => let t := makeReady n s; setSeq seq.toNat { seqOf t seq.toNat with spent := true } t
    | none => setSeq seq.toNat { seqOf s seq.toNat with spent := true } s)

/-- PARK_WAKE (R50): once DTIME has reached the wake time, a parked context is queued. -/
def execParkWake (ctx : Nat) (s : State) : Res :=
  ok (match kget s.ctxs ctx with
    | some c =>
      match c.st with
      | .parked wake => if wake.ule s.dtime then queueCtx ctx s else s
      | _ => s
    | none => s)

/-! ### The end of a context -/

/-- The head answers for a context that ends without the host engine having posted its completion: Internal Error (R51, R75). A
forwarded command's result goes back to the head that received the capsule. -/
def postInternalError (n : Nat) (c : Ctx) (s : State) : State :=
  if c.posted || c.cancelled then s
  else if c.fwd then returnResult c.hq c.cid 0x006 0 s
  else postCompletion c.hq c.cid 0x006 0 (rdB s (ctxRec n) 64) s

/-- The frame and the context number are freed; a stream context ends (R51, R307). (log 16, DEDUCED, unsafe) -/
def freeCtx (n : Nat) (s : State) : State := endStream n (clearLatch n { stopRunning n s with ctxs := kdel s.ctxs n })

/-- No ticket of a register file is in use. -/
def allFree (f : RegFile) : Bool := decide (f.tk = [])

/-- Bytes 64 to 79 of the record of a new or parked context (R45). -/
def ctxHeader (n : Nat) (c : Ctx) : Nat := n + c.cls * 2 ^ 22 + c.vol * 2 ^ 28 + c.hq * 2 ^ 46

/-- END (R51): with a ticket not FREE a TICKET fault; else the frame and the context number are freed. A command left without a
completion gets Internal Error and cellar record 0x0911. -/
def execEndFlow (core : Core) (rd ra : RegNo) (aux : Byte) (s : State) : Res :=
  ok (issue core (insnX 0x38 0x00 rd ra aux) (decide (rd ≠ 0 ∨ ra ≠ 0 ∨ aux ≠ 0)) .flow (fun a f t =>
    match a with
    | .ctx n =>
      match kget t.ctxs n with
      | some c =>
        if !allFree f then .fault fTicket 0
        else
          let u := freeCtx n (drainStores c.sbuf t)
          .done (if c.posted || c.cancelled then u else cel 0x0911 0 3 n (c.hq + c.cid * 65536) c.vol (postInternalError n c u))
      | none => .done t
    | .stew _ => .done t) s)

/-- YIELD (R73): RUNNING becomes READY, and the rest of the quantum is charged to the class. -/
def execYield (core : Core) (rd ra : RegNo) (aux : Byte) (s : State) : Res :=
  let i := insnX 0x38 0x01 rd ra aux
  ok (issue core i (decide (rd ≠ 0 ∨ ra ≠ 0 ∨ aux ≠ 0)) .flow (fun a f t =>
    match a, core with
    | .ctx n, .fsq q =>
      let u := makeReady n (setRf a (f.adv i) t)
      .done (setSeq q.toNat { seqOf u q.toNat with spent := true } u)
    | _, _ => .done t) s)

/-- PARK (R50): the save words, the pc and PARKED go to the record, the frame is freed, and the context is parked until its wake
time, or queued at once where that is past. -/
def execPark (core : Core) (rd ra : RegNo) (aux : Byte) (s : State) : Res :=
  ok (issue core (insnX 0x38 0x02 rd ra aux) (decide (rd ≠ 0 ∨ aux ≠ 0)) .flow (fun a f t =>
    match a with
    | .ctx n =>
      match kget t.ctxs n with
      | some c =>
        if !allFree f then .fault fTicket 0
        else
          let save := (List.range 6).flatMap fun i => leBytes 8 (f.get (i + 1)).toNat
          let u := stopRunning n (drainStores c.sbuf t)
          let u := wrB (ctxRec n + 80) save (wrN (ctxRec n + 72) 4 ((f.pc + 4).toNat) u)
          let u := clearLatch n (wrN (ctxRec n + 76) 4 (rdN u (ctxRec n + 76) 4 ||| 1) u)
          let u := modCtx n (fun c => { c with st := .parked (f.get ra.toNat), sbuf := [] }) u
          .done (if (f.get ra.toNat).ule t.dtime then queueCtx n u else u)
      | none => .done t
    | .stew _ => .done t) s)

/-- An X-format instruction that only writes rd. -/
def xRead (core : Core) (major xfunc : Nat) (rd ra : RegNo) (aux : Byte) (need : Needs) (v : Agent → State → Word) (s : State) : State :=
  let i := insnX major xfunc rd ra aux
  issue core i (decide (ra ≠ 0 ∨ aux ≠ 0) || badDest core rd) need
    (fun a f t => .done (setRf a ((f.set rd.toNat (v a t)).adv i) t)) s

/-- CTXID (R73). -/
def execCtxid (core : Core) (rd ra : RegNo) (aux : Byte) (s : State) : Res :=
  ok (xRead core 0x38 0x03 rd ra aux .flow
    (fun a _ => match a with | .ctx n => BitVec.ofNat 64 n | .stew _ => 0) s)

/-- SEQID (R73): the sequencer number, or the steward core number. -/
def execSeqid (core : Core) (rd ra : RegNo) (aux : Byte) (s : State) : Res :=
  ok (xRead core 0x38 0x04 rd ra aux .any
    (fun _ _ => match core with | .fsq q => q.setWidth 64 | .stew k => k.setWidth 64) s)

/-- DTIME (R73): device time at issue. -/
def execDtime (core : Core) (rd ra : RegNo) (aux : Byte) (s : State) : Res :=
  ok (xRead core 0x38 0x05 rd ra aux .any (fun _ t => t.dtime) s)

/-- A fence: the next stores of a context come after those in its buffer where `stores` says so (R60). Earlier loads are complete
already, since a load holds its context until its data returns. -/
def fenceOp (core : Core) (xfunc : Nat) (rd ra : RegNo) (aux : Byte) (need : Needs) (stores : Bool) (s : State) : State :=
  let i := insnX 0x39 xfunc rd ra aux
  issue core i (decide (rd ≠ 0 ∨ ra ≠ 0 ∨ aux ≠ 0)) need (fun a f t =>
    let t := setRf a (f.adv i) t
    match a, stores with
    | .ctx n, true => .done (modCtx n (fun c => { c with fences := c.fences + 1 }) t)
    | .ctx _, false | .stew _, _ => .done t) s

/-- FENCE (R60). -/
def execFence (core : Core) (rd ra : RegNo) (aux : Byte) (s : State) : Res := ok (fenceOp core 0x00 rd ra aux .any true s)

/-- FENCE.L (R60). -/
def execFenceL (core : Core) (rd ra : RegNo) (aux : Byte) (s : State) : Res := ok (fenceOp core 0x01 rd ra aux .any false s)

/-- FENCE.S (R60). -/
def execFenceS (core : Core) (rd ra : RegNo) (aux : Byte) (s : State) : Res := ok (fenceOp core 0x02 rd ra aux .any true s)

/-- ICINV (R64, R73): invalidates the instruction cache of a steward core in P mode. The model fetches no words, so only the pc
moves. (log 1, DESIGN CHOICE, unsafe) -/
def execIcinv (core : Core) (rd ra : RegNo) (aux : Byte) (s : State) : Res := ok (fenceOp core 0x03 rd ra aux .pmode false s)

/-- DCLR (R73): zeroes a descriptor register. -/
def execDclr (core : Core) (rd ra : RegNo) (aux : Byte) (s : State) : Res :=
  let i := insnX 0x3A 0x02 rd ra aux
  ok (issue core i (decide (rd ≠ 0 ∨ ra ≠ 0 ∨ 8 ≤ aux.toNat)) .any
    (fun a f t => .done (setRf a (f.adv i) (wrB (descAddr t a aux.toNat) (zeros 64) t))) s)

/-! ### Memory returns (R54, R71) -/

/-- The value an atomic leaves in memory (R71). -/
def amoValue (k : AmoKind) (old src cmp : Word) : Word :=
  match k with
  | .add => old + src
  | .swap => src
  | .cas => if old = cmp then src else old
  | .and => old &&& src
  | .or => old ||| src
  | .maxu => if old.ult src then src else old

/-- The value a load of `n` bytes returns from the number it read (R70). -/
def loadValue (n : Nat) (sext : Bool) (v : Nat) : Word := if sext then sextW (8 * n) v else BitVec.ofNat 64 v

/-- MEMORY_LOAD_RETURN (R54): the load or atomic a context waits for is performed, and the context is READY. An atomic waits until
every earlier store of its context has been performed (R61). -/
def execMemoryLoadReturn (ctx : Nat) (s : State) : Res :=
  ok (match kget s.ctxs ctx with
    | some c =>
      match c.st with
      | .waiting (.memory (.load r a n sx)) =>
        makeReady ctx (setRf (.ctx ctx) (c.rf.set r (loadValue n sx (ownView c.sbuf s a n))) s)
      | .waiting (.memory (.block d a)) =>
        makeReady ctx (wrB (descAddr s (.ctx ctx) d) (rdB (drainStores c.sbuf s) a 64) s)
      | .waiting (.memory (.amo k r a src cmp)) =>
        if c.sbuf.any fun e => match e with | .store .. => true | .submit _ => false then s
        else
          let old : Word := BitVec.ofNat 64 (rdN s a 8)
          makeReady ctx (setRf (.ctx ctx) (c.rf.set r old) (wrN a 8 (amoValue k old src cmp).toNat s))
      | _ => s
    | none => s)

/-! ### Faults and watchdogs (R75, R81 to R83) -/

/-- BUDGET_EXHAUSTED (R81): an instruction that would exceed the budget of the RUNNING context is a WATCHDOG fault. (log 28, DESIGN CHOICE, safe) -/
def execBudgetExhausted (seq : BitVec 8) (word : BitVec 32) (s : State) : Res :=
  let t := selectCtx seq.toNat s
  ok (match (seqOf t seq.toNat).running with
    | some n =>
      match kget t.ctxs n with
      | some c => if budget t ≤ c.used then flowFault n fWatchdog word.toNat 0 t else s
      | none => s
    | none => s)

/-- The fault registers take a flow fault, or MORE sets (R75, R88). (log 16, DEDUCED, unsafe; 153, DESIGN CHOICE, unsafe) -/
def captureFault (n : Nat) (f : FlowFault) (s : State) : State :=
  if isF s F.FSQ_FLT_STAT_VALID then setF F.FSQ_FLT_STAT_MORE 1 s
  else
    setF F.FSQ_FLT_STAT_VALID 1
      (setF F.FSQ_FLT0_CODE f.code (setF F.FSQ_FLT0_SEQ f.seq (setF F.FSQ_FLT0_CTX n
        (setF F.FSQ_FLT1_INSN f.insn (setF F.FSQ_FLT1_PC f.pc (setF F.FSQ_FLT2_ADDR f.addr s))))))

/-- FAULT_DRAIN_DONE (R75): once no ticket of a FAULTED context is PENDING, the completion is posted, the frame freed, the fault
counted, recorded and raised, and the fault registers capture it. (log 153, DESIGN CHOICE, unsafe; 158, DEDUCED, unsafe) -/
def execFaultDrainDone (ctx : Nat) (s : State) : Res :=
  ok (match kget s.ctxs ctx with
    | some c =>
      match c.st with
      | .faulted f =>
        if c.rf.tk.any fun kv => !kv.2.ready then s
        else
          let s := freeCtx ctx (postInternalError ctx c (drainStores c.sbuf s))
          let s := setF F.FSQ_FAULT_CNT_COUNT (getF s F.FSQ_FAULT_CNT_COUNT + 1) s
          let s := cel 0x0C10 f.seq 3 (f.code + ctx * 256) f.pc f.addr s
          captureFault ctx f (raise 0x0C10 ctx s)
      | _ => s
    | none => s)

/-- TICKET_AGE_EXPIRY (R82): a PENDING ticket has outlived TKAGE, and a head reset follows. (log 28, DESIGN CHOICE, safe) -/
def execTicketAgeExpiry (owner : Agent) (t : BitVec 4) (s : State) : Res :=
  ok (match kget (rfOf s owner).tk t.toNat with
    | some k => if k.ready then s else assertReset 0x05 s
    | none => s)

/-- SEQUENCER_HANG (R83): a sequencer holding a READY context has retired nothing, and a head reset follows. (log 28, DESIGN CHOICE, safe) -/
def execSequencerHang (seq : BitVec 8) (s : State) : Res :=
  ok (if (seqOf s seq.toNat).readyQ = [] then s else assertReset 0x06 s)

end Sys2Proof.Machine
end

