-- ==== Sys2Proof/Machine/GfiWord.lean ====
section
/-! DEFINITION. The words of the Genewin flow instructions (R65 to R67): which command the words at the pc are, and which words a
command is. -/

namespace Sys2Proof.Machine

/-- A field of a word: `n` bits from bit `lo` on. -/
def wf (w : BitVec 32) (lo n : Nat) : BitVec n := w.extractLsb' lo n

/-- Format A: majors 0x00 and 0x20 with their func values (R67, R68, R71). -/
def opA (major func : Nat) : Option (Core → RegNo → RegNo → RegNo → Instr) :=
  match major, func with
  | 0x00, 0x00 => some .add
  | 0x00, 0x01 => some .sub
  | 0x00, 0x02 => some .and
  | 0x00, 0x03 => some .or
  | 0x00, 0x04 => some .xor
  | 0x00, 0x05 => some .andn
  | 0x00, 0x06 => some .sll
  | 0x00, 0x07 => some .srl
  | 0x00, 0x08 => some .sra
  | 0x00, 0x09 => some .slt
  | 0x00, 0x0A => some .sltu
  | 0x00, 0x0B => some .min
  | 0x00, 0x0C => some .max
  | 0x00, 0x0D => some .minu
  | 0x00, 0x0E => some .maxu
  | 0x00, 0x10 => some .mul
  | 0x00, 0x11 => some .mulhu
  | 0x00, 0x12 => some .divu
  | 0x00, 0x13 => some .remu
  | 0x00, 0x18 => some .clz
  | 0x00, 0x19 => some .ctz
  | 0x00, 0x1A => some .popc
  | 0x00, 0x1B => some .bswap
  | 0x20, 0x00 => some .amoadd
  | 0x20, 0x01 => some .amoswap
  | 0x20, 0x02 => some .amocas
  | 0x20, 0x03 => some .amoand
  | 0x20, 0x04 => some .amoor
  | 0x20, 0x05 => some .amomaxu
  | _, _ => none

/-- The instructions of formats I and B that take a prefix: their immediate field holds 16 bits or zero in a group (R66, R67). -/
def opI (major : Nat) : Option (Core → RegNo → RegNo → Imm → Instr) :=
  match major with
  | 0x01 => some .addi
  | 0x02 => some .andi
  | 0x03 => some .ori
  | 0x04 => some .xori
  | 0x05 => some .slti
  | 0x06 => some .sltiu
  | 0x0A => some .lui
  | 0x10 => some .ld
  | 0x11 => some .lw
  | 0x12 => some .lws
  | 0x13 => some .lh
  | 0x14 => some .lb
  | 0x18 => some .sd
  | 0x19 => some .sw
  | 0x1A => some .sh
  | 0x1B => some .sb
  | 0x28 => some .beq
  | 0x29 => some .bne
  | 0x2A => some .blt
  | 0x2B => some .bge
  | 0x2C => some .bltu
  | 0x2D => some .bgeu
  | _ => none

/-- The shift immediates, format I without a prefix (R66, R69). -/
def opShift (major : Nat) : Option (Core → RegNo → RegNo → BitVec 16 → Instr) :=
  match major with
  | 0x07 => some .slli
  | 0x08 => some .srli
  | 0x09 => some .srai
  | _ => none

/-- Format J (R67, R72). -/
def opJ (major : Nat) : Option (Core → BitVec 26 → Instr) :=
  match major with
  | 0x30 => some .j
  | 0x31 => some .jal
  | _ => none

/-- Format X: majors 0x35 and 0x38 to 0x3C with their xfunc values (R67). -/
def opX (major xfunc : Nat) : Option (Core → RegNo → RegNo → Byte → Instr) :=
  match major, xfunc with
  | 0x35, 0x00 => some .wait
  | 0x35, 0x01 => some .poll
  | 0x35, 0x02 => some .waitany
  | 0x35, 0x03 => some .drop
  | 0x38, 0x00 => some .endFlow
  | 0x38, 0x01 => some .yield
  | 0x38, 0x02 => some .park
  | 0x38, 0x03 => some .ctxid
  | 0x38, 0x04 => some .seqid
  | 0x38, 0x05 => some .dtime
  | 0x39, 0x00 => some .fence
  | 0x39, 0x01 => some .fenceL
  | 0x39, 0x02 => some .fenceS
  | 0x39, 0x03 => some .icinv
  | 0x3A, 0x00 => some .dld
  | 0x3A, 0x01 => some .dst
  | 0x3A, 0x02 => some .dclr
  | 0x3B, 0x00 => some .jr
  | 0x3B, 0x01 => some .jalr
  | 0x3C, 0x00 => some .mfs
  | 0x3C, 0x01 => some .mts
  | 0x3C, 0x02 => some .eret
  | 0x3C, 0x03 => some .trap
  | _, _ => none

/-- An instruction word that takes its immediate from `imm` (R65, R66). -/
def gfiImm (core : Core) (w : BitVec 32) (imm : Imm) : Option Instr :=
  (opI (wf w 26 6).toNat).map fun f => f core (wf w 21 5) (wf w 16 5) imm

/-- The instruction that one word is, outside a group (R65, R67). -/
def gfiPlain (core : Core) (w : BitVec 32) : Option Instr :=
  let m := (wf w 26 6).toNat
  if (opI m).isSome then gfiImm core w (.short (wf w 0 16))
  else if (opShift m).isSome then (opShift m).map fun f => f core (wf w 21 5) (wf w 16 5) (wf w 0 16)
  else if (opJ m).isSome then (opJ m).map fun f => f core (wf w 0 26)
  else if m = 0x34 then some (.submit core (wf w 22 4) (wf w 19 3) (wf w 13 6) (wf w 0 13))
  else if m = 0x00 ∨ m = 0x20 then (opA m (wf w 0 11).toNat).map fun f => f core (wf w 21 5) (wf w 16 5) (wf w 11 5)
  else (opX m (wf w 8 8).toNat).map fun f => f core (wf w 21 5) (wf w 16 5) (wf w 0 8)

/-- The instruction that the three words at the pc are: a prefixed group where the first word has major 0x3F, which takes [25:0] zero,
an I- or B-format instruction that is no shift immediate and whose immediate field is zero, and the 32-bit immediate; else the first
word alone. None for an encoding that R66 and R67 make ILLEGAL. A field that an instruction marks unused stays an operand, which
the instruction checks. -/
def gfiDecode (core : Core) (w0 w1 w2 : BitVec 32) : Option Instr :=
  if wf w0 26 6 = 0x3F then
    if wf w0 0 26 ≠ 0 ∨ wf w1 0 16 ≠ 0 then none else gfiImm core w1 (.long w2)
  else gfiPlain core w0

/-- An instruction in program memory: the core that issues it and its words, zero where it has fewer than three. -/
structure GfiWords where
  core : Core
  w0 : BitVec 32
  w1 : BitVec 32 := 0
  w2 : BitVec 32 := 0
  deriving DecidableEq, Repr

/-- One word. -/
def word1 (core : Core) (i : Insn) : Option GfiWords := some { core := core, w0 := BitVec.ofNat 32 i.word }

/-- The words of an I- or B-format instruction: a group where its immediate is long (R66). -/
def wordI (core : Core) (major : Nat) (rd ra : RegNo) (imm : Imm) : Option GfiWords :=
  match imm with
  | .short _ => word1 core (insnI major rd ra imm)
  | .long v => some { core := core, w0 := 0xFC000000, w1 := BitVec.ofNat 32 (insnI major rd ra imm).word, w2 := v }

/-- The words that a command is, where it is a GFI instruction (R65 to R67). -/
def gfiWords : Instr → Option GfiWords
  | .add c rd ra rb => word1 c (insnA 0x00 rd ra rb 0x00)
  | .sub c rd ra rb => word1 c (insnA 0x00 rd ra rb 0x01)
  | .and c rd ra rb => word1 c (insnA 0x00 rd ra rb 0x02)
  | .or c rd ra rb => word1 c (insnA 0x00 rd ra rb 0x03)
  | .xor c rd ra rb => word1 c (insnA 0x00 rd ra rb 0x04)
  | .andn c rd ra rb => word1 c (insnA 0x00 rd ra rb 0x05)
  | .sll c rd ra rb => word1 c (insnA 0x00 rd ra rb 0x06)
  | .srl c rd ra rb => word1 c (insnA 0x00 rd ra rb 0x07)
  | .sra c rd ra rb => word1 c (insnA 0x00 rd ra rb 0x08)
  | .slt c rd ra rb => word1 c (insnA 0x00 rd ra rb 0x09)
  | .sltu c rd ra rb => word1 c (insnA 0x00 rd ra rb 0x0A)
  | .min c rd ra rb => word1 c (insnA 0x00 rd ra rb 0x0B)
  | .max c rd ra rb => word1 c (insnA 0x00 rd ra rb 0x0C)
  | .minu c rd ra rb => word1 c (insnA 0x00 rd ra rb 0x0D)
  | .maxu c rd ra rb => word1 c (insnA 0x00 rd ra rb 0x0E)
  | .mul c rd ra rb => word1 c (insnA 0x00 rd ra rb 0x10)
  | .mulhu c rd ra rb => word1 c (insnA 0x00 rd ra rb 0x11)
  | .divu c rd ra rb => word1 c (insnA 0x00 rd ra rb 0x12)
  | .remu c rd ra rb => word1 c (insnA 0x00 rd ra rb 0x13)
  | .clz c rd ra rb => word1 c (insnA 0x00 rd ra rb 0x18)
  | .ctz c rd ra rb => word1 c (insnA 0x00 rd ra rb 0x19)
  | .popc c rd ra rb => word1 c (insnA 0x00 rd ra rb 0x1A)
  | .bswap c rd ra rb => word1 c (insnA 0x00 rd ra rb 0x1B)
  | .amoadd c rd ra rb => word1 c (insnA 0x20 rd ra rb 0x00)
  | .amoswap c rd ra rb => word1 c (insnA 0x20 rd ra rb 0x01)
  | .amocas c rd ra rb => word1 c (insnA 0x20 rd ra rb 0x02)
  | .amoand c rd ra rb => word1 c (insnA 0x20 rd ra rb 0x03)
  | .amoor c rd ra rb => word1 c (insnA 0x20 rd ra rb 0x04)
  | .amomaxu c rd ra rb => word1 c (insnA 0x20 rd ra rb 0x05)
  | .addi c x y imm => wordI c 0x01 x y imm
  | .andi c x y imm => wordI c 0x02 x y imm
  | .ori c x y imm => wordI c 0x03 x y imm
  | .xori c x y imm => wordI c 0x04 x y imm
  | .slti c x y imm => wordI c 0x05 x y imm
  | .sltiu c x y imm => wordI c 0x06 x y imm
  | .lui c x y imm => wordI c 0x0A x y imm
  | .ld c x y imm => wordI c 0x10 x y imm
  | .lw c x y imm => wordI c 0x11 x y imm
  | .lws c x y imm => wordI c 0x12 x y imm
  | .lh c x y imm => wordI c 0x13 x y imm
  | .lb c x y imm => wordI c 0x14 x y imm
  | .sd c x y imm => wordI c 0x18 x y imm
  | .sw c x y imm => wordI c 0x19 x y imm
  | .sh c x y imm => wordI c 0x1A x y imm
  | .sb c x y imm => wordI c 0x1B x y imm
  | .beq c x y imm => wordI c 0x28 x y imm
  | .bne c x y imm => wordI c 0x29 x y imm
  | .blt c x y imm => wordI c 0x2A x y imm
  | .bge c x y imm => wordI c 0x2B x y imm
  | .bltu c x y imm => wordI c 0x2C x y imm
  | .bgeu c x y imm => wordI c 0x2D x y imm
  | .slli c rd ra imm => word1 c (insnI 0x07 rd ra (.short imm))
  | .srli c rd ra imm => word1 c (insnI 0x08 rd ra (.short imm))
  | .srai c rd ra imm => word1 c (insnI 0x09 rd ra (.short imm))
  | .j c off => word1 c (insnJ 0x30 off)
  | .jal c off => word1 c (insnJ 0x31 off)
  | .wait c rd ra aux => word1 c (insnX 0x35 0x00 rd ra aux)
  | .poll c rd ra aux => word1 c (insnX 0x35 0x01 rd ra aux)
  | .waitany c rd ra aux => word1 c (insnX 0x35 0x02 rd ra aux)
  | .drop c rd ra aux => word1 c (insnX 0x35 0x03 rd ra aux)
  | .endFlow c rd ra aux => word1 c (insnX 0x38 0x00 rd ra aux)
  | .yield c rd ra aux => word1 c (insnX 0x38 0x01 rd ra aux)
  | .park c rd ra aux => word1 c (insnX 0x38 0x02 rd ra aux)
  | .ctxid c rd ra aux => word1 c (insnX 0x38 0x03 rd ra aux)
  | .seqid c rd ra aux => word1 c (insnX 0x38 0x04 rd ra aux)
  | .dtime c rd ra aux => word1 c (insnX 0x38 0x05 rd ra aux)
  | .fence c rd ra aux => word1 c (insnX 0x39 0x00 rd ra aux)
  | .fenceL c rd ra aux => word1 c (insnX 0x39 0x01 rd ra aux)
  | .fenceS c rd ra aux => word1 c (insnX 0x39 0x02 rd ra aux)
  | .icinv c rd ra aux => word1 c (insnX 0x39 0x03 rd ra aux)
  | .dld c rd ra aux => word1 c (insnX 0x3A 0x00 rd ra aux)
  | .dst c rd ra aux => word1 c (insnX 0x3A 0x01 rd ra aux)
  | .dclr c rd ra aux => word1 c (insnX 0x3A 0x02 rd ra aux)
  | .jr c rd ra aux => word1 c (insnX 0x3B 0x00 rd ra aux)
  | .jalr c rd ra aux => word1 c (insnX 0x3B 0x01 rd ra aux)
  | .mfs c rd ra aux => word1 c (insnX 0x3C 0x00 rd ra aux)
  | .mts c rd ra aux => word1 c (insnX 0x3C 0x01 rd ra aux)
  | .eret c rd ra aux => word1 c (insnX 0x3C 0x02 rd ra aux)
  | .trap c rd ra aux => word1 c (insnX 0x3C 0x03 rd ra aux)
  | .submit c t d cls flags => word1 c (insnE 0x34 t d cls flags)
  | _ => none

end Sys2Proof.Machine
end

