-- ==== Sys2Proof/Machine/GfiSys.lean ====
section
/-! DEFINITION. The privileged instructions and TRAP (R76, R77), event delivery (R531), unassigned encodings (R67), SUBMIT (R90 to R93)
and the ticket instructions (R94, R95). -/

namespace Sys2Proof.Machine

/-! ### Special registers (R76) -/

/-- The bits a special register holds: reserved bits of MODE, EMODE, RGNB and RGNL and bits [11:0] of EVBASE read as zero; none for
an index that R76 does not list. (log 20, DEDUCED, unsafe) -/
def spMask (idx : Nat) : Option Word :=
  if idx = 0x00 ∨ idx = 0x05 then some 7
  else if idx = 0x01 ∨ idx = 0x03 then some (BitVec.allOnes 64)
  else if idx = 0x02 then some 0xFF0FFF
  else if idx = 0x04 then some (~~~0xFFF)
  else if idx = 0x06 then some 0xF
  else if 0x08 ≤ idx ∧ idx ≤ 0x0F then some (BitVec.allOnes 64)
  else if 0x40 ≤ idx ∧ idx < 0x80 then some (maskW 47 12 ||| 0x7F)
  else if 0x80 ≤ idx ∧ idx < 0xC0 then some (maskW 47 12)
  else none

/-- The value of a special register of core `k`. -/
def spGet (k : Nat) (c : Stew) (idx : Nat) : Word :=
  if idx = 0x00 then BitVec.ofNat 64 c.mode
  else if idx = 0x01 then c.epc
  else if idx = 0x02 then BitVec.ofNat 64 c.ecause
  else if idx = 0x03 then BitVec.ofNat 64 c.eaddr
  else if idx = 0x04 then c.evbase
  else if idx = 0x05 then BitVec.ofNat 64 c.emode
  else if idx = 0x06 then BitVec.ofNat 64 k
  else if idx < 0x40 then kgetD c.scratch (idx - 0x08) 0
  else if idx < 0x80 then kgetD c.rgnb (idx - 0x40) 0
  else kgetD c.rgnl (idx - 0x80) 0

/-- Writes a special register; CORE is read-only. (log 154, DESIGN CHOICE, unsafe) -/
def spSet (c : Stew) (idx : Nat) (v : Word) : Stew :=
  if idx = 0x00 then { c with mode := v.toNat }
  else if idx = 0x01 then { c with epc := v }
  else if idx = 0x02 then { c with ecause := v.toNat }
  else if idx = 0x03 then { c with eaddr := v.toNat }
  else if idx = 0x04 then { c with evbase := v }
  else if idx = 0x05 then { c with emode := v.toNat }
  else if idx = 0x06 then c
  else if idx < 0x40 then { c with scratch := kputD 0 c.scratch (idx - 0x08) v }
  else if idx < 0x80 then { c with rgnb := kputD 0 c.rgnb (idx - 0x40) v }
  else { c with rgnl := kputD 0 c.rgnl (idx - 0x80) v }

/-- MFS (R76): rd takes a special register; ra is zero, and an index not listed is ILLEGAL. -/
def execMfs (core : Core) (rd ra : RegNo) (aux : Byte) (s : State) : Res :=
  let i := insnX 0x3C 0x00 rd ra aux
  ok (issue core i (decide (ra ≠ 0) || (spMask aux.toNat).isNone || badDest core rd) .pmode (fun a f t =>
    match a with
    | .stew k =>
      match kget t.stews k with
      | some c => .done (setRf a ((f.set rd.toNat (spGet k c aux.toNat)).adv i) t)
      | none => .done t
    | .ctx _ => .done t) s)

/-- MTS (R76): a special register takes ra; rd is zero, and an index not listed is ILLEGAL. -/
def execMts (core : Core) (rd ra : RegNo) (aux : Byte) (s : State) : Res :=
  let i := insnX 0x3C 0x01 rd ra aux
  ok (issue core i (decide (rd ≠ 0) || (spMask aux.toNat).isNone) .pmode (fun a f t =>
    match a with
    | .stew k =>
      .done (modStew k (fun c => spSet c aux.toNat (f.get ra.toNat &&& (spMask aux.toNat).getD 0)) (setRf a (f.adv i) t))
    | .ctx _ => .done t) s)

/-- ERET (R77): MODE and the pc return to EMODE and EPC. -/
def execEret (core : Core) (rd ra : RegNo) (aux : Byte) (s : State) : Res :=
  ok (issue core (insnX 0x3C 0x02 rd ra aux) (decide (rd ≠ 0 ∨ ra ≠ 0 ∨ aux ≠ 0)) .pmode (fun a _ t =>
    match a with
    | .stew k => .done (modStew k (fun c => { c with mode := c.emode, rf := { c.rf with pc := c.epc } }) t)
    | .ctx _ => .done t) s)

/-- TRAP (R77): entry at vector 2 with EPC at the next instruction and aux in ECAUSE[23:16]; a double fault while INEV is 1
(R78). -/
def execTrap (core : Core) (rd ra : RegNo) (aux : Byte) (s : State) : Res :=
  ok (issue core (insnX 0x3C 0x03 rd ra aux) (decide (rd ≠ 0 ∨ ra ≠ 0)) .steward (fun a f t =>
    match a with
    | .stew k => .done (stewTrapEntry k (f.pc + 4) (0x21 + aux.toNat * 65536) 0 2 t)
    | .ctx _ => .done t) s)

/-! ### Events (R531) -/

/-- The queue from which a core takes its next event: enabled, meant for it and not empty, the highest PRIO first and the lower
number on a tie. -/
def eventQueue (s : State) (k : Nat) : Option Nat :=
  ((List.range 16).foldl (fun best q =>
    if isF s F.CEL_EVQ_CTL_EN q && decide (getF s F.CEL_EVQ_CTL_CORE q = k) && decide (kgetD s.cel.evq q [] ≠ []) then
      match best with
      | some (_, p) => if p < getF s F.CEL_EVQ_CTL_PRIO q then some (q, getF s F.CEL_EVQ_CTL_PRIO q) else best
      | none => some (q, getF s F.CEL_EVQ_CTL_PRIO q)
    else best) none).map Prod.fst

/-- EVENT_DELIVERY (R77, R531): a core with EVEN = 1 and INEV = 0 takes the event of its first queue, at vector 1. -/
def execEventDelivery (k : BitVec 4) (s : State) : Res :=
  ok (match kget s.stews k.toNat with
    | some c =>
      if c.run && c.even && !c.inev then
        match eventQueue s k.toNat with
        | some q => handlerEntry k.toNat c.rf.pc (0x20 + q * 256) 0 1 s
        | none => s
      else s
    | none => s)

/-! ### Unassigned encodings (R66, R67) -/

/-- Whether the words at the pc are an encoding that R66 and R67 make ILLEGAL whatever the machine's state: a word that is no
assigned instruction, or a prefix word that is misused. (log 25, DEDUCED, unsafe; 26, DEDUCED, unsafe) -/
def unassigned (w0 w1 : BitVec 32) : Bool := (gfiDecode (.stew 0) w0 w1 0).isNone

/-- UNASSIGNED_ENCODING (R66, R67): an ILLEGAL fault, which for a group reports the word after the prefix (R88). Words that `gfiDecode`
reads are the command that it gives, and nothing happens here. (log 26, DEDUCED, unsafe) -/
def execUnassignedEncoding (core : Core) (w0 w1 w2 : BitVec 32) (s : State) : Res :=
  match gfiDecode core w0 w1 w2 with
  | none =>
    let i : Insn := if wf w0 26 6 = 0x3F then ⟨w1.toNat, 12⟩ else ⟨w0.toNat, 4⟩
    ok (issue core i true .any (fun _ _ t => .done t) s)
  | some _ => ok s

/-! ### Tickets (R44, R94, R95) -/

/-- What a ticket is. (log 27, DEDUCED, unsafe) -/
def ticketOf (f : RegFile) (t : Nat) : Option Ticket := kget f.tk t

/-- A ticket becomes FREE. (log 27, DEDUCED, unsafe) -/
def freeTicket (f : RegFile) (t : Nat) : RegFile := { f with tk := kdel f.tk t }

/-- Bytes 0 to 7 of the result slot of a ticket (R94). -/
def slotWord (s : State) (a : Agent) (t : Nat) : Word := BitVec.ofNat 64 (rdN s (slotAddr s a t) 8)

/-- The lowest-numbered READY ticket of a mask. -/
def lowestReady (f : RegFile) (mask : Nat) : Option Nat :=
  (List.range 16).find? fun t => mask.testBit t && match kget f.tk t with | some k => k.ready | none => false

/-- Whether some ticket of a mask is not FREE. -/
def anyUsed (f : RegFile) (mask : Nat) : Bool := (List.range 16).any fun t => mask.testBit t && (kget f.tk t).isSome

/-- WAIT (R94): a READY ticket gives its result and is freed; a PENDING one makes a flow WAITING, and a steward core has not
executed it yet (R95). -/
def execWait (core : Core) (rd ra : RegNo) (aux : Byte) (s : State) : Res :=
  let i := insnX 0x35 0x00 rd ra aux
  ok (issue core i (decide (ra ≠ 0 ∨ 16 ≤ aux.toNat) || badDest core rd) .any (fun a f t =>
    match ticketOf f aux.toNat with
    | none => .fault fTicket 0
    | some k =>
      if k.ready then .done (setRf a (((freeTicket f aux.toNat).set rd.toNat (slotWord t a aux.toNat)).adv i) t)
      else
        match a with
        | .ctx n => .done (makeWait n (.ticket aux.toNat rd.toNat) (setRf a (f.adv i) t))
        | .stew _ => .retry t) s)

/-- POLL (R94): 1 for READY, 0 for PENDING. -/
def execPoll (core : Core) (rd ra : RegNo) (aux : Byte) (s : State) : Res :=
  let i := insnX 0x35 0x01 rd ra aux
  ok (issue core i (decide (ra ≠ 0 ∨ 16 ≤ aux.toNat) || badDest core rd) .any (fun a f t =>
    match ticketOf f aux.toNat with
    | none => .fault fTicket 0
    | some k => .done (setRf a ((f.set rd.toNat (flag k.ready)).adv i) t)) s)

/-- WAITANY (R94): waits until a ticket of the mask is READY and gives the lowest; it consumes none. -/
def execWaitany (core : Core) (rd ra : RegNo) (aux : Byte) (s : State) : Res :=
  let i := insnX 0x35 0x02 rd ra aux
  ok (issue core i (decide (aux ≠ 0) || badDest core rd) .any (fun a f t =>
    let mask := (f.get ra.toNat).toNat % 65536
    if !anyUsed f mask then .fault fTicket 0
    else
      match lowestReady f mask with
      | some k => .done (setRf a ((f.set rd.toNat (BitVec.ofNat 64 k)).adv i) t)
      | none =>
        match a with
        | .ctx n => .done (makeWait n (.anyTicket mask rd.toNat) (setRf a (f.adv i) t))
        | .stew _ => .retry t) s)

/-- DROP (R94): a READY ticket is freed without being read. -/
def execDrop (core : Core) (rd ra : RegNo) (aux : Byte) (s : State) : Res :=
  let i := insnX 0x35 0x03 rd ra aux
  ok (issue core i (decide (rd ≠ 0 ∨ ra ≠ 0 ∨ 16 ≤ aux.toNat)) .any (fun a f t =>
    match ticketOf f aux.toNat with
    | none => .fault fTicket 0
    | some k => if k.ready then .done (setRf a ((freeTicket f aux.toNat).adv i) t) else .fault fTicket 0) s)

/-! ### SUBMIT (R90 to R93) -/

/-- Whether SUBMIT is ILLEGAL: a class that R103 does not list, or flags [6:0] not zero (R92). Every class has a nonzero count on
this member (R5, R6). -/
def badSubmit (cls : BitVec 6) (flags : BitVec 13) : Bool :=
  decide (cls.toNat = 0 ∨ 0x0F ≤ cls.toNat ∨ flags.toNat % 128 ≠ 0)

/-- The descriptor of an agent's register `d`, as SUBMIT captures it (R62, R90). -/
def captureDesc (s : State) (a : Agent) (d : Nat) : Desc := BitVec.ofNat 512 (rdN s (descAddr s a d) 64)

/-- The logic die of an agent: 0 for L0, 1 for L1. -/
def dieOf (s : State) (a : Agent) : Nat :=
  match a with
  | .ctx n => match kget s.ctxs n with | some c => c.seq / 128 | none => 0
  | .stew k => k / 8

/-- SUBMIT (R90 to R93): the descriptor is captured, the ticket becomes PENDING and the job goes to its class, held first with
CHAIN. A flow's SUBMIT takes an entry of the store buffer, and waits while none is free. -/
def execSubmit (core : Core) (t : BitVec 4) (d : BitVec 3) (cls : BitVec 6) (flags : BitVec 13) (s : State) : Res :=
  let i := insnE 0x34 t d cls flags
  let chained := flags.getLsbD 12
  let pred := flags.toNat / 256 % 16
  ok (issue core i (badSubmit cls flags) .any (fun a f u =>
    match ticketOf f t.toNat, (if chained then ticketOf f pred else none) with
    | some _, _ => .fault fTicket 0
    | none, p =>
      if chained && p.isNone then .fault fTicket 0
      else
        let job : Job := {
          owner := a
          tk := t.toNat
          cls := cls.toNat
          desc := captureDesc u a d.toNat
          phase := .issued (p.map fun k => (k.job, flags.getLsbD 7))
          predCode := p.bind fun k => if k.ready then some k.code else none
          inst := dieOf u a }
        let id := u.nextJob
        let v := setRf a ({ f with tk := kput f.tk t.toNat ⟨false, id, 0⟩ }.adv i)
          { u with jobs := kput u.jobs id job, nextJob := id + 1 }
        match a with
        | .stew _ => .done v
        | .ctx n =>
          match kget u.ctxs n with
          | some c =>
            if 8 ≤ c.sbuf.length then .retry (makeWait n (.buffer 1) u)
            else .done (modCtx n (fun c => { c with sbuf := c.sbuf ++ [.submit id] }) v)
          | none => .done u) s)

end Sys2Proof.Machine
end

