-- ==== Sys2Proof/Machine/Jobs.lean ====
section
/-! DEFINITION. Engine jobs: the parts every engine class shares (R19, R91 to R102), completion and release, and the data mover
(R104, R105). -/

namespace Sys2Proof.Machine

/-! ### Result codes (R101) -/

/-- A result with only a code. -/
def JobResult.of (code : Nat) : JobResult := ⟨code, 0, 0, 0⟩

/-- DONE with a count and a value. -/
def JobResult.done (count value : Nat) : JobResult := ⟨0x00, 0, count, value⟩

/-- The result codes of R101. -/
def rNoshrink : Nat := 0x01
@[inherit_doc rNoshrink] def rNospace : Nat := 0x02
@[inherit_doc rNoshrink] def rVerify : Nat := 0x03
@[inherit_doc rNoshrink] def rCheck : Nat := 0x04
@[inherit_doc rNoshrink] def rKeyempty : Nat := 0x05
@[inherit_doc rNoshrink] def rKeydenied : Nat := 0x06
@[inherit_doc rNoshrink] def rMedia : Nat := 0x07
@[inherit_doc rNoshrink] def rLost : Nat := 0x08
@[inherit_doc rNoshrink] def rFenced : Nat := 0x09
@[inherit_doc rNoshrink] def rRemote : Nat := 0x0A
@[inherit_doc rNoshrink] def rBounds : Nat := 0x0B
@[inherit_doc rNoshrink] def rTimeout : Nat := 0x0C
@[inherit_doc rNoshrink] def rInternal : Nat := 0x0D

/-- INTERNAL with the detail of R98 in VALUE[15:0]. -/
def internal (detail : Nat) : JobResult := ⟨rInternal, 0, 0, detail⟩

/-- The engine classes of R103. -/
def cGrist : Nat := 0x01
@[inherit_doc cGrist] def cLauter : Nat := 0x02
@[inherit_doc cGrist] def cFpx : Nat := 0x03
@[inherit_doc cGrist] def cComp : Nat := 0x04
@[inherit_doc cGrist] def cDecomp : Nat := 0x05
@[inherit_doc cGrist] def cCipher : Nat := 0x06
@[inherit_doc cGrist] def cParity : Nat := 0x07
@[inherit_doc cGrist] def cDrvio : Nat := 0x08
@[inherit_doc cGrist] def cRdma : Nat := 0x09
@[inherit_doc cGrist] def cMap : Nat := 0x0A
@[inherit_doc cGrist] def cAlloc : Nat := 0x0B
@[inherit_doc cGrist] def cJrnl : Nat := 0x0C
@[inherit_doc cGrist] def cDmov : Nat := 0x0D
@[inherit_doc cGrist] def cHost : Nat := 0x0E

/-! ### The descriptor (R97) -/

/-- Bytes of a job's descriptor as a number. -/
def Job.n (j : Job) (lo len : Nat) : Nat := descN j.desc lo len

/-- OP, byte 1. -/
def Job.op (j : Job) : Nat := j.n 1 1

/-- HFLAGS, bytes 2 and 3. -/
def Job.hflags (j : Job) : Nat := j.n 2 2

/-- DEADLINE, bytes 4 to 7. -/
def Job.deadline (j : Job) : Nat := j.n 4 4

/-- The first check that fails decides the result (R98, R102). (log 11, DEDUCED, unsafe) -/
def firstFail : List (Bool × JobResult) → Option JobResult
  | [] => none
  | (bad, r) :: l => if bad then some r else firstFail l

/-- Whether the bytes of a descriptor from `lo` on are not all zero: reserved bytes break R98. -/
def Job.nonzero (j : Job) (lo len : Nat) : Bool := decide (j.n lo len ≠ 0)

/-- The header checks of every class (R98): CLASS, OP, and the reserved bits of HFLAGS, `hmask` being the bits of [15:8] that the
class defines. (log 11, DEDUCED, unsafe) -/
def Job.headChecks (j : Job) (ops : List Nat) (hmask : Nat) : List (Bool × JobResult) :=
  [(decide (j.n 0 1 ≠ j.cls), internal 1), (!ops.contains j.op, internal 2),
   (decide (j.hflags % 256 ≠ 0) || decide (j.hflags / 256 &&& (255 - hmask) ≠ 0), internal 3)]

/-- Whether a buffer may be used by a job (R21, R22, R102): wholly in HBM or DDR, and for a flow inside a window that grants the
right; a data mover job of a steward may also use the local stores (R105). -/
def bufOk (s : State) (j : Job) (write : Bool) (a n : Nat) : Bool :=
  decide (n = 0) ||
  match j.owner with
  | .ctx _ => inHbmDdr s a n && windowOk s write a n
  | .stew _ =>
    inHbmDdr s a n || (decide (j.cls = cDmov) && (spanIn s .localStore a n || spanIn s .stewStore a n))

/-- BOUNDS for a buffer that may not be used. (log 11, DEDUCED, unsafe) -/
def Job.bounds (j : Job) (s : State) (write : Bool) (a n : Nat) : Bool × JobResult :=
  (!bufOk s j write a n, JobResult.of rBounds)

/-! ### Instances (R19, R100) -/

/-- How many instances a class has on one logic die; none for a class on the I/O die (R103). -/
def perDie (cls : Nat) : Nat :=
  if cls = cGrist ∨ cls = cComp ∨ cls = cDecomp then 16
  else if cls = cLauter then 4
  else if cls = cFpx ∨ cls = cMap then 2
  else if cls = cCipher then 24
  else if cls = cParity ∨ cls = cDmov then 8
  else 0

/-- Classes whose engines are the same hardware share their instances (R103). -/
def engineOf (cls : Nat) : Nat := if cls = cDecomp then cComp else if cls = cFpx then cMap else cls

/-- How many accepted jobs an instance has. (log 9, DEDUCED, unsafe) -/
def instLoad (s : State) (cls inst : Nat) : Nat :=
  kcount s.jobs fun _ j => decide (engineOf j.cls = engineOf cls) && decide (j.inst = inst) &&
    (match j.phase with | .accepted => true | .issued _ | .held .. | .done _ => false)

/-- Whether the queue of an instance is full (R19). (log 149, DESIGN CHOICE, safe) -/
def queueFull (s : State) (cls inst : Nat) : Bool := decide (Config.instQueue (engineOf cls) < instLoad s cls inst)

/-- The jobs of a pipe that are suspended for a page (R141). -/
def suspendedOn (s : State) (inst : Nat) : Nat :=
  s.jobs.countP fun kv => decide (kv.2.inst = inst) && (decide (kv.2.cls = cMap) || decide (kv.2.cls = cFpx)) && decide (kv.2.phase = .accepted) &&
    s.me.pages.any fun e => e.2.waiters.contains kv.1

/-- The instances of a class on a die whose queue takes a job, a pipe only while fewer than 16,384 of its jobs are suspended (R141); grist unit 0 of L0 takes none while SEC has borrowed it (R163). -/
def openInsts (s : State) (cls die : Nat) : List Nat :=
  ((List.range (perDie cls)).map (die * 0x8000 + ·)).filter fun i =>
    !(s.gl.borrow && decide (cls = cGrist) && decide (i = 0)) && !queueFull s cls i && !(decide (engineOf cls = cMap) && decide (16384 ≤ suspendedOn s i))

/-- The least loaded instance of a list that rises, the lower number on a tie. (log 9, DEDUCED, unsafe) -/
def leastLoaded (s : State) (cls : Nat) : List Nat → Nat
  | [] => 0
  | i :: l => l.foldl (fun best k => if instLoad s cls k < instLoad s cls best then k else best) i

/-- The instance that takes a job: the least loaded one on the submitter's die, and one of the other die only where every queue of its own die is
full; an engine of the I/O die reports bit 14 (R19, R100, R163). (log 9, DEDUCED, unsafe) -/
def pickInst (s : State) (cls die : Nat) : Nat :=
  if perDie cls = 0 then 0x4000
  else if openInsts s cls die = [] then leastLoaded s cls (openInsts s cls (1 - die))
  else leastLoaded s cls (openInsts s cls die)

/-- Whether some instance of a class has room for a job (R19). (log 149, DESIGN CHOICE, safe) -/
def hasRoom (s : State) (cls : Nat) : Bool :=
  if perDie cls = 0 then !queueFull s cls 0x4000
  else !(decide (openInsts s cls 0 = []) && decide (openInsts s cls 1 = []))

/-- The number of an instance across both logic dies, as cellar records give it (R537). (log 9, DEDUCED, unsafe) -/
def instNumber (cls inst : Nat) : Nat := inst / 0x8000 * perDie cls + inst % 256

/-! ### Running and finishing -/

/-- Changes a job. -/
def modJob (id : Nat) (f : Job → Job) (s : State) : State := { s with jobs := kmod s.jobs id f }

/-- A job finishes with a result, which JOB_COMPLETE writes. (log 8, DESIGN CHOICE, unsafe) -/
def finish (id : Nat) (r : JobResult) (s : State) : State := modJob id (fun j => { j with phase := .done r }) s

/-- Whether two jobs run on one instance. The root port of a drive I/O job, which is its instance, is known only once it runs. (log 150, DEDUCED, safe) -/
def sameInst (j k : Job) : Bool := decide (engineOf j.cls = engineOf k.cls) && decide (j.inst = k.inst) && decide (j.cls ≠ cDrvio)

/-- Whether an instance may start a job: it starts the jobs that it has accepted in the order of their acceptance (R93). (log 150, DEDUCED, safe) -/
def jobMayStart (s : State) (j : Job) : Bool :=
  j.started || s.jobs.all fun kv => !(sameInst j kv.2 && decide (kv.2.phase = .accepted) && !kv.2.started &&
    decide (kv.2.ord.getD 0 < j.ord.getD 0))

/-- An accepted job of a class and operation that its instance may start or has started. (log 8, DESIGN CHOICE, unsafe) -/
def accepted (s : State) (id cls op : Nat) : Option Job :=
  match kget s.jobs id with
  | some j =>
    match j.phase with
    | .accepted => if j.cls = cls ∧ j.op = op ∧ jobMayStart s j = true then some j else none
    | .issued _ | .held .. | .done _ => none
  | none => none

/-- A job that runs on after its step has started (R93). -/
def markStarted (id : Nat) (s : State) : State :=
  match kget s.jobs id with
  | some j => if j.phase = .accepted ∧ j.started = false then { s with jobs := kput s.jobs id { j with started := true } } else s
  | none => s

/-- Runs an operation on its accepted job; a command for a job that is not there, not accepted or of another operation does
nothing. (log 5, DESIGN CHOICE, safe; 8, DESIGN CHOICE, unsafe) -/
def runJob (id cls op : Nat) (f : Job → State → State) (s : State) : State :=
  match accepted s id cls op with
  | some j => markStarted id (f j s)
  | none => s

/-- The 16 bytes of a result record (R100). -/
def resultBytes (inst : Nat) (r : JobResult) : List Byte :=
  leBytes 1 r.code ++ leBytes 1 r.rflags ++ leBytes 2 inst ++ leBytes 4 r.count ++ leBytes 8 r.value

/-! ### The cells of jobs (R391, R392, R398) -/

/-- The switch group of the engines of a class: their logic die, or the group that holds them on the I/O die (R390). -/
def engineGroup (cls inst : Nat) : Nat :=
  if cls = cDrvio then 3 else if cls = cRdma ∨ cls = cHost then 2 else if perDie cls = 0 then 7 else inst / 0x8000

/-- The block of a job's engine, and that of its submitter, whose die its instance names before acceptance. (log 184, DESIGN CHOICE, safe) -/
def engineBlock (j : Job) : Nat := blockOf (engineGroup j.cls j.inst) j.cls j.inst
@[inherit_doc engineBlock] def submitBlock (s : State) (a : Agent) : Nat :=
  match a with
  | .ctx n => (match kget s.ctxs n with | some c => blockOf (c.seq / 128) 0x41 c.seq | none => blockOf 0 0x41 0)
  | .stew k => blockOf (k / 8) 0x42 k

/-- The descriptor of an accepted job crosses the switch core to its engine, and its result back. -/
def sendDesc (id : Nat) (j : Job) (s : State) : State :=
  sendXfer { src := submitBlock s j.owner, dst := engineBlock j, chip := gangChip s, tc := 5, ty := 3, addr := id % 2 ^ 48
             data := leBytes 64 (j.n 0 64) } s
@[inherit_doc sendDesc] def sendResult (id : Nat) (j : Job) (r : JobResult) (s : State) : State :=
  sendXfer { src := engineBlock j, dst := submitBlock s j.owner, chip := gangChip s, tc := 5, ty := 4, addr := id % 2 ^ 48
             data := resultBytes j.inst r } s

/-- A copy between two memories (R391): the data mover's order goes to the source's memory, whose ports send the data straight to the destination's, and
the result comes back. (log 192, DESIGN CHOICE, unsafe) -/
def sendCopy (id : Nat) (j : Job) (src dst : Nat) (data : List Byte) (s : State) : State :=
  let c := gangChip s
  let b := engineBlock j
  let order : Xfer := { src := b, dst := memBlock src, chip := c, tc := 5, ty := 1, addr := src, data := leBytes 64 (j.n 0 64) }
  let move : Xfer := { src := memBlock src, dst := memBlock dst, mem := some (src, dst), chip := c, tc := match j.owner with | .stew _ => 0 | .ctx _ => 3, ty := 0, addr := dst, data := data }
  let answer : Xfer := { src := memBlock dst, dst := b, chip := c, tc := 5, ty := 4, addr := id % 2 ^ 48, data := leBytes 16 data.length }
  sendXfer answer (sendXfer move (sendXfer order s))

/-! ### Completion -/

/-- A waiting flow takes the result that has become READY (R49, R94). (log 27, DEDUCED, unsafe) -/
def wakeTicket (n t : Nat) (s : State) : State :=
  match kget s.ctxs n with
  | some c =>
    match c.st with
    | .waiting (.ticket t' rd) =>
      if t = t' then makeReady n (setRf (.ctx n) ((freeTicket c.rf t).set rd (slotWord s (.ctx n) t)) s) else s
    | .waiting (.anyTicket mask rd) =>
      match lowestReady c.rf mask with
      | some k => makeReady n (setRf (.ctx n) (c.rf.set rd (BitVec.ofNat 64 k)) s)
      | none => s
    | _ => s
  | none => s

/-- Whether the results of an agent are discarded: a FAULTED context (R75). (log 27, DEDUCED, unsafe; 29, DEDUCED, unsafe) -/
def discards (s : State) (a : Agent) : Bool :=
  match a with
  | .ctx n =>
    match kget s.ctxs n with
    | some c => match c.st with | .faulted _ => true | _ => false
    | none => true
  | .stew _ => false

/-- Whether the jobs of a class complete in the order in which their instance started them (R93): those of the engines of the logic dies
but for the map pipes (R141). The jobs of the I/O die end as their chapters say: with an answer from a host, a drive or the partner. (log 150, DEDUCED, safe) -/
def inOrder (cls : Nat) : Bool := decide (perDie cls ≠ 0) && decide (engineOf cls ≠ cMap)

/-- Whether a finished job may complete: no job that its instance accepted before it is left (R93). (log 150, DEDUCED, safe) -/
def mayComplete (s : State) (j : Job) : Bool :=
  !inOrder j.cls || match j.ord with
    | some n => s.jobs.all fun kv => !(sameInst j kv.2 && match kv.2.ord with | some m => decide (m < n) | none => false)
    | none => true

/-- A finished job completes (R62, R91, R95, R100): the result slot is written, the ticket becomes READY, a flow that waits for it goes on, and the
jobs chained to this one learn its code. (log 29, DEDUCED, unsafe) -/
def jobCompletes (job : Nat) (s : State) : State :=
  match kget s.jobs job with
    | some j =>
      match j.phase with
      | .done r =>
        let s := { s with jobs := kmapV (kdel s.jobs job) fun _ k =>
          match k.phase with
          | .issued (some (p, _)) | .held p _ => if p = job then { k with predCode := some r.code } else k
          | .issued none | .accepted | .done _ => k }
        let f := rfOf s j.owner
        let s1 := setRf j.owner { f with tk := kmod f.tk j.tk fun t => if t.job = job then { t with ready := true, code := r.code } else t } s
        if discards s j.owner then s1
        else
          let s2 := sendResult job j r (wrB (slotAddr s j.owner j.tk) (resultBytes j.inst r) s1)
          match j.owner with
          | .ctx n => wakeTicket n j.tk s2
          | .stew _ => s2
      | .issued _ | .held .. | .accepted => s
    | none => s

/-! ### The data mover (R104, R105) -/

/-- The acceptance checks of a data mover job. -/
def checkDmov (j : Job) (s : State) : Option JobResult :=
  let len := j.n 24 4
  let src := j.n 8 8
  let dst := j.n 16 8
  firstFail (j.headChecks [1, 2, 3] 0 ++
    [(j.nonzero 28 4 || j.nonzero 40 24 || (decide (j.op ≠ 3) && decide (2 ^ 48 ≤ src)), internal 3),
     (decide (len = 0 ∨ 16777216 < len), internal 4),
     ((decide (j.op ≠ 3) && !bufOk s j false src len), JobResult.of rBounds),
     (!bufOk s j (decide (j.op ≠ 2)) dst len, JobResult.of rBounds)])

/-- The offset of the first byte in which two lists differ, or all ones (R105). -/
def firstDiff : Nat → List Byte → List Byte → Nat
  | _, [], _ => 0xFFFF_FFFF_FFFF_FFFF
  | _, _, [] => 0xFFFF_FFFF_FFFF_FFFF
  | k, x :: l, y :: m => if x = y then firstDiff (k + 1) l m else k

/-- The bytes of a FILL: byte `k` is byte `k mod 8` of PATTERN (R105). -/
def fillBytes (pattern n : Nat) : List Byte := (List.range n).map fun k => BitVec.ofNat 8 (pattern / 2 ^ (8 * (k % 8)))

/-- What the first `n` bytes of a data mover job do, and the value they give. (log 159, DESIGN CHOICE, unsafe) -/
def dmovPart (j : Job) (n : Nat) (s : State) : State × Nat :=
  let src := j.n 8 8
  let dst := j.n 16 8
  if j.op = 1 then (wrB dst (rdB s src n) s, 0)
  else if j.op = 2 then (s, firstDiff 0 (rdB s src n) (rdB s dst n))
  else (wrB dst (fillBytes (j.n 32 8) n) s, 0)

/-- A data mover job runs to its end. -/
def runDmov (id : Nat) (op : Nat) (s : State) : State :=
  runJob id cDmov op (fun j s =>
    let (t, v) := dmovPart j (j.n 24 4) s
    finish id (JobResult.done (j.n 24 4) v) (if op = 1 then sendCopy id j (j.n 8 8) (j.n 16 8) (rdB s (j.n 8 8) (j.n 24 4)) t else t)) s

/-- DMOV COPY (R105): the destination ends as the source was when the job started. -/
def execDmovCopy (job : Nat) (s : State) : Res := ok (runDmov job 1 s)

/-- DMOV COMPARE (R105): writes nothing; VALUE is the first differing offset. -/
def execDmovCompare (job : Nat) (s : State) : Res := ok (runDmov job 2 s)

/-- DMOV FILL (R105). -/
def execDmovFill (job : Nat) (s : State) : Res := ok (runDmov job 3 s)

/-- A data mover job that times out after `n` bytes (R99, R105): they are done, and the output beyond them is undefined. -/
def timeoutDmov (j : Job) (n : Nat) (s : State) : State × JobResult :=
  let len := j.n 24 4
  let n := min n len
  let (t, v) := dmovPart j n s
  (if j.op = 2 then t else wrFree (j.n 16 8 + n) (len - n) t, ⟨rTimeout, 0, n, v⟩)

end Sys2Proof.Machine
end

