-- ==== Sys2Proof/Machine/Bung.lean ====
section
/-! DEFINITION. Flow program sets and the bung: FSQ_CTL, FSQ_PSET_CTL, the entry and binding registers, the local bung and the pair
bung (R85, R107 to R121). -/

namespace Sys2Proof.Machine

/-- Whether the partner link is up (R420). -/
def linkUp (s : State) : Bool := isF s F.SYS_PTR_STAT_LINK

/-- Whether this head runs in solo mode (R263: TA_CTL.SOLO). -/
def soloMode (s : State) : Bool := isF s F.TA_CTL_SOLO

/-- Whether this is head B (R416). -/
def headB (s : State) : Bool := isF s F.SYS_HEAD_ID

/-- Sends a message to the partner. (log 118, DESIGN CHOICE, unsafe) -/
def toPartner (m : PMsg) (s : State) : State := emit (.partner m) s

/-- A write of FSQ_CTL (R85): EN stays 0 while no flow program set is active. -/
def wrFsqCtl (v : Word) (s : State) : State :=
  if bit v 0 && !isF s F.FSQ_PSET_CTL_ACTIVE then celRefused .FSQ_CTL v (setF F.FSQ_CTL_EN 0 s)
  else setF F.FSQ_CTL_EN (bits v 0 0) s

/-- FSQ_CTL_WRITE (R85). -/
def execFsqCtlWrite (v : Word) (s : State) : Res := ok (wrFsqCtl v s)

/-- A core write of FSQ_PSET_CTL (R110, R117): while a set is active, a write that would change ENTRIES or BANKSEL is ignored with a
record; ACTIVE stays 0 while ENTRIES is 0. -/
def wrFsqPsetCtl (v : Word) (s : State) : State :=
  if isF s F.FSQ_PSET_CTL_ACTIVE then
    if bits v 28 16 = getF s F.FSQ_PSET_CTL_ENTRIES ∧ bits v 29 29 = getF s F.FSQ_PSET_CTL_BANKSEL then s
    else celRefused .FSQ_PSET_CTL v s
  else
    let s := setF F.FSQ_PSET_CTL_BANKSEL (bits v 29 29) (setF F.FSQ_PSET_CTL_ENTRIES (bits v 28 16) s)
    if bit v 0 then
      if bits v 28 16 = 0 then celRefused .FSQ_PSET_CTL v s else setF F.FSQ_PSET_CTL_ACTIVE 1 s
    else s

/-- FSQ_PSET_CTL_WRITE (R117). -/
def execFsqPsetCtlWrite (v : Word) (s : State) : Res := ok (wrFsqPsetCtl v s)

/-- A core write of FSQ_ENTRY*n* (R110, R118): refused with a record where a set is active and the write would change it. -/
def wrFsqEntry (n : Nat) (v : Word) (s : State) : State :=
  let new := writeFields (rd s .FSQ_ENTRY n) v (RegName.FSQ_ENTRY).info.fields
  if isF s F.FSQ_PSET_CTL_ACTIVE && decide (new ≠ rd s .FSQ_ENTRY n) then celRefused .FSQ_ENTRY v s n
  else wr .FSQ_ENTRY new s n

/-- A core write of FSQ_BIND*b*_*n* (R110, R114, R119): ignored with a record while a drain is in progress, and where it would change
an entry of the active bank of an active set. -/
def wrFsqBind (b n : Nat) (v : Word) (s : State) : State :=
  let changes := decide (v ≠ rd s .FSQ_BIND b n)
  if isF s F.FSQ_BUNG_STAT_BUSY then celRefused .FSQ_BIND v s b n
  else if isF s F.FSQ_PSET_CTL_ACTIVE && decide (b = getF s F.FSQ_PSET_CTL_BANKSEL) && changes then celRefused .FSQ_BIND v s b n
  else wr .FSQ_BIND v s b n

/-- Entry `i` of a binding bank (R108, R119). -/
def bindEntry (s : State) (b i : Nat) : Nat := bits (rd s .FSQ_BIND b (i / 4)) (16 * (i % 4) + 15) (16 * (i % 4))

/-- The flow store offset of an entry point (R118). -/
def entryOffset (s : State) (e : Nat) : Nat :=
  if e % 2 = 0 then getF s F.FSQ_ENTRY_OFF_LO (e / 2) else getF s F.FSQ_ENTRY_OFF_HI (e / 2)

/-- Whether every VALID entry of a binding bank has ENTRY below ENTRIES (R113 step 3). Only registers that have been written can
hold a VALID entry, since each resets to zero. -/
def bankValid (s : State) (b : Nat) : Bool :=
  let lo := (RegName.FSQ_BIND).addr b 0
  s.csr.all fun kv => !(decide (lo ≤ kv.1) && decide (kv.1 < lo + 0x8000)) ||
    (List.range 4).all fun k =>
      let e := bits kv.2 (16 * k + 15) (16 * k)
      !decide (0x8000 ≤ e) || decide (e % 0x1000 < getF s F.FSQ_PSET_CTL_ENTRIES)

/-- The inactive binding bank. -/
def inactiveBank (s : State) : Nat := 1 - getF s F.FSQ_PSET_CTL_BANKSEL

/-- The old-epoch contexts (R107, R113): those in any state, and the commands that wait for a context. -/
def oldCtx (s : State) : Nat :=
  kcount s.ctxs (fun _ c => decide (c.epoch < s.bung.epoch)) + s.ctxWait.countP fun w => decide (w.epoch < s.bung.epoch)

/-- The sequencers that hold an old-epoch context (R113). -/
def pendSeq (s : State) : Nat :=
  (List.range 256).countP fun q => s.ctxs.any fun kv => kv.2.resident && decide (kv.2.seq = q) && decide (kv.2.epoch < s.bung.epoch)

/-- Step 4 of R113: BUSY sets and BANKSEL flips, and every later command is of the new epoch. -/
def bungFlip (pair solo : Bool) (s : State) : State :=
  let s := setF F.FSQ_BUNG_STAT_BUSY 1 (setF F.FSQ_PSET_CTL_BANKSEL (inactiveBank s) s)
  let s := if solo then setF F.FSQ_BUNG_STAT_SOLO 1 s else s
  setF F.FSQ_BUNG_STAT_PSTATE 0 { s with bung := { s.bung with epoch := s.bung.epoch + 1, pair := pair, solo := solo } }

/-- The check of R113 step 3 that refuses a GO, with the cause of record 0x0C12. (log 119, DEDUCED, unsafe) -/
def bungRefusal (s : State) : Option Nat :=
  if isF s F.FSQ_BUNG_STAT_BUSY then some 1
  else if getF s F.FSQ_BUNG_STAT_PSTATE ≠ 0 then some 2
  else if !bankValid s (inactiveBank s) then some 3
  else none

/-- The low 64 bits of the SHA-512 of the loaded flow program set (R115). -/
def setId (s : State) : Word := BitVec.ofNat 64 (leNat (s.bung.setHash.take 8))

/-- A write of FSQ_BUNG_CTL (R113, R115, R120). A GO for a pair bung while the link is down and the partner is neither dead nor left by
solo mode meets no row of R115 and does nothing. (log 119, DEDUCED, unsafe) -/
def wrBungCtl (v : Word) (s : State) : State :=
  let s := setF F.FSQ_BUNG_CTL_STAGED (bits v 2 2) (setF F.FSQ_BUNG_CTL_PAIR (bits v 1 1) s)
  if !bit v 0 then s
  else
    match bungRefusal s with
    | some cause => cel 0x0C12 0 2 cause 0 0 (setF F.FSQ_BUNG_STAT_REFUSED 1 s)
    | none =>
      if !bit v 1 then bungFlip false false s
      else if s.partner.dead || soloMode s then bungFlip true true s
      else if linkUp s then setF F.FSQ_BUNG_STAT_PSTATE 1 (toPartner (.bungPrepare (setId s)) s)
      else s

/-- BUNG_GO (R113, R115). -/
def execBungGo (v : Word) (s : State) : Res := ok (wrBungCtl v s)

/-- BUNG_DRAIN_DONE (R113 step 6): with no old-epoch context left, BUSY clears, DONE sets, the epoch counts up, the source is raised
and the record written; STAGED clears (R115). -/
def execBungDrainDone (s : State) : Res :=
  ok (if isF s F.FSQ_BUNG_STAT_BUSY && decide (oldCtx s = 0) then
      let n := (getF s ⟨.FSQ_BUNG_EPOCH, 31, 0⟩ + 1) % 2 ^ 32
      let s := setF F.FSQ_BUNG_CTL_STAGED 0 (setF F.FSQ_BUNG_STAT_DONE 1 (setF F.FSQ_BUNG_STAT_BUSY 0 s))
      let s := setF ⟨.FSQ_BUNG_EPOCH, 31, 0⟩ n s
      cel 0x0C11 0 0 n (b2n s.bung.pair + 2 * b2n s.bung.solo) 0 (raise 0x0C11 n s)
    else s)

/-- A rollback: ROLLBACK sets, STAGED clears and the state is IDLE (R115). -/
def bungRollback (s : State) : State :=
  setF F.FSQ_BUNG_STAT_ROLLBACK 1 (setF F.FSQ_BUNG_CTL_STAGED 0 (setF F.FSQ_BUNG_STAT_PSTATE 0 s))

/-- A PREPARE as state IDLE handles it (R115). -/
def prepareIdle (id : Word) (s : State) : State :=
  if isF s F.FSQ_BUNG_CTL_STAGED && !isF s F.FSQ_BUNG_STAT_BUSY && bankValid s (inactiveBank s) && decide (id = setId s) then
    setF F.FSQ_BUNG_STAT_PSTATE 2 (toPartner .bungAck s)
  else toPartner .bungNak s

/-- BUNG_PREPARE (R115): in IDLE it is answered with ACK or NAK. Where both heads sent PREPARE, head A answers NAK and head B abandons
its own. -/
def execBungPrepare (setId : Word) (s : State) : Res :=
  ok (match getF s F.FSQ_BUNG_STAT_PSTATE with
    | 0 => prepareIdle setId s
    | 1 => if headB s then prepareIdle setId (setF F.FSQ_BUNG_STAT_PSTATE 0 s) else toPartner .bungNak s
    | _ => s)

/-- A message that is sent now and repeated until it is confirmed (R115). -/
def bungSend (m : PMsg) (s : State) : State := toPartner m { s with bung := { s.bung with resend := some m } }

/-- BUNG_ACK (R115): the initiator sends COMMIT and bungs. -/
def execBungAck (s : State) : Res :=
  ok (if getF s F.FSQ_BUNG_STAT_PSTATE = 1 then bungFlip true false (bungSend .bungCommit s) else s)

/-- The initiator gives up: ABORT and ROLLBACK (R115). -/
def bungGiveUp (s : State) : State :=
  if getF s F.FSQ_BUNG_STAT_PSTATE = 1 then bungRollback (bungSend .bungAbort s) else s

/-- BUNG_NAK (R115). -/
def execBungNak (s : State) : Res := ok (bungGiveUp s)

/-- BUNG_PREPARE_TIMEOUT (R115). -/
def execBungPrepareTimeout (s : State) : Res := ok (bungGiveUp s)

/-- BUNG_COMMIT (R115): a prepared head bungs; receipt is confirmed. -/
def execBungCommit (s : State) : Res :=
  let s := toPartner .bungConfirm s
  ok (if getF s F.FSQ_BUNG_STAT_PSTATE = 2 then bungFlip true false s else s)

/-- BUNG_ABORT (R115): a prepared head rolls back; receipt is confirmed. -/
def execBungAbort (s : State) : Res :=
  let s := toPartner .bungConfirm s
  ok (if getF s F.FSQ_BUNG_STAT_PSTATE = 2 then bungRollback s else s)

/-- BUNG_RESEND_TIMER (R115): COMMIT or ABORT is sent again while it is not confirmed. -/
def execBungResendTimer (s : State) : Res :=
  ok (match s.bung.resend with
    | some m => if s.partner.dead then s else toPartner m s
    | none => s)

/-- BUNG_CONFIRM (R115): the initiator stops repeating. -/
def execBungConfirm (s : State) : Res := ok { s with bung := { s.bung with resend := none } }

/-- The partner is declared dead (R115): an initiator rolls back, a prepared head bungs alone, and nothing is repeated. -/
def bungPartnerDead (s : State) : State :=
  let s := { s with bung := { s.bung with resend := none } }
  match getF s F.FSQ_BUNG_STAT_PSTATE with
  | 1 => bungRollback s
  | 2 => bungFlip true true s
  | _ => s

end Sys2Proof.Machine
end

