-- ==== Sys2Proof/Machine/Crc.lean ====
section
/-! DEFINITION. The two cyclic redundancy checks the formats use: the NVMe 64-bit guard (CRC-64) and CRC-32C. Their parameters are
those of the published standards. -/

namespace Sys2Proof.Machine

/-- `n` steps of a reflected CRC register. -/
def crcSteps (poly : Nat) : Nat → Nat → Nat
  | 0, c => c
  | n + 1, c => crcSteps poly n (if c % 2 = 1 then (c / 2) ^^^ poly else c / 2)

/-- One byte into a reflected CRC register. -/
def crcByte (poly c : Nat) (b : Byte) : Nat := crcSteps poly 8 (c ^^^ b.toNat)

/-- The CRC-64 of bytes with the NVMe 64-bit guard polynomial. -/
def crc64 (l : List Byte) : Nat :=
  l.foldl (crcByte 0x9A6C9329AC4BC9B5) 0xFFFFFFFFFFFFFFFF ^^^ 0xFFFFFFFFFFFFFFFF

/-- CRC-32C. -/
def crc32c (l : List Byte) : Nat := l.foldl (crcByte 0x82F63B78) 0xFFFFFFFF ^^^ 0xFFFFFFFF

end Sys2Proof.Machine
end

