-- ==== Sys2Proof/Machine/Obs.lean ====
section
/-! DEFINITION. The cellar log, the event queues, the performance counters and the BMC window (R529 to R546). -/

namespace Sys2Proof.Machine

/-! ### The log (R534) -/

/-- CELLAR_RECORD (R534): the oldest record of the input queue is written or folded. -/
def execCellarRecord (s : State) : Res :=
  ok (match s.cel.inq with
    | [] => s
    | r :: l => logRecord r { s with cel := { s.cel with inq := l } })

/-! ### Reading and writing the log (R535) -/

/-- A steward's CSR read gives its data. -/
def gives (r : RegName) (i : Nat) (v : Word) (s : State) : State := emit (.csrRead (r.addr i 0) v) s

/-- A read of CEL_WIN0: the record at RPOS is latched and its bytes 0 to 7 returned; 0 where the log is empty. (log 39, DEDUCED, unsafe) -/
def rdCelWin0 (s : State) : Word × State :=
  if getF s F.CEL_STAT_UNREAD = 0 then (0, s)
  else
    let b := rdB s (celAddr (rpos s)) 32
    (BitVec.ofNat 64 (fieldN b 0 8), { s with cel := { s.cel with latch := b } })

/-- CEL_WIN0_READ (R535). -/
def execCelWin0Read (s : State) : Res := ok (gives .CEL_WIN 0 (rdCelWin0 s).1 (rdCelWin0 s).2)

/-- A read of CEL_WIN1 or CEL_WIN2: bytes of the latched record. -/
def rdCelWin (i : Nat) (s : State) : Word := BitVec.ofNat 64 (fieldN s.cel.latch (8 * i) 8)

/-- A read of CEL_WIN3: the last bytes of the latched record, which the read clears (R9, R545: RC); RPOS advances unless everything is
read, and a read that advances it arms source 0x0410 again (R534, R535). -/
def rdCelWin3 (s : State) : Word × State :=
  let n := getF s F.CEL_STAT_UNREAD
  let t := { s with cel := { s.cel with latch := s.cel.latch.take 24 } }
  (rdCelWin 3 s,
    if n = 0 then t else setF F.CEL_STAT_UNREAD (n - 1) { t with cel := { t.cel with armed := true } })

/-- CEL_WIN3_READ (R535). -/
def execCelWin3Read (s : State) : Res := ok (gives .CEL_WIN 3 (rdCelWin3 s).1 (rdCelWin3 s).2)

/-- A write of CEL_SWREC0 to CEL_SWREC3; that of CEL_SWREC3 submits the record, with SEV[3] set, FIRST the DTIME of submission,
REPEAT 1, SPAN 0 and SEV[4] 0 (R535). -/
def wrCelSwrec (i : Nat) (v : Word) (s : State) : State :=
  let s := { s with cel := { s.cel with swrec := kputD 0 s.cel.swrec i v } }
  if i = 3 then
    let w k := kgetD s.cel.swrec k (0 : Word)
    celPush ⟨bits (w 0) 15 0, bits (w 0) 23 16, bits (w 0) 26 24, s.dtime.toNat, bits (w 2) 63 32, bits (w 3) 31 0, bits (w 3) 63 32,
      true⟩ s
  else s

/-- STEWARD_RECORD_SUBMIT (R535). -/
def execStewardRecordSubmit (v : Word) (s : State) : Res := ok (wrCelSwrec 3 v s)

/-! ### Flushes (R536) -/

/-- The header block of a flush (R536). -/
def flushHeader (f : Flush) (head : Nat) : List Byte :=
  let h := leBytes 4 0x4C4C4543 ++ leBytes 1 1 ++ leBytes 1 f.reason ++ leBytes 1 head ++ leBytes 1 f.also ++ leBytes 4 f.count ++
    leBytes 4 f.wpos ++ leBytes 4 f.lost ++ leBytes 4 f.drop ++ leBytes 8 f.dtime ++ zeros 24
  h ++ leBytes 8 (crc64 (h ++ mread f.image celBase 0x8_0000))

/-- CELLAR_FLUSH (R536): a request for a flush, for reasons 1 to 6. -/
def execCellarFlush (reason : BitVec 3) (s : State) : Res :=
  ok (if reason = 0 ∨ reason = 7 then s else requestFlush reason.toNat s)

/-- CELLAR_FLUSH_DONE (R536): the copy is on every vault drive that did not fail; the source is raised, and the pending request
runs. -/
def execCellarFlushDone (failed : BitVec 4) (s : State) : Res :=
  ok (match s.cel.flush with
    | none => s
    | some f =>
      let s := emit (.vaultCellar (15 - failed.toNat) (flushHeader f (getF s F.SYS_HEAD_ID)) f.image) s
      let s := setF F.CEL_STAT_FBUSY 0 (setF F.CEL_STAT_FDONE 1 (setF F.CEL_STAT_FDEGR failed.toNat s))
      let s := raise 0x0411 f.reason s
      match s.cel.flushReq with
      | some (r, also) => startFlush r also { s with cel := { s.cel with flush := none, flushReq := none } }
      | none => { s with cel := { s.cel with flush := none } })

/-- A write of CEL_CTL (R545): CRITFLUSH, and a flush for reason 1. -/
def wrCelCtl (v : Word) (s : State) : State :=
  let s := setF F.CEL_CTL_CRITFLUSH (bits v 1 1) s
  if bit v 0 then requestFlush 1 s else s

/-! ### Events (R529 to R531) -/

/-- A write of CEL_EVRAISE: sources of steward firmware are raised, others ignored with a record. -/
def wrCelEvraise (v : Word) (s : State) : State :=
  let src := bits v 12 0
  if 0x1B00 ≤ src then raise src (bits v 63 32) s else celRefused .CEL_EVRAISE v s

/-- CEL_EVRAISE_WRITE (R529). -/
def execCelEvraiseWrite (v : Word) (s : State) : Res := ok (wrCelEvraise v s)

/-- A read of CEL_EVQ*n*_POP: the head entry, which leaves the queue and its pending state; VALID 0 where the queue is empty. -/
def rdEventPop (q : Nat) (s : State) : Word × State :=
  match kgetD s.cel.evq q [] with
  | [] => (0, s)
  | src :: l =>
    let p := kgetD s.cel.pend src ⟨0, 0⟩
    (BitVec.ofNat 64 (p.param * 2 ^ 32 + p.count * 2 ^ 16 + 2 ^ 15 + src),
      { s with cel := { s.cel with evq := kput s.cel.evq q l, pend := kdel s.cel.pend src } })

/-- EVENT_POP (R531). -/
def execEventPop (q : BitVec 4) (s : State) : Res :=
  ok (gives .CEL_EVQ_POP q.toNat (rdEventPop q.toNat s).1 (rdEventPop q.toNat s).2)

/-! ### Counters (R541, R542) -/

/-- A write that every chip of the gang takes (R542): a chip other than 0 sends it to chip 0, which applies it and sends it to every
chip; a chip that REACH shows unreachable misses it, and MISS sets. The broadcast of chip 0 is applied. (log 42, DESIGN CHOICE, unsafe) -/
def sendGangWrite (chip : Nat) (r : RegName) (v : Word) (s : State) : State :=
  let b := ctlBlock
  emit (.gangWrite chip (r.addr 0 0) v) (sendXfer { src := b, dst := b, chip := chip, tc := 7, ty := 6, addr := r.addr 0 0, data := leBytes 8 v.toNat } s)
@[inherit_doc sendGangWrite]
def gangWrite (localOnly gang : Bool) (r : RegName) (v : Word) (apply : State → State) (s : State) : State :=
  if localOnly || gang || decide (gangChips s = 1) then apply s
  else if gangChip s ≠ 0 then sendGangWrite 0 r v s
  else
    (List.range (gangChips s)).foldl (fun t c =>
      if c = 0 then t
      else if (getF s F.GANG_STAT_REACH).testBit c then sendGangWrite c r v t
      else setF F.PMC_STAT_MISS 1 t) (apply s)

/-- A write of PMC_FREEZE (R542). (log 42, DESIGN CHOICE, unsafe) -/
def wrPmcFreeze (v : Word) (gang : Bool) (s : State) : State :=
  gangWrite (bit v 1) gang .PMC_FREEZE v (fun s => setF F.PMC_FREEZE_FROZEN (bits v 0 0) (setF F.PMC_FREEZE_LOCAL (bits v 1 1) s)) s

/-- PMC_FREEZE (R542). -/
def execPmcFreeze (v : Word) (gang : Bool) (s : State) : Res := ok (wrPmcFreeze v gang s)

/-- Every counter is copied to its shadow, with the DTIME of the copy (R542). -/
def pmcSnapNow (s : State) : State :=
  let lo := (RegName.PMC_CNT).addr 0 0
  let listed := (s.csr.filter fun kv => decide (lo ≤ kv.1) && decide (kv.1 < lo + 0x2000)).map fun kv => (kv.1 - lo) / 8
  wr .PMC_SNAPTIME s.dtime (listed.foldl (fun t n => wr .PMC_SHD (rd s .PMC_CNT n) t n) s)

/-- A write of PMC_SNAP (R542). (log 42, DESIGN CHOICE, unsafe) -/
def wrPmcSnap (v : Word) (gang : Bool) (s : State) : State :=
  let s := setF F.PMC_SNAP_LOCAL (bits v 1 1) s
  if bit v 0 then gangWrite (bit v 1) gang .PMC_SNAP v pmcSnapNow s else s

/-- PMC_SNAP (R542). -/
def execPmcSnap (v : Word) (gang : Bool) (s : State) : Res := ok (wrPmcSnap v gang s)

/-- PMC_COUNTER_WRITE (R541): the counter takes the value. -/
def execPmcCounterWrite (n : BitVec 10) (v : Word) (s : State) : Res := ok (setF F.PMC_CNT_COUNT (bits v 47 0) s n.toNat)

/-- COUNTER_OVERFLOW (R541): an occurrence takes an enabled counter that stands at 2^48 − 1 past its end. -/
def execCounterOverflow (n : BitVec 10) (s : State) : Res :=
  ok (if isF s F.PMC_SEL_EN n.toNat && !isF s F.PMC_FREEZE_FROZEN && decide (getF s F.PMC_CNT_COUNT n.toNat = 2 ^ 48 - 1) then
      pmcAdd 1024 n.toNat 1 s
    else s)

/-! ### The BMC window (R543, R544) -/

/-- The SMBus target answers a read. (log 43, DESIGN CHOICE, unsafe) -/
def smb (l : List Byte) (s : State) : Res := ok (emit (.smbus l) s)

/-- ID: the 8 bytes of SYS_ID. -/
def execSmbId (s : State) : Res := smb (leBytes 8 (rd s .SYS_ID).toNat) s

/-- STATE: the head state, the power state, VAULT_DONE and FENCE_OUT_N. -/
def execSmbState (s : State) : Res :=
  smb (leBytes 1 (getF s F.SYS_HEAD_STATE + 16 * getF s F.PWR_PSTATE_CUR + 64 * getF s F.PWR_PF_VDONE +
    128 * b2n s.partner.fenceOut)) s

/-- RESET: the source of the last reset and the low byte of the count. -/
def execSmbReset (s : State) : Res :=
  smb (leBytes 1 (getF s F.SYS_RSTSRC_CODE) ++ leBytes 1 (getF s F.SYS_RSTSRC_COUNT % 256)) s

/-- ALERTS. -/
def execSmbAlerts (s : State) : Res := smb (leBytes 1 (alertsByte s)) s

/-- ALERTCLR: a 1 clears the matching bit of ALERTS[7:1]. -/
def execSmbAlertclr (v : Byte) (s : State) : Res :=
  ok { s with cel := { s.cel with alerts := s.cel.alerts &&& (255 - v.toNat) } }

/-- HOTTEST. -/
def execSmbHottest (s : State) : Res := smb (leBytes 2 (getF s F.THM_STAT_HOTTEST)) s

/-- AVS. -/
def execSmbAvs (s : State) : Res := smb (leBytes 2 (getF s F.PWR_AVS_TARGET)) s

/-- TEMP*n*: 0x8000 when BROKEN and not SUBST. -/
def execSmbTemp (n : BitVec 5) (s : State) : Res :=
  smb (leBytes 2 (if isF s F.THM_SEN_BROKEN n.toNat && !isF s F.THM_SEN_SUBST n.toNat then 0x8000 else getF s F.THM_SEN_TEMP n.toNat)) s

/-- CELCNT: the records the BMC cursor has not passed, saturating. -/
def execSmbCelcnt (s : State) : Res := smb (leBytes 2 (min 0xFFFF s.cel.bmcUnread)) s

/-- CELREC: the record at the BMC cursor, which advances; zeros where it has passed all. -/
def execSmbCelrec (s : State) : Res :=
  if s.cel.bmcUnread = 0 then smb (zeros 32) s
  else
    smb (rdB s (celAddr (getF s F.CEL_STAT_WPOS + 16384 * 2 - s.cel.bmcUnread)) 32)
      { s with cel := { s.cel with bmcUnread := s.cel.bmcUnread - 1 } }

/-- CELRST: 0x01 moves the BMC cursor to the oldest record. -/
def execSmbCelrst (v : Byte) (s : State) : Res :=
  ok (if v = 1 then { s with cel := { s.cel with bmcUnread := s.cel.total } } else s)

/-- CELLOST: the records overwritten before the BMC cursor reached them, saturating. -/
def execSmbCellost (s : State) : Res := smb (leBytes 2 (min 0xFFFF s.cel.bmcLost)) s

/-- ALERT_RESPONSE_ADDRESS (R543): while ALERT_N is asserted the target answers with its address, and ALERT_N stays asserted. -/
def execAlertResponseAddress (s : State) : Res :=
  if alertsByte s = 0 then ok s else smb (leBytes 1 (2 * getF s F.MGT_SMB_ADDR)) s

end Sys2Proof.Machine
end

