-- ==== Sys2Proof/Machine/Frames.lean ====
section
/-! DEFINITION. Metadata pages in their frames, the clock that evicts them, and the lines of the metadata cache that jobs touch (R25, R138,
R139, R142 to R145, R149, R156). -/

namespace Sys2Proof.Machine

/-! ### Pages -/

/-- Changes a page. -/
def modPage (id : Nat) (f : Page → Page) (s : State) : State := { s with me := { s.me with pages := kmod s.me.pages id f } }

/-- A page. -/
def pageOf (s : State) (id : Nat) : Option Page := kget s.me.pages id

/-- Whether a page is in a frame and can be used. -/
def Page.resident (p : Page) : Bool :=
  match p.st with
  | .clean | .dirty | .writing _ => true
  | .flash | .reading | .lost => false

/-- Whether a page holds a frame. -/
def Page.framed (p : Page) : Bool :=
  match p.st with
  | .clean | .dirty | .writing _ | .reading => true
  | .flash | .lost => false

/-- Whether the frame of a page holds its content: it is resident, or moves from DDR. -/
def Page.live (p : Page) : Bool := p.resident || p.move

/-- What a page holds: in its frame, else in its home copy. -/
def Page.ents (p : Page) : KMap (Nat × Nat) := if p.live then p.ent else p.hent
@[inherit_doc Page.ents] def Page.kids (p : Page) : KMap Nat := if p.live then p.kid else p.hkid

/-- Entry `i` of a page. -/
def Page.entry (p : Page) (i : Nat) : Nat × Nat := kgetD p.ent i (0, 0)

/-! ### Frames (R25, R138, R156) -/

/-- The frames of HBM (R25, R156), and of the DDR overflow area. -/
def hbmFrames : Nat := 0x280_0000
@[inherit_doc hbmFrames] def ddrFrames (s : State) : Nat := getF s F.ME_DDRPG_GIB * 0x4_0000

/-- The frames of a tier that hold a page. -/
def usedFrames (s : State) (ddr : Bool) : List Nat :=
  (s.me.pages.filter fun kv => kv.2.framed && decide (kv.2.ddr = ddr)).map fun kv => kv.2.frame

/-- How many HBM frames are FREE. -/
def freeFrames (s : State) : Nat := hbmFrames - (usedFrames s false).length

/-- The lowest frame number of a tier that is free. (log 46, DESIGN CHOICE, unsafe) -/
def nextFrame (s : State) (ddr : Bool) : Nat :=
  let used := usedFrames s ddr
  ((List.range (used.length + 1)).find? fun n => !used.contains n).getD 0

/-- The address of the frame of a page (R25, R156). (log 46, DESIGN CHOICE, unsafe) -/
def Page.addr (s : State) (p : Page) : Nat :=
  (if p.ddr then getF s F.ME_DDRPG_BASE * 4096 else 0x10_0000_0000) + 4096 * p.frame

/-! ### Lines of the metadata cache (R144, R145) -/

/-- The set of a line, as die × 16,384 + set (R144). -/
def mcSet (line : Nat) : Nat :=
  let a := line * 256
  bitsN a 12 12 * 16384 + bitsN a 22 13 * 16 + bitsN a 11 8

/-- The lines of a range are cleaned and leave the cache and its side buffer, and their pending fills are doomed (R139, R148, R149). -/
def dropLines (p : Nat → Bool) (s : State) : State :=
  { s with mc := { s.mc with
    lines := s.mc.lines.filter fun kv => !p kv.1
    side := s.mc.side.filter fun k => !p k
    fills := kmapV s.mc.fills fun k f => if p k then { f with doomed := true } else f } }

/-- The ways of a set that hold a line. -/
def waysUsed (s : State) (line : Nat) : List Nat :=
  (s.mc.lines.filter fun kv => mcSet kv.1 = mcSet line).map fun kv => kv.2.way

/-- A free way of a line's set among those a mask locks, or among the others. (log 48, DESIGN CHOICE, safe) -/
def freeWay (s : State) (line : Nat) (locked : Bool) : Option Nat :=
  let mask := getF s F.MC_CTL_WAYLOCK
  (List.range 16).find? fun w => decide (mask.testBit w = locked) && !(waysUsed s line).contains w

/-- The line that a fill replaces in a full set: one of its unlocked ways, which the spec does not say; the choice is free. (log 18, DESIGN CHOICE, safe; 48, DESIGN CHOICE, safe) -/
def victimWay (s : State) : Option Nat :=
  let ways := (List.range 16).filter fun w => !(getF s F.MC_CTL_WAYLOCK).testBit w
  ways[(Config.freeWord s.free).toNat % ways.length]?

/-- A line is installed in an unlocked way, in place of the victim where none is free. A line that a LOCKFILL has placed meanwhile stays
where it is (R145). -/
def installLine (line : Nat) (dirty : Bool) (s : State) : State :=
  match kget s.mc.lines line with
  | some l => { s with mc := { s.mc with lines := kput s.mc.lines line { l with dirty := l.dirty || dirty } } }
  | none =>
    match freeWay s line false with
    | some w => { s with mc := { s.mc with lines := kput s.mc.lines line ⟨w, dirty, false⟩ } }
    | none =>
      match victimWay s with
      | some w =>
        let s := nextFree { s with mc := { s.mc with lines := s.mc.lines.filter fun kv => !(decide (mcSet kv.1 = mcSet line) && decide (kv.2.way = w)) } }
        { s with mc := { s.mc with lines := kput s.mc.lines line ⟨w, dirty, false⟩ } }
      | none => s

/-- A pipe reads or writes a line. A hit may make it dirty; a miss that hits in the side buffer moves the line into the cache; a miss on
a line whose fill is pending waits for that fill, doomed as it may be; any other starts a fill. A write removes any copy from the side
buffer. Nothing is cached while the cache is off (R143, R147, R149). -/
def touchLine (line : Nat) (write : Bool) (s : State) : State :=
  if !isF s F.MC_CTL_EN then s
  else
    match kget s.mc.lines line with
    | some l =>
      pmc 0x1801 (mcSet line / 16384) 1
        { s with mc := { s.mc with lines := kput s.mc.lines line { l with dirty := l.dirty || write },
                                   side := if write then s.mc.side.erase line else s.mc.side } }
    | none =>
      let s := pmc 0x1802 (mcSet line / 16384) 1 s
      if s.mc.side.contains line then installLine line write { s with mc := { s.mc with side := s.mc.side.erase line } }
      else
        let f := match kget s.mc.fills line with
          | some f => { f with side := false, dirty := f.dirty || write }
          | none => ⟨false, false, write⟩
        { s with mc := { s.mc with fills := kput s.mc.fills line f } }

/-- The load of the first four lines of a page into the side buffer (R143). -/
def loadSide (p : Page) (s : State) : State :=
  if !isF s F.MC_CTL_EN then s
  else
    (List.range 4).foldl (fun t k =>
      let line := p.addr t / 256 + k
      if (kget t.mc.lines line).isSome || t.mc.side.contains line || (kget t.mc.fills line).isSome then t
      else { t with mc := { t.mc with fills := kput t.mc.fills line ⟨true, false, false⟩ } }) s

/-! ### Eviction (R139) -/

/-- Whether a page is the parent of a page in a frame. -/
def parentOfResident (s : State) (p : Page) : Bool := p.kid.any fun e => match pageOf s e.2 with | some c => c.framed | none => false

/-- Whether the clock may take the frame of a page: CLEAN in both sequence spaces (R424) with a home copy, no job holds it or waits for it, and
it is the parent of no page in a frame. -/
def evictable (s : State) (ddr : Bool) (p : Page) : Bool :=
  decide (p.st = .clean) && decide (p.home ≠ 0) && decide (p.ddr = ddr) && decide (p.waiters = []) && !(p.held.any fun j => (kget s.jobs j).isSome) &&
    !parentOfResident s p

/-- How far a frame is from a hand of the clock. -/
def handDist (hand frame : Nat) : Nat := if hand ≤ frame then frame - hand else frame + 2 ^ 32 - hand

/-- The frame that the clock of a tier takes next: the first at or after its hand that it may. (log 163, DESIGN CHOICE, unsafe) -/
def clockVictim (s : State) (ddr : Bool) : Option (Nat × Page) :=
  let hand := if ddr then s.me.ddrHand else s.me.hand
  s.me.pages.foldl (fun b kv =>
    if !evictable s ddr kv.2 then b
    else match b with
      | some x => if handDist hand kv.2.frame < handDist hand x.2.frame then some kv else b
      | none => some kv) none

/-- A page leaves its frame: from HBM to a free DDR frame where the overflow area has one, else it is dropped. Its lines leave the
metadata cache first. -/
def leaveFrame (id : Nat) (p : Page) (s : State) : State :=
  let lo := p.addr s / 256
  let s := dropLines (fun k => decide (lo ≤ k) && decide (k < lo + 16)) s
  if !p.ddr && decide ((usedFrames s true).length < ddrFrames s) then
    let f := nextFrame s true
    modPage id (fun p => { p with ddr := true, frame := f }) s
  else modPage id (fun p => { p with st := .flash, ent := [], kid := [] }) s

/-- The clock of a tier evicts one frame, and its hand passes it. -/
def evictFrame (ddr : Bool) (s : State) : State :=
  match clockVictim s ddr with
  | some (id, p) =>
    let s := { s with me := if ddr then { s.me with ddrHand := p.frame + 1 } else { s.me with hand := p.frame + 1 } }
    leaveFrame id p s
  | none => s

/-- FRAME_EVICT (R139): the clock of HBM or of the DDR overflow area. -/
def execFrameEvict (ddr : Bool) (s : State) : Res := ok (evictFrame ddr s)

/-- An HBM frame for work that takes frames down to zero: where none is free the clock evicts one first (R142). (log 163, DESIGN CHOICE, unsafe) -/
def makeRoom (s : State) : State := if freeFrames s = 0 then evictFrame false s else s

/-! ### Pages in use -/

/-- Creates a page in a frame, CLEAN until its first delta (R138). -/
def newPage (ty level owner index epoch : Nat) (s : State) : Nat × State :=
  let s := makeRoom s
  let id := s.me.nextPage
  let p : Page := { ty := ty, level := level, owner := owner, index := index, epoch := epoch, st := .clean, frame := nextFrame s false }
  (id, { s with me := { s.me with pages := kput s.me.pages id p, nextPage := id + 1 } })

/-- A pending CKSEQ after one more delta: the number of the delta where the page is in flight, else it rises to it (R135, R140). -/
def raiseCk (flying : Bool) (c : Option Nat) (n : Nat) : Option Nat :=
  match c with
  | some a => if flying then some n else some (max a n)
  | none => some n

/-- A page has changed: DIRTY, or DIRTY again once its copy is home; its pending CKSEQ of the delta's ring rises (R135, R138, R140,
R424). -/
def markDirty (id : Nat) (seq : Option RingSeq) : State → State :=
  modPage id fun p =>
    let flying := match p.st with | .writing _ => true | _ => false
    let p := match seq with
      | some q =>
        if q.mirror then { p with pck := raiseCk flying p.pck q.seq, last := q.seq, pseen := some (max (p.pseen.getD 0) q.seq) }
        else { p with ck := raiseCk flying p.ck q.seq, last := q.seq, seen := some (max (p.seen.getD 0) q.seq) }
      | none => p
    match p.st with
    | .writing _ => { p with st := .writing true }
    | .clean | .dirty => { p with st := .dirty }
    | .flash | .reading | .lost => p

/-- Whether a page reflects a record of a ring: its change of the page has been made (R256, R301). (log 177, DEDUCED, unsafe) -/
def Page.reflects (p : Page) (q : RingSeq) : Bool :=
  match (if q.mirror then p.pseen else p.seen) with
  | some n => decide (q.seq ≤ n)
  | none => false

/-- The pages that reflect a record before it is applied: replay changes them no more (R256, R301). (log 177, DEDUCED, unsafe) -/
def reflecting (s : State) (q : RingSeq) : List Nat := (s.me.pages.filter fun kv => kv.2.reflects q).map Prod.fst

/-- Whether a page differs from its home copy. -/
def Page.changed (p : Page) : Bool :=
  match p.st with
  | .dirty | .writing _ => true
  | .clean | .flash | .reading | .lost => false

/-- The lowest pending CKSEQ of a dirty page for a ring, all ones where there is none; ME_CKPT_SEQ is that of the own ring (R137,
R424). (log 72, DEDUCED, unsafe) -/
def ckptSeq (s : State) (mirror : Bool) : Nat :=
  s.me.pages.foldl (fun m kv =>
    match (if mirror then kv.2.pck else kv.2.ck) with
    | some c => if kv.2.changed then min m c else m
    | none => m) 0xFFFF_FFFF_FFFF_FFFF

/-- A page that a change reaches is in an HBM frame before the change: it is paged in, or moved from DDR, on the way (R135 step 1, R139). (log 46, DESIGN CHOICE, unsafe; 47, DESIGN CHOICE, unsafe) -/
def bringIn (id : Nat) (s : State) : State :=
  match pageOf s id with
  | some p =>
    match p.st with
    | .flash | .reading =>
      let s := if p.framed then s else makeRoom s
      let f := if p.framed then p.frame else nextFrame s false
      bump .ME_FAULT_CNT (modPage id (fun p => { p with
        st := .clean, ent := p.ents, kid := p.kids, frame := f, ddr := false, waiters := [], held := p.waiters, move := false }) s)
    | .clean =>
      if !p.ddr then s
      else
        let s := makeRoom s
        let f := nextFrame s false
        modPage id (fun p => { p with frame := f, ddr := false }) s
    | .dirty | .writing _ | .lost => s
  | none => s

/-! ### Residency (R139 to R142) -/

/-- The first page of a list that a job cannot use yet: not resident, or resident in DDR, from where a lookup moves it back (R139). -/
def firstAbsent (s : State) (l : List Nat) : Option Nat :=
  l.find? fun id => match pageOf s id with | some p => !p.resident || p.ddr | none => false

/-- The frames reserved by ME_RSV (R142, R156): less than 256 MiB acts as 256. -/
def frameReserve (s : State) : Nat := max 256 (getF s F.ME_RSV_MIB) * 256

/-- Whether a fault gets a frame: an ordinary one waits while the free frames are at or below the reserve, one of a reserve job takes them
down to zero (R142). -/
def frameFor (reserve : Bool) (s : State) : Bool := if reserve then decide (0 < freeFrames s) else decide (frameReserve s < freeFrames s)

/-- A job needs a page that is not in HBM: its read, or its move from DDR, starts, or the job joins the waiters (R141, R142). -/
def faultPage (reserve : Bool) (id : Nat) (job : Option Nat) (s : State) : State :=
  match pageOf s id with
  | some p =>
    match p.st with
    | .flash =>
      if !frameFor reserve s then s
      else
        let s := match job with
          | some j => { s with me := { s.me with jobPages := kput s.me.jobPages j (kgetD s.me.jobPages j 0 + 1) } }
          | none => s
        let f := nextFrame s false
        pmc 0x0D02 0 1 (bump .ME_FAULT_CNT
          (modPage id (fun p => { p with st := .reading, frame := f, ddr := false, waiters := job.toList }) s))
    | .clean =>
      if !p.ddr || !frameFor reserve s then s
      else
        let lo := p.addr s / 256
        let f := nextFrame s false
        modPage id (fun p => { p with st := .reading, move := true, frame := f, ddr := false, waiters := job.toList })
          (dropLines (fun k => decide (lo ≤ k) && decide (k < lo + 16)) s)
    | .reading =>
      if job.toList.all fun j => p.waiters.contains j then s else modPage id (fun p => { p with waiters := p.waiters ++ job.toList }) s
    | .dirty | .writing _ | .lost => s
  | none => s

/-- Runs a job once its pages are resident; a lost page ends it with LOST (R130), an absent one suspends it (R141). -/
def withPages (id : Nat) (pages : List Nat) (f : State → State) (s : State) : State :=
  match firstAbsent s pages with
  | none => f s
  | some p =>
    match (pageOf s p).map Page.st with
    | some .lost => finish id (JobResult.of rLost) s
    | _ => faultPage false p (some id) s

end Sys2Proof.Machine
end

