-- ==== Sys2Proof/Machine/Map.lean ====
section
/-! DEFINITION. The map engine: the volume table, the radix map, slot references, deltas and the MAP jobs (R122 to R136, R151 to R155,
R291, R292, R570). -/

namespace Sys2Proof.Machine

/-! ### The volume table (R122) -/

/-- The entry of a volume. -/
def volAddr (v : Nat) : Nat := volTableBase + 64 * v

/-- Fields of a volume table entry. -/
def volRoot (s : State) (v : Nat) : Nat := rdBits s (volAddr v) 8 47 0
@[inherit_doc volRoot] def volSize (s : State) (v : Nat) : Nat := rdN s (volAddr v + 8) 8
@[inherit_doc volRoot] def volKeyslot (s : State) (v : Nat) : Nat := rdN s (volAddr v + 16) 2
@[inherit_doc volRoot] def volClass (s : State) (v : Nat) : Nat := rdBits s (volAddr v + 18) 1 5 0
@[inherit_doc volRoot] def volFlags (s : State) (v : Nat) : Nat := rdN s (volAddr v + 19) 1
@[inherit_doc volRoot] def volGroup (s : State) (v : Nat) : Nat := rdBits s (volAddr v + 20) 2 9 0
@[inherit_doc volRoot] def volPool (s : State) (v : Nat) : Nat := rdBits s (volAddr v + 22) 1 2 0
@[inherit_doc volRoot] def volSkip (s : State) (v : Nat) : Nat := rdN s (volAddr v + 24) 8
@[inherit_doc volRoot] def volEpoch (s : State) (v : Nat) : Nat := rdN s (volAddr v + 32) 4
@[inherit_doc volRoot] def volKeyEpoch (s : State) (v : Nat) : Nat := rdN s (volAddr v + 36) 4
@[inherit_doc volRoot] def volMapped (s : State) (v : Nat) : Nat := rdN s (volAddr v + 40) 8

/-- The bits of FLAGS: VALID, SEALED, NODEDUP, NOCOMP, PI and RO. -/
def volFlag (s : State) (v b : Nat) : Bool := (volFlags s v).testBit b
@[inherit_doc volFlag] def volValid (s : State) (v : Nat) : Bool := volFlag s v 0
@[inherit_doc volFlag] def volSealed (s : State) (v : Nat) : Bool := volFlag s v 1
@[inherit_doc volFlag] def volRo (s : State) (v : Nat) : Bool := volFlag s v 5

/-- The bits of a byte of a volume table entry that are not reserved: the others read as zero. -/
def volBits (i : Nat) : Byte :=
  if i = 18 ∨ i = 19 then 0x3F else if i = 21 then 3 else if i = 22 then 7 else if i = 6 ∨ i = 7 ∨ i = 23 ∨ 48 ≤ i then 0 else 0xFF

/-- Whether this head is OWNER of a group or taking it over (R419). -/
def owns (s : State) (g : Nat) : Bool :=
  (decide (getF s F.SYS_GRP_POS g = 0) && decide (getF s F.SYS_GRP_OWNER g = getF s F.SYS_HEAD_ID)) ||
    decide (getF s F.SYS_GRP_POS g = 2)

/-- Whether this head owns the group of a volume. -/
def ownsVol (s : State) (v : Nat) : Bool := owns s (volGroup s v)

/-! ### Slot words and slot references (R126, R131, R132) -/

/-- The parts of a slot word. -/
def swSlot (w : Nat) : Nat := bitsN w 47 0
@[inherit_doc swSlot] def swClass (w : Nat) : Nat := bitsN w 49 48
@[inherit_doc swSlot] def swValid (w : Nat) : Bool := w.testBit 50
@[inherit_doc swSlot] def swSealed (w : Nat) : Bool := w.testBit 51
@[inherit_doc swSlot] def swPool (w : Nat) : Nat := bitsN w 47 45

/-- The lost slot word (R274). -/
def lostSlotWord : Nat := 0x0007_1E00_0000_0000

/-- The slot word of a metadata page: VALID, class S4 (R128). -/
def pageWord (home : Nat) : Nat := home + 7 * 2 ^ 48

/-- The slot reference entry of a slot. -/
def srt (s : State) (slot : Nat) : Nat := kgetD s.me.srt slot 0

/-- The parts of a slot reference entry. -/
def srtCount (e : Nat) : Nat := bitsN e 23 0
@[inherit_doc srtCount] def srtFptag (e : Nat) : Nat := bitsN e 39 24
@[inherit_doc srtCount] def srtClass (e : Nat) : Nat := bitsN e 41 40
@[inherit_doc srtCount] def srtUnj (e : Nat) : Bool := e.testBit 42
@[inherit_doc srtCount] def srtLost (e : Nat) : Bool := e.testBit 43
@[inherit_doc srtCount] def srtIndexed (e : Nat) : Bool := e.testBit 44
@[inherit_doc srtCount] def srtMeta (e : Nat) : Bool := e.testBit 45

/-- A number with bits `hi .. lo` replaced. -/
def putBitsN (n hi lo v : Nat) : Nat := n - bitsN n hi lo * 2 ^ lo + v % 2 ^ (hi + 1 - lo) * 2 ^ lo

/-- An entry with another COUNT. -/
def withCount (e c : Nat) : Nat := putBitsN e 23 0 c

/-- The key of an agent among the fingerprint latches (R177). -/
def agentKey : Agent → Nat
  | .ctx n => n
  | .stew k => 2 ^ 22 + k

/-- The fingerprint latch of an agent. -/
def latchOf (s : State) (a : Agent) : Option Latch := kget s.gl.latch (agentKey a)

/-! ### Slot identifiers and the segment table (R235, R239) -/

/-- The parts of a slot identifier. -/
def slotPool (n : Nat) : Nat := bitsN n 47 45
@[inherit_doc slotPool] def slotSeg (n : Nat) : Nat := bitsN n 40 15
@[inherit_doc slotPool] def slotOff (n : Nat) : Nat := bitsN n 14 0

/-- The entry of a segment, and its fields. -/
def segAddr (s : State) (p seg : Nat) : Nat := getF s F.PLC_SST_BASE p * 4096 + 8 * seg
@[inherit_doc segAddr] def segEntry (s : State) (p seg : Nat) : Nat := rdN s (segAddr s p seg) 8
@[inherit_doc segAddr] def segFrame (s : State) (p seg : Nat) : Nat := bitsN (segEntry s p seg) 25 0
@[inherit_doc segAddr] def segState (s : State) (p seg : Nat) : Nat := bitsN (segEntry s p seg) 29 26
@[inherit_doc segAddr] def segMeta (s : State) (p seg : Nat) : Bool := (segEntry s p seg).testBit 30
@[inherit_doc segAddr] def segLivek (s : State) (p seg : Nat) : Nat := bitsN (segEntry s p seg) 46 32

/-- LIVEK counts a slot more or less (R239). -/
def addLivek (slot : Nat) (c : Nat) (s : State) : State :=
  if !isF s F.PLC_GEOM_EN (slotPool slot) then s
  else wrBits (segAddr s (slotPool slot) (slotSeg slot)) 8 46 32 (segLivek s (slotPool slot) (slotSeg slot) + c + 1) s
@[inherit_doc addLivek] def subLivek (slot : Nat) (c : Nat) (s : State) : State :=
  if !isF s F.PLC_GEOM_EN (slotPool slot) then s
  else wrBits (segAddr s (slotPool slot) (slotSeg slot)) 8 46 32 (segLivek s (slotPool slot) (slotSeg slot) - (c + 1)) s

/-! ### Slot-reference pages (R131, R132) -/

/-- The slot-reference page of a slot, where the pool has one (R131, R241). -/
def srtPageId (s : State) (slot : Nat) : Option Nat := kget s.me.srtPage (slot / 512)

/-- The slot-reference page of a slot in its frame: paged in, or created where the home directory has none (R241). -/
def srtPageFor (slot : Nat) (s : State) : Nat × State :=
  match srtPageId s slot with
  | some id => (id, bringIn id s)
  | none =>
    let (id, s) := newPage 4 0 (slotPool slot) (bitsN slot 40 9) 0 s
    (id, { s with me := { s.me with srtPage := kput s.me.srtPage (slot / 512) id } })

/-- Replaces a slot reference entry in its page, which is dirty then; a delta's number makes the page's pending CKSEQ rise (R131, R137). (log 164, DEDUCED, safe) -/
def setSrtBy (seq : Option RingSeq) (slot v : Nat) (s : State) : State :=
  let (id, s) := srtPageFor slot s
  let s := match pageOf s id with
    | some p => touchLine ((p.addr s + 8 * (slot % 512)) / 256) true s
    | none => s
  markDirty id seq { s with me := { s.me with srt := kputD 0 s.me.srt slot v } }

/-- Replaces a slot reference entry by a change that no delta makes. -/
def setSrt (slot v : Nat) (s : State) : State := setSrtBy none slot v s

/-- One more reference to a slot; a saturated COUNT stays (R132). (log 50, DEDUCED, unsafe) -/
def srtAdd (slot : Nat) (s : State) : State :=
  let e := srt s slot
  if srtCount e = 0xFF_FFFF then s else setSrt slot (withCount e (srtCount e + 1)) s

/-- A slot joins the removal queue of the fingerprint index, or keeps INDEXED until a SWEEP where the queue is full (R179). (log 53, DESIGN CHOICE, safe; 190, DESIGN CHOICE, unsafe) -/
def queueRemoval (slot : Nat) (s : State) : State :=
  if Config.removalSize ≤ s.gl.rem.length then bump .GL_RMQFULL_CNT s
  else { s with gl := { s.gl with rem := s.gl.rem ++ [slot] } }

/-- One reference less; a saturated COUNT stays. At zero the slot of an indexed block joins the removal queue of the fingerprint index,
which clears INDEXED (R132, R179). (log 50, DEDUCED, unsafe) -/
def srtSubBy (seq : Option RingSeq) (slot : Nat) (s : State) : State :=
  let e := srt s slot
  if srtCount e = 0xFF_FFFF ∨ srtCount e = 0 then s
  else
    let s := setSrtBy seq slot (withCount e (srtCount e - 1)) s
    let s := if srtCount e = 1 && !srtUnj e then subLivek slot (srtClass e) s else s
    if srtCount e = 1 && srtIndexed e then queueRemoval slot s
    else s

@[inherit_doc srtSubBy] def srtSub (slot : Nat) (s : State) : State := srtSubBy none slot s

/-- Whether the slot-reference page of a slot is one of some pages. -/
def srtIn (s : State) (slot : Nat) (l : List Nat) : Bool := (srtPageId s slot).any fun id => l.contains id

/-- UNJ is cleared on a slot that a delta names (R135 step 5); a slot that no page names any more lives no longer (R239). -/
def clearUnj (seq : RingSeq) (slot : Nat) (s : State) : State :=
  let e := srt s slot
  if !srtUnj e then s
  else
    let s := setSrtBy (some seq) slot (putBitsN e 42 42 0) s
    if srtCount e = 0 then subLivek slot (srtClass e) s else s

/-- One step through the forwarding table (R261, R275): the word that stands for a slot word whose segment is MOVING or FORWARDED and that has
an entry. -/
def resolveStep (s : State) (w : Nat) : Option Nat :=
  match kget s.plc.fwd (swSlot w) with
  | some (n, _) =>
    let st := segState s (slotPool (swSlot w)) (slotSeg (swSlot w))
    if !swValid w || decide (w = lostSlotWord) || decide (st ≠ 4 ∧ st ≠ 5) then none
    else some (if n = lostSlotWord then n else n ||| bitsN w 51 51 * 2 ^ 51)
  | none => none

/-- A slot word followed through at most `n` entries of the forwarding table. -/
def resolveIn : Nat → State → Nat → Nat
  | 0, _, w => w
  | n + 1, s, w => match resolveStep s w with | some w' => resolveIn n s w' | none => w

/-- A slot word resolved through the forwarding table; a slot that has moved twice has two entries (R261, R275). -/
def resolve (s : State) (w : Nat) : Nat := resolveIn s.plc.fwd.length s w

/-- What naming a slot word counts (R292), after it is resolved: the lost slot word and words that map nothing count nothing. -/
def wordAdd (w : Nat) (s : State) : State :=
  let w := resolve s w
  if swValid w && decide (w ≠ lostSlotWord) then srtAdd (swSlot w) s else s
@[inherit_doc wordAdd] def wordSubBy (seq : Option RingSeq) (w : Nat) (s : State) : State :=
  let w := resolve s w
  if swValid w && decide (w ≠ lostSlotWord) then srtSubBy seq (swSlot w) s else s
/-- As `wordSubBy`, but not in a slot-reference page that already reflects the record (R301). -/
def wordSubNew (seq : RingSeq) (done : List Nat) (w : Nat) (s : State) : State :=
  if srtIn s (swSlot (resolve s w)) done then s else wordSubBy (some seq) w s

@[inherit_doc wordAdd] def wordSub (w : Nat) (s : State) : State := wordSubBy none w s

/-! ### The radix tree (R125 to R128) -/

/-- The entry that an LBA selects at a level. -/
def levelIndex (lba level : Nat) : Nat := lba / 256 ^ level % 256

/-- The pages on the path to a block, from a page at `level` down to where the tree ends. -/
def walk (s : State) (lba : Nat) : Nat → Nat → List Nat
  | 0, id => [id]
  | level + 1, id =>
    id :: match pageOf s id with
      | some p => match kget p.kid (levelIndex lba (level + 1)) with | some c => walk s lba level c | none => []
      | none => []

/-- The path to a block of a volume, root first; four pages where the leaf exists. -/
def volPath (s : State) (v lba : Nat) : List Nat :=
  match kget s.me.root v with
  | some r => walk s lba 3 r
  | none => []

/-- The leaf page of a block of a volume. -/
def leafOf (s : State) (v lba : Nat) : Option Nat := (volPath s v lba)[3]?

/-- The entries of a page that replaces a lost one, all the lost slot word (R274). -/
def lostEntries : KMap (Nat × Nat) := (List.range 256).map fun i => (i, (lostSlotWord, 0))

/-- Whether the path to a block ends at an interior entry that holds the lost slot word. -/
def lostAbove (s : State) (path : List Nat) (lba : Nat) : Bool :=
  match path.getLast?.bind (pageOf s) with
  | some p => decide (p.level ≠ 0) && decide ((p.entry (levelIndex lba p.level)).1 = lostSlotWord)
  | none => false

/-- The leaf entry of a block: zeros where nothing has been mapped, the lost slot word under a lost page (R127, R274). -/
def leafEntry (s : State) (v lba : Nat) : Nat × Nat :=
  match leafOf s v lba with
  | some id => match pageOf s id with | some p => p.entry (lba % 256) | none => (0, 0)
  | none => if lostAbove s (volPath s v lba) lba then (lostSlotWord, 0) else (0, 0)

/-- Points an entry of a page at a child. -/
def setKid (parent i child : Nat) (s : State) : State :=
  match pageOf s child with
  | some c => modPage parent (fun p => { p with ent := kput p.ent i (pageWord c.home, c.epoch), kid := kput p.kid i child }) s
  | none => s

/-- Whether an entry of a page names a child that has no home yet: it counts when the child comes home. -/
def unhomed (s : State) (p : Page) (i : Nat) : Bool :=
  match (kget p.kid i).bind (pageOf s) with
  | some c => decide (c.home = 0)
  | none => false

/-- Copies a shared page for a volume (R291, R292): the copy has the volume's EPOCH, every slot word in it counts once more, and the
original's home once less. -/
def copyPage (id v epoch : Nat) (s : State) : Nat × State :=
  match pageOf s id with
  | some p =>
    let (n, s) := newPage p.ty p.level v p.index epoch s
    let s := modPage n (fun q => { q with ent := p.ent, kid := p.kid }) s
    let s := p.ent.foldl (fun t e => if unhomed s p e.1 then t else wordAdd e.2.1 t) s
    let s := if p.home = 0 then s else srtSub p.home s
    (n, bump .ME_COW_CNT (markDirty n none s))
  | none => (id, s)

/-- The page that an UPDATE of a volume may change in place of `id` (R291). -/
def ownPage (id v : Nat) (s0 : State) : Nat × State :=
  let s := bringIn id s0
  match pageOf s id with
  | some p =>
    if volEpoch s v ≤ p.epoch then (id, s)
    else if p.pin.isSome || (decide (p.home ≠ 0) && decide (1 < srtCount (srt s p.home))) then copyPage id v (volEpoch s v) s
    else (id, markDirty id none (modPage id (fun p => { p with epoch := volEpoch s v }) s))
  | none => (id, s)

/-- The page of a volume at the end of the path to a block, its own to change, with every missing page created and every shared one
copied on the way (R128, R291); below the lost slot word a created page holds it in every entry (R274). An interior page becomes dirty
only where its entry changes (R135). -/
def descend (v lba : Nat) (seq : Option RingSeq) : Nat → Nat → State → Nat × State
  | 0, id, s => (id, s)
  | level + 1, id, s =>
    let i := levelIndex lba (level + 1)
    let (c, s) := match (pageOf s id).bind fun p => kget p.kid i with
      | some c => ownPage c v s
      | none =>
        let lost := match pageOf s id with | some p => decide ((p.entry i).1 = lostSlotWord) | none => false
        let (n, t) := newPage (if level = 0 then 1 else 2) level v (lba / 256 ^ (level + 1)) (volEpoch s v) s
        (n, if lost then modPage n (fun p => { p with ent := lostEntries }) t else t)
    let s := bringIn id s
    let t := setKid id i c s
    let same := (pageOf s id).map (fun p => (p.entry i, kget p.kid i)) = (pageOf t id).map (fun p => (p.entry i, kget p.kid i))
    descend v lba seq level c (if same then t else markDirty id seq t)

/-- The leaf page of a block of a volume, ready to be changed. -/
def leafForUpdate (v lba : Nat) (seq : Option RingSeq) (s : State) : Nat × State :=
  let (r, s) := match kget s.me.root v with
    | some r => ownPage r v s
    | none => newPage 2 3 v 0 (volEpoch s v) s
  descend v lba seq 3 r { s with me := { s.me with root := kput s.me.root v r } }

/-- A map delta entry (R134): LBA, GEN and new slot word. -/
structure Delta where
  lba : Nat
  gen : Nat
  word : Nat
  deriving DecidableEq, Repr

/-- The delta entries in a list of bytes. -/
def deltasOf (l : List Byte) (n : Nat) : List Delta :=
  (List.range n).map fun i => ⟨fieldN l (16 * i) 4, fieldN l (16 * i + 4) 4, fieldN l (16 * i + 8) 8⟩

/-- A delta names a slot of the pending fingerprint table: the entry goes, and where the volume is the latched one and its admission bit
is 1 an insertion is queued (R178). -/
def fpOnDelta (v w : Nat) (s : State) : State :=
  match kget s.gl.pend (swSlot w) with
  | some l =>
    let s := { s with gl := { s.gl with pend := kdel s.gl.pend (swSlot w) } }
    if l.vol = v && (kgetD s.gl.admission v {}).bit then { s with gl := { s.gl with ins := s.gl.ins ++ [⟨w, l.fp, v⟩] } } else s
  | none => s

/-- Sends a change of a slot reference entry that no delta made to the partner (R425). -/
def sendSrt (slot : Nat) (s : State) : State :=
  if linkUp s && !soloMode s then toPartner (.slotRef slot (srt s slot)) s else s

/-- The entries of pages on a path are read or written in the cache. -/
def touchPath (path : List Nat) (lba : Nat) (write : Bool) (s : State) : State :=
  (path.foldl (fun (acc : Nat × State) id =>
    match pageOf acc.2 id with
    | some p => (acc.1 - 1, touchLine ((p.addr acc.2 + 16 * levelIndex lba acc.1) / 256) (write && decide (acc.1 = 0)) acc.2)
    | none => (acc.1 - 1, acc.2)) (3, s)).2

/-- Applies one delta entry with a record's sequence number (R135); `done` are the pages that reflected the record before, which replay does not
change again (R256, R301). -/
def applyDelta (v : Nat) (seq : RingSeq) (done : List Nat) (d : Delta) (s : State) : State :=
  let d := { d with word := resolve s d.word }
  let (id, s) := leafForUpdate v d.lba (some seq) s
  let s := markDirty id (some seq) s
  let unjoin (s : State) : State :=
    if swValid d.word && decide (d.word ≠ lostSlotWord) && !srtIn s (swSlot d.word) done then clearUnj seq (swSlot d.word) s else s
  if done.contains id then unjoin s
  else
  match pageOf s id with
  | none => s
  | some p =>
    let i := d.lba % 256
    let (w0, w1) := p.entry i
    let s := wordSubNew seq done w0 s
    let gen := w1 % 2 ^ 32
    let rsv := w1 / 2 ^ 32
    let w1' :=
      if d.word = 0 then w1
      else if d.gen ≠ 0 then d.gen + max rsv d.gen * 2 ^ 32
      else (rsv + 1) % 2 ^ 32 + (rsv + 1) % 2 ^ 32 * 2 ^ 32
    let s := modPage id (fun p => { p with ent := kputD (0, 0) p.ent i (d.word, if d.word = 0 then gen + rsv * 2 ^ 32 else w1') }) s
    let s := unjoin s
    let s := fpOnDelta v d.word s
    let m := volMapped s v + b2n (swValid d.word) - b2n (swValid w0)
    touchPath (volPath s v d.lba) d.lba true (pmc 0x0D03 0 1 (wrN (volAddr v + 40) 8 m s))

/-- Applies the delta entries of a record in order. -/
def applyDeltas (v : Nat) (seq : RingSeq) (l : List Delta) (s : State) : State :=
  let done := reflecting s seq
  l.foldl (fun t d => applyDelta v seq done d t) s

/-- Whether an UPDATE of a volume with some entries passes the checks of R153 other than ownership: VALID, no RO, every LBA below SIZE. -/
def updateOk (s : State) (v : Nat) (l : List Delta) : Bool :=
  volValid s v && !volRo s v && l.all fun d => decide (d.lba < volSize s v)

/-- Whether this head's own UPDATE of a volume may make a change (R153): it owns the group, takes it over, or gives it away, where the
records that its flows could still append are its own to apply (R424, R437). (log 165, DEDUCED, unsafe) -/
def mayUpdate (s : State) (v : Nat) : Bool := ownsVol s v || decide (getF s F.SYS_GRP_POS (volGroup s v) = 3)

/-! ### MAP jobs (R151 to R154) -/

/-- The volume that a MAP job names (R151). -/
def mapVol (s : State) (j : Job) : Nat :=
  match j.owner with
  | .ctx n => if (j.hflags / 256).testBit 0 then bitsN (j.n 24 4) 17 0 else match kget s.ctxs n with | some c => c.vol | none => 0
  | .stew _ => bitsN (j.n 24 4) 17 0

/-- NBLK, where 0 acts as 1. -/
def mapNblk (j : Job) : Nat := max 1 (j.n 28 4)

/-- The blocks of a MAP job. -/
def mapLbas (j : Job) : List Nat := (List.range (mapNblk j)).map (· + j.n 8 4)

/-- The pages a MAP job needs on the paths of its blocks. -/
def mapPages (s : State) (v : Nat) (lbas : List Nat) : List Nat := (lbas.flatMap fun l => volPath s v l).eraseDups

/-- The slot-reference pages of some slots, where they have one. -/
def srtPages (s : State) (slots : List Nat) : List Nat := (slots.filterMap (srtPageId s)).eraseDups

/-- The slots that a delta changes the reference entries of: its own and the one that it replaces. -/
def deltaSlots (s : State) (v : Nat) (d : Delta) : List Nat :=
  ([d.word, (leafEntry s v d.lba).1].map (resolve s)).filterMap fun w => if swValid w && decide (w ≠ lostSlotWord) then some (swSlot w) else none

/-- The pages that applying delta entries needs: of the map and of the slot reference table (R131, R135). -/
def deltaPages (s : State) (v : Nat) (l : List Delta) : List Nat :=
  mapPages s v (l.map Delta.lba) ++ srtPages s (l.flatMap (deltaSlots s v))

/-- Whether a job comes from a steward. -/
def Job.fromStew (j : Job) : Bool := match j.owner with | .stew _ => true | .ctx _ => false

/-- The size of the buffer a MAP job names: output of LOOKUP and GENRES, input of UPDATE and SNAP. -/
def mapBufLen (j : Job) : Nat :=
  if j.n 32 8 = 0 then 0
  else if j.op = 5 then 4 * mapNblk j
  else if j.op = 1 ∨ j.op = 2 ∨ j.op = 7 then 16 * mapNblk j
  else 0

/-- The checks of a MAP job other than SNAP and DIFF against the descriptor and the device state, in the order of R98, R102 and
R153. (log 49, DEDUCED, unsafe) -/
def checkMap (j : Job) (s : State) : Option JobResult :=
  let v := mapVol s j
  let n := mapNblk j
  let stewOnly := [2, 4, 7, 8, 9].contains j.op
  firstFail (j.headChecks [1, 2, 3, 4, 5, 6, 7, 8, 9] 1 ++
    [(stewOnly && !j.fromStew, internal 2),
     (j.nonzero 12 4 || decide (2 ^ 18 ≤ j.n 24 4) || j.nonzero 48 16 || (decide (j.op ≠ 7 ∧ j.op ≠ 8) && j.nonzero 40 8), internal 3),
     (decide ((if j.op = 2 then 65536 else 256) < j.n 28 4) || (decide (j.op = 2) && decide (j.n 32 8 = 0)), internal 4),
     (!bufOk s j (decide (j.op = 1 ∨ j.op = 5)) (j.n 32 8) (mapBufLen j), JobResult.of rBounds),
     (decide (j.op ≠ 7 ∧ j.op ≠ 8) && !volValid s v, internal 4),
     (decide (j.op = 1 ∨ j.op = 5 ∨ j.op = 6) && decide (volSize s v < j.n 8 4 + n), internal 4),
     (decide (j.op = 2) && (deltasOf (rdB s (j.n 32 8) (16 * n)) n).any fun d => decide (volSize s v ≤ d.lba), internal 4),
     (decide (j.op = 3) && volSealed s v, internal 4),
     (decide (j.op = 2) && volRo s v, internal 4),
     (decide (j.op ≠ 7 ∧ j.op ≠ 8) && !ownsVol s v, JobResult.of rFenced)])

/-- Runs a MAP operation of a job on its volume, or ends it with FENCED where ownership has been lost since acceptance (R153). -/
def runMap (id op : Nat) (pages : Job → Nat → State → List Nat) (f : Job → Nat → State → State) (s : State) : State :=
  runJob id cMap op (fun j s =>
    let v := mapVol s j
    if !ownsVol s v then finish id (JobResult.of rFenced) s
    else withPages id (pages j v s) (f j v) s) s

/-- A page is fetched ahead (R143): its page-in starts where it is not resident, and its first four lines go to the side buffer, at once or
when it has been read. -/
def prefetchPage (id : Nat) (s : State) : State :=
  let s := faultPage false id none s
  match pageOf s id with
  | some p =>
    if p.resident then loadSide p s
    else if p.framed then modPage id (fun p => { p with pre := true }) s
    else s
  | none => s

/-- The prefetch of R143: a LOOKUP that reaches entry PFDIST of a leaf fetches the next leaf of the volume ahead. -/
def prefetchNext (j : Job) (v : Nat) (s : State) : State :=
  let dist := max 1 (getF s F.ME_CTL_PFDIST)
  match (mapLbas j).find? fun l => l % 256 = dist with
  | none => s
  | some l =>
    if !isF s F.ME_CTL_PFEN then s
    else
      match leafOf s v ((l / 256 + 1) * 256) with
      | none => s
      | some id => prefetchPage id s

/-- Word 0 of a leaf entry as LOOKUP gives it: zero where not VALID. -/
def lookupWord (s : State) (v lba : Nat) : Nat := let w := (leafEntry s v lba).1; if swValid w then resolve s w else 0

/-- MAP_LOOKUP (R152). -/
def execMapLookup (job : Nat) (s : State) : Res :=
  ok (runMap job 1 (fun j v s => mapPages s v (mapLbas j)) (fun j v s =>
    let out := (mapLbas j).flatMap fun l => leBytes 8 (lookupWord s v l) ++ leBytes 8 (leafEntry s v l).2
    let first := lookupWord s v (j.n 8 4)
    let s := if j.n 32 8 = 0 then s else wrB (j.n 32 8) out s
    let s := (mapLbas j).foldl (fun t l => touchPath (volPath t v l) l false t) s
    let s := pmc 0x0D01 (j.inst % 2) (mapNblk j) (prefetchNext j v s)
    finish job (JobResult.done (mapNblk j) first) s) s)

/-- The sequence number of an UPDATE of a steward, which applies entries for replay: bytes of the journal it replays name none in
the descriptor, so it is the next sequence number of the journal less one. (log 49, DEDUCED, unsafe) -/
def updateSeq (s : State) : Nat := getF s F.TA_JSEQ_NEXT - 1

/-- MAP_UPDATE (R135, R152): the entries of BUF are applied in order. -/
def execMapUpdate (job : Nat) (s : State) : Res :=
  ok (runMap job 2 (fun j v s => deltaPages s v (deltasOf (rdB s (j.n 32 8) (16 * mapNblk j)) (mapNblk j)))
    (fun j v s =>
      let n := mapNblk j
      let seq := updateSeq s
      let s := (deltasOf (rdB s (j.n 32 8) (16 * n)) n).foldl (fun t d => applyDelta v ⟨false, seq⟩ [] d t) s
      finish job (JobResult.done n seq) s) s)

/-- SRTDEC (R132, R152). -/
def execSrtdec (job : Nat) (s : State) : Res :=
  ok (runMap job 4 (fun j _ s => srtPages s [swSlot (resolve s (j.n 16 8))]) (fun j _ s =>
    let slot := swSlot (resolve s (j.n 16 8))
    let s := sendSrt slot (srtSub slot s)
    finish job (JobResult.done 1 (srtCount (srt s slot))) s) s)

/-- Reserves one generation of a block (R136). (log 160, DEDUCED, unsafe) -/
def reserveGen (v lba : Nat) (s : State) : Nat × State :=
  let (id, s) := leafForUpdate v lba none s
  match pageOf s id with
  | some p =>
    let (w0, w1) := p.entry (lba % 256)
    let r := w1 / 2 ^ 32 + 1
    let s := markDirty id none (modPage id (fun p => { p with ent := kput p.ent (lba % 256) (w0, w1 % 2 ^ 32 + r * 2 ^ 32) }) s)
    (r, touchPath (volPath s v lba) lba true s)
  | none => (0, s)

/-- Reserves generations for blocks in turn. -/
def reserveGens (v : Nat) : List Nat → State → List Nat × State
  | [], s => ([], s)
  | l :: ls, s =>
    let (g, s) := reserveGen v l s
    let (gs, s) := reserveGens v ls s
    (g :: gs, s)

/-- Whether a reservation of some block of a job would pass 0xFFFF_FFFF (R136). -/
def genFull (s : State) (v : Nat) (j : Job) : Bool := (mapLbas j).any fun l => decide ((leafEntry s v l).2 / 2 ^ 32 = 0xFFFF_FFFF)

/-- GENRES (R136, R152): one generation for each block, or NOSPACE and none where one would pass 0xFFFF_FFFF. -/
def execGenres (job : Nat) (s : State) : Res :=
  ok (runMap job 5 (fun j v s => mapPages s v (mapLbas j)) (fun j v s =>
    if genFull s v j then finish job (JobResult.of rNospace) s
    else
      let (gs, s) := reserveGens v (mapLbas j) s
      let s := if j.n 32 8 = 0 then s else wrB (j.n 32 8) (gs.flatMap fun g => leBytes 4 g) s
      finish job (JobResult.done (mapNblk j) (gs.headD 0)) s) s)

/-- PREFETCH (R143, R152): done once every leaf of the range is resident, with their first lines on the way to the side buffer; VALUE counts
the pages it had read. -/
def execPrefetch (job : Nat) (s : State) : Res :=
  ok (runMap job 6 (fun j v s => mapPages s v (mapLbas j)) (fun j v s =>
    let n := kgetD s.me.jobPages job 0
    let s := (((mapLbas j).map (· / 256)).eraseDups.filterMap fun i => leafOf s v (i * 256)).foldl (fun t id => prefetchPage id t) s
    finish job (JobResult.done (mapNblk j) n) { s with me := { s.me with jobPages := kdel s.me.jobPages job } }) s)

/-- The pages of a volume's map (R129). -/
def volPages (s : State) (v : Nat) : List (Nat × Page) := s.me.pages.filter fun kv => decide (kv.2.ty ≤ 2) && decide (kv.2.owner = v)

/-- A MAP job that times out after `n` units (R99, R154): UPDATE has applied its first entries, GENRES has reserved for its first
blocks unless one of the job's would pass its limit; the others leave no change. A change that ownership no longer allows ends the job
with FENCED (R153). -/
def timeoutMap (j : Job) (n : Nat) (s : State) : State × JobResult :=
  let v := mapVol s j
  let n := min n (mapNblk j)
  if (j.op = 2 ∨ j.op = 5) ∧ !ownsVol s v then (s, JobResult.of rFenced)
  else if j.op = 5 ∧ genFull s v j then (s, JobResult.of rNospace)
  else if j.op = 2 then
    ((deltasOf (rdB s (j.n 32 8) (16 * n)) n).foldl (fun t d => applyDelta v ⟨false, updateSeq s⟩ [] d t) s, ⟨rTimeout, 0, n, 0⟩)
  else if j.op = 5 then ((reserveGens v ((mapLbas j).take n) s).2, ⟨rTimeout, 0, n, 0⟩)
  else (s, ⟨rTimeout, 0, if j.op = 7 ∨ j.op = 8 then 0 else n, 0⟩)

/-- The parent entries that name a page, in pages of its own tree. -/
def parentsOf (s : State) (id : Nat) : List (Nat × Nat) :=
  s.me.pages.flatMap fun kv => (kv.2.kids.filter fun e => e.2 = id).map fun e => (kv.1, e.1)

/-- The slot word that names a slot: as a map page holds it, else from its slot reference entry. -/
def wordOfSlot (s : State) (slot : Nat) : Nat :=
  match s.me.pages.findSome? fun kv => if kv.2.ty ≠ 1 then none else (kv.2.ents.find? fun e => swValid e.2.1 && decide (swSlot e.2.1 = slot)).map fun e => e.2.1 with
  | some w => w
  | none => slot + srtClass (srt s slot) * 2 ^ 48 + 2 ^ 50

/-- Whether a delete walk of a snapshot, or of a volume's own tree, is queued or runs (R301). -/
def walked (s : State) (snap : Bool) (n : Nat) : Bool := s.snap.walks.any fun w => w.snap == snap && decide (w.num = n)

/-- The volumes and snapshots whose root a page is, but for those whose tree is being deleted: they count the root no more (R292, R301). -/
def rootsOf (s : State) (id : Nat) : List Nat := (s.me.root.filter fun kv => decide (kv.2 = id) && !walked s false kv.1).map Prod.fst
@[inherit_doc rootsOf] def snapRootsOf (s : State) (id : Nat) : List Nat := (s.me.snapRoot.filter fun kv => decide (kv.2 = id) && !walked s true kv.1).map Prod.fst

/-- A root record waits to be appended to the journal: the volume's ROOT has changed (R124, R137). -/
def rootRecord (a : Act) (s : State) : State := { s with rootRecs := s.rootRecs ++ [a] }

/-- The page whose home is a slot, found among a kind and level of pages, or made known as one that is only on flash. -/
def pageAtHome (ty level owner index epoch slot : Nat) (s : State) : Nat × State :=
  match s.me.pages.find? fun kv => decide (kv.2.home = slot) && decide (kv.2.level = level) && decide (kv.2.ty = ty) with
  | some kv => (kv.1, s)
  | none =>
    let id := s.me.nextPage
    let p : Page := { ty := ty, level := level, owner := owner, index := index, epoch := epoch, st := .flash, home := slot }
    (id, { s with me := { s.me with pages := kput s.me.pages id p, nextPage := id + 1 } })

/-- The root page of a volume follows its ROOT: none for an empty map (R122, R124). -/
def setRoot (v : Nat) (s : State) : State :=
  if volRoot s v = 0 then { s with me := { s.me with root := kdel s.me.root v } }
  else
    let (id, s) := pageAtHome 2 3 v 0 (volEpoch s v) (volRoot s v) s
    { s with me := { s.me with root := kput s.me.root v id } }

/-- VOLUME_RECOUNT (R570): SKIP is 0, and MAPPED counts the VALID leaf entries. -/
def execVolumeRecount (vol : BitVec 18) (s : State) : Res :=
  let v := vol.toNat
  let leaves := (List.range 4).foldl (fun (l : List Nat) _ =>
    (l.flatMap fun id => match pageOf s id with
      | some p => if p.level = 0 then [id] else p.kids.map Prod.snd
      | none => [])) (kget s.me.root v).toList
  let n := (leaves.map fun id => match pageOf s id with
    | some p => kcount p.ents fun _ e => swValid e.1
    | none => 0).sum
  ok (wrN (volAddr v + 40) 8 n (wrN (volAddr v + 24) 8 0 s))

end Sys2Proof.Machine
end

