-- ==== Sys2Proof/Machine/Comp.lean ====
section
/-! DEFINITION. Fixed-ratio slot compression: the coded block, the CODE and DECODE jobs and the skip window (R187 to R208). -/

namespace Sys2Proof.Machine

/-! ### The coded block (R188 to R191) -/

/-- The stored size of a class (R187). -/
def classSize (c : Nat) : Nat := 1024 * (c + 1)

/-- A field of `k` bits of the token stream at bit `p` (R189). -/
def streamBits (st p k : Nat) : Nat := st / 2 ^ p % 2 ^ k

/-- The extra bits and the base of a LEN selector, and of a DIST selector (R190). -/
def lenSel : Nat → Nat × Nat
  | 0 => (2, 1)
  | 1 => (4, 5)
  | 2 => (6, 21)
  | _ => (12, 85)
@[inherit_doc lenSel] def distSel : Nat → Nat × Nat
  | 0 => (6, 1)
  | 1 => (8, 65)
  | 2 => (10, 321)
  | _ => (12, 1345)

/-- A LEN or DIST code at bit `p`: its value and the bit after it (R190). -/
def streamCode (sel : Nat → Nat × Nat) (st p : Nat) : Nat × Nat :=
  let e := sel (streamBits st p 2)
  (e.2 + streamBits st (p + 2) e.1, p + 2 + e.1)

/-- Copies `m` bytes from `d` back, one at a time; the output is held newest first (R190). -/
def copyBack (d : Nat) : Nat → List Byte → List Byte
  | 0, out => out
  | m + 1, out => copyBack d m (out.getD (d - 1) 0 :: out)

/-- The literal bytes of a run. -/
def literals (st p : Nat) : Nat → List Byte → List Byte
  | 0, out => out
  | n + 1, out => literals st (p + 8) n (BitVec.ofNat 8 (streamBits st p 8) :: out)

/-- The tokens of a stream until 4,096 bytes are out; each gives at least one byte (R191). -/
def decodeTokens (st sbits : Nat) : Nat → Nat → List Byte → Option (Nat × List Byte)
  | 0, _, _ => none
  | fuel + 1, p, out =>
    if 4096 ≤ out.length then some (p, out)
    else if streamBits st p 1 = 0 then
      let (n, q) := streamCode lenSel st (p + 1)
      if 4096 < out.length + n ∨ sbits < q + 8 * n then none
      else decodeTokens st sbits fuel (q + 8 * n) (literals st q n out)
    else
      let (n, q) := streamCode lenSel st (p + 1)
      let (d, q) := streamCode distSel st q
      if out.length < d ∨ 4096 < out.length + (n + 3) ∨ sbits < q then none
      else decodeTokens st sbits fuel q (copyBack d (n + 3) out)

/-- The class of a coded block, from its FMT byte. -/
def fmtClass (img : List Byte) : Nat := bitsN (fieldN img 0 1) 5 4

/-- The GUARD of a coded block. -/
def codedGuard (img : List Byte) : Nat := fieldN img 8 8

/-- The procedure of R191 on a coded block of exactly its class size: the 4,096 bytes, or a CHECK. (log 60, DESIGN CHOICE, safe) -/
def decodeBlock (img : List Byte) : Option (List Byte) :=
  let fmt := fieldN img 0 1
  let size := classSize (fmtClass img)
  let sbits := fieldN img 2 2
  let st := leNat (img.drop 16)
  if fmt % 16 ≠ 1 ∨ 2 < fmtClass img ∨ fmt / 64 ≠ 0 ∨ fieldN img 1 1 ≠ 0 ∨ fieldN img 4 4 ≠ 0 ∨
      img.length ≠ size ∨ sbits = 0 ∨ size < 16 + (sbits + 7) / 8 then none
  else
    match decodeTokens st sbits 4097 0 [] with
    | some (p, out) =>
      if p ≠ sbits ∨ st / 2 ^ sbits ≠ 0 ∨ crc64 out.reverse ≠ codedGuard img then none else some out.reverse
    | none => none

/-! ### Coding (R193, R194) -/

/-- What became of a block of a CODE job: coded with its class, its needed bytes and its image, not shrunk, or a verify mismatch with
the class selected. -/
inductive Coded where
  | coded (c need : Nat) (img : List Byte)
  | noshrink
  | mismatch (c : Nat)
  deriving DecidableEq, Repr

/-- The number of classes that LIMIT allows (R193). -/
def limitClasses (limit : Nat) : Nat := if limit = 0 then 3 else limit

/-- Codes one block and passes it through the verify decoder (R193, R194). The token stream is the coder's own (R192). (log 60, DESIGN CHOICE, safe) -/
def codeBlock (k limit : Nat) (src : List Byte) : Coded :=
  let (sbits, st) := Config.coder k src
  let need := 16 + (sbits + 7) / 8
  match (List.range (limitClasses limit)).find? fun c => need ≤ classSize c with
  | none => .noshrink
  | some c =>
    let img := leBytes 1 (1 + 16 * c) ++ [0] ++ leBytes 2 sbits ++ zeros 4 ++ leBytes 8 (crc64 src) ++ st.take ((sbits + 7) / 8)
    let img := img ++ zeros (classSize c - img.length)
    if decodeBlock img = some src then .coded c need img else .mismatch c

/-! ### The descriptor (R200, R201) -/

/-- The volume that a job names in a field at byte `off`: the context's, or the descriptor's with VOLSEL or from a steward (R151). -/
def jobVol (s : State) (j : Job) (off : Nat) : Nat :=
  match j.owner with
  | .ctx n => if (j.hflags / 256).testBit 0 then bitsN (j.n off 4) 17 0 else match kget s.ctxs n with | some c => c.vol | none => 0
  | .stew _ => bitsN (j.n off 4) 17 0

/-- NBLK, where 0 acts as 1. -/
def compNblk (j : Job) : Nat := max 1 (j.n 32 4)

/-- DSTLEN, where 0 acts as 3,072 bytes a block (R198). -/
def compDstLen (j : Job) : Nat := if j.n 36 4 = 0 then 3072 * compNblk j else j.n 36 4

/-- How far the enabled windows with RD cover the addresses from `a` on without a gap (R200). -/
def coverEnd (s : State) : Nat → Nat → Nat
  | 0, a => a
  | fuel + 1, a =>
    match (List.range 8).find? fun k => isF s F.FSQ_FWIN_BASE_RD k && decide (getF s F.FSQ_FWIN_BASE_BASE k * 4096 ≤ a) &&
        decide (a < (getF s F.FSQ_FWIN_LIM_LAST k + 1) * 4096) with
    | some k => coverEnd s fuel ((getF s F.FSQ_FWIN_LIM_LAST k + 1) * 4096)
    | none => a

/-- The end of the memory region that holds an address. -/
def memEnd (s : State) (a : Nat) : Nat :=
  match regionOf s a with
  | .hbm => 0x70_0000_0000
  | .ddr => 0x100_0000_0000 + s.ddrcSize
  | _ => a

/-- The bytes that a DECODE job may read from SRC, fixed at its acceptance (R102, R200). For a steward's SRC that lies in no memory there is no end
to stop at. -/
def decodeCap (s : State) (j : Job) : Nat :=
  let src := j.n 8 8
  let full := 3072 * compNblk j
  if j.n 24 8 ≠ 0 then classSize (swClass (j.n 24 8))
  else match j.owner with
    | .ctx _ => min full (coverEnd s 8 src - src)
    | .stew _ => if memEnd s src = src then full else min full (memEnd s src - src)

/-- Whether two ranges overlap. -/
def overlap (a n b m : Nat) : Bool := decide (a < b + m) && decide (b < a + n) && decide (0 < n) && decide (0 < m)

/-- The acceptance checks of a COMP job. -/
def checkComp (j : Job) (s : State) : Option JobResult :=
  let n := compNblk j
  firstFail (j.headChecks [1] 1 ++
    [(j.nonzero 53 11 || j.nonzero 24 8 || decide (2 ^ 18 ≤ j.n 48 4) || decide (4 ≤ j.n 52 1) || (decide (n = 1) && j.nonzero 40 8), internal 3),
     (decide (65536 < n) || (decide (1 < n) && !j.nonzero 40 8) || overlap (j.n 8 8) (4096 * n) (j.n 16 8) (compDstLen j), internal 4),
     j.bounds s false (j.n 8 8) (4096 * n), j.bounds s true (j.n 16 8) (compDstLen j),
     j.bounds s true (j.n 40 8) (if n = 1 then 0 else 4 * n),
     (!volValid s (jobVol s j 48), internal 4)])

/-- The acceptance checks of a DECOMP job. -/
def checkDecomp (j : Job) (s : State) : Option JobResult :=
  let n := compNblk j
  let cap := decodeCap s j
  let read := match j.owner with
    | .ctx _ => if j.n 24 8 = 0 then decide (cap ≠ 0) && !inHbmDdr s (j.n 8 8) cap else !bufOk s j false (j.n 8 8) cap
    | .stew _ => !bufOk s j false (j.n 8 8) cap
  firstFail (j.headChecks [1] 1 ++
    [(j.nonzero 52 12 || j.nonzero 36 12 || decide (2 ^ 18 ≤ j.n 48 4), internal 3),
     (decide (65536 < n) || (j.nonzero 24 8 && decide (1 < n)) || overlap (j.n 8 8) (if j.n 24 8 = 0 then 3072 * n else cap) (j.n 16 8) (4096 * n), internal 4),
     (read, JobResult.of rBounds), j.bounds s true (j.n 16 8) (4096 * n),
     (!volValid s (jobVol s j 48), internal 4)])

/-! ### CODE (R193 to R198) -/

/-- What a CODE job has done so far: the KiB of output, the MAP entries and the outcomes the governor counts. -/
structure CodeAcc where
  offk : Nat
  map : List Byte
  outcomes : List Bool
  last : JobResult
  full : Bool
  st : State

/-- A MAP entry (R197). -/
def mapEntry (c st offk : Nat) : List Byte := leBytes 4 (c + 4 * st + 256 * offk)

/-- One block of a CODE job. (log 61, DEDUCED, unsafe) -/
def codeStep (j : Job) (vol : Nat) (a : CodeAcc) (i : Nat) : CodeAcc :=
  if a.full then a
  else
    let s := a.st
    let inst := instNumber cComp j.inst
    match codeBlock s.free (j.n 52 1) (rdB s (j.n 8 8 + 4096 * i) 4096) with
    | .coded c need img =>
      if compDstLen j < 1024 * a.offk + classSize c then { a with full := true, st := nextFree s }
      else
        let cnt := if c = 0 then RegName.CE_S1_CNT else if c = 1 then .CE_S2_CNT else .CE_S3_CNT
        { a with
          offk := a.offk + c + 1, map := a.map ++ mapEntry c 0 a.offk, outcomes := a.outcomes ++ [false]
          last := ⟨0, 0, 1, c + 2 ^ 16 * need⟩
          st := pmc 0x0F01 inst 1 (bump cnt (wrB (j.n 16 8 + 1024 * a.offk) img (nextFree s))) }
    | .noshrink =>
      { a with
        map := a.map ++ mapEntry 3 1 0, outcomes := a.outcomes ++ [true], last := ⟨rNoshrink, 0, 1, 3⟩
        st := pmc 0x0F01 inst 1 (bump .CE_NOSHRINK_CNT (nextFree s)) }
    | .mismatch c =>
      { a with
        map := a.map ++ mapEntry 3 2 0, last := ⟨rVerify, 0, 1, 3⟩
        st := pmc 0x0F01 inst 1 (cel 0x0F10 inst 3 vol c 0
          (raise 0x0F10 inst (bump .CE_VERIFY_CNT (nextFree s)))) }

/-- The first `n` blocks of a CODE job; CE_CODE_CNT counts all that were submitted (R208). (log 12, DESIGN CHOICE, safe) -/
def codeBlocks (j : Job) (vol n : Nat) (s : State) : CodeAcc :=
  (List.range n).foldl (codeStep j vol) ⟨0, [], [], JobResult.of 0, false, bumpBy (compNblk j) .CE_CODE_CNT s⟩

/-- The MAP entries of `n` blocks of a volume with NOCOMP (R195). -/
def nocompMap (n : Nat) : List Byte := (List.range n).flatMap fun _ => mapEntry 3 1 0

/-- Keeps the outcomes of a flow's CODE job until it completes (R204). (log 62, DEDUCED, unsafe) -/
def noteOutcomes (id : Nat) (j : Job) (vol : Nat) (l : List Bool) (s : State) : State :=
  match j.owner with
  | .ctx _ => { s with comp := { s.comp with outcomes := kput s.comp.outcomes id (vol, l) } }
  | .stew _ => s

/-- CODE (R193 to R198). (log 61, DEDUCED, unsafe) -/
def execCompCode (job : Nat) (s : State) : Res :=
  ok (runJob job cComp 1 (fun j s =>
    let v := jobVol s j 48
    let n := compNblk j
    if volFlag s v 3 then
      let s := bumpBy n .CE_NOSHRINK_CNT (bumpBy n .CE_CODE_CNT s)
      if n = 1 then finish job ⟨rNoshrink, 0, 1, 3⟩ s
      else finish job (JobResult.done n 0) (wrB (j.n 40 8) (nocompMap n) s)
    else
      let a := codeBlocks j v n s
      if a.full then
        finish job (JobResult.of rNospace) (bump .CE_NOSPACE_CNT
          (wrFree (j.n 40 8) (if n = 1 then 0 else 4 * n) (wrFree (j.n 16 8) (compDstLen j) a.st)))
      else
        let s := noteOutcomes job j v a.outcomes a.st
        if n = 1 then finish job a.last s
        else finish job (JobResult.done n (1024 * a.offk)) (wrB (j.n 40 8) a.map s)) s)

/-- What a CODE job leaves at its deadline with the output of its complete blocks in memory up to `out`, and their MAP entries: nothing after
them is valid (R202). -/
def codeStops (j : Job) (out : Nat) (map : List Byte) (s : State) : State × JobResult :=
  let n := map.length / 4
  let s := wrFree (j.n 16 8 + out) (compDstLen j - out) s
  let s := if compNblk j = 1 then s else wrFree (j.n 40 8 + 4 * n) (4 * (compNblk j - n)) (wrB (j.n 40 8) map s)
  (s, ⟨rTimeout, 0, n, 0⟩)

/-- A CODE job that times out (R195, R202, R204): its first blocks are complete, at most those before one that finds no room. (log 62, DEDUCED, unsafe) -/
def timeoutComp (id : Nat) (j : Job) (n : Nat) (s : State) : State × JobResult :=
  let v := jobVol s j 48
  let n := min n (compNblk j)
  if volFlag s v 3 then codeStops j 0 (nocompMap n) (bumpBy n .CE_NOSHRINK_CNT (bumpBy (compNblk j) .CE_CODE_CNT s))
  else
    let a := codeBlocks j v n s
    codeStops j (1024 * a.offk) a.map (noteOutcomes id j v a.outcomes a.st)

/-! ### DECODE (R199) -/

/-- Decodes up to `n` blocks from offset `off` of SRC, or stops at the first CHECK: the blocks decoded, the offset and the last
GUARD. -/
def decodeBlocks (j : Job) : Nat → Nat → Nat → State → Nat × Nat × Bool × Nat × State
  | 0, i, off, s => (i, off, true, 0, s)
  | n + 1, i, off, s =>
    let slot := j.n 24 8
    let c := fmtClass (rdB s (j.n 8 8 + off) 1)
    let size := if slot = 0 then classSize c else classSize (swClass slot)
    let img := rdB s (j.n 8 8 + off) size
    if (decide (slot ≠ 0) && (decide (swClass slot = 3) || decide (c ≠ swClass slot))) || decide (j.cap < off + size) then (i, off, false, 0, s)
    else
      match decodeBlock img with
      | none => (i, off, false, 0, s)
      | some out =>
        let s := pmc 0x0F02 (instNumber cDecomp j.inst) 1 (bump .CE_DECODE_CNT (wrB (j.n 16 8 + 4096 * i) out s))
        if n = 0 then (i + 1, off + size, true, codedGuard img, s) else decodeBlocks j n (i + 1) (off + size) s

/-- DECODE (R199). -/
def execDecompDecode (job : Nat) (s : State) : Res :=
  ok (runJob job cDecomp 1 (fun j s =>
    let (i, off, good, guard, s) := decodeBlocks j (compNblk j) 0 0 s
    if good then finish job (JobResult.done i guard) s
    else
      let slot := j.n 24 8
      let inst := instNumber cDecomp j.inst
      let s := cel 0x0F11 inst 3 (if slot = 0 then off else slot % 2 ^ 32) (slot / 2 ^ 32) i (bump .CE_CHECK_CNT s)
      finish job ⟨rCheck, 0, i, 0⟩ s) s)

/-- A DECODE job that times out (R202). -/
def timeoutDecomp (j : Job) (n : Nat) (s : State) : State × JobResult :=
  let n := min n (compNblk j)
  let (i, _, _, _, s) := decodeBlocks j n 0 0 s
  (wrFree (j.n 16 8 + 4096 * i) (4096 * (compNblk j - i)) s, ⟨rTimeout, 0, i, 0⟩)

/-! ### The skip window (R204 to R206) -/

/-- The parameters of CE_SKIP, with the bounds of R207. -/
def skipLmax (s : State) : Nat := min 16 (max 6 (getF s F.CE_SKIP_LMAX))
@[inherit_doc skipLmax] def skipLmin (s : State) : Nat := min (skipLmax s) (min 16 (max 6 (getF s F.CE_SKIP_LMIN)))
@[inherit_doc skipLmax] def skipProbe (s : State) : Nat := max 4 (getF s F.CE_SKIP_PROBE)
@[inherit_doc skipLmax] def skipThresh (s : State) : Nat := min (skipProbe s) (getF s F.CE_SKIP_THRESH)

/-- The governor's record of a volume. -/
def skipOf (s : State) (v : Nat) : SkipSt := kgetD s.comp.skip v {}

/-- Replaces the governor's record of a volume. -/
def setSkip (v : Nat) (k : SkipSt) (s : State) : State := { s with comp := { s.comp with skip := kputD {} s.comp.skip v k } }

/-- The parameters that a trial of now takes. -/
def skipPar (s : State) : SkipPar := ⟨skipProbe s, skipThresh s, skipLmin s, skipLmax s⟩

/-- Whether the trial of a volume has all its blocks. -/
def trialFull (s : State) (v : Nat) : Bool :=
  isF s F.CE_SKIP_EN && decide (0 < (skipOf s v).count) && decide ((skipOf s v).par.probe ≤ (skipOf s v).count)

/-- The window size *N* of a volume: 2^LMIN until a trial has set it (R206). -/
def skipSize (s : State) (v : Nat) : Nat := if (skipOf s v).n = 0 then 2 ^ skipLmin s else (skipOf s v).n

/-- Whether the trial of a volume opens a window (R204). -/
def trialOpens (s : State) (v : Nat) : Bool := decide ((skipOf s v).par.thresh ≤ (skipOf s v).noshrink)

/-- The new *N* of a volume whose trial opens a window (R204). -/
def windowSize (s : State) (v : Nat) : Nat :=
  let k := skipOf s v
  if k.opened then min (2 * k.n) (2 ^ k.par.lmax) else 2 ^ k.par.lmin

/-- A window opens: SKIP takes *N* (R204). -/
def openWindow (v : Nat) (s : State) : State :=
  let n := windowSize s v
  bump .CE_WINOPEN_CNT (wrN (volAddr v + 24) 8 n (setSkip v ⟨n, 0, 0, true, {}⟩ s))

/-- The end of a trial (R204, R42). (log 62, DEDUCED, unsafe) -/
def trialEnd (v : Nat) (s : State) : State :=
  if trialOpens s v then govRecord 2 v (windowSize s v) (skipSize s v) (openWindow v s)
  else setSkip v { n := 2 ^ (skipOf s v).par.lmin } s

/-- The governor counts one outcome of a volume: none during a window, with EN at 0, for an excluded class, or while this head is not
OWNER of the group (R204 to R206). -/
def countOutcome (v : Nat) (s : State) (noshrink : Bool) : State :=
  let s := if trialFull s v then trialEnd v s else s
  if !isF s F.CE_SKIP_EN || decide (volSkip s v ≠ 0) || bit (rd s .CE_SKIPX) (volClass s v) || !ownsVol s v then s
  else
    let k := skipOf s v
    setSkip v { k with count := k.count + 1, noshrink := k.noshrink + b2n noshrink, par := if k.count = 0 then skipPar s else k.par } s

/-- The outcomes of a job are counted as it completes (R204). (log 62, DEDUCED, unsafe) -/
def countOutcomes (job : Nat) (s : State) : State :=
  match kget s.comp.outcomes job with
  | some (v, l) => l.foldl (countOutcome v) { s with comp := { s.comp with outcomes := kdel s.comp.outcomes job } }
  | none => s

/-- SKIP_TRIAL_END (R204). -/
def execSkipTrialEnd (vol : BitVec 18) (s : State) : Res :=
  ok (if trialFull s vol.toNat then trialEnd vol.toNat s else s)

/-- An ALLOC job that a flow submitted for its context's volume takes one block of an open window (R205). -/
def skipAlloc (v : Nat) (s : State) : State :=
  if volSkip s v = 0 ∨ !ownsVol s v then s
  else bump .CE_SKIPPED_CNT (wrN (volAddr v + 24) 8 (volSkip s v - 1) s)

/-- The volumes of the table that hold a byte that is not zero. -/
def listedVols (s : State) : List Nat :=
  ((s.mem.filter fun c => decide (volTableBase ≤ c.1) && decide (c.1 < 0x2100_0000)).map fun c => (c.1 - volTableBase) / 64).eraseDups

/-- This head becomes OWNER of groups, or gives one away: SKIP of their volumes is 0, and their governor starts afresh (R206). -/
def skipReset (gs : List Nat) (s : State) : State :=
  ((listedVols s).filter fun v => gs.contains (volGroup s v)).foldl (fun t v => wrN (volAddr v + 24) 8 0 (setSkip v {} t)) s

/-- A write of CE_SKIP: setting EN restarts the trials in progress (R206). -/
def wrCeSkip (v : Word) (s : State) : State :=
  let was := isF s F.CE_SKIP_EN
  let s := wr .CE_SKIP (writeFields (rd s .CE_SKIP) v (RegName.info .CE_SKIP).fields) s
  if !was && isF s F.CE_SKIP_EN then
    { s with comp := { s.comp with skip := kmapV s.comp.skip fun _ k => { k with count := 0, noshrink := 0 } } }
  else s

end Sys2Proof.Machine
end

