-- ==== Sys2Proof/Machine/Crypto.lean ====
section
/-! DEFINITION. The published functions that the spec names: SHA-512 and SHA-512/256 (FIPS 180-4), AES-256 (FIPS 197), XTS (IEEE 1619),
GCM (SP 800-38D), Key Wrap (SP 800-38F), CMAC and the counter-mode KDF (SP 800-108, R214). Byte lists are in the order of
those standards. -/

namespace Sys2Proof.Machine

/-! ### SHA-512 -/

/-- The largest number below `2 ^ n` above `acc` whose power `k` is at most `x`, bit by bit. -/
def rootBits (k x : Nat) : Nat → Nat → Nat
  | 0, acc => acc
  | n + 1, acc => rootBits k x n (if (acc + 2 ^ n) ^ k ≤ x then acc + 2 ^ n else acc)

/-- The primes below `n`. -/
def primesBelow (n : Nat) : List Nat :=
  (List.range n).filter fun p => decide (2 ≤ p) && (List.range p).all fun d => decide (d < 2) || decide (p % d ≠ 0)

/-- The first 64 bits of the fractional part of the `k`th root of a number. -/
def rootFrac (k p : Nat) : Word := BitVec.ofNat 64 (rootBits k (p * 2 ^ (64 * k)) 70 0)

/-- The 80 round constants: the cube roots of the first 80 primes. -/
def sha512K : List Word := ((primesBelow 410).take 80).map (rootFrac 3)

/-- The initial hash value of SHA-512: the square roots of the first eight primes. -/
def sha512H : List Word := ((primesBelow 20).take 8).map (rootFrac 2)

/-- The words of the message schedule, newest first. -/
def shaSchedule : Nat → List Word → List Word
  | 0, w => w
  | n + 1, w =>
    let x := w.getD 1 0
    let y := w.getD 14 0
    let s1 := x.rotateRight 19 ^^^ x.rotateRight 61 ^^^ (x >>> 6)
    let s0 := y.rotateRight 1 ^^^ y.rotateRight 8 ^^^ (y >>> 7)
    shaSchedule n ((s1 + w.getD 6 0 + s0 + w.getD 15 0) :: w)

/-- One round on the working variables a to h. -/
def shaRound (v : List Word) (kw : Word × Word) : List Word :=
  match v with
  | [a, b, c, d, e, f, g, h] =>
    let t1 := h + (e.rotateRight 14 ^^^ e.rotateRight 18 ^^^ e.rotateRight 41) + ((e &&& f) ^^^ (~~~e &&& g)) + kw.1 + kw.2
    let t2 := (a.rotateRight 28 ^^^ a.rotateRight 34 ^^^ a.rotateRight 39) + ((a &&& b) ^^^ (a &&& c) ^^^ (b &&& c))
    [t1 + t2, a, b, c, d + t1, e, f, g]
  | v => v

/-- One block of 128 bytes. -/
def shaBlock (h : List Word) (m : List Byte) : List Word :=
  let w16 := (List.range 16).map fun i => BitVec.ofNat 64 (beNat ((m.drop (8 * i)).take 8))
  let w := (shaSchedule 64 w16.reverse).reverse
  List.zipWith (· + ·) h ((sha512K.zip w).foldl shaRound h)

/-- The message padded to blocks. -/
def shaPad (m : List Byte) : List Byte :=
  m ++ [0x80] ++ zeros ((239 - m.length % 128) % 128) ++ beBytes 16 (8 * m.length)

/-- SHA-512 from an initial hash value, as bytes. -/
def sha512From (h : List Word) (m : List Byte) : List Byte :=
  let p := shaPad m
  ((List.range (p.length / 128)).foldl (fun h i => shaBlock h ((p.drop (128 * i)).take 128)) h).flatMap fun w => beBytes 8 w.toNat

/-- SHA-512. (log 67, DESIGN CHOICE, unsafe) -/
def sha512 (m : List Byte) : List Byte := sha512From sha512H m

/-- The initial hash value of SHA-512/256: SHA-512 from a changed value over the name of the function. -/
def sha512t256H : List Word :=
  let d := sha512From (sha512H.map (· ^^^ 0xa5a5a5a5a5a5a5a5)) ("SHA-512/256".toList.map fun c => BitVec.ofNat 8 c.toNat)
  (List.range 8).map fun i => BitVec.ofNat 64 (beNat ((d.drop (8 * i)).take 8))

/-- SHA-512/256 (R160). -/
def sha512t256 (m : List Byte) : List Byte := (sha512From sha512t256H m).take 32

/-! ### AES-256 -/

/-- Multiplication in a field of characteristic 2: polynomial `p`, its degree `n`. -/
def gfMul (p n : Nat) (a : Nat) : Nat → Nat → Nat
  | 0, _ => 0
  | fuel + 1, b =>
    let a2 := if a.testBit (n - 1) then (2 * a) ^^^ p else 2 * a
    (if b % 2 = 1 then a else 0) ^^^ gfMul p n a2 fuel (b / 2)

/-- A power in that field. -/
def gfPow (p n a : Nat) : Nat → Nat
  | 0 => 1
  | k + 1 => gfMul p n a n (gfPow p n a k)

/-- Multiplication in the field of AES. -/
def aesMul (a b : Nat) : Nat := gfMul 0x11B 8 a 8 b

/-- The affine map of the S-box. -/
def aesAffine (x : Nat) : Nat :=
  let r (k : Nat) := (x * 2 ^ k ||| x / 2 ^ (8 - k)) % 256
  x ^^^ r 1 ^^^ r 2 ^^^ r 3 ^^^ r 4 ^^^ 0x63

/-- The S-box: the inverse, by the power 254, and the affine map. -/
def aesSbox : List Nat := (List.range 256).map fun x => aesAffine (gfPow 0x11B 8 x 254)

/-- The inverse S-box. -/
def aesInvSbox : List Nat := (List.range 256).map fun y => aesSbox.idxOf y

/-- A byte through a table. -/
def subByte (t : List Nat) (b : Nat) : Nat := t.getD b 0

/-- The words of the key schedule of AES-256, newest first: word `i` is made next. -/
def aesExpand : Nat → Nat → List (List Nat) → List (List Nat)
  | 0, _, w => w
  | n + 1, i, w =>
    let t := w.getD 0 []
    let t := if i % 8 = 0 then
        List.zipWith (· ^^^ ·) ((t.drop 1 ++ t.take 1).map (subByte aesSbox)) [gfPow 0x11B 8 2 (i / 8 - 1), 0, 0, 0]
      else if i % 8 = 4 then t.map (subByte aesSbox) else t
    aesExpand n (i + 1) (List.zipWith (· ^^^ ·) (w.getD 7 []) t :: w)

/-- The 15 round keys of a 32-byte key, each 16 bytes. -/
def aesKeys (key : List Byte) : List (List Nat) :=
  let k := key.map BitVec.toNat
  let w := (aesExpand 52 8 ((List.range 8).map fun i => (k.drop (4 * i)).take 4).reverse).reverse
  (List.range 15).map fun r => ((w.drop (4 * r)).take 4).flatten

/-- The state bytes moved by ShiftRows: byte `4c + r` comes from column `c + r`, or `c - r` for the inverse. -/
def shiftRows (inv : Bool) (s : List Nat) : List Nat :=
  (List.range 16).map fun i => s.getD (4 * ((i / 4 + (if inv then 4 - i % 4 else i % 4)) % 4) + i % 4) 0

/-- MixColumns with the coefficients of a row. -/
def mixColumns (c : List Nat) (s : List Nat) : List Nat :=
  (List.range 16).map fun i => (List.range 4).foldl (fun a k =>
    a ^^^ aesMul (c.getD ((k + 4 - i % 4) % 4) 0) (s.getD (4 * (i / 4) + k) 0)) 0

/-- Adds a round key. -/
def addKey (s k : List Nat) : List Nat := List.zipWith (· ^^^ ·) s k

/-- AES-256 of one block under expanded keys. (log 67, DESIGN CHOICE, unsafe) -/
def aesEnc (ks : List (List Nat)) (b : List Byte) : List Byte :=
  let s := addKey (b.map BitVec.toNat) (ks.getD 0 [])
  let s := (List.range 13).foldl (fun s r => addKey (mixColumns [2, 3, 1, 1] (shiftRows false (s.map (subByte aesSbox)))) (ks.getD (r + 1) [])) s
  (addKey (shiftRows false (s.map (subByte aesSbox))) (ks.getD 14 [])).map (BitVec.ofNat 8)

/-- The inverse of AES-256. -/
def aesDec (ks : List (List Nat)) (b : List Byte) : List Byte :=
  let s := addKey (b.map BitVec.toNat) (ks.getD 14 [])
  let s := (List.range 13).foldl (fun s r => mixColumns [14, 11, 13, 9] (addKey ((shiftRows true s).map (subByte aesInvSbox)) (ks.getD (13 - r) []))) s
  (addKey ((shiftRows true s).map (subByte aesInvSbox)) (ks.getD 0 [])).map (BitVec.ofNat 8)

/-- Bytewise exclusive or. -/
def xorB (a b : List Byte) : List Byte := List.zipWith (· ^^^ ·) a b

/-- A list cut into pieces of `n`. -/
def chunksOf (n : Nat) (l : List Byte) : List (List Byte) :=
  (List.range ((l.length + n - 1) / n)).map fun i => (l.drop (n * i)).take n

/-! ### XTS -/

/-- The next tweak: times x in the field of XTS, on a little-endian number. -/
def xtsNext (t : Nat) : Nat := ((2 * t) % 2 ^ 128) ^^^ (if t.testBit 127 then 0x87 else 0)

/-- AES-256-XTS over whole blocks; `key` is Key1 then Key2, `tweak` the data unit number. (log 67, DESIGN CHOICE, unsafe) -/
def xts (enc : Bool) (key : List Byte) (tweak : Nat) (d : List Byte) : List Byte :=
  let k1 := aesKeys (key.take 32)
  let t0 := leNat (aesEnc (aesKeys (key.drop 32)) (leBytes 16 tweak))
  ((chunksOf 16 d).foldl (fun (acc : Nat × List Byte) b =>
    let t := leBytes 16 acc.1
    (xtsNext acc.1, acc.2 ++ xorB t ((if enc then aesEnc else aesDec) k1 (xorB t b)))) (t0, [])).2

/-! ### GCM -/

/-- Multiplication in the field of GCM, on numbers whose highest bit is the first bit of a block. -/
def ghashMul : Nat → Nat → Nat → Nat → Nat
  | 0, _, _, z => z
  | fuel + 1, x, v, z =>
    ghashMul fuel x (v / 2 ^^^ if v % 2 = 1 then 0xE1 * 2 ^ 120 else 0) (if x.testBit fuel then z ^^^ v else z)

/-- Zeros up to a whole number of blocks. -/
def pad16 (l : List Byte) : List Byte := l ++ zeros ((16 - l.length % 16) % 16)

/-- GHASH over whole blocks. -/
def ghash (h : Nat) (l : List Byte) : Nat := (chunksOf 16 l).foldl (fun y b => ghashMul 128 (y ^^^ beNat b) h 0) 0

/-- AES-256-GCM with a 96-bit nonce: the text in counter mode. (log 67, DESIGN CHOICE, unsafe) -/
def gcmText (ks : List (List Nat)) (nonce d : List Byte) : List Byte :=
  ((chunksOf 16 d).zipIdx.map fun (b, i) => xorB b (aesEnc ks (nonce ++ beBytes 4 (i + 2)))).flatten

/-- The 128-bit tag over additional data and ciphertext. -/
def gcmTag (ks : List (List Nat)) (nonce aad c : List Byte) : List Byte :=
  let h := beNat (aesEnc ks (zeros 16))
  let s := ghash h (pad16 aad ++ pad16 c ++ beBytes 8 (8 * aad.length) ++ beBytes 8 (8 * c.length))
  xorB (beBytes 16 s) (aesEnc ks (nonce ++ beBytes 4 1))

/-! ### Key Wrap -/

/-- The default initial value of KW. -/
def kwIv : List Byte := List.replicate 8 0xA6

/-- KW of SP 800-38F over whole 64-bit words. (log 67, DESIGN CHOICE, unsafe) -/
def kwWrap (key p : List Byte) : List Byte :=
  let ks := aesKeys key
  let n := p.length / 8
  let (a, r) := (List.range (6 * n)).foldl (fun (ar : List Byte × List Byte) t =>
    let i := t % n
    let b := aesEnc ks (ar.1 ++ (ar.2.drop (8 * i)).take 8)
    (xorB (b.take 8) (beBytes 8 (t + 1)), putBytes ar.2 (8 * i) (b.drop 8))) (kwIv, p)
  a ++ r

/-- The inverse of KW; nothing where the integrity check fails. -/
def kwUnwrap (key c : List Byte) : Option (List Byte) :=
  let ks := aesKeys key
  let n := c.length / 8 - 1
  let (a, r) := (List.range (6 * n)).reverse.foldl (fun (ar : List Byte × List Byte) t =>
    let i := t % n
    let b := aesDec ks (xorB ar.1 (beBytes 8 (t + 1)) ++ (ar.2.drop (8 * i)).take 8)
    (b.take 8, putBytes ar.2 (8 * i) (b.drop 8))) (c.take 8, c.drop 8)
  if a = kwIv then some r else none

/-! ### CMAC and key derivation (R214) -/

/-- A subkey of CMAC: times x in its field. -/
def cmacDbl (b : List Byte) : List Byte :=
  let v := beNat b
  beBytes 16 ((2 * v % 2 ^ 128) ^^^ if v.testBit 127 then 0x87 else 0)

/-- AES-256-CMAC. (log 67, DESIGN CHOICE, unsafe) -/
def cmac (key m : List Byte) : List Byte :=
  let ks := aesKeys key
  let k1 := cmacDbl (aesEnc ks (zeros 16))
  let n := max 1 ((m.length + 15) / 16)
  let last := m.drop (16 * (n - 1))
  let last := if last.length = 16 then xorB last k1 else xorB (pad16 (last ++ [0x80])) (cmacDbl k1)
  aesEnc ks (xorB last ((chunksOf 16 (m.take (16 * (n - 1)))).foldl (fun y b => aesEnc ks (xorB y b)) (zeros 16)))

/-- The labels of R214, as ASCII bytes. -/
def asciiBytes (t : String) : List Byte := t.toList.map fun c => BitVec.ofNat 8 c.toNat

/-- The counter-mode KDF: the first `bits` bits derived from a key for a label and a context (R214). -/
def kdf (key : List Byte) (label : String) (ty ident epoch nbits : Nat) : List Byte :=
  let ctx := leBytes 1 ty ++ zeros 3 ++ leBytes 4 ident ++ leBytes 4 epoch
  ((List.range ((nbits + 127) / 128)).flatMap fun i =>
    cmac key (beBytes 4 (i + 1) ++ asciiBytes label ++ [0] ++ ctx ++ beBytes 4 nbits)).take (nbits / 8)

end Sys2Proof.Machine
end

