-- ==== Sys2Proof/Machine/Keys.lean ====
section
/-! DEFINITION. Key slots, data keys, and which volumes deduplicate (R159, R209 to R215, R228). -/

namespace Sys2Proof.Machine

/-- A record that a rule asks for without giving its code: the code below the unit, UNIT and SEV are free values, and the parameters
stand in the order in which the rule names them. (log 38, DESIGN CHOICE, safe) -/
def celOpen (u p0 p1 p2 : Nat) (s : State) : State :=
  let c := (Config.freeWord s.free).toNat
  cel (u * 256 + c % 256) (c / 256 % 256) (c / 65536 % 5) p0 p1 p2 (nextFree s)

/-! ### Key slots (R209 to R213) -/

/-- The fused device root key (R210). (log 63, DESIGN CHOICE, safe) -/
def rootKey : List Byte := (List.range 32).map Config.rootKeyByte

/-- The key-encryption key (R210, R214). (log 63, DESIGN CHOICE, safe) -/
def kek : List Byte := kdf rootKey "NZ-KEK" 4 0 0 256

/-- MINSERIAL of a slot. -/
def minSerial (s : State) (k : Nat) : Nat := kgetD s.xe.minSerial k 0

/-- The words SEC_KEYIN0 on, as bytes. (log 35, DESIGN CHOICE, unsafe) -/
def keyIn (s : State) (n : Nat) : List Byte := (List.range n).flatMap fun i => leBytes 8 (rd s .SEC_KEYIN i).toNat

/-- Zeroes SEC_KEYIN0 to 6. -/
def zeroKeyIn (s : State) : State := (List.range 7).foldl (fun t i => wr .SEC_KEYIN 0 t i) s

/-- Writes bytes to SEC_KEYOUT0 to 6; missing bytes are zero. -/
def putKeyOut (l : List Byte) (s : State) : State :=
  (List.range 7).foldl (fun t i => wr .SEC_KEYOUT (BitVec.ofNat 64 (fieldN l (8 * i) 8)) t i) s

/-- A key command is refused (R212). -/
def keyRefuse (err : Nat) (s : State) : State :=
  zeroKeyIn (setF F.SEC_KEYSTAT_ERR err (setF F.SEC_KEYSTAT_REFUSED 1 s))

/-- A key command has ended. -/
def keyDone (s : State) : State := zeroKeyIn (setF F.SEC_KEYSTAT_ERR 0 (setF F.SEC_KEYSTAT_DONE 1 s))

/-- The plaintext of a wrapped blob (R211). -/
def blobText (slot : Nat) (k : KeySlot) : List Byte :=
  k.key ++ leBytes 8 k.mask ++ leBytes 2 slot ++ zeros 2 ++ leBytes 4 k.serial

/-- Loads a key into a slot. -/
def loadKey (slot : Nat) (k : KeySlot) (s : State) : State := { s with xe := { s.xe with keys := kput s.xe.keys slot k } }

/-- GENERATE (R212): 32 bytes of the DRBG, whose health test is the free values' too. (log 64, DESIGN CHOICE, safe) -/
def keyGenerate (slot : Nat) (s : State) : State :=
  if (kget s.xe.keys slot).isSome then keyRefuse 0x01 s
  else if bit (Config.freeWord s.free) 0 then
    celOpen 0x06 slot 0 0 (keyRefuse 0x05 (nextFree s))
  else
    let s := nextFree s
    let k : KeySlot := ⟨freeBytes s 32, (rd s .SEC_KEYIN 4).toNat, minSerial s slot⟩
    keyDone (putKeyOut (kwWrap kek (blobText slot k)) (loadKey slot k { s with free := s.free + 32 }))

/-- WRAP (R212). -/
def keyWrap (slot : Nat) (s : State) : State :=
  if (kget s.xe.keys slot).isSome then keyRefuse 0x01 s
  else
    let k : KeySlot := ⟨keyIn s 4, (rd s .SEC_KEYIN 4).toNat, minSerial s slot⟩
    keyDone (putKeyOut (kwWrap kek (blobText slot k)) (loadKey slot k s))

/-- LOAD (R212). -/
def keyLoad (slot : Nat) (s : State) : State :=
  if (kget s.xe.keys slot).isSome then keyRefuse 0x01 s
  else
    match kwUnwrap kek (keyIn s 7) with
    | none => keyRefuse 0x02 s
    | some p =>
      if fieldN p 42 2 ≠ 0 then keyRefuse 0x02 s
      else if fieldN p 40 2 ≠ slot then keyRefuse 0x03 s
      else if fieldN p 44 4 < minSerial s slot then keyRefuse 0x04 s
      else keyDone (loadKey slot ⟨p.take 32, fieldN p 32 8, fieldN p 44 4⟩ s)

/-- CLEAR and ERASE (R212, R213): the slot is EMPTY at once; BUSY stays until KEY_PURGE_DONE. (log 65, DEDUCED, unsafe) -/
def keyClear (erase : Bool) (slot : Nat) (s : State) : State :=
  let s := { s with xe := { s.xe with
    keys := kdel s.xe.keys slot
    minSerial := if erase then kput s.xe.minSerial slot ((minSerial s slot + 1) % 2 ^ 32) else s.xe.minSerial
    drain := some slot } }
  zeroKeyIn (setF F.SEC_KEYSTAT_ERR 0 (setF F.SEC_KEYSTAT_BUSY 1 s))

/-- A write of SEC_KEYCMD (R212, R228). Every GO zeroes SEC_KEYOUT. -/
def wrKeyCmd (v : Word) (s : State) : State :=
  let s := wr .SEC_KEYCMD (writeFields (rd s .SEC_KEYCMD) v (RegName.info .SEC_KEYCMD).fields) s
  if !bit v 0 then s
  else
    let slot := bits v 31 16
    let s := putKeyOut [] s
    if isF s F.SEC_KEYSTAT_BUSY then keyRefuse 0x06 s
    else
      match bits v 3 1 with
      | 1 => keyGenerate slot s
      | 2 => keyWrap slot s
      | 3 => keyLoad slot s
      | 4 => keyClear false slot s
      | 5 => keyClear true slot s
      | _ => keyRefuse 0x02 s

/-- Whether a GO of core `k` falls in the same CORE cycle as the last one, which a lower-numbered core gave (R213). The model's commands come one after
another: of two such writes at one device time a free value says whether they share a cycle. (log 180, DESIGN CHOICE, safe) -/
def keyTie (k : Nat) (s : State) : Option Nat :=
  match s.xe.go with
  | some (c, t) => if c < k ∧ t = s.dtime.toNat ∧ bit (Config.freeWord s.free) 0 then some c else none
  | none => none

/-- Core `k` writes SEC_KEYCMD (R213): of two GOs in one cycle that of the higher-numbered core is refused, with a record that names both cores. -/
def wrKeyCmdBy (k : Nat) (v : Word) (s : State) : State :=
  if !bit v 0 then wrKeyCmd v s
  else
    let t := { s with xe := { s.xe with go := some (k, s.dtime.toNat) } }
    match keyTie k s with
    | some c => celOpen 0x06 c k 0 (keyRefuse 0x06 (putKeyOut [] (wr .SEC_KEYCMD (writeFields (rd s .SEC_KEYCMD) v (RegName.info .SEC_KEYCMD).fields) (nextFree s))))
    | none => wrKeyCmd v t

/-- A steward writes SEC_KEYCMD with GO and an operation for a slot. (log 65, DEDUCED, unsafe) -/
def keyGo (op : Nat) (slot : BitVec 16) (s : State) : Res := ok (wrKeyCmd (BitVec.ofNat 64 (slot.toNat * 2 ^ 16 + op * 2 + 1)) s)

/-- KEY_GENERATE (R212). -/
def execKeyGenerate (slot : BitVec 16) (s : State) : Res := keyGo 1 slot s

/-- KEY_WRAP (R212). -/
def execKeyWrap (slot : BitVec 16) (s : State) : Res := keyGo 2 slot s

/-- KEY_LOAD (R212). -/
def execKeyLoad (slot : BitVec 16) (s : State) : Res := keyGo 3 slot s

/-- KEY_CLEAR (R213). -/
def execKeyClear (slot : BitVec 16) (s : State) : Res := keyGo 4 slot s

/-- KEY_ERASE (R213). -/
def execKeyErase (slot : BitVec 16) (s : State) : Res := keyGo 5 slot s

/-- KEY_PURGE_DONE (R213): once no accepted job holds the old key, the derived keys of the slot are purged, BUSY clears and DONE sets. (log 65, DEDUCED, unsafe) -/
def execKeyPurgeDone (s : State) : Res :=
  ok (match s.xe.drain with
    | none => s
    | some k =>
      if s.xe.held.any fun kv => kv.2.slot = k then s
      else
        let s := { s with xe := { s.xe with
          drain := none
          dkc0 := s.xe.dkc0.filter fun t => t.slot ≠ k
          dkc1 := s.xe.dkc1.filter fun t => t.slot ≠ k } }
        keyDone (setF F.SEC_KEYSTAT_BUSY 0 s))

/-! ### The link key (R214, R223) -/

/-- EN, KEYSLOT and EPOCH of the partner link: the staged ones from SWITCH on (R422), else those of XE_PLINK. -/
def linkVals (s : State) : Bool × Nat × Nat :=
  if isF s F.XE_PLINK_NEXT_BUSY && s.rekey.switched then
    (isF s F.XE_PLINK_NEXT_EN, getF s F.XE_PLINK_NEXT_KEYSLOT, getF s F.XE_PLINK_NEXT_EPOCH)
  else (isF s F.XE_PLINK_EN, getF s F.XE_PLINK_KEYSLOT, getF s F.XE_PLINK_EPOCH)

/-- The link key of a key slot and an epoch (R214); an EMPTY slot gives a free one. (log 181, DESIGN CHOICE, safe) -/
def linkKey (s : State) (slot epoch : Nat) : List Byte :=
  match kget s.xe.keys slot with
  | some k => kdf k.key "NZ-LNK" 3 0 epoch 256
  | none => freeBytes s 32

/-- The nonce of a record on the partner link (R223). -/
def linkNonce (ctr head : Nat) : List Byte := leBytes 8 ctr ++ leBytes 1 head ++ zeros 2 ++ [0x50]

/-- A record of the partner link as a head seals it: its text and its tag (R223). (log 181, DESIGN CHOICE, safe) -/
def linkSeal (s : State) (head ctr : Nat) (l : List Byte) : List Byte × List Byte :=
  let ks := aesKeys (linkKey s (linkVals s).2.1 (linkVals s).2.2)
  let c := gcmText ks (linkNonce ctr head) l
  (c, gcmTag ks (linkNonce ctr head) [] c)

/-- A write of XE_PLINK: the record counter restarts where EPOCH changes (R223). -/
def wrPlink (v : Word) (s : State) : State :=
  let t := wr .XE_PLINK (writeFields (rd s .XE_PLINK) v (RegName.info .XE_PLINK).fields) s
  if getF t F.XE_PLINK_EPOCH = getF s F.XE_PLINK_EPOCH then t else { t with xe := { t.xe with linkSeq := 0 } }

/-! ### Dedupe domains (R158, R159) -/

/-- The number of the domain of a group and a pool, and that of a volume. -/
def domKey (g p : Nat) : Nat := p * 1024 + g
@[inherit_doc domKey] def volDom (s : State) (v : Nat) : Nat := domKey (volGroup s v) (volPool s v)

/-- The record of a domain. -/
def domOf (s : State) (d : Nat) : Domain := kgetD s.gl.dom d {}

/-- Replaces the record of a domain, which the map engine journals as a change of ROOT (R172). -/
def setDom (d : Nat) (x : Domain) (s : State) : State := { s with gl := { s.gl with dom := kputD {} s.gl.dom d x } }

/-- Whether the key pair of a volume differs from its domain's; a domain that has adopted none differs from none (R159, R216). (log 54, DEDUCED, unsafe) -/
def keyMismatch (s : State) (v : Nat) : Bool :=
  let d := domOf s (volDom s v)
  d.keyset && (decide (d.keyslot ≠ volKeyslot s v) || decide (d.keyepoch ≠ volKeyEpoch s v))

/-- Whether a volume deduplicates (R159). (log 54, DEDUCED, unsafe) -/
def dedups (s : State) (v : Nat) : Bool := !volFlag s v 2 && !volSealed s v && !keyMismatch s v

/-! ### Derived keys (R214, R215) -/

/-- An engine of a die uses a derived key: a hit moves it to the front, a miss derives it, counts, and replaces the least recently
used of 8,192. -/
def useKey (die : Nat) (t : KeyTag) (s : State) : State :=
  let l := if die = 0 then s.xe.dkc0 else s.xe.dkc1
  let l' := (t :: l.erase t).take 8192
  let s := if l.contains t then s else bump .XE_DKMISS_CNT s
  if die = 0 then { s with xe := { s.xe with dkc0 := l' } } else { s with xe := { s.xe with dkc1 := l' } }

/-- The key of an XTS slot: domain or own volume (R214). -/
def xtsKey (x : XeJob) (dom : Bool) : List Byte :=
  if dom then kdf x.key "NZ-XTS" 1 x.group x.epoch 512 else kdf x.key "NZ-XTS" 0 x.vol x.epoch 512

/-- The key of a sealed slot (R214). -/
def gcmKey (x : XeJob) : List Byte := kdf x.key "NZ-GCM" 0 x.vol x.epoch 256

/-- What a device-made read or a cipher job for a volume holds (R215). -/
def xeJobOf (s : State) (v slot : Nat) : Option XeJob :=
  match kget s.xe.keys slot with
  | some k => some ⟨slot, k.key, v, volKeyEpoch s v, volGroup s v, volSealed s v, dedups s v⟩
  | none => none

/-! ### Slots under encryption (R216 to R221) -/

/-- Bytes of a trailer: the guard and DOMKEY of an XTS slot (R233). -/
def trGuard (t : List Byte) : Nat := fieldN t 0 8
@[inherit_doc trGuard] def trDomkey (t : List Byte) : Bool := (fieldN t 10 1).testBit 2

/-- The tweak of an XTS slot (R216). -/
def xtsTweak (dom : Bool) (guard lba : Nat) : Nat := if dom then guard + 2 ^ 64 else lba % 2 ^ 32

/-- The nonce and the additional data of a sealed slot (R219). -/
def sealNonce (gen lba vol : Nat) : List Byte := leBytes 4 gen ++ leBytes 4 lba ++ leBytes 3 vol ++ [0x53]
@[inherit_doc sealNonce] def sealAad (c : Nat) : List Byte := [BitVec.ofNat 8 c, 1, 0, 0]

/-- The guard of the plain block of a slot of class `c` (R217, R221). -/
def plainGuard (c : Nat) (l : List Byte) : Nat := if c = 3 then crc64 l else codedGuard l

/-- Decrypts a slot of a class with its trailer: the plain bytes, or a CHECK (R218, R221). -/
def openSlot (x : XeJob) (sealed : Bool) (c lba gen : Nat) (d tr : List Byte) : Option (List Byte) :=
  if sealed then
    let ks := aesKeys (gcmKey x)
    let nonce := sealNonce gen lba x.vol
    if (gcmTag ks nonce (sealAad c) d).take 12 = tr.take 12 then some (gcmText ks nonce d) else none
  else
    let dom := trDomkey tr
    let p := xts false (xtsKey x dom) (xtsTweak dom (trGuard tr) lba) d
    if plainGuard c p ≠ trGuard tr ∨ (c ≠ 3 ∧ fmtClass p ≠ c) then none else some p

/-- The block that a plain slot holds: itself for S4, decoded otherwise. -/
def plainBlock (c : Nat) (p : List Byte) : Option (List Byte) := if c = 3 then some p else decodeBlock p

end Sys2Proof.Machine
end

