-- ==== Sys2Proof/Machine/Pool.lean ====
section
/-! DEFINITION. Pools, segments, frames, members, placement and tuns in HBM: where a slot lies (R231 to R241, R246, R283). -/

namespace Sys2Proof.Machine

/-! ### Slot identifiers (R235) -/

/-- The identifier of a place. -/
def slotIdent (p seg off : Nat) : Nat := p * 2 ^ 45 + seg * 2 ^ 15 + off

/-- The strip, the block and the position of an offset. -/
def offStrip (o : Nat) : Nat := o / 1024
@[inherit_doc offStrip] def offBlock (o : Nat) : Nat := o % 1024 / 4
@[inherit_doc offStrip] def offPos (o : Nat) : Nat := o % 4

/-! ### Geometry (R237, R238, R283) -/

/-- Fields of a pool's geometry. -/
def poolEn (s : State) (p : Nat) : Bool := isF s F.PLC_GEOM_EN p
@[inherit_doc poolEn] def poolMembers (s : State) (p : Nat) : Nat := getF s F.PLC_GEOM_MEMBERS p

/-- The head that this head is: 0 for A and 1 for B. -/
def headNo (s : State) : Nat := getF s F.SYS_HEAD_ID

/-- Whether the band table of a pool is in force, and its entry for an epoch (R283). -/
def bandOn (s : State) (p : Nat) : Bool := isF s F.PLC_BAND_EN p
@[inherit_doc bandOn] def bandAddr (s : State) (p e : Nat) : Nat := getF s F.PLC_BAND_BASE p * 4096 + 8 * e
@[inherit_doc bandOn] def bandOf (s : State) (p e : Nat) : Nat := rdN s (bandAddr s p e) 8

/-- Whether a frame has the target geometry (R283). -/
def frameGen (s : State) (p f : Nat) : Bool := bandOn s p && (bandOf s p (f / 4096)).testBit 32

/-- The number of data strips of a frame. -/
def frameK (s : State) (p f : Nat) : Nat := if frameGen s p f then getF s F.PLC_RKGEOM_K else getF s F.PLC_GEOM_K p

/-- The placement entry of a position of a frame (R238). -/
def placeOf (s : State) (p f pos : Nat) : Nat :=
  kgetD (if frameGen s p f then s.plc.target else s.plc.place) (p * 131072 + f % 4096 * 32 + pos) 0xFFFF_FFFF

/-- The member and the chunk of a position of a frame (R237, R283). -/
def posMember (s : State) (p f pos : Nat) : Nat := placeOf s p f pos % 256
@[inherit_doc posMember] def posChunk (s : State) (p f pos : Nat) : Nat :=
  (if bandOn s p then bandOf s p (f / 4096) % 2 ^ 32 else f / 4096 * getF s F.PLC_GEOM_EPOCHCH p) + bitsN (placeOf s p f pos) 23 8

/-- The state and the chunks of a member. -/
def memState (s : State) (p m : Nat) : Nat := getF s F.PLC_MEM_STATE p m
@[inherit_doc memState] def memChunks (s : State) (p m : Nat) : Nat := getF s F.PLC_MEM_CHUNKS p m

/-- The first spare chunk of a member (R237). -/
def spareBase (s : State) (p m : Nat) : Nat := memChunks s p m - getF s F.PLC_SPARE_SPARECH p

/-- The positions of a frame. -/
def positions (s : State) (p f : Nat) : List Nat := List.range (frameK s p f + 2)

/-- Whether a frame exists (R237, R283). -/
def frameExists (s : State) (p f : Nat) : Bool :=
  (!bandOn s p || (bandOf s p (f / 4096)).testBit 33) &&
    (positions s p f).all fun pos => decide (posChunk s p f pos < spareBase s p (posMember s p f pos))

/-- The key of a position in the relocation table. -/
def posKey (p f pos : Nat) : Nat := (p * 2 ^ 26 + f) * 32 + pos

/-- Where a position is written, and where it can be read: its member and chunk; the relocation table is consulted where the member is
not ACTIVE (R240, R266, R269, R280). -/
def posRead (s : State) (p f pos : Nat) : Option (Nat × Nat) :=
  let m := posMember s p f pos
  let own := some (m, posChunk s p f pos)
  if memState s p m = 1 then own
  else
    match kget s.plc.reloc (posKey p f pos) with
    | some r => if memState s p r.member = 2 ∨ memState s p r.member = 0 then none else some (r.member, r.chunk)
    | none =>
      if memState s p m = 3 ∨ memState s p m = 5 ∨ memState s p m = 6 then own
      else if memState s p m = 4 && s.plc.back.contains (posKey p f pos) then own
      else none

/-- The drive LBA of a block of a chunk (R237). -/
def driveLba (chunk b : Nat) : Nat := chunk * 256 + b

/-! ### The segment table (R239) -/

/-- The states of a segment. -/
def sFree : Nat := 0
@[inherit_doc sFree] def sOpen : Nat := 1
@[inherit_doc sFree] def sSealing : Nat := 2
@[inherit_doc sFree] def sSealed : Nat := 3
@[inherit_doc sFree] def sMoving : Nat := 4
@[inherit_doc sFree] def sForwarded : Nat := 5

/-- Writes STATE of a segment. -/
def setSegState (p seg st : Nat) (s : State) : State := wrBits (segAddr s p seg) 8 29 26 st s

/-- The key of a frame among those in use. -/
def frameKey (p f : Nat) : Nat := p * 2 ^ 26 + f

/-- How many frames of a pool exist: the frames of whole epochs below the largest chunk. -/
def frameBound (s : State) (p : Nat) : Nat :=
  let top := (List.range (poolMembers s p)).foldl (fun t m => max t (spareBase s p m)) 0
  if bandOn s p then 2 ^ 26 else min (2 ^ 26) ((top / max 1 (getF s F.PLC_GEOM_EPOCHCH p) + 1) * 4096)

/-- PLC_POOL*n*_FRAMES: the frames of a pool, and the free ones (R264). -/
def totalFrames (s : State) (p : Nat) : Nat :=
  if poolEn s p then (List.range (frameBound s p)).countP (frameExists s p) else 0
@[inherit_doc totalFrames] def freePoolFrames (s : State) (p : Nat) : Nat :=
  totalFrames s p - kcount s.plc.frames fun k _ => decide (k / 2 ^ 26 = p)

/-! ### Tuns in HBM (R242, R250) -/

/-- The bytes of a strip image: 1 MiB of data and the metadata (R246, R250). -/
def stripBytes : Nat := 1064960

/-- Where a block's data and its metadata lie in an image. -/
def imgData (strip b : Nat) : Nat := strip * stripBytes + 4096 * b
@[inherit_doc imgData] def imgMeta (strip b : Nat) : Nat := strip * stripBytes + 1048576 + 64 * b

/-- The size of the record ring, and where ring, images and their mirror start (R25, R250). -/
def ringSize (s : State) : Nat := 2 ^ 34 - 2 ^ 25 * getF s F.TA_JCFG_TUNS
@[inherit_doc ringSize] def ownRing : Nat := 0x58_0000_0000
@[inherit_doc ringSize] def mirrorRing : Nat := 0x5C_0000_0000
@[inherit_doc ringSize] def imageAddr (s : State) (base i : Nat) : Nat := base + ringSize s + 2 ^ 25 * i

/-- Changes a tun. -/
def modTun (i : Nat) (f : Tun → Tun) (s : State) : State := { s with ta := { s.ta with tuns := kmod s.ta.tuns i f } }

/-- The tun that holds a segment in HBM. -/
def tunOf (s : State) (p seg : Nat) : Option (Nat × Tun) :=
  s.ta.tuns.find? fun kv => decide (kv.2.pool = p) && decide (kv.2.seg = seg)

/-- Where a slot of an offset lies in its tun image: its bytes and its trailer. -/
def slotData (off : Nat) : Nat := imgData (offStrip off) (offBlock off) + 1024 * offPos off
@[inherit_doc slotData] def slotTrailer (off : Nat) : Nat := imgMeta (offStrip off) (offBlock off) + 16 * offPos off

/-- Reads and writes a working buffer. -/
def Tun.read (t : Tun) (a n : Nat) : List Byte := mread t.buf a n
@[inherit_doc Tun.read] def Tun.write (t : Tun) (a : Nat) (l : List Byte) : Tun := { t with buf := mwrite t.buf a l }

/-- Whether a trailer is that of a slot (R249). (log 74, DEDUCED, unsafe) -/
def rtagOk (w : Nat) (tr : List Byte) : Bool := decide (fieldN tr 12 4 = swSlot w % 2 ^ 32) && tr.any fun b => decide (b ≠ 0)

/-- The slot and its trailer, where its tun is still in HBM (R249). -/
def hbmSlot (s : State) (w : Nat) : Option (List Byte × List Byte) :=
  match tunOf s (slotPool (swSlot w)) (slotSeg (swSlot w)) with
  | some (_, t) =>
    if t.phase = .sealed then none
    else some (t.read (slotData (slotOff (swSlot w))) (classSize (swClass w)), t.read (slotTrailer (slotOff (swSlot w))) 16)
  | none => none

/-! ### Double parity (R246) -/

/-- Multiplication in the field of R246. -/
def pqMul (a b : Nat) : Nat := gfMul 0x11D 8 a 8 b

/-- A power of the generator. -/
def pqPow (n : Nat) : Nat := gfPow 0x11D 8 2 n

/-- The inverse. -/
def pqInv (a : Nat) : Nat := gfPow 0x11D 8 a 254

/-- One column of P, and of Q, over the data bytes in position order. -/
def pCol (l : List Nat) : Nat := l.foldl (· ^^^ ·) 0
@[inherit_doc pCol] def qCol (l : List Nat) : Nat := (l.zipIdx.map fun (d, i) => pqMul (pqPow i) d).foldl (· ^^^ ·) 0

/-- One column with one or two positions missing, marked `none`: the data bytes, P and Q (R246). -/
def solveCol (k : Nat) (l : List (Option Nat)) : List Nat :=
  let miss := (List.range (k + 2)).filter fun i => l.getD i none = none
  let d := (List.range k).map fun i => (l.getD i none).getD 0
  let px := pCol d ^^^ (l.getD k none).getD 0
  let qx := qCol d ^^^ (l.getD (k + 1) none).getD 0
  let data := match miss.filter fun i => i < k with
    | [x] =>
      if miss.contains k then d.set x (pqMul qx (pqInv (pqPow x))) else d.set x px
    | [x, y] =>
      let dy := pqMul (qx ^^^ pqMul (pqPow x) px) (pqInv (pqPow x ^^^ pqPow y))
      (d.set y dy).set x (px ^^^ dy)
    | _ => d
  data ++ [pCol data, qCol data]

/-- Lists of bytes by column: strips in position order, `none` where missing, `n` bytes each. -/
def solveStrips (k n : Nat) (l : List (Option (List Byte))) : List (List Byte) :=
  let cols := (List.range n).map fun i => solveCol k (l.map fun o => o.map fun b => (b.getD i 0).toNat)
  (List.range (k + 2)).map fun p => cols.map fun c => BitVec.ofNat 8 (c.getD p 0)

/-- The strip image of a position of a tun: data, or P and Q over the data strips (R245, R246). -/
def Tun.strip (t : Tun) (pos : Nat) : List Byte :=
  if pos < t.k then t.read (pos * stripBytes) stripBytes
  else ((solveStrips t.k stripBytes ((List.range t.k).map fun i => some (t.read (i * stripBytes) stripBytes))).getD pos [])

end Sys2Proof.Machine
end

