-- ==== Sys2Proof/Machine/Cipher.lean ====
section
/-! DEFINITION. The cipher jobs ENC, DEC, SENC and SDEC (R216 to R226). -/

namespace Sys2Proof.Machine

/-- Fields of a CIPHER descriptor (R225). -/
def xSlot (j : Job) : Nat := j.n 24 8
@[inherit_doc xSlot] def xLba (j : Job) : Nat := j.n 32 4
@[inherit_doc xSlot] def xKey (j : Job) : Nat := j.n 40 2
@[inherit_doc xSlot] def xAad (j : Job) : Nat := j.n 42 2
@[inherit_doc xSlot] def xGen (j : Job) : Nat := j.n 44 4
@[inherit_doc xSlot] def xLen (j : Job) : Nat := j.n 52 4

/-- Whether a job seals or opens a record. -/
def Job.stream (j : Job) : Bool := decide (j.op = 3 ∨ j.op = 4)

/-- The volume of an ENC or DEC job. -/
def xVol (s : State) (j : Job) : Nat := jobVol s j 48

/-- The lengths of the source and the destination of a job (R221, R222, R225). -/
def xSrcLen (j : Job) : Nat :=
  match j.op with
  | 1 => classSize (swClass (xSlot j))
  | 2 => classSize (swClass (xSlot j)) + 16
  | 3 => xLen j
  | _ => xLen j + 16
@[inherit_doc xSrcLen] def xDstLen (j : Job) : Nat :=
  match j.op with
  | 1 => 0
  | 2 => classSize (swClass (xSlot j))
  | 3 => xLen j + 16
  | _ => xLen j

/-- The policy class that MASK is held against; none where the check is skipped (R226). -/
def xClass (s : State) (j : Job) : Option Nat :=
  match j.owner with
  | .ctx n => (kget s.ctxs n).map Ctx.cls
  | .stew _ => if j.stream then none else some (volClass s (xVol s j))

/-- Whether MASK of the key slot lacks the bit of the job's policy class. -/
def keyDenied (s : State) (j : Job) : Bool :=
  match kget s.xe.keys (xKey j), xClass s j with
  | some k, some c => !k.mask.testBit c
  | _, _ => false

/-- COUNT of a CIPHER job is 1, except for SENC and SDEC, where it gives LEN on DONE alone (R226). -/
def xCount (j : Job) (r : JobResult) : JobResult := { r with count := b2n !j.stream }

/-- The acceptance checks of a CIPHER job (R225, R226). -/
def checkCipher (j : Job) (s : State) : Option JobResult :=
  let v := xVol s j
  (firstFail (j.headChecks [1, 2, 3, 4] 1 ++
    [(j.nonzero 36 4 ||
        (if j.stream then j.nonzero 24 8 || decide (2 ^ 12 ≤ j.n 48 4)
         else j.nonzero 42 2 || (!swSealed (xSlot j) && j.nonzero 44 4) || j.nonzero 52 4 || j.nonzero 56 8 || decide (2 ^ 18 ≤ j.n 48 4)) ||
        (decide (j.op = 1) && j.nonzero 16 8), internal 3),
     ((j.stream && (decide (xLen j < 16 ∨ 65536 < xLen j) || decide (xLen j < xAad j))) ||
        (decide (j.op = 2) && decide (j.n 8 8 ≠ j.n 16 8) && overlap (j.n 8 8) (xSrcLen j) (j.n 16 8) (xDstLen j)), internal 4),
     j.bounds s false (j.n 8 8) (xSrcLen j), j.bounds s true (j.n 16 8) (xDstLen j),
     (!j.stream && (!volValid s v || decide (xKey j ≠ volKeyslot s v)), internal 4),
     ((kget s.xe.keys (xKey j)).isNone, JobResult.of rKeyempty),
     (keyDenied s j, JobResult.of rKeydenied)])).map (xCount j)

/-- An accepted cipher job holds its key and its volume's key epoch, group and flags (R213, R215). -/
def acceptCipher (id : Nat) (j : Job) (s : State) : State :=
  match xeJobOf s (xVol s j) (xKey j) with
  | some x => { s with xe := { s.xe with held := kput s.xe.held id x } }
  | none => s

/-- A cipher job ends and holds its key no more. -/
def endCipher (id : Nat) (r : JobResult) (s : State) : State :=
  finish id r { s with xe := { s.xe with held := kdel s.xe.held id } }

/-- The bytes out of a job that has ended with DONE are counted (R539). -/
def countOut (id : Nat) (j : Job) (s : State) : State :=
  match (kget s.jobs id).map Job.phase with
  | some (.done r) =>
    if r.code = 0 then pmc 0x1002 (instNumber cCipher j.inst) (if j.op = 1 then xSrcLen j else xDstLen j) s else s
  | _ => s

/-- Runs a cipher operation with what the job holds, counting its bytes (R539). -/
def runCipher (id op : Nat) (f : Job → XeJob → State → State) (s : State) : State :=
  runJob id cCipher op (fun j s => match kget s.xe.held id with
    | some x => countOut id j (f j x (pmc 0x1001 (instNumber cCipher j.inst) (xSrcLen j) s))
    | none => s) s

/-- The die of an engine instance. -/
def Job.die (j : Job) : Nat := j.inst / 0x8000

/-- Writes the encrypted slot and the trailer bytes of the engine into the slot's place in its tun, where it has one (R216, R217). -/
def putSlot (w : Nat) (d : List Byte) (tr : List Byte → List Byte) (s : State) : State :=
  match tunOf s (slotPool (swSlot w)) (slotSeg (swSlot w)) with
  | some (i, _) =>
    modTun i (fun t =>
      let o := slotOff (swSlot w)
      (t.write (slotData o) d).write (slotTrailer o) (tr (t.read (slotTrailer o) 16))) s
  | none => s

/-- ENC (R216, R217, R219). (log 66, DEDUCED, safe) -/
def execCipherEnc (job : Nat) (s : State) : Res :=
  ok (runCipher job 1 (fun j x s =>
    let w := xSlot j
    let c := swClass w
    let src := rdB s (j.n 8 8) (classSize c)
    let guard := plainGuard c src
    if c ≠ 3 ∧ fmtClass src ≠ c then endCipher job (xCount j (internal 4)) s
    else if x.sealed then
      if !swSealed w || decide (xGen j = 0) then endCipher job (xCount j (internal 4)) s
      else
        let ks := aesKeys (gcmKey x)
        let nonce := sealNonce (xGen j) (xLba j) x.vol
        let d := gcmText ks nonce src
        let tag := (gcmTag ks nonce (sealAad c) d).take 12
        let s := useKey j.die ⟨x.slot, 0, x.vol, x.epoch⟩ s
        let v := (Config.freeWord s.free).toNat
        endCipher job ⟨0, 0, 1, v⟩ (bump .XE_ENC_CNT (putSlot w d (fun t => putBytes t 0 tag) (nextFree s)))
    else
      let d := xts true (xtsKey x x.dom) (xtsTweak x.dom guard (xLba j)) src
      let s := useKey j.die (if x.dom then ⟨x.slot, 1, x.group, x.epoch⟩ else ⟨x.slot, 0, x.vol, x.epoch⟩) s
      let tr (t : List Byte) := putBytes (putBytes t 0 (leBytes 8 guard)) 10
        (leBytes 1 (putBitsN (fieldN t 10 1) 2 2 (b2n x.dom)))
      endCipher job (JobResult.done 1 guard) (bump .XE_ENC_CNT (putSlot w d tr s))) s)

/-- A job ends with CHECK: its output is undefined (R221, R222). -/
def cipherCheck (id : Nat) (j : Job) (s : State) : State :=
  endCipher id (xCount j (JobResult.of rCheck)) (bump .XE_CHECK_CNT (wrFree (j.n 16 8) (xDstLen j) s))

/-- DEC (R218, R221). -/
def execCipherDec (job : Nat) (s : State) : Res :=
  ok (runCipher job 2 (fun j x s =>
    let w := xSlot j
    let c := swClass w
    let d := rdB s (j.n 8 8) (classSize c)
    let tr := rdB s (j.n 8 8 + classSize c) 16
    let tag : KeyTag := if swSealed w || !trDomkey tr then ⟨x.slot, 0, x.vol, x.epoch⟩ else ⟨x.slot, 1, x.group, x.epoch⟩
    let s := useKey j.die tag s
    match openSlot x (swSealed w) c (xLba j) (xGen j) d tr with
    | none => cipherCheck job j s
    | some p => endCipher job (JobResult.done 1 (plainGuard c p)) (bump .XE_DEC_CNT (wrB (j.n 16 8) p s))) s)

/-- The key and the nonce of a record of a stream (R214, R222). -/
def strKeys (j : Job) (x : XeJob) : List (List Nat) := aesKeys (kdf x.key "NZ-STR" 2 (j.n 48 4) (xGen j) 256)
@[inherit_doc strKeys] def strNonce (j : Job) : List Byte := leBytes 8 (j.n 56 8) ++ leBytes 2 (j.n 48 4) ++ [0, 0x52]

/-- SENC (R222). -/
def execCipherSenc (job : Nat) (s : State) : Res :=
  ok (runCipher job 3 (fun j x s =>
    let r := rdB s (j.n 8 8) (xLen j)
    let aad := r.take (xAad j)
    let c := gcmText (strKeys j x) (strNonce j) (r.drop (xAad j))
    let tag := gcmTag (strKeys j x) (strNonce j) aad c
    let s := useKey j.die ⟨x.slot, 2, j.n 48 4, xGen j⟩ s
    endCipher job (JobResult.done (xLen j) 0) (bump .XE_ENC_CNT (wrB (j.n 16 8) (aad ++ c ++ tag) s))) s)

/-- SDEC (R222). -/
def execCipherSdec (job : Nat) (s : State) : Res :=
  ok (runCipher job 4 (fun j x s =>
    let r := rdB s (j.n 8 8) (xLen j)
    let tag := rdB s (j.n 8 8 + xLen j) 16
    let aad := r.take (xAad j)
    let c := r.drop (xAad j)
    let s := useKey j.die ⟨x.slot, 2, j.n 48 4, xGen j⟩ s
    if gcmTag (strKeys j x) (strNonce j) aad c = tag then
      endCipher job (JobResult.done (xLen j) 0)
        (bump .XE_DEC_CNT (wrB (j.n 16 8) (aad ++ gcmText (strKeys j x) (strNonce j) c) s))
    else cipherCheck job j s) s)

/-- A cipher job that times out: none of its output is valid (R226). -/
def timeoutCipher (id : Nat) (j : Job) (s : State) : State × JobResult :=
  let s := { s with xe := { s.xe with held := kdel s.xe.held id } }
  if j.op = 1 then
    let n := classSize (swClass (xSlot j))
    ({ putSlot (xSlot j) (freeBytes s n) (fun t => t) s with free := s.free + n }, xCount j (JobResult.of rTimeout))
  else (wrFree (j.n 16 8) (xDstLen j) s, xCount j (JobResult.of rTimeout))

end Sys2Proof.Machine
end

