-- ==== Sys2Proof/Machine/SendQueue.lean ====
section
/-! DEFINITION. Queue pairs, their send queues and the SGLs of commands: what the RDMA engine and the front end share (R326, R365, R376). -/

namespace Sys2Proof.Machine

/-! ### Queue pairs (R365) -/

/-- A queue pair that is not free, and changing one. -/
def qpOf (s : State) (q : Nat) : Option Qp := kget s.rx.qps q
@[inherit_doc qpOf] def modQp (q : Nat) (f : Qp → Qp) (s : State) : State := { s with rx := { s.rx with qps := kmod s.rx.qps q f } }

/-- Fields of the attribute record (R365). -/
def Qp.field (x : Qp) (lo n : Nat) : Nat := fieldN x.attr lo n
@[inherit_doc Qp.field] def Qp.pmtu (x : Qp) : Nat := 2 ^ (x.field 35 1 + 7)
@[inherit_doc Qp.field] def Qp.ord (x : Qp) : Nat := x.field 38 1
@[inherit_doc Qp.field] def Qp.ird (x : Qp) : Nat := x.field 39 1
@[inherit_doc Qp.field] def Qp.retries (x : Qp) : Nat := bitsN (x.field 37 1) 2 0
@[inherit_doc Qp.field] def Qp.rnrRetries (x : Qp) : Nat := bitsN (x.field 37 1) 6 4

/-! ### Scatter-gather lists (R326) -/

/-- An SGL as a job uses it (R326): keyed data blocks as address, length and key, in-capsule data, or a transport data block. -/
inductive Sgl where
  | keyed (l : List (Nat × Nat × Nat))
  | capsule (data : List Byte)
  | transport (n : Nat)

/-- A keyed descriptor. (log 85, PRESUMED, unsafe) -/
def keyedOf (d : List Byte) : Option (Nat × Nat × Nat) :=
  if [0x40, 0x4F].contains (fieldN d 15 1) then some (fieldN d 0 8, fieldN d 8 3, fieldN d 11 4) else none

/-- The SGL that a descriptor gives, with the capsule of its command. (log 99, DEDUCED, unsafe) -/
def sglOf (tcp : Bool) (d caps : List Byte) : Option Sgl :=
  let id := fieldN d 15 1
  let off := fieldN d 0 8
  let n := fieldN d 8 4
  if id = 0x01 then (if off + n ≤ caps.length then some (.capsule ((caps.drop off).take n)) else none)
  else if tcp then (if id = 0x5A then some (.transport n) else none)
  else if id = 0x31 then
    if n % 16 ≠ 0 ∨ 256 < n ∨ caps.length < off + n then none
    else
      ((List.range (n / 16)).mapM fun i => keyedOf ((caps.drop (off + 16 * i)).take 16)).map .keyed
  else (keyedOf d).map fun k => .keyed [k]

/-- The total length of an SGL. -/
def Sgl.total : Sgl → Nat
  | .keyed l => (l.map fun e => e.2.1).sum
  | .capsule d => d.length
  | .transport n => n

/-- The parts of keyed blocks that a range covers, as address, key and length. -/
def sliceKeyed : List (Nat × Nat × Nat) → Nat → Nat → List (Nat × Nat × Nat)
  | [], _, _ => []
  | (a, l, k) :: t, off, n =>
    if n = 0 then []
    else if l ≤ off then sliceKeyed t (off - l) n
    else (a + off, k, min n (l - off)) :: sliceKeyed t 0 (n - min n (l - off))

/-! ### The send queue (R376) -/

/-- How many PSNs an entry takes. -/
def SendEnt.packets (e : SendEnt) (pmtu : Nat) : Nat := max 1 ((e.len + pmtu - 1) / pmtu)

/-- What an entry sends. -/
def SendEnt.message (e : SendEnt) : RdmaOut :=
  match e.kind with
  | .read => .readReq e.psn e.addr e.rkey e.len
  | .write => .write e.psn e.addr e.rkey e.data
  | .cmd | .resp => .send e.psn e.data

/-- Entries of a send queue that may be sent now get their PSNs, in order: READ requests up to ORD at a time (R362). -/
def pumpGo (x : Qp) : List SendEnt → Nat → Nat → List SendEnt × Nat
  | [], psn, _ => ([], psn)
  | e :: l, psn, out =>
    if e.sent then
      let (r, p) := pumpGo x l psn (out + b2n (e.kind = .read))
      (e :: r, p)
    else if e.kind = .read ∧ x.ord ≤ out then (e :: l, psn)
    else
      let (r, p) := pumpGo x l ((psn + e.packets x.pmtu) % 2 ^ 24) (out + b2n (e.kind = .read))
      ({ e with psn := psn, sent := true } :: r, p)

/-- Sends what a queue pair in RTS may send. -/
def pump (q : Nat) (s : State) : State :=
  match qpOf s q with
  | some x =>
    if x.st ≠ 3 ∨ x.rnrHold then s
    else
      let (sq, psn) := pumpGo x x.sq x.spsn 0
      let new := (x.sq.zip sq).filterMap fun p => if p.2.sent && !p.1.sent then some p.2 else none
      let s := modQp q (fun x => { x with sq := sq, spsn := psn }) s
      new.foldl (fun t e => pmc 0x0A01 (q / 1024) e.data.length (emit (.rdma q e.message) t)) s
  | none => s

/-- Puts entries of a job on a send queue. -/
def enqueue (q : Nat) (l : List SendEnt) (s : State) : State := pump q (modQp q (fun x => { x with sq := x.sq ++ l }) s)

/-- The entries of a WRITE, with the data of each. -/
def writeEnts (job stage : Option Nat) : List (Nat × Nat × Nat) → List Byte → List SendEnt
  | [], _ => []
  | (a, k, n) :: t, d =>
    { kind := .write, job := job, stage := stage, addr := a, rkey := k, len := n, data := d.take n } :: writeEnts job stage t (d.drop n)

end Sys2Proof.Machine
end

