-- ==== Sys2Proof/Machine/MetaCache.lean ====
section
/-! DEFINITION. The metadata cache: its control, fills and range maintenance (R145 to R150, R157). -/

namespace Sys2Proof.Machine

/-- The lines of the cache that a disable, a clean or an invalidate of a line visit. -/
def cleanLine (l : McLine) : McLine := { l with dirty := false }

/-- How many bits of a way mask are set. -/
def waysSet (m : Nat) : Nat := (bitsSet 16 m).length

/-- Lines in a way that is no longer locked become ordinary lines (R145). -/
def unlockWays (mask : Nat) (s : State) : State :=
  { s with mc := { s.mc with lines := kmapV s.mc.lines fun _ l => { l with locked := l.locked && mask.testBit l.way } } }

/-- A write of MC_CTL (R145 to R147): more than 12 locked ways refuse it whole; EN = 1 needs INVOK; EN = 0 starts the disable, also where EN
is 0 already. -/
def wrMcCtl (v : Word) (s : State) : State :=
  let mask := bits v 31 16
  if 12 < waysSet mask then celRefused .MC_CTL v (setF F.MC_STAT_WLREFUSED 1 s)
  else
    let s := unlockWays mask (setF F.MC_CTL_WAYLOCK mask s)
    if !bit v 0 then setF F.MC_STAT_DISBUSY 1 s
    else if isF s F.MC_CTL_EN then s
    else if isF s F.MC_STAT_INVOK then setF F.MC_CTL_EN 1 s
    else celRefused .MC_CTL v (setF F.MC_STAT_ENFAIL 1 s)

/-- MC_CTL_WRITE (R145 to R147). -/
def execMcCtlWrite (v : Word) (s : State) : Res := ok (wrMcCtl v s)

/-- The end of a disable: every line clean, EN 0, DISBUSY 0, and INVOK cleared where EN was 1 (R146, R147). -/
def mcDisableEnd (s : State) : State :=
  let s := if isF s F.MC_CTL_EN then setF F.MC_STAT_INVOK 0 s else s
  setF F.MC_STAT_DISBUSY 0 (setF F.MC_CTL_EN 0 { s with mc := { s.mc with lines := kmapV s.mc.lines fun _ l => cleanLine l } })

/-- MC_DISABLE_DONE (R147). -/
def execMcDisableDone (s : State) : Res := ok (if isF s F.MC_STAT_DISBUSY then mcDisableEnd s else s)

/-- Whether an operation visits a line: the range, or everything for ALL. -/
def inRange (all : Bool) (lo n line : Nat) : Bool := all || (decide (lo ≤ line) && decide (line < lo + n))

/-- A skipped line is counted, and the first one's address kept (R149). -/
def skipLine (line : Nat) (s : State) : State :=
  let n := getF s F.MC_MAINT_SKIPPED_COUNT
  let s := if n = 0 then setF F.MC_MAINT_SKADDR_ADDR line s else s
  setF F.MC_MAINT_SKIPPED_COUNT (n + 1) s

/-- When an operation visits a line: by address, or for ALL by its set, both dies in parallel, those of L0 before those of L1 and by way
within a set (R148). (log 166, DESIGN CHOICE, unsafe) -/
def visitOrder (all : Bool) (line : Nat) (l : McLine) : Nat :=
  if all then (mcSet line % 16384 * 2 + mcSet line / 16384) * 16 + l.way else line

/-- The line among some that an operation visits first. -/
def firstVisited (all : Bool) : List (Nat × McLine) → Option Nat
  | [] => none
  | x :: l => some (l.foldl (fun (b : Nat × McLine) y => if visitOrder all y.1 y.2 < visitOrder all b.1 b.2 then y else b) x).1

/-- The pending fills of the lines that an operation visits are doomed (R149). -/
def doomFills (all : Bool) (lo n : Nat) (s : State) : State :=
  { s with mc := { s.mc with fills := kmapV s.mc.fills fun k f => if inRange all lo n k then { f with doomed := true } else f } }

/-- CLEAN writes the dirty lines of the range back and keeps them (R148, R149). -/
def maintClean (all : Bool) (lo n : Nat) (s : State) : State :=
  { s with mc := { s.mc with lines := kmapV s.mc.lines fun k l => if inRange all lo n k then cleanLine l else l } }

/-- INVALIDATE cleans and removes the lines of the range, copies in the side buffer included. A locked
line stays and is skipped, or is forced out with FORCE; one record counts the forced lines and gives the first (R149). -/
def maintInvalidate (all force : Bool) (lo n : Nat) (s : State) : State :=
  let hit := s.mc.lines.filter fun kv => inRange all lo n kv.1
  let locked := hit.filter fun kv => kv.2.locked
  let keep := fun (kv : Nat × McLine) => !inRange all lo n kv.1 || (kv.2.locked && !force)
  let s := { s with mc := { s.mc with
    lines := s.mc.lines.filter keep
    side := s.mc.side.filter fun k => !inRange all lo n k } }
  match firstVisited all locked with
  | none => s
  | some first =>
    if force then cel 0x1802 0 2 locked.length (first * 256 % 2 ^ 32) (first * 256 / 2 ^ 32) s
    else setF F.MC_MAINT_SKIPPED_COUNT locked.length (setF F.MC_MAINT_SKADDR_ADDR first s)

/-- LOCKFILL of one line (R149): into a free locked way, or skipped. -/
def lockfillLine (line : Nat) (s : State) : State :=
  let s := { s with mc := { s.mc with side := s.mc.side.erase line } }
  match kget s.mc.lines line with
  | some l =>
    if l.locked then s
    else
      match freeWay s line true with
      | some w => { s with mc := { s.mc with lines := kput s.mc.lines line { l with way := w, locked := true } } }
      | none => skipLine line s
  | none =>
    match freeWay s line true with
    | some w => { s with mc := { s.mc with lines := kput s.mc.lines line ⟨w, false, true⟩ } }
    | none => skipLine line s

/-- A write of MC_MAINT (R148, R149): the fields take their values, DONE clears on a 1, and GO starts the operation, which visits its
range at once, dooms the fills pending there and is BUSY until MC_MAINT_DONE. -/
def wrMcMaint (v : Word) (s : State) : State :=
  let op := bits v 2 1
  let s := if bit v 9 then setF F.MC_MAINT_DONE 0 s else s
  let s := setF F.MC_MAINT_OP op (setF F.MC_MAINT_ALL (bits v 3 3) (setF F.MC_MAINT_FORCE (bits v 4 4) s))
  if !bit v 0 then s
  else if isF s F.MC_MAINT_BUSY || isF s F.MC_STAT_DISBUSY || (decide (op = 2) && bit v 3) || decide (op = 3) then
    celRefused .MC_MAINT v (setF F.MC_STAT_MREFUSED 1 s)
  else
    let s := setF F.MC_MAINT_BUSY 1 (setF F.MC_MAINT_SKIPPED_COUNT 0 (setF F.MC_MAINT_SKADDR_ADDR 0 s))
    let s := { s with mc := { s.mc with maint := some (op, bit v 3) } }
    let lo := getF s F.MC_MAINT_BASE_BASE
    let n := getF s F.MC_MAINT_LEN_LEN
    let s := doomFills (bit v 3) lo n s
    match op with
    | 0 => maintClean (bit v 3) lo n s
    | 1 => maintInvalidate (bit v 3) (bit v 4) lo n s
    | _ => (List.range n).foldl (fun t k => lockfillLine (lo + k) t) s

/-- MC_CLEAN (R148). -/
def execMcClean (v : Word) (s : State) : Res := ok (if bits v 2 0 = 1 then wrMcMaint v s else s)

/-- MC_INVALIDATE (R148, R149). -/
def execMcInvalidate (v : Word) (s : State) : Res := ok (if bits v 2 0 = 3 then wrMcMaint v s else s)

/-- MC_LOCKFILL (R148, R149). -/
def execMcLockfill (v : Word) (s : State) : Res := ok (if bits v 2 0 = 5 then wrMcMaint v s else s)

/-- MC_FILL_LANDED (R143, R147, R149): a fill that lands while EN is 0 is not installed; a doomed fill is discarded, and one that a pipe
wanted starts anew; any other is installed in the cache, or in the side buffer of 2,048 lines a die, first in first out. -/
def execMcFillLanded (line : Nat) (s : State) : Res :=
  ok (match kget s.mc.fills line with
    | some f =>
      if !isF s F.MC_CTL_EN then { s with mc := { s.mc with fills := kdel s.mc.fills line } }
      else if f.doomed then
        { s with mc := { s.mc with fills := if f.side then kdel s.mc.fills line else kput s.mc.fills line { f with doomed := false } } }
      else
        let s := { s with mc := { s.mc with fills := kdel s.mc.fills line } }
        if f.side then
          let die k := mcSet k / 16384
          let same := s.mc.side.filter fun k => die k = die line
          let side := if same.length < 2048 then s.mc.side else match same with | k :: _ => s.mc.side.erase k | [] => s.mc.side
          { s with mc := { s.mc with side := side ++ [line] } }
        else installLine line f.dirty s
    | none => s)

/-- MC_MAINT_DONE (R146, R150): once no doomed fill is left, BUSY clears and DONE sets; an INVALIDATE with ALL that skipped no line
sets INVOK. -/
def execMcMaintDone (s : State) : Res :=
  ok (match s.mc.maint with
    | some (op, all) =>
      if s.mc.fills.any fun kv => kv.2.doomed then s
      else
        let s := setF F.MC_MAINT_DONE 1 (setF F.MC_MAINT_BUSY 0 { s with mc := { s.mc with maint := none } })
        if op = 1 && all && decide (getF s F.MC_MAINT_SKIPPED_COUNT = 0) then setF F.MC_STAT_INVOK 1 s else s
    | none => s)

end Sys2Proof.Machine
end

