-- ==== Sys2Proof/Machine/Scan.lean ====
section
/-! DEFINITION. What a pool has to repair, and what shows it: the positions to rebuild, the pauses of sparge passes, and the status of rebuild and
racking (R276, R277, R280, R281, R283, R287). -/

namespace Sys2Proof.Machine

/-- Whether this head may use a number of its half (R235, R237): the survivor of a takeover uses both. -/
def myHalf (s : State) (n : Nat) : Bool := soloMode s || decide (n % 2 = headNo s)

/-- The segment whose frame a frame is. -/
def segOfFrame (s : State) (p f : Nat) : Option Nat := kget s.plc.frames (frameKey p f)

/-- The frames of a pool whose segments are SEALED or MOVING, of this head's half where `mine` says so (R276). -/
def sealedFrames (s : State) (p : Nat) (mine : Bool) : List Nat :=
  (s.plc.frames.filter fun kv => decide (kv.1 / 2 ^ 26 = p) && (decide (segState s p kv.2 = sSealed) || decide (segState s p kv.2 = sMoving)) &&
    (!mine || myHalf s (kv.1 % 2 ^ 26))).map fun kv => kv.1 % 2 ^ 26

/-- How many positions of a frame have no readable copy. -/
def unreadable (s : State) (p f : Nat) : Nat := (positions s p f).countP fun pos => (posRead s p f pos).isNone

/-- The class of a frame by its unreadable positions (R277). -/
def frameClass (s : State) (p f : Nat) : Nat := match unreadable s p f with | 0 => 4 | 1 => 3 | 2 => 2 | _ => 1

/-- Whether a position lies on a FAILED member and has no readable copy, or on an EVACUATE member and has not been relocated. -/
def lostPos (s : State) (p f pos : Nat) : Bool := decide (memState s p (posMember s p f pos) = 2) && (posRead s p f pos).isNone
@[inherit_doc lostPos] def evacPos (s : State) (p f pos : Nat) : Bool :=
  decide (memState s p (posMember s p f pos) = 3) && decide ((posRead s p f pos).map Prod.fst = some (posMember s p f pos))

/-- The positions to rebuild among frames, of one class: META segments first, then by frame number. -/
def dueOf (s : State) (p : Nat) (frames : List Nat) (c : Nat) : List (Nat × Nat) :=
  let isMeta (f : Nat) : Bool := match segOfFrame s p f with | some g => segMeta s p g | none => false
  let l := frames.filter isMeta ++ frames.filter fun f => !isMeta f
  l.flatMap fun f => ((positions s p f).filter fun pos =>
    if c = 4 then evacPos s p f pos else decide (frameClass s p f = c) && lostPos s p f pos).map fun pos => (f, pos)

/-- The positions to rebuild among frames, in the order of R277. -/
def dueAmong (s : State) (p : Nat) (frames : List Nat) : List (Nat × Nat) :=
  dueOf s p frames 1 ++ dueOf s p frames 2 ++ dueOf s p frames 3 ++ dueOf s p frames 4

/-- The positions that this head has to rebuild. -/
def dueList (s : State) (p : Nat) : List (Nat × Nat) := dueAmong s p (sealedFrames s p true)

/-- Whether a position of a scan is still to be rebuilt: its frame is SEALED or MOVING, and it lies on a FAILED member without a readable copy or
on an EVACUATE member without a relocation (R276). -/
def stillDue (s : State) (p f pos : Nat) : Bool :=
  (sealedFrames s p true).contains f && (lostPos s p f pos || evacPos s p f pos)

/-- The scan of a pool. -/
def scanOf (s : State) (p : Nat) : List (Nat × Nat) := kgetD s.plc.scan p []

/-- Whether a pool has a COPYBACK member. -/
def hasCopyback (s : State) (p : Nat) : Bool := (List.range 256).any fun m => memState s p m = 4

/-- PLC_POOL*n*_RBSTAT after the scan or a member has changed (R287). -/
def putRbstat (p : Nat) (s : State) : State :=
  let frames := ((scanOf s p).map Prod.fst).eraseDups
  let crit := frames.filter fun f => frameClass s p f < 3
  let phase := match (scanOf s p) with
    | (f, pos) :: _ => if evacPos s p f pos then 3 else if frameClass s p f < 3 then 1 else 2
    | [] => if hasCopyback s p then 3 else 0
  setF F.PLC_RBSTAT_PHASE phase (setF F.PLC_RBSTAT_CRITLEFT crit.length (setF F.PLC_RBSTAT_LEFT frames.length s p) p) p

/-- Whether sparge passes pause in a pool (R281). -/
def spargePaused (s : State) (p : Nat) : Bool := decide (scanOf s p ≠ []) || hasCopyback s p || decide (s.plc.rack = some p)

/-- The time of a cycle moves on by a pause that has ended. -/
def endPause (p : Nat) (s : State) : State :=
  let lost := s.dtime.toNat - kgetD s.plc.paused p s.dtime.toNat
  let c := match kget s.plc.cycle0 p with | some c => kput s.plc.cycle0 p (c + lost) | none => s.plc.cycle0
  { s with plc := { s.plc with cycle0 := c, paused := kdel s.plc.paused p } }

/-- A pause of the sparge passes begins or ends as a rebuild, a copy-back or racking does (R281). -/
def markPause (p : Nat) (s : State) : State :=
  match spargePaused s p, kget s.plc.paused p with
  | true, none => { s with plc := { s.plc with paused := kput s.plc.paused p s.dtime.toNat } }
  | false, some _ => endPause p s
  | _, _ => s

/-- What shows the repairs of a pool follows a change of its scan, of a member or of its racking (R281, R287). -/
def noteRepair (p : Nat) (s : State) : State := putRbstat p (markPause p s)

/-- The scan of a pool changes. -/
def putScan (p : Nat) (l : List (Nat × Nat)) (s : State) : State :=
  noteRepair p { s with plc := { s.plc with scan := kputD [] s.plc.scan p l } }

/-- The bands of a geometry that are VALID, of the current one (`gen` false) or the target (R283). -/
def bandsOf (s : State) (p : Nat) (gen : Bool) : List Nat :=
  (List.range 16384).filter fun e => (bandOf s p e).testBit 33 && ((bandOf s p e).testBit 32 == gen)

/-- RKSTAT.OLDLEFT and NEWBANDS follow the band table of the pool that is racked (R287). -/
def putRkstat (p : Nat) (s : State) : State :=
  if s.plc.rack ≠ some p then s
  else setF F.PLC_RKSTAT_OLDLEFT (bandsOf s p false).length (setF F.PLC_RKSTAT_NEWBANDS (bandsOf s p true).length s)

end Sys2Proof.Machine
end

