-- ==== Sys2Proof/Machine/Journal.lean ====
section
/-! DEFINITION. The cask journal (R250 to R257, R423 to R427): the record ring, APPEND and MARK jobs, the device's own records, member
states, the mirror receiver, retirement and replay. -/

namespace Sys2Proof.Machine

/-! ### Records (R251) -/

/-- The types of a record. -/
def tyDelta : Nat := 1
@[inherit_doc tyDelta] def tyRoot : Nat := 2
@[inherit_doc tyDelta] def tyTun : Nat := 3
@[inherit_doc tyDelta] def tyPool : Nat := 4
@[inherit_doc tyDelta] def tyPad : Nat := 5
@[inherit_doc tyDelta] def tyStew : Nat := 6

/-- The bytes of a record at a time: its header and its body, padded to whole units. -/
def recordBytes (r : JRec) (dtime : Nat) : List Byte :=
  let body := r.body ++ zeros (64 * r.len - 64 - r.body.length)
  let head := leBytes 4 0x4B53_4143 ++ leBytes 1 r.ty ++ leBytes 1 r.flags ++ leBytes 2 r.len ++ leBytes 8 r.seq ++
    leBytes 4 r.arg ++ leBytes 4 r.nent ++ leBytes 8 (if r.len = 1 then 0 else crc64 body) ++ leBytes 8 dtime ++ zeros 16
  head ++ leBytes 8 (crc64 head) ++ body

/-- The units of a record with a body of `n` bytes. -/
def recordUnits (n : Nat) : Nat := 1 + (n + 63) / 64

/-- Whether the bytes of a record pass the checks of R256 for a SEQ. -/
def recordGood (l : List Byte) (seq : Nat) : Bool :=
  decide (fieldN l 0 4 = 0x4B53_4143) && decide (fieldN l 56 8 = crc64 (l.take 56)) && decide (fieldN l 8 8 = seq) &&
    (decide (fieldN l 6 2 = 1) || decide (fieldN l 24 8 = crc64 ((l.drop 64).take (64 * fieldN l 6 2 - 64))))

/-- A record from its bytes. -/
def recordOf (r : Rec) : JRec :=
  let l := r.bytes
  { tun := r.acts.findSome? fun a => match a with | .tun img .. => some img | _ => none
    seq := fieldN l 8 8, off := r.off, len := fieldN l 6 2, ty := fieldN l 4 1, flags := fieldN l 5 1, arg := fieldN l 16 4,
    nent := fieldN l 20 4, body := (l.drop 64).take (64 * fieldN l 6 2 - 64), acts := r.acts }

/-- The next SEQ, the oldest unretired one, and the ring bytes in use (R263). -/
def nextSeq (s : State) : Nat := getF s F.TA_JSEQ_NEXT
@[inherit_doc nextSeq] def oldestSeq (s : State) : Nat := match s.ta.recs with | r :: _ => r.seq | [] => nextSeq s
@[inherit_doc nextSeq] def ringUsed (s : State) : Nat := (s.ta.recs.map fun r => 64 * r.len).sum

/-! ### The rows of the vault (R459 to R461) -/

/-- The vault drives that take a write: none while the vault is not in use, and none that has failed (R459, R464). (log 75, DEDUCED, unsafe) -/
def vaultDrives (s : State) : List Nat :=
  if isF s F.PWR_VAULT_EN then (List.range 4).filter fun d => !(getF s F.PWR_VSTAT_FAILED).testBit d else []

/-- The first block of an image: of the own journal, or of the partner's mirror (R460). -/
def imagePlace (mirror : Bool) : Nat := if mirror then 0x1A_0000 else 0x4_0000

/-- The rows that `n` bytes from an offset touch, and the bytes of a row (R461). -/
def rowBytes : Nat := 786432
@[inherit_doc rowBytes] def rowsOf (lo n : Nat) : List Nat :=
  (List.range ((lo + n - 1) / rowBytes + 1 - lo / rowBytes)).map fun i => lo / rowBytes + i

/-- The four units of a row of a region of `size` bytes: each vault drive with its 262,144 bytes, the parity unit on drive *r* mod 4; what
lies beyond the region is zero (R461). -/
def rowUnits (s : State) (base size r : Nat) : List (Nat × List Byte) :=
  let unit (u : Nat) : List Byte := (List.range 262144).map fun k =>
    let o := rowBytes * r + 262144 * u + k
    if o < size then mget s.mem (base + o) else 0
  let us := (List.range 3).map fun u => ((r % 4 + 1 + u) % 4, unit u)
  us ++ [(r % 4, us.foldl (fun l x => List.zipWith (· ^^^ ·) l x.2) (zeros 262144))]

/-- The blocks of a row on the drives of a list: drive, block, data and metadata (R461). -/
def rowBlocks (ds : List Nat) (units : List (Nat × List Byte)) (first : Nat) (md : List Byte) : List (Nat × Nat × List Byte × List Byte) :=
  (units.filter fun u => ds.contains u.1).flatMap fun u =>
    (List.range 64).map fun b => (u.1, first + b, (u.2.drop (4096 * b)).take 4096, md)

/-- The rows of the own image that a record and its copied slot bytes touch (R463). -/
def recordRows (r : JRec) (s : State) : List Nat :=
  (rowsOf r.off (64 * r.len) ++ r.copies.flatMap fun c => rowsOf (ringSize s + 2 ^ 25 * c.1 + c.2.1) c.2.2.length).eraseDups

/-- A record goes to the partner's mirror, or in solo mode every row that it touches to the vault drives (R252, R427, R463). With XE_PLINK.EN it takes the next number
of the link's record counter, which starts at 1, and is sealed under the link key (R223). -/
def sendRecord (r : JRec) (s : State) : State :=
  let m : Rec := ⟨r.off, recordBytes r s.dtime.toNat, r.acts, r.copies⟩
  if soloMode s then emit (.vaultWrite ((recordRows r s).flatMap fun k =>
      rowBlocks (vaultDrives s) (rowUnits s ownRing (2 ^ 34) k) (imagePlace false + 0x40 + 64 * k) (leBytes 8 s.pwr.gen ++ zeros 56))) s
  else
    if (linkVals s).1 then
      let s := { s with xe := { s.xe with linkSeq := s.xe.linkSeq + 1 } }
      let (c, t) := linkSeal s (headNo s) s.xe.linkSeq (m.bytes ++ m.copies.flatMap fun x => x.2.2)
      toPartner (.sealed s.xe.linkSeq c t m.off m.acts (m.copies.map fun x => (x.1, x.2.1, x.2.2.length))) s
    else toPartner (.record m) s

/-- A record has its SEQ: the tun of a TUN record and the relocation entries of a POOL record keep it (R236, R240, R245). -/
def noteSeq (r : JRec) (s : State) : State :=
  r.acts.foldl (fun t a =>
    match a with
    | .tun img _ _ _ _ st _ => modTun img (fun u => { u with seq := r.seq, ck := if st = sOpen then r.seq else u.ck }) t
    | .reloc key _ _ => { t with plc := { t.plc with reloc := kmod t.plc.reloc key fun x => { x with seq := r.seq } } }
    | _ => t) s

/-- Slot copies are written into the tun images of a region. -/
def putCopies (base : Nat) (l : List (Nat × Nat × List Byte)) (s : State) : State :=
  l.foldl (fun t c => wrB (imageAddr t base c.1 + c.2.1) c.2.2 t) s

/-- Puts a record at the head of the ring with the next SEQ, and its copies into the tun images. (log 71, DESIGN CHOICE, unsafe) -/
def putRecord (r : JRec) (s : State) : State :=
  let r := { r with seq := nextSeq s, off := s.ta.woff, flags := b2n (soloMode s) }
  let s := noteSeq r (putCopies ownRing r.copies (wrB (ownRing + r.off) (recordBytes r s.dtime.toNat) s))
  let s := setF F.TA_JSEQ_NEXT (r.seq + 1) { s with ta := { s.ta with
    recs := s.ta.recs ++ [r], woff := (s.ta.woff + 64 * r.len) % ringSize s } }
  sendRecord r (pmc 0x1202 0 1 s)

/-- The ring bytes that a PAD takes before a record of `n` units, which would pass the ring's end. -/
def padFor (s : State) (n : Nat) : Nat := if ringSize s < s.ta.woff + 64 * n then ringSize s - s.ta.woff else 0

/-- Whether the ring takes a record of `n` units now (R257). While the head drains for a link rekey no record goes to the partner (R422). -/
def ringTakes (s : State) (n : Nat) : Bool := decide (ringUsed s + padFor s n + 64 * n ≤ ringSize s) && !s.rekey.draining

/-- Appends a record where the ring has room (R257), after a PAD where it would pass the ring's end. -/
def appendRecord (r : JRec) (s : State) : Option State :=
  let pad := padFor s r.len
  if !ringTakes s r.len then none
  else
    let s := if pad = 0 then s else putRecord { seq := 0, len := pad / 64, ty := tyPad, arg := 0, nent := 0, body := [], done := false } s
    some (putRecord r s)

/-- The device appends a record of its own, which waits where the ring has no room or another waits. -/
def appendOwn (r : JRec) (s : State) : State :=
  match (if s.ta.waiting = [] then appendRecord r s else none) with
  | some t => t
  | none => { s with ta := { s.ta with waiting := s.ta.waiting ++ [r] } }

/-- A record of the device's own with entries of a size. The bytes of an entry are free where the spec gives them no layout; what they say is
in `acts`. (log 68, DESIGN CHOICE, safe) -/
def journal (ty arg entBytes : Nat) (acts : List Act) (tun : Option Nat) (copies : List (Nat × Nat × List Byte)) (s : State) : State :=
  let n := entBytes * acts.length
  let r : JRec := {
    seq := 0, len := recordUnits n, ty := ty, arg := arg, nent := acts.length, body := freeBytes s n, acts := acts, tun := tun, copies := copies }
  appendOwn r { s with free := s.free + n }

/-- A POOL record of changes. -/
def journalPool (acts : List Act) (s : State) : State := journal tyPool 0 16 acts none [] s

/-- The identifier word of an entry of a ROOT record, where the spec gives it: 0b10 and the snapshot number of a snapshot table entry (R294). (log 68, DESIGN CHOICE, safe) -/
def rootIdent (a : Act) (free : Word) : Nat :=
  match a with
  | .snapshot n _ => 2 ^ 31 + n % 2 ^ 24
  | .root v _ => v % 2 ^ 18
  | _ => free.toNat % 2 ^ 32

/-- A ROOT record: each entry of 16 bytes has its identifier word, and ROOT in its second half where it is a volume's (R251). -/
def journalRoot (acts : List Act) (s : State) : State :=
  let body := acts.zipIdx.flatMap fun (a, i) =>
    let w (k : Nat) : Word := Config.freeWord (s.free + 3 * i + k)
    leBytes 4 (rootIdent a (w 0)) ++ leBytes 4 ((w 1).toNat % 2 ^ 32) ++
      leBytes 8 (match a with | .root _ slot => slot | _ => (w 2).toNat)
  let r : JRec := { seq := 0, len := recordUnits body.length, ty := tyRoot, arg := 0, nent := acts.length, body := body, acts := acts }
  appendOwn r { s with free := s.free + 3 * acts.length }

/-- The device's own waiting records are appended while there is room. -/
def drainWaiting : List JRec → State → State
  | [], s => { s with ta := { s.ta with waiting := [] } }
  | r :: l, s =>
    match appendRecord r s with
    | some t => drainWaiting l t
    | none => { s with ta := { s.ta with waiting := r :: l } }

/-- The root records that page moves asked for are appended (R124, R137). -/
def drainRoots (s : State) : State :=
  if s.rootRecs = [] then s
  else journalRoot s.rootRecs { s with rootRecs := [] }

/-! ### Cuts (R292, R293, R296, R297) -/

/-- The bytes of a snapshot table entry (R294). -/
def snapBytes (root vol epoch st cgid ck dtime mapped size : Nat) : List Byte :=
  leBytes 8 root ++ leBytes 4 vol ++ leBytes 4 epoch ++ leBytes 1 st ++ zeros 3 ++ leBytes 4 cgid ++ leBytes 8 ck ++ leBytes 8 dtime ++
    leBytes 8 mapped ++ leBytes 8 size ++ zeros 8

/-- The pages of a tree, from a page at a level down. -/
def treePages (s : State) : Nat → Nat → List Nat
  | 0, id => [id]
  | level + 1, id => id :: match pageOf s id with
    | some p => p.kids.flatMap fun e => treePages s level e.2
    | none => []

/-- The map engine cuts one volume (R296, R297): the snapshot is CUTTING, EPOCH rises, the root's home counts once more, and every page
of the tree that is DIRTY or WRITING is pinned. A volume whose EPOCH cannot rise is left out (R293). -/
def cutVolume (c : CutRec) (v n : Nat) (s : State) : State :=
  if 0xFFFF_FFFF ≤ volEpoch s v then s
  else
    let entry := snapBytes 0 v (volEpoch s v) 1 c.cgid c.seq s.dtime.toNat (volMapped s v) (volSize s v)
    let s := wrN (volAddr v + 32) 4 (volEpoch s v + 1) (wrB (snapAddr s n) entry s)
    let s := match kget s.me.root v with
      | none => s
      | some r =>
        let s := match pageOf s r with | some p => if p.home = 0 then s else srtAdd p.home s | none => s
        let s := { s with me := { s.me with snapRoot := kput s.me.snapRoot n r } }
        (treePages s 3 r).foldl (fun t id => modPage id (fun p => if p.changed && p.pin.isNone then { p with pin := some n } else p) t) s
    let s := bump .ME_CUT_CNT { s with snap := { s.snap with cutting := kput s.snap.cutting n v } }
    if c.own then journalRoot [.snapshot n entry] s else s

/-- The cuts that the map engine has reached are applied (R296): each before any delta of a later SEQ. -/
def applyCuts (s : State) : State :=
  s.snap.cuts.foldl (fun t c => c.ents.foldl (fun u e => cutVolume c e.1 e.2 u) t) { s with snap := { s.snap with cuts := [] } }

/-- CUT_APPLY (R296). -/
def execCutApply (s : State) : Res := ok (applyCuts s)

/-- The map engine reaches a cut record. (log 51, DEDUCED, unsafe) -/
def reachCut (own : Bool) (seq : Nat) (ents : List (Nat × Nat)) (cgid : Nat) (s : State) : State :=
  { s with snap := { s.snap with cuts := s.snap.cuts ++ [⟨seq, ents, cgid, own⟩] } }

/-! ### Delete walks (R301) -/

/-- Whether nothing names a page any more: its home's COUNT is zero, or it never had a home and no page and no root names it. -/
def pageDead (s : State) (id : Nat) : Bool :=
  match pageOf s id with
  | some p => if p.home = 0 then decide (parentsOf s id = [] ∧ rootsOf s id = [] ∧ snapRootsOf s id = []) else decide (srtCount (srt s p.home) = 0)
  | none => false

/-- The VALID slot words of a page: those of its home copy where it is not in a frame; a child without a home has none yet. -/
def pageWords (s : State) (p : Page) : List Nat :=
  (p.ents.filter fun e => swValid e.2.1 && !unhomed s p e.1).map fun e => e.2.1

/-- A page is freed: its slot words count once less, in the slot-reference pages that do not reflect the record that tells of it, the page goes,
and the walk that visits it goes on with its children. -/
def freePage (seq : RingSeq) (id : Nat) (s : State) : State :=
  match pageOf s id with
  | some p =>
    let kids := p.kids.map Prod.snd
    let done := reflecting s seq
    let s := (pageWords s p).foldl (fun t w => wordSubNew seq done w t) s
    let s := { s with me := { s.me with pages := kdel s.me.pages id } }
    let visit (w : Walk) : Walk := if w.todo.contains id then { w with todo := w.todo.erase id ++ kids } else w
    bump .ME_PGFREE_CNT { s with snap := { s.snap with walks := s.snap.walks.map visit } }
  | none => s

/-- A freed page of the partner's walk: the page with that home where a walk visits one, else its words alone. -/
def applyFreed (seq : RingSeq) (slot : Nat) (words : List Nat) (s : State) : State :=
  match (s.snap.walks.flatMap Walk.todo).find? fun id => (pageOf s id).any fun p => p.home = slot with
  | some id => freePage seq id s
  | none =>
    let done := reflecting s seq
    words.foldl (fun t w => wordSubNew seq done w t) s

/-- The tree of a snapshot or of a volume is no longer reached from it. -/
def dropRoot (snap : Bool) (n : Nat) (s : State) : State :=
  { s with me := if snap then { s.me with snapRoot := kdel s.me.snapRoot n } else { s.me with root := kdel s.me.root n } }

/-- The root of a tree is named once less, and a walk is queued for it: a DELETE of a snapshot, or a RELEASE of a volume's own tree. What already
runs on the tree goes on until the walk starts. -/
def startWalk (snap : Bool) (n : Nat) (s : State) : State :=
  let root := kget (if snap then s.me.snapRoot else s.me.root) n
  let s := match root.bind (pageOf s) with
    | some p => if p.home = 0 then s else srtSub p.home s
    | none => s
  { s with snap := { s.snap with walks := s.snap.walks ++ [⟨snap, n, root.toList⟩] } }

/-- A journalled change of a snapshot table entry takes effect on the other head (R294). -/
def applySnapEntry (n : Nat) (e : List Byte) (s : State) : State :=
  let old := snapState s n
  let st := fieldN e 16 1
  let s := wrB (snapAddr s n) e s
  if st = 2 ∧ old = 1 then
    { s with
      me := { s.me with pages := kmapV s.me.pages fun _ p => if p.pin = some n then { p with pin := none } else p }
      snap := { s.snap with cutting := kdel s.snap.cutting n } }
  else if st = 3 ∧ old ≠ 3 then startWalk true n s
  else if st = 0 then dropRoot true n { s with snap := { s.snap with walks := s.snap.walks.filter fun w => !(w.snap && decide (w.num = n)) } }
  else s

/-- Changes the record of an index domain and journals it (R172). -/
def setDomain (d : Nat) (x : Domain) (s : State) : State :=
  journalRoot [.domain d x.entries x.level x.split (if x.keyset then some (x.keyslot, x.keyepoch) else none)] (setDom d x s)

/-! ### Member states (R266) -/

/-- A rebuild scan starts again at the top (R277). -/
def restartScan (p : Nat) (s : State) : State := putScan p [] s

/-- Writes the state of a member. When it becomes FAILED the rebuild scan restarts, what was copied back onto it counts no more (R280), and
racking in the pool is held (R286). (log 77, DEDUCED, unsafe) -/
def putMember (p m st : Nat) (s : State) : State :=
  let failed := decide (st = 2) && decide (memState s p m ≠ 2)
  let s := setF F.PLC_MEM_STATE st s p m
  if !failed then noteRepair p s
  else
    let s := restartScan p s
    let s := { s with plc := { s.plc with back := s.plc.back.filter fun k => !(decide (k / 2 ^ 31 = p) && decide (posMember s p (k / 32 % 2 ^ 26) (k % 32) = m)) } }
    if s.plc.rack = some p then setF F.PLC_RKSTAT_PAUSED 1 s else s

/-- The drive-state event and the record of a change of a member's state. The number of the cause is a free value (R266). (log 45, DESIGN CHOICE, safe) -/
def memberNote (p m old st : Nat) (s : State) : State :=
  let c := (Config.freeWord s.free).toNat
  cel 0x0B10 p (if st = 2 then 3 else 2) m (old * 16 + st) c (raise 0x0B10 (p * 256 + m) (nextFree s))

/-- A member changes state: journalled in a POOL record, with the event and the record (R266). -/
def memberTo (p m st : Nat) (s : State) : State :=
  let old := memState s p m
  if old = st then s else memberNote p m old st (journalPool [.member p m st] (putMember p m st s))

/-! ### Streams: which records start stream contexts (R305 to R309) -/

/-- The submission queue entry of a stream context (R307). -/
def strSqe (opc stream nmsg seq prev src nent epoch oldlast : Nat) : List Byte :=
  leBytes 1 opc ++ zeros 3 ++ leBytes 2 stream ++ leBytes 2 nmsg ++ leBytes 8 seq ++ leBytes 8 prev ++ leBytes 8 src ++ leBytes 4 nent ++
    leBytes 4 epoch ++ leBytes 8 oldlast ++ zeros 16

/-- A stream context is due: it carries messages from the one after LASTSEQ on; the first of an epoch has PREV 0 and carries OLDLAST
(R307). (log 82, DEDUCED, unsafe) -/
def queueStream (opc n nmsg seq src nent cask : Nat) (mirror : Bool) (s : State) : State :=
  let first := s.str.first.contains n
  let sqe := strSqe opc n nmsg seq (if first then 0 else strLast s n) src nent (strEpoch s n) (if first then strOldLast s n else 0)
  let s := wrN (strAddr s n + 32) 8 (seq + nmsg - 1) s
  { s with str := { s.str with first := s.str.first.erase n, waits := s.str.waits ++ [⟨⟨n, opc, src, cask, mirror⟩, sqe, false⟩] } }

/-- A DELTA record of a SYNC or TWIN volume is DONE at the OWNER, or accepted into the mirror at the PEER, where only a TWIN stream of an
ACTIVE head starts, from the epoch on that the OWNER announced (R307, R309). -/
def streamRecord (r : JRec) (src : Nat) (mirror : Bool) (s : State) : State :=
  match strOfVol s (bitsN r.arg 17 0) with
  | none => s
  | some n =>
    let mode := strMode s n
    let mine := if mirror then decide (mode = 2) && decide (getF s F.SYS_HEAD_STATE = 2) && !s.str.mute.contains n
      else decide (mode = 1 ∨ mode = 2)
    if mine && strValid s n && !strRecv s n && decide (strState s n ≠ 2) then
      queueStream 0xC8 n ((r.nent + 63) / 64) (64 * r.seq) src r.nent r.seq mirror s
    else s

/-! ### APPEND and MARK (R252, R253, R257) -/

/-- Whether an APPEND of a volume is admitted: this head owns the group, takes it over, or gives it away and its flows may still append
(R243, R419, R437). (log 70, DEDUCED, unsafe) -/
def mayAppend (s : State) (v : Nat) : Bool :=
  let g := volGroup s v
  ownsVol s v || (decide (getF s F.SYS_GRP_POS g = 3) && !s.partner.expired.contains g)

/-- Whether a job comes from a cancelled context (R333). -/
def cancelledJob (s : State) (j : Job) : Bool :=
  match j.owner with
  | .ctx n => match kget s.ctxs n with | some c => c.cancelled | none => false
  | .stew _ => false

/-- The acceptance checks of a JRNL job. -/
def checkJrnl (j : Job) (s : State) : Option JobResult :=
  let v := jobVol s j 20
  let n := j.n 16 4
  firstFail (j.headChecks [1, 2] 1 ++
    [(decide (j.op = 2) && !j.fromStew, internal 2),
     (j.nonzero 24 40 || decide (2 ^ 18 ≤ j.n 20 4), internal 3),
     (if j.op = 1 then decide (n = 0 ∨ 4096 < n) else decide (n < 64 ∨ 262144 < n ∨ n % 64 ≠ 0), internal 4),
     j.bounds s false (j.n 8 8) (if j.op = 1 then 16 * n else n),
     (decide (j.op = 1) && (!volValid s v || volRo s v ||
       (deltasOf (rdB s (j.n 8 8) (16 * n)) n).any fun d => decide (volSize s v ≤ d.lba)), internal 4),
     (decide (j.op = 1) && (!mayAppend s v || cancelledJob s j), JobResult.of rFenced)])

/-- The slot copies of a record: for each delta whose slot has UNJ = 1 and lies in a tun of this head still in HBM, its bytes and its
trailer, with the image (R252). -/
def slotCopies (s : State) (l : List Delta) : List (Nat × Nat × List Byte) :=
  l.flatMap fun d =>
    if !srtUnj (srt s (swSlot d.word)) || !swValid d.word then []
    else
      match tunOf s (slotPool (swSlot d.word)) (slotSeg (swSlot d.word)) with
      | some (i, t) =>
        if t.phase = .sealed then []
        else
          let o := slotOff (swSlot d.word)
          [(i, slotData o, t.read (slotData o) (classSize (swClass d.word))), (i, slotTrailer o, t.read (slotTrailer o) 16)]
      | none => []

/-- The images whose slots a delta list references. -/
def imagesOf (s : State) (l : List Delta) : List Nat :=
  (l.filterMap fun d => (tunOf s (slotPool (swSlot d.word)) (slotSeg (swSlot d.word))).map Prod.fst).eraseDups

/-- An APPEND or MARK job appends its record, or is held where the ring has no room (R252, R257); after step 2 of a power fail no APPEND appends
(R453). Ownership lost since acceptance ends
an APPEND with FENCED (R437). -/
def tryAppend (id op : Nat) (s : State) : State :=
  runJob id cJrnl op (fun j s =>
    let v := jobVol s j 20
    let n := j.n 16 4
    if (s.ta.recs.any fun r => r.job = some id) || (decide (op = 1) && decide (3 ≤ getF s F.PWR_PF_STEP)) then s
    else if op = 1 && !mayAppend s v then finish id (JobResult.of rFenced) s
    else
      let body := rdB s (j.n 8 8) (if op = 1 then 16 * n else n)
      let ds := if op = 1 then deltasOf body n else []
      let r : JRec := {
        seq := 0, len := recordUnits body.length, ty := if op = 1 then tyDelta else tyStew
        arg := if op = 1 then v else 0, nent := if op = 1 then n else 0, body := body, copies := slotCopies s ds
        job := some id, imgs := imagesOf s ds }
      match appendRecord r s with
      | none => s
      | some t =>
        match j.owner with
        | .ctx c => { t with str := { t.str with lastApp := kput t.str.lastApp c (nextSeq t - 1) } }
        | .stew _ => t) s

/-- JRNL APPEND (R252). -/
def execJrnlAppend (job : Nat) (s : State) : Res := ok (tryAppend job 1 s)

/-- JRNL MARK (R252). -/
def execJrnlMark (job : Nat) (s : State) : Res := ok (tryAppend job 2 s)

/-- APPEND_UNBLOCKED (R257): retirement has freed ring room, and a held job proceeds, after the device's own waiting records. -/
def execAppendUnblocked (job : Nat) (s : State) : Res :=
  ok (tryAppend job 2 (tryAppend job 1 (drainWaiting s.ta.waiting s)))

/-- DONE returns to the jobs of records that are done, unless the head is fenced for a pair cut (R253, R299). -/
def returnDone (s : State) : State :=
  if s.snap.fence then s
  else
    let s1 := s.ta.recs.foldl (fun t r =>
      match r.job with
      | some id => if r.done then finish id ⟨r.code, 0, if r.ty = tyStew then 1 else r.nent, r.seq⟩ t else t
      | none => t) s
    { s1 with ta := { s1.ta with recs := s1.ta.recs.map fun r => if r.done then { r with job := none } else r } }

/-- A record of this head takes its effect as it becomes DONE: a DELTA's entries are applied by an UPDATE, which the checks of R153 may refuse,
and its stream context is due (R32, R253, R307). -/
def recordDone (r : JRec) (s : State) : State :=
  if r.ty = tyDelta then
    let v := bitsN r.arg 17 0
    let ds := deltasOf r.body r.nent
    let s := applyCuts s
    let s := if updateOk s v ds && mayUpdate s v then applyDeltas v ⟨false, r.seq⟩ ds s else s
    streamRecord r (ownRing + r.off) false s
  else
    r.acts.foldl (fun t a => match a with | .cut ents cgid => reachCut true r.seq ents cgid t | _ => t) s

/-- The lowest record not yet DONE becomes DONE, and what waits for it returns (R253). -/
def journalDone (r : JRec) (s : State) : State :=
  let s := { s with ta := { s.ta with recs := s.ta.recs.map fun x => if x.seq = r.seq then { x with done := true } else x } }
  returnDone (drainRoots (recordDone r s))

/-- A JRNL job that times out: an APPEND that is held for room, or one whose record is not DONE; nothing is undone (R99, R257). (log 178, DEDUCED, unsafe) -/
def timeoutJrnl (id : Nat) (s : State) : State × JobResult :=
  ({ s with ta := { s.ta with recs := s.ta.recs.map fun r => if r.job = some id then { r with job := none } else r } }, ⟨rTimeout, 0, 0, 0⟩)

/-! ### The mirror (R254, R423 to R426) -/

/-- The fields of SYS_GRP that a change of OWNER sets (R418). -/
def putOwner (g head oepoch : Nat) (s : State) : State :=
  setF F.SYS_GRP_OWNER head (setF F.SYS_GRP_OEPOCH oepoch s g) g

/-- A TUN entry of a record takes effect on the segment table and the frames; `own` says whether the tun is one that this head works on. A tun
of the partner keeps the SEQ of the record that opened it (R236). -/
def applyTun (own : Bool) (seq img pool kind seg frame state : Nat) (s : State) : State :=
  let s := wrBits (segAddr s pool seg) 8 30 0 (frame + state * 2 ^ 26 + (if kind = 1 then 2 ^ 30 else 0)) s
  let s := { s with plc := { s.plc with frames :=
    if state = sFree ∨ state = sForwarded then kdel s.plc.frames (frameKey pool frame) else kput s.plc.frames (frameKey pool frame) seg } }
  if own then s
  else
    let live := decide (state = sOpen ∨ state = sSealing)
    let t : Tun := {
      pool := pool, kind := kind, seg := seg, frame := frame, k := frameK s pool frame, seq := seq
      ck := if state = sOpen then seq else match kget s.ta.ptuns img with | some u => u.ck | none => 0
      phase := if state = sOpen then .opened else .sealing
      used := true }
    { s with ta := { s.ta with ptuns := if live then kput s.ta.ptuns img t else kdel s.ta.ptuns img } }

/-- The switch-over of a pool to its target geometry (R286). -/
def switchPool (p : Nat) (s : State) : State :=
  let s := setF F.PLC_GEOM_K (getF s F.PLC_RKGEOM_K) s p
  let s := setF F.PLC_GEOM_MEMBERS (getF s F.PLC_RKGEOM_MEMBERS) s p
  let s := setF F.PLC_GEOM_EPOCHCH (getF s F.PLC_RKGEOM_EPOCHCH) s p
  let s := { s with plc := { s.plc with
    place := (s.plc.place.filter fun kv => kv.1 / 131072 < p) ++ (s.plc.target.filter fun kv => kv.1 / 131072 = p) ++
      s.plc.place.filter fun kv => p < kv.1 / 131072
    target := s.plc.target.filter fun kv => kv.1 / 131072 ≠ p } }
  let s := (List.range 16384).foldl (fun t e => wrBits (bandAddr t p e) 8 32 32 0 t) s
  (List.range 256).foldl (fun t m => if memState t p m = 6 then putMember p m 0 t else if memState t p m = 5 then putMember p m 1 t else t) s

/-- The switch-over takes effect: on the head that makes it and on the one that applies its record racking is over, DONE is set and a record is
written (R286). -/
def switchOver (p : Nat) (s : State) : State :=
  let s := switchPool p s
  let s := { s with plc := { s.plc with rack := if s.plc.rack = some p then none else s.plc.rack, racked := s.plc.racked.filter fun k => k / 2 ^ 26 ≠ p } }
  let s := noteRepair p s
  celOpen 0x0B p 0 0 (setF F.PLC_RKSTAT_WAITP 0 (setF F.PLC_RKSTAT_OLDLEFT 0 (setF F.PLC_RKSTAT_DONE 1 (setF F.PLC_RKSTAT_RUN 0 s))))

/-- A band entry of the partner takes effect: where it has freed the band that this head waits with, this head waits no more (R285, R287). -/
def applyBand (p e entry : Nat) (s : State) : State :=
  let s := wrN (bandAddr s p e) 8 entry s
  let s := if s.plc.rack = some p ∧ entry.testBit 33 = false then setF F.PLC_RKSTAT_WAITP 0 s else s
  putRkstat p s

/-- A root record takes effect on the other head: ROOT, and the root page with its new home, or none (R124, R424). -/
def applyRoot (v slot : Nat) (s : State) : State :=
  let s := wrBits (volAddr v) 8 47 0 slot s
  if slot = 0 then { s with me := { s.me with root := kdel s.me.root v } }
  else
    match kget s.me.root v, s.me.pages.find? fun kv => kv.2.home = slot && decide (kv.2.level = 3) with
    | none, some kv => { s with me := { s.me with root := kput s.me.root v kv.1 } }
    | some id, _ => modPage id (fun p => { p with home := slot }) s
    | none, none => setRoot v s

/-- A lost slot is queued for resolution: each head resolves the volumes that it owns (R272, R273). -/
def queueLost (slot : Nat) (s : State) : State :=
  let w := wordOfSlot s slot
  if s.plc.lost.contains w then s else { s with plc := { s.plc with lost := s.plc.lost ++ [w] } }

/-- What an entry of a record does when it is applied (R240, R424). A FAILED member leaves that state only to COPYBACK (R268). -/
def applyAct (own : Bool) (seq : Nat) (a : Act) (s : State) : State :=
  match a with
  | .reloc key m c => { s with plc := { s.plc with reloc := kput s.plc.reloc key ⟨m, c, seq⟩ } }
  | .unreloc key => { s with plc := { s.plc with reloc := kdel s.plc.reloc key, back := key :: s.plc.back } }
  | .member p m st => if memState s p m = 2 ∧ st ≠ 4 then s else putMember p m st s
  | .segment p seg e => wrN (segAddr s p seg) 8 e s
  | .lost slot => queueLost slot (setSrt slot (putBitsN (srt s slot) 43 43 1) s)
  | .tun img pool kind seg frame state _ => applyTun false seq img pool kind seg frame state s
  | .root v slot => applyRoot v slot s
  | .ixHome key slot ents =>
    let id := (kget s.gl.ixPage key).getD s.me.nextPage
    let p : Page := {
      ty := 3, level := 0, owner := key / 2 ^ 33 / 1024 + key / 2 ^ 33 % 1024 * 2 ^ 16, index := key % 2 ^ 33, epoch := 0
      hent := ents, st := .flash, home := slot }
    { s with
      me := { s.me with pages := kput s.me.pages id p, nextPage := max s.me.nextPage (id + 1) }
      gl := { s.gl with ixPage := kput s.gl.ixPage key id } }
  | .srtHome key slot =>
    match kget s.me.srtPage key with
    | some id => modPage id (fun p => { p with home := slot }) s
    | none =>
      let (id, s) := pageAtHome 4 0 (key / 2 ^ 36) (key % 2 ^ 32) 0 slot s
      { s with me := { s.me with srtPage := kput s.me.srtPage key id } }
  | .domain d e l sp keys => setDom d ⟨e, l, sp, keys.isSome, (keys.getD (0, 0)).1, (keys.getD (0, 0)).2⟩ s
  | .snapshot n e => applySnapEntry n e s
  | .owner g head oepoch => putOwner g head oepoch s
  | .cut ents cgid => reachCut own seq ents cgid s
  | .freed slot words => applyFreed ⟨!own, seq⟩ slot words s
  | .band p e entry => applyBand p e entry s
  | .switchover p => switchOver p s

/-- The pages that applying a DELTA record needs. -/
def recordPages (s : State) (r : JRec) : List Nat := deltaPages s (bitsN r.arg 17 0) (deltasOf r.body r.nent)

/-- Applies a record of the mirror, or one that replay reads from a ring (R256, R424): an UPDATE passes the checks of R153 other than
ownership. -/
def applyRecord (mirror : Bool) (r : JRec) (s : State) : State :=
  if r.ty = tyDelta then
    let v := bitsN r.arg 17 0
    let ds := deltasOf r.body r.nent
    let s := applyCuts s
    if updateOk s v ds then applyDeltas v ⟨mirror, r.seq⟩ ds s else s
  else r.acts.foldl (fun t a => applyAct (!mirror) r.seq a t) s

/-- Applies the accepted records of the mirror in SEQ order while their pages are resident; the first page that is not starts its read
(R424). (log 47, DESIGN CHOICE, unsafe; 69, DESIGN CHOICE, unsafe) -/
def applyBacklog : List JRec → State → State
  | [], s => s
  | r :: l, s =>
    if r.done then applyBacklog l s
    else
      match (if r.ty = tyDelta then firstAbsent s (recordPages s r) else none) with
      | some p => faultPage true p none s
      | none =>
        let s := { s with ta := { s.ta with mrecs := s.ta.mrecs.map fun x => if x.seq = r.seq then { x with done := true } else x } }
        applyBacklog l (applyRecord true r s)

/-- The apply lag: delta entries accepted and not yet applied (R426). -/
def applyLag (s : State) : Nat := (s.ta.mrecs.map fun r => if r.ty = tyDelta && !r.done then r.nent else 0).sum

/-- The lag at which the mirror receiver accepts no further record (R426, R444). -/
def lagMax (s : State) : Nat := max 1 (getF s F.SYS_PTR_CTL_LAGMAX) * 4096

/-- Takes a record into the mirror: its bytes and its slot copies are written, and a TWIN stream's context is due (R254, R307). (log 69, DESIGN CHOICE, unsafe) -/
def acceptRecord (m : Rec) (s : State) : State :=
  let r := recordOf m
  let s := putCopies mirrorRing m.copies (wrB (mirrorRing + m.off) m.bytes s)
  let s := setF F.SYS_PTR_SEQ_MACC r.seq { s with ta := { s.ta with mrecs := s.ta.mrecs ++ [r] } }
  if r.ty = tyDelta then streamRecord r (mirrorRing + m.off) true s else s

/-- Accepts records held behind a gap that has filled. (log 69, DESIGN CHOICE, unsafe) -/
def acceptHeld : Nat → State → State
  | 0, s => s
  | fuel + 1, s =>
    match s.ta.mheld.find? fun r => (recordOf r).seq = getF s F.SYS_PTR_SEQ_MACC + 1 with
    | some m =>
      acceptHeld fuel (acceptRecord m { s with ta := { s.ta with mheld := s.ta.mheld.filter fun x => (recordOf x).seq ≠ (recordOf m).seq } })
    | none => s

/-- SLOT_REF_MESSAGE (R425): a slot reference change of the partner is applied. -/
def execSlotRefMessage (slot : BitVec 48) (entry : Word) (s : State) : Res := ok (setSrt slot.toNat entry.toNat s)

/-! ### Retirement (R137, R255, R308) -/

/-- Whether a tun has been sealed: its image shows SEALED, or is no more. (log 72, DEDUCED, unsafe) -/
def tunSealed (s : State) (i : Nat) : Bool :=
  match kget s.ta.tuns i with
  | some t => decide (t.phase = .sealed)
  | none => true

/-- Whether the oldest record may retire: a DELTA below every pending number of both heads, with its tuns sealed and its stream contexts
ended; a TUN record once its tun is SEALED, no older DELTA can reference it; another once its checkpoint is on the vault. (log 72, DEDUCED, unsafe) -/
def mayRetire (r : JRec) (s : State) : Bool :=
  r.done &&
  if r.ty = tyDelta then
    decide (r.seq < ckptSeq s false) && (soloMode s || decide (r.seq < s.ta.plow)) && r.imgs.all (tunSealed s) &&
      !(s.str.ctxs.any fun kv => kv.2.cask = r.seq && !kv.2.mirror) && !(s.str.waits.any fun w => w.info.cask = r.seq && !w.info.mirror)
  else if r.ty = tyTun then (match r.tun with | some i => tunSealed s i | none => true)
  else if r.ty = tyPad then true
  else r.ckpt

/-- The SEALED record of a tun has retired: its image is free, and its working buffer too, unless a read that looked up the tun before it was
sealed has still to take its data (R39, R245, R255). -/
def freeTun (i seq : Nat) (s : State) : State :=
  match kget s.ta.tuns i with
  | some t =>
    if t.seq ≠ seq ∨ t.phase ≠ .sealed then s
    else
      let key := t.pool * 2 ^ 26 + t.seg
      let wanted := s.ta.reads.any fun kv => decide (kv.2 = key)
      { s with ta := { s.ta with tuns := kdel s.ta.tuns i, bufs := if wanted then kput s.ta.bufs key t else s.ta.bufs } }
  | none => s

/-- RECORD_RETIRE (R255): the oldest record leaves the ring; a SEALED record frees its tun's image and buffer (R39, R245). A record of
the mirror leaves once it has been applied and no page waits for it. -/
def execRecordRetire (mirror : Bool) (s : State) : Res :=
  ok (if mirror then
      match s.ta.mrecs with
      | r :: l => if r.done && decide (r.seq < ckptSeq s true) then { s with ta := { s.ta with mrecs := l } } else s
      | [] => s
    else
      match s.ta.recs with
      | r :: l =>
        if !mayRetire r s then s
        else
          let s := { s with ta := { s.ta with recs := l } }
          match r.tun with
          | some i => freeTun i r.seq s
          | none => s
      | [] => s)

end Sys2Proof.Machine
end

