-- ==== Sys2Proof/Machine/Tun.lean ====
section
/-! DEFINITION. The tun allocator, sealing, parity jobs, drive I/O, lees reclaim, placement load and journal replay (R236 to R249, R256 to
R264). -/

namespace Sys2Proof.Machine

/-! ### Opening a tun (R239, R242, R244) -/

/-- The first number at or after `i` for which a test holds. (log 18, DESIGN CHOICE, safe; 59, DESIGN CHOICE, safe) -/
def firstFrom (p : Nat → Bool) : Nat → Nat → Option Nat
  | 0, _ => none
  | fuel + 1, i => if p i then some i else firstFrom p fuel (i + 1)

/-- The first such number below `n` in a cyclic search from `start`. (log 18, DESIGN CHOICE, safe; 59, DESIGN CHOICE, safe) -/
def cyclicFrom (p : Nat → Bool) (n start : Nat) : Option Nat :=
  match firstFrom p (n - start % n) (start % n) with
  | some i => some i
  | none => firstFrom p n 0

/-- Whether a frame is free for a new tun: it exists, is of this head's half, unused, and not in a band that drains (R237, R285). -/
def frameFree (s : State) (p f : Nat) : Bool :=
  myHalf s f && (kget s.plc.frames (frameKey p f)).isNone && frameExists s p f && !(bandOn s p && (bandOf s p (f / 4096)).testBit 34)

/-- Whether a pool has a band of the target geometry (R285). -/
def targetOn (s : State) (p : Nat) : Bool :=
  bandOn s p && (List.range 16384).any fun e => (bandOf s p e).testBit 32 && (bandOf s p e).testBit 33

/-- Whether every position of a frame lies on an ACTIVE member (R276). -/
def frameSound (s : State) (p f : Nat) : Bool :=
  (positions s p f).all fun pos => decide (memState s p (posMember s p f pos) = 1) || decide (memState s p (posMember s p f pos) = 5)

/-- Where the governor's choice of a frame of a pool starts: at the frame of its placement decision (R42), free before it has decided. (log 14, DESIGN CHOICE, unsafe; 18, DESIGN CHOICE, safe) -/
def placement (s : State) (p : Nat) : Nat := (kget s.plc.govPlace p).getD (Config.freeWord s.free).toNat

/-- A free frame that passes a test: the governor's choice, one without a position on a member that is not ACTIVE where there is one
(R242, R276). (log 18, DESIGN CHOICE, safe; 59, DESIGN CHOICE, safe) -/
def chooseFrame (s : State) (p : Nat) (q : Nat → Bool) : Option Nat :=
  let n := frameBound s p
  let start := placement s p
  match cyclicFrom (fun f => frameFree s p f && q f && frameSound s p f) n start with
  | some f => some f
  | none => cyclicFrom (fun f => frameFree s p f && q f) n start

/-- The free frame for a new tun of a kind. While racking has placed target bands it is a target frame; moved slots and metadata take a
frame of an undrained band where no target frame is free (R285). (log 59, DESIGN CHOICE, safe) -/
def pickFrame (s : State) (p kind : Nat) : Option Nat :=
  if !targetOn s p then chooseFrame s p fun _ => true
  else
    match chooseFrame s p (frameGen s p) with
    | some f => some f
    | none => if kind = 0 then none else chooseFrame s p fun _ => true

/-- The FREE segment for a new tun, of this head's half (R235). (log 59, DESIGN CHOICE, safe) -/
def pickSegment (s : State) (p : Nat) : Option Nat :=
  cyclicFrom (fun g => decide (g % 2 = headNo s) && decide (segState s p g = sFree)) (2 ^ 26) (Config.freeWord (s.free + 1)).toNat

/-- The lowest free tun image. (log 59, DESIGN CHOICE, safe) -/
def pickImage (s : State) : Option Nat := kfree s.ta.tuns (getF s F.TA_JCFG_TUNS)

/-- The open tuns of a pool and a kind. -/
def openTuns (s : State) (p kind : Nat) : List (Nat × Tun) :=
  s.ta.tuns.filter fun kv => decide (kv.2.pool = p) && decide (kv.2.kind = kind) && decide (kv.2.phase = .opened)

/-- Whether another tun of a pool and kind may open (R242, R263). -/
def mayOpen (s : State) (p kind : Nat) : Bool :=
  decide ((openTuns s p kind).length < min 32 (max 1 (getF s F.TA_CTL_OPENMAX))) &&
    decide ((s.ta.tuns.filter fun kv => decide (kv.2.phase = .opened)).length < 256)

/-- Whether the free frames of a pool are below a percentage of its total (R259). -/
def belowPercent (s : State) (p pc : Nat) : Bool := decide (freePoolFrames s p * 100 < pc * totalFrames s p)

/-- A pool crosses LOW or HARD: a record, once for each crossing (R259). -/
def crossing (p : Nat) (s : State) : State :=
  let low := belowPercent s p (getF s F.TA_LEES_LOW)
  let hard := belowPercent s p (getF s F.TA_LEES_HARD)
  let s1 := if low = s.plc.low.contains p then s
    else celOpen 0x12 p (b2n low) 0 { s with plc := { s.plc with low := if low then p :: s.plc.low else s.plc.low.erase p } }
  if hard = s1.plc.hard.contains p then s1
  else celOpen 0x12 p (b2n hard) 1 { s1 with plc := { s1.plc with hard := if hard then p :: s1.plc.hard else s1.plc.hard.erase p } }

/-- The TUN record of a tun in a state, with its strip mask and what is copied into the images with it (R245, R251). -/
def tunRecord (img : Nat) (t : Tun) (st mask : Nat) (copies : List (Nat × Nat × List Byte)) (s : State) : State :=
  let r := Act.tun img t.pool t.kind t.seg t.frame st mask
  let s := journal tyTun (t.seg + t.pool * 2 ^ 28) 32 [r] (some img) copies s
  applyTun true 0 img t.pool t.kind t.seg t.frame st s

/-- Opens a tun: one TUN record; nothing where no frame, segment, image or ring room is free. -/
def openTun (p kind : Nat) (s : State) : Option (Nat × State) :=
  if !mayOpen s p kind then none
  else
    match pickFrame s p kind, pickSegment s p, pickImage s with
    | some f, some g, some i =>
      if !ringTakes s 2 ∨ s.ta.waiting ≠ [] then none
      else
        let t : Tun := { pool := p, kind := kind, seg := g, frame := f, k := frameK s p f }
        let s := { s with free := s.free + 2, ta := { s.ta with tuns := kput s.ta.tuns i t } }
        let s := tunRecord i t sOpen 0 [] s
        some (i, crossing p (wrBits (segAddr s p g) 8 46 32 0 s))
    | _, _, _ => none

/-! ### Placing a slot (R242) -/

/-- The first hole of exactly `n` KiB. -/
def exactHole (t : Tun) (n : Nat) : Option (Nat × Nat) := t.holes.find? fun h => h.2 = n

/-- The smallest hole larger than `n` KiB. -/
def largerHole (t : Tun) (n : Nat) : Option (Nat × Nat) :=
  t.holes.foldl (fun b h =>
    if h.2 ≤ n then b
    else match b with
      | some x => if h.2 < x.2 then some h else b
      | none => some h) none

/-- The first free place of a tun for a slot of class `c`, and the tun with that place taken (R242). Block 255 of a strip is the header
(R236). -/
def Tun.place (t : Tun) (c : Nat) : Option (Nat × Tun) :=
  match exactHole t (c + 1) with
  | some h => some (h.1, { t with holes := t.holes.erase h })
  | none =>
    match largerHole t (c + 1) with
    | some h => some (h.1, { t with holes := t.holes.map fun x => if x = h then (h.1 + c + 1, h.2 - (c + 1)) else x })
    | none =>
      if t.next < t.k * 255 then
        let off := t.next / 255 * 1024 + t.next % 255 * 4
        some (off, { t with next := t.next + 1, holes := if c < 3 then t.holes ++ [(off + c + 1, 3 - c)] else t.holes })
      else none

/-- The open tun of a pool and kind that takes a slot: one with a hole of exactly its size first (R242). -/
def pickTun (s : State) (p kind c : Nat) : Option (Nat × Tun) :=
  let l := openTuns s p kind
  match l.find? fun kv => (exactHole kv.2 (c + 1)).isSome with
  | some x => some x
  | none => l.find? fun kv => (kv.2.place c).isSome

/-- The trailer that the allocator writes for a slot: RTAG, and for an XTS slot CTAG, CLASS and META (R233). -/
def newTrailer (ident ctag c : Nat) (isMeta sealed : Bool) : List Byte :=
  if sealed then zeros 12 ++ leBytes 4 ident
  else zeros 8 ++ leBytes 2 ctag ++ leBytes 1 (c + (if isMeta then 8 else 0)) ++ [0] ++ leBytes 4 ident

/-- Where a slot of a pool, kind and class goes: an open tun, one opened now, or nowhere. -/
def findPlace (p kind c : Nat) (s : State) : Option (Nat × Nat × State) :=
  match pickTun s p kind c with
  | some (i, t) => (t.place c).map fun x => (i, x.1, modTun i (fun _ => x.2) s)
  | none =>
    match openTun p kind s with
    | some (i, s) =>
      match (kget s.ta.tuns i).bind fun t => t.place c with
      | some x => some (i, x.1, modTun i (fun _ => x.2) s)
      | none => none
    | none => none

/-! ### Sealing (R236, R244, R245) -/

/-- The segment header of a strip (R236). -/
def segHeader (t : Tun) (strip dtime : Nat) : List Byte :=
  let h := leBytes 4 0x4E47_4553 ++ leBytes 1 1 ++ leBytes 1 t.kind ++ leBytes 1 t.k ++ leBytes 1 strip ++ leBytes 4 (t.seg + t.pool * 2 ^ 26) ++
    leBytes 4 t.frame ++ leBytes 8 t.ck ++ leBytes 8 dtime ++ leBytes 4 t.livek ++ zeros 20
  h ++ leBytes 8 (crc64 h) ++ zeros 4032

/-- A tun starts sealing: its header blocks are written, in the working buffer and with the SEALING record in both images, and the holes left
are counted. (log 167, DEDUCED, unsafe) -/
def startSeal (i : Nat) (s : State) : State :=
  match kget s.ta.tuns i with
  | some t =>
    if t.phase ≠ .opened then s
    else
      let blocks := (List.range t.k).flatMap fun strip =>
        [(i, imgData strip 255, segHeader t strip s.dtime.toNat), (i, imgMeta strip 255, zeros 64)]
      let t := { blocks.foldl (fun u b => u.write b.2.1 b.2.2) t with phase := .sealing }
      let s := bumpBy ((t.holes.map Prod.snd).sum) .TA_PADK_CNT s
      tunRecord i t sSealing 0 blocks { s with ta := { s.ta with tuns := kput s.ta.tuns i t } }
  | none => s

/-- A tun without a free block starts sealing (R244). -/
def sealIfFull (i : Nat) (s : State) : State :=
  match kget s.ta.tuns i with
  | some t => if t.next < t.k * 255 then s else startSeal i s
  | none => s

/-- Every open tun starts sealing that passes a test. -/
def sealTuns (p : Nat → Tun → Bool) (s : State) : State :=
  (s.ta.tuns.filter fun kv => decide (kv.2.phase = .opened) && p kv.1 kv.2).foldl (fun t kv => startSeal kv.1 t) s

/-- The slot word of a new slot. -/
def newWord (ident c : Nat) (sealed : Bool) : Nat := ident + c * 2 ^ 48 + 2 ^ 50 + (if sealed then 2 ^ 51 else 0)

/-- Hands out the place of a slot: the trailer goes to buffer and image, the slot reference entry is written, and LIVEK counts it (R132,
R233, R239, R242). -/
def handOut (i off ctag c entry : Nat) (isMeta sealed : Bool) (s : State) : Nat × State :=
  match kget s.ta.tuns i with
  | some t =>
    let ident := slotIdent t.pool t.seg off
    let tr := newTrailer ident ctag c isMeta sealed
    let s := modTun i (fun t => { t.write (slotTrailer off) tr with livek := t.livek + c + 1, used := true }) s
    let s := wrB (imageAddr s ownRing i + slotTrailer off) tr s
    let s := pmc 0x1201 c 1 (bump .TA_SLOT_CNT (sendSrt ident (addLivek ident c (setSrt ident entry s))))
    (newWord ident c sealed, sealIfFull i s)
  | none => (0, s)

/-! ### ALLOC jobs (R243) -/

/-- The volume of an ALLOC job. -/
def allocVol (s : State) (j : Job) : Nat := jobVol s j 12

/-- The acceptance checks of an ALLOC job. -/
def checkAlloc (j : Job) (s : State) : Option JobResult :=
  firstFail (j.headChecks [1, 2, 3] 1 ++
    [(decide (j.op ≠ 1) && !j.fromStew, internal 2),
     (decide (4 ≤ j.n 8 1) || (if j.op = 2 then decide (8 ≤ j.n 9 1) else j.nonzero 9 1) || j.nonzero 10 2 || decide (2 ^ 18 ≤ j.n 12 4) ||
       j.nonzero 24 40, internal 3),
     (decide (j.op ≠ 2) && !ownsVol s (allocVol s j), JobResult.of rFenced)])

/-- Takes the fingerprint latch of an agent for a new slot: its FPTAG, and where the table has room a pending entry (R177, R178). -/
def takeLatch (a : Agent) (s : State) : Nat × Option Latch × State :=
  match latchOf s a with
  | some l => (fieldN l.fp 0 2, some l, { s with gl := { s.gl with latch := kdel s.gl.latch (agentKey a) } })
  | none => (0, none, s)

/-- A new slot's fingerprint joins the pending table, or is counted as left unindexed. (log 53, DESIGN CHOICE, safe; 190, DESIGN CHOICE, unsafe) -/
def putPending (word : Nat) (l : Option Latch) (s : State) : State :=
  match l with
  | none => s
  | some l =>
    if Config.pendSize ≤ s.gl.pend.length then bump .GL_IXFULL_CNT s
    else { s with gl := { s.gl with pend := kput s.gl.pend (swSlot word) l } }

/-- Whether lees reclaim may still free a frame of a pool. -/
def leesMayFree (s : State) (p : Nat) : Bool :=
  isF s F.TA_LEES_EN && s.plc.frames.any fun kv => decide (kv.1 / 2 ^ 26 = p) &&
    (decide (segState s p kv.2 = sMoving) || (decide (segState s p kv.2 = sSealed) && !segMeta s p kv.2))

/-- The volume of the context whose own ALLOC this is (R205). -/
def ownAlloc (s : State) (j : Job) : Option Nat :=
  match j.owner with
  | .ctx n => match kget s.ctxs n with | some c => if allocVol s j = c.vol then some c.vol else none | none => none
  | .stew _ => none

/-- ALLOC SLOT (R242, R243, R259). -/
def execAllocSlot (job : Nat) (s : State) : Res :=
  ok (runJob job cAlloc 1 (fun j s =>
    let v := allocVol s j
    let p := volPool s v
    let c := j.n 8 1
    if !ownsVol s v then finish job (JobResult.of rFenced) s
    else if !j.fromStew && belowPercent s p (getF s F.TA_LEES_HARD) then
      if s.ta.held.contains job then s else bump .TA_HELD_CNT { s with ta := { s.ta with held := job :: s.ta.held } }
    else
      let s := { s with ta := { s.ta with held := s.ta.held.erase job } }
      match findPlace p 0 c s with
      | some (i, off, s) =>
        let (ctag, l, s) := takeLatch j.owner s
        let entry := 1 + ctag * 2 ^ 24 + c * 2 ^ 40 + 2 ^ 42
        let (w, s) := handOut i off ctag c entry false (volSealed s v) s
        let s := match ownAlloc s j with | some u => skipAlloc u s | none => s
        finish job (JobResult.done 1 w) (putPending w l s)
      | none =>
        if leesMayFree s p || decide ((pickFrame s p 0).isSome) then s else finish job (JobResult.of rNospace) s) s)

/-- ALLOC FLUSH (R243, R244). -/
def execAllocFlush (job : Nat) (s : State) : Res :=
  ok (runJob job cAlloc 2 (fun j s => finish job (JobResult.done 1 0) (sealTuns (fun _ t => t.pool = j.n 9 1) s)) s)

/-- ALLOC MOVE (R243, R260): a slot of OLD's class in a RECLAIM tun of OLD's pool. -/
def execAllocMove (job : Nat) (s : State) : Res :=
  ok (runJob job cAlloc 3 (fun j s =>
    let old := j.n 16 8
    let c := swClass old
    if !ownsVol s (allocVol s j) then finish job (JobResult.of rFenced) s
    else
      match findPlace (swPool old) 2 c s with
      | some (i, off, s) =>
        let (ctag, l, s) := takeLatch j.owner s
        let (w, s) := handOut i off ctag c (1 + ctag * 2 ^ 24 + c * 2 ^ 40 + 2 ^ 42) false (swSealed old) s
        finish job (JobResult.done 1 w) (putPending w l s)
      | none =>
        if leesMayFree s (swPool old) || decide ((pickFrame s (swPool old) 2).isSome) then s else finish job (JobResult.of rNospace) s) s)

/-- An ALLOC job that times out: NOSPACE where it waited for a frame (R243). -/
def timeoutAlloc (id : Nat) (j : Job) (s : State) : State × JobResult :=
  let p := if j.op = 3 then swPool (j.n 16 8) else volPool s (allocVol s j)
  ({ s with ta := { s.ta with held := s.ta.held.erase id } },
   if j.op ≠ 2 ∧ (pickFrame s p (j.op - 1)).isNone then JobResult.of rNospace else ⟨rTimeout, 0, 0, 0⟩)

/-! ### The states of a tun (R245, R258) -/

/-- SEAL_TIMER (R244): SEALUS have passed since the first slot of a tun. -/
def execSealTimer (img : Nat) (s : State) : Res :=
  ok (match kget s.ta.tuns img with
    | some t => if t.used then startSeal img s else s
    | none => s)

/-- Whether the SEALING record of a tun is in place in both heads (R245, R253). -/
def sealingDurable (s : State) (img : Nat) (t : Tun) : Bool :=
  s.ta.recs.any fun r => r.done && r.acts.any fun a =>
    match a with | .tun i p _ g _ st _ => decide (i = img ∧ p = t.pool ∧ g = t.seg ∧ st = sSealing) | _ => false

/-- TUN_SEALING_DURABLE (R245): the SEALING record is durable in both heads, and parity generation starts. -/
def execTunSealingDurable (img : Nat) (s : State) : Res :=
  ok (match kget s.ta.tuns img with
    | some t => if t.phase = .sealing && sealingDurable s img t then modTun img (fun t => { t with phase := .parity }) s else s
    | none => s)

/-- How many spare chunks of a member are free, and the lowest of them. -/
def usedSpares (s : State) (p m : Nat) : List Nat :=
  (s.plc.reloc.filter fun kv => decide (kv.1 / 2 ^ 31 = p) && decide (kv.2.member = m)).map fun kv => kv.2.chunk
@[inherit_doc usedSpares] def freeSpares (s : State) (p m : Nat) : Nat := memChunks s p m - spareBase s p m - (usedSpares s p m).length
@[inherit_doc usedSpares] def lowSpare (s : State) (p m : Nat) : Option Nat :=
  firstFrom (fun c => !(usedSpares s p m).contains c) (memChunks s p m - spareBase s p m) (spareBase s p m)

/-- The member whose spare chunk a position of a frame goes to: ACTIVE, no position or relocated position of the frame, the most free
spare chunks, the lower number on a tie (R258, R278). -/
def spareMember (s : State) (p f : Nat) : Option Nat :=
  let taken := (positions s p f).flatMap fun pos =>
    posMember s p f pos :: (match kget s.plc.reloc (posKey p f pos) with | some r => [r.member] | none => [])
  let cand := (List.range 256).filter fun m => decide (memState s p m = 1) && !taken.contains m && decide (0 < freeSpares s p m)
  cand.foldl (fun b m => match b with
    | some x => if freeSpares s p x < freeSpares s p m then some m else b
    | none => some m) none

/-- The spare chunk that a position of a frame goes to, with its member; none where no member has one (R258, R278). -/
def spareChunk (s : State) (p f : Nat) : Option (Nat × Nat) := (spareMember s p f).bind fun m => (lowSpare s p m).map fun c => (m, c)

/-- Relocates a position to a spare chunk, journalled. The entry takes the SEQ of its POOL record as that is appended (R240). (log 190, DESIGN CHOICE, unsafe) -/
def relocate (p f pos m c : Nat) (s : State) : State :=
  journalPool [.reloc (posKey p f pos) m c] { s with plc := { s.plc with reloc := kput s.plc.reloc (posKey p f pos) ⟨m, c, 0⟩ } }

/-- A write of blocks to a member (R231), counted by root port (R539). -/
def driveWr (p m lba : Nat) (data md : List Byte) (s : State) : State :=
  pmc 0x1701 (getF s F.PLC_MEM_PORT p m) 1 (emit (.driveWrite p m lba data md) s)

/-- Writes a strip image to a chunk of a member. -/
def writeStrip (p m chunk : Nat) (img : List Byte) (s : State) : State :=
  driveWr p m (driveLba chunk 0) (img.take 1048576) (img.drop 1048576) s

/-- One strip of a tun is written: at its place, or on a spare chunk where its member is not ACTIVE (R245, R258). -/
def sealStrip (img : Nat) (t : Tun) (pos : Nat) (s : State) : State :=
  let m := posMember s t.pool t.frame pos
  if memState s t.pool m = 1 ∨ memState s t.pool m = 5 then writeStrip t.pool m (posChunk s t.pool t.frame pos) (t.strip pos) s
  else
    match spareChunk s t.pool t.frame with
    | some (m, c) => bump .TA_RELOC_CNT (writeStrip t.pool m c (t.strip pos) (relocate t.pool t.frame pos m c s))
    | none => modTun img (fun t => { t with left := t.left.erase pos }) s

/-- TUN_PARITY_DONE (R245): all K + 2 strips are written. -/
def execTunParityDone (img : Nat) (s : State) : Res :=
  ok (match kget s.ta.tuns img with
    | some t =>
      if t.phase ≠ .parity then s
      else
        let l := List.range (t.k + 2)
        let s := modTun img (fun t => { t with phase := .writing, left := l }) s
        l.foldl (fun u pos => sealStrip img t pos u) s
    | none => s)

/-- TUN_STRIPS_WRITTEN (R245): every strip write has completed; the SEALED record carries the mask of the strips written. -/
def execTunStripsWritten (img : Nat) (s : State) : Res :=
  ok (match kget s.ta.tuns img with
    | some t =>
      if t.phase ≠ .writing then s
      else
        let t := { t with phase := .sealed }
        let s := { s with ta := { s.ta with tuns := kput s.ta.tuns img t } }
        bump .TA_SEAL_CNT (tunRecord img t sSealed ((t.left.map (2 ^ ·)).sum) [] s)
    | none => s)

/-- The member that the strip of a WRITING tun is being written to: the one of its position, or that of its spare chunk. -/
def stripMember (s : State) (t : Tun) (pos : Nat) : Nat :=
  let m := posMember s t.pool t.frame pos
  if memState s t.pool m = 1 ∨ memState s t.pool m = 5 then m
  else match kget s.plc.reloc (posKey t.pool t.frame pos) with | some r => r.member | none => m

/-- STRIP_WRITE_FAIL (R258): the member that the strip was written to becomes FAILED, and every strip of a WRITING tun on it goes to a spare
chunk, or stays unwritten for rebuild. -/
def execStripWriteFail (img pos : Nat) (s : State) : Res :=
  ok (match kget s.ta.tuns img with
    | some t =>
      if t.phase ≠ .writing ∨ pos ∉ t.left then s
      else
        let m := stripMember s t pos
        let strips := s.ta.tuns.flatMap fun kv =>
          if kv.2.phase = .writing ∧ kv.2.pool = t.pool then (kv.2.left.filter fun q => stripMember s kv.2 q = m).map fun q => (kv.1, kv.2, q) else []
        strips.foldl (fun u x => sealStrip x.1 x.2.1 x.2.2 u) (memberTo t.pool m 2 (bump .DRV_WERR_CNT s))
    | none => s)

/-! ### PARITY jobs (R246, R247) -/

/-- The strip addresses of a PARITY job. -/
def pStrips (s : State) (j : Job) : List Nat := (List.range (j.n 16 1 + 2)).map fun i => rdN s (j.n 8 8 + 8 * i) 8

/-- The positions a PARITY job computes. -/
def pMiss (j : Job) : List Nat := if j.op = 1 then [j.n 16 1, j.n 16 1 + 1] else bitsSet 32 (j.n 24 4)

/-- The acceptance checks of a PARITY job. -/
def checkParity (j : Job) (s : State) : Option JobResult :=
  let k := j.n 16 1
  let len := j.n 20 4
  let miss := j.n 24 4
  let n := (bitsSet 32 miss).length
  firstFail (j.headChecks [1, 2] 0 ++
    [(j.nonzero 17 3 || j.nonzero 28 36, internal 3),
     (decide (k < 4 ∨ 30 < k ∨ len % 64 ≠ 0 ∨ len < 64 ∨ 16777216 < len) ||
       (if j.op = 1 then decide (miss ≠ 0) else decide (n = 0 ∨ 2 < n ∨ 2 ^ (k + 2) ≤ miss)), internal 4),
     j.bounds s false (j.n 8 8) (8 * (k + 2)),
     ((pStrips s j).zipIdx.any fun (a, i) => !bufOk s j ((pMiss j).contains i) a len, JobResult.of rBounds)])

/-- Runs a PARITY job: the missing strips from the others. -/
def runParity (id op : Nat) (cnt : RegName) (s : State) : State :=
  runJob id cParity op (fun j s =>
    let len := j.n 20 4
    let addrs := pStrips s j
    let strips := solveStrips (j.n 16 1) len (addrs.zipIdx.map fun (a, i) => if (pMiss j).contains i then none else some (rdB s a len))
    let s := (pMiss j).foldl (fun t i => wrB (addrs.getD i 0) (strips.getD i []) t) s
    finish id (JobResult.done len 0) (bump cnt (pmc 0x1101 (instNumber cParity j.inst) (len * (pMiss j).length) s))) s

/-- PARITY GEN (R247). -/
def execParityGen (job : Nat) (s : State) : Res := ok (runParity job 1 .PE_GEN_CNT s)

/-- PARITY REC (R247). -/
def execParityRec (job : Nat) (s : State) : Res := ok (runParity job 2 .PE_REC_CNT s)

/-- A PARITY job that times out: COUNT gives the bytes per strip, and no output is valid. -/
def timeoutParity (j : Job) (n : Nat) (s : State) : State × JobResult :=
  let addrs := pStrips s j
  ((pMiss j).foldl (fun t i => wrFree (addrs.getD i 0) (j.n 20 4) t) s, ⟨rTimeout, 0, min n (j.n 20 4), 0⟩)

/-! ### Placement load (R238) -/

/-- Row `r` of a table image: the member and rank of its used positions. -/
def imageRow (s : State) (a k r : Nat) : List (Nat × Nat) :=
  (List.range (k + 2)).map fun i => let e := rdN s (a + 128 * r + 4 * i) 4; (e % 256, bitsN e 23 8)

/-- The first row of a table image that breaks R238 for a geometry. -/
def badRow (s : State) (a k members epochch : Nat) : Option Nat :=
  let rows := (List.range 4096).map (imageRow s a k)
  (List.range 4096).find? fun r =>
    let row := rows.getD r []
    decide ((row.map Prod.fst).eraseDups.length ≠ row.length) || row.any (fun e => decide (members ≤ e.1) || decide (epochch ≤ e.2)) ||
      row.any fun e => (rows.take r).any fun q => q.contains e

/-- The entries of a table image, for a pool. (log 80, DEDUCED, unsafe) -/
def imageTable (s : State) (a p : Nat) : KMap Nat := (List.range 131072).map fun i => (p * 131072 + i, rdN s (a + 4 * i) 4)

/-- A write of PLC_PTCMD with GO: the table is loaded, or refused (R238, R264). (log 80, DEDUCED, unsafe) -/
def wrPtCmd (v : Word) (s : State) : State :=
  let s := wr .PLC_PTCMD (writeFields (rd s .PLC_PTCMD) v (RegName.info .PLC_PTCMD).fields) s
  if !bit v 0 then s
  else
    let p := bits v 3 1
    let a := getF s F.PLC_PTADDR_BASE * 4096
    if poolEn s p then setF F.PLC_PTSTAT_REFUSED 1 s
    else
      match badRow s a (getF s F.PLC_GEOM_K p) (poolMembers s p) (getF s F.PLC_GEOM_EPOCHCH p) with
      | some r => setF F.PLC_PTSTAT_ERR r (setF F.PLC_PTSTAT_REFUSED 1 s)
      | none =>
        let t := s.plc.place
        let t := (t.filter fun kv => decide (kv.1 < p * 131072)) ++ imageTable s a p ++ t.filter fun kv => decide ((p + 1) * 131072 ≤ kv.1)
        setF F.PLC_PTSTAT_DONE 1 { s with plc := { s.plc with place := t } }

/-- PLACEMENT_LOAD (R238). -/
def execPlacementLoad (pool : BitVec 3) (s : State) : Res := ok (wrPtCmd (BitVec.ofNat 64 (2 * pool.toNat + 1)) s)

/-! ### Replay (R256, R245) -/

/-- The records of a ring that replay accepts, from a SEQ and an offset on, up to the first that fails a check or stands elsewhere than where
the last one ends (R256). -/
def goodRecords (ring : Nat) : Nat → Nat → List Rec → List Rec
  | _, _, [] => []
  | seq, off, r :: l =>
    if recordGood r.bytes seq && decide (r.off = off) && decide (off % 64 = 0) then
      r :: goodRecords ring (seq + 1) ((off + 64 * fieldN r.bytes 6 2) % ring) l
    else []

/-- The working buffer of a tun, read from its image in a region. -/
def imageBuf (s : State) (base i : Nat) : KMap Byte :=
  let a := imageAddr s base i
  (s.mem.filter fun c => decide (a ≤ c.1) && decide (c.1 < a + 2 ^ 25)).map fun c => (c.1 - a, c.2)

/-- The slots of a segment that have a slot reference entry. -/
def segSlots (s : State) (p g : Nat) : List Nat := (s.me.srt.filter fun kv => decide (slotPool kv.1 = p) && decide (slotSeg kv.1 = g)).map Prod.fst

/-- Adopts the tuns that a ring left OPEN or SEALING, from their images: an OPEN one starts sealing, and the parity of a SEALING one is computed
anew, its header blocks being in the image (R245, R256, R432 step 4). (log 167, DEDUCED, unsafe) -/
def adoptTuns (base : Nat) (s : State) : State :=
  let l := s.ta.ptuns
  let s := { s with ta := { s.ta with ptuns := [] } }
  l.foldl (fun s kv =>
    let i := if (kget s.ta.tuns kv.1).isSome then (pickImage s).getD kv.1 else kv.1
    let livek := ((segSlots s kv.2.pool kv.2.seg).map fun x => srtClass (srt s x) + 1).sum
    let t := { kv.2 with
      buf := imageBuf s base kv.1, adopted := true, livek := livek
      phase := if kv.2.phase = .opened then .opened else .parity }
    startSeal i { s with ta := { s.ta with tuns := kput s.ta.tuns i t } }) s

/-- Replays the good records of a ring: their effects are applied, TA_JSEQ passes the last one, and tuns left open are sealed (R256). The records
of the own ring are the head's to retire again (R255). -/
def replay (mirror : Bool) (recs : List Rec) (s : State) : State :=
  match recs with
  | [] => s
  | r :: _ =>
    let l := goodRecords (ringSize s) (fieldN r.bytes 8 8) r.off recs
    let base := if mirror then mirrorRing else ownRing
    let s := l.foldl (fun t m =>
      let t := putCopies base m.copies (wrB (base + m.off) m.bytes t)
      bump .TA_REPLAY_CNT (applyRecord mirror (recordOf m) t)) s
    let s := if mirror then s
      else
        let rs := l.map fun m => { recordOf m with done := true }
        match rs.getLast? with
        | some x => setF F.TA_JSEQ_NEXT (x.seq + 1) { s with ta := { s.ta with recs := rs, woff := (x.off + 64 * x.len) % ringSize s } }
        | none => s
    let s := adoptTuns base s
    if mirror then s
    else { s with ta := { s.ta with recs := s.ta.recs.map fun r => { r with imgs := if r.ty = tyDelta then imagesOf s (deltasOf r.body r.nent) else r.imgs } } }

/-- JOURNAL_REPLAY (R256): the records of the own ring, or of the mirror, as they are read from either head's copy or its vault flush. -/
def execJournalReplay (mirror : Bool) (recs : List Rec) (s : State) : Res := ok (replay mirror recs s)

/-! ### Lees reclaim (R259 to R261, R275) -/

/-- The SEALED segment of a pool that lees reclaim moves next: the least LIVEK, never a META one. -/
def leesNext (s : State) (p : Nat) : Option Nat :=
  (s.plc.frames.filter fun kv => decide (kv.1 / 2 ^ 26 = p) && decide (segState s p kv.2 = sSealed) && !segMeta s p kv.2 &&
      !s.plc.picked.contains (p * 2 ^ 26 + kv.2)).foldl (fun b kv => match b with
    | some g => if segLivek s p kv.2 < segLivek s p g then some kv.2 else b
    | none => some kv.2) none

/-- The segments a second that lees reclaim may move in a pool: MAXSEG, or fewer by the governor's decision (R42, R259). (log 14, DESIGN CHOICE, unsafe) -/
def leesRateOf (s : State) (p : Nat) : Nat := min (getF s F.TA_LEES_MAXSEG) (kgetD s.plc.leesRate p (getF s F.TA_LEES_MAXSEG))

/-- The segments of a pool that lees reclaim has picked in the present second of device time. (log 14, DESIGN CHOICE, unsafe) -/
def leesCount (s : State) (p : Nat) : Nat :=
  match kget s.plc.leesDone p with
  | some (sec, n) => if sec = s.dtime.toNat / 10 ^ 9 then n else 0
  | none => 0

/-- LEES_SELECT (R259): the governor picks a segment to move while the free frames are below LOW percent, up to its rate. -/
def execLeesSelect (pool : BitVec 3) (s : State) : Res :=
  let p := pool.toNat
  let s := crossing p s
  ok (if !isF s F.TA_LEES_EN || !belowPercent s p (getF s F.TA_LEES_LOW) || decide (leesRateOf s p ≤ leesCount s p) then s
    else match leesNext s p with
      | some g => { s with plc := { s.plc with
          picked := (p * 2 ^ 26 + g) :: s.plc.picked, leesDone := kput s.plc.leesDone p (s.dtime.toNat / 10 ^ 9, leesCount s p + 1) } }
      | none => s)

/-- The bytes and the trailer of a slot in a drive block (R232, R235). -/
def slotInBlock (off c : Nat) (data md : List Byte) : List Byte × List Byte :=
  ((data.drop (1024 * offPos off)).take (classSize c), (md.drop (16 * offPos off)).take 16)

/-- A slot is free: its slot reference entry is empty, its pending fingerprint is discarded, and LIVEK counts it no more (R178, R239). -/
def freeSlot (slot : Nat) (s : State) : State :=
  let e := srt s slot
  let s := if srtCount e = 0 && !srtUnj e then s else subLivek slot (srtClass e) s
  let s := { s with gl := { s.gl with pend := kdel s.gl.pend slot } }
  sendSrt slot (setSrt slot 0 s)

/-- A slot is forwarded to a word that stands for it, with the references that name it; one that nothing names is free at once (R260, R261,
R275). -/
def forwardSlot (slot word : Nat) (s : State) : State :=
  let e := srt s slot
  let n := srtCount e + b2n (srtIndexed e)
  let s := freeSlot slot s
  if n = 0 then s else { s with plc := { s.plc with fwd := kput s.plc.fwd slot (word, n) } }

/-- Moves one live slot into a RECLAIM tun with its bytes as they were read; the old slot is forwarded (R260). -/
def moveSlot (slot : Nat) (d tr : List Byte) (s : State) : Option State :=
  let e := srt s slot
  let c := srtClass e
  match findPlace (slotPool slot) 2 c s with
  | none => none
  | some (i, off, s) =>
    let (w, s) := handOut i off (srtFptag e) c (putBitsN e 42 42 0) (srtMeta e) false s
    let s := modTun i (fun t => (t.write (slotData off) d).write (slotTrailer off) (putBytes tr 12 (leBytes 4 (swSlot w)))) s
    let s := wrB (imageAddr s ownRing i + slotData off) d s
    let s := wrB (imageAddr s ownRing i + slotTrailer off) (putBytes tr 12 (leBytes 4 (swSlot w))) s
    some (bump .TA_MOVE_CNT (forwardSlot slot w s))

/-- Whether some cask record of a segment's tun has not retired: a TUN record of the segment, or a DELTA record that names one of its slots, in
the own ring or in the mirror (R133, R260). -/
def segRecords (s : State) (p g : Nat) : Bool :=
  (s.ta.recs ++ s.ta.mrecs).any fun r =>
    (r.acts.any fun a => match a with | .tun _ q _ h _ _ _ => decide (q = p ∧ h = g) | _ => false) ||
      decide (r.ty = tyDelta) && (deltasOf r.body r.nent).any fun d => decide (slotPool (swSlot d.word) = p ∧ slotSeg (swSlot d.word) = g)

/-- What a segment move does with one slot: forwards a lost one, frees one with UNJ whose tun's records have all retired, moves a live one that
its read gives with its RTAG (R260, R275). A slot of COUNT zero goes once INDEXED is 0 (R179). -/
def moveOne (reads : List (Nat × DriveAns)) (s : State) (slot : Nat) : State :=
  let e := srt s slot
  let c := srtClass e
  if srtLost e then forwardSlot slot lostSlotWord s
  else if srtUnj e then if segRecords s (slotPool slot) (slotSeg slot) then s else freeSlot slot s
  else if srtCount e = 0 then if srtIndexed e then s else freeSlot slot s
  else
    match reads.find? fun x => x.1 = slot with
    | some (_, .block data md) =>
      let (d, tr) := slotInBlock (slotOff slot) c data md
      if rtagOk slot tr then (moveSlot slot d tr s).getD s else bump .DRV_RTAG_CNT s
    | _ => s

/-- The RECLAIM tuns that hold moved slots of a segment and are not yet SEALED. -/
def reclaimOpen (s : State) (p g : Nat) : Bool :=
  s.plc.fwd.any fun kv => decide (slotPool kv.1 = p) && decide (slotSeg kv.1 = g) &&
    (match tunOf s (slotPool (swSlot kv.2.1)) (slotSeg (swSlot kv.2.1)) with | some (_, t) => decide (t.phase ≠ .sealed) | none => false)

/-- Changes the state of a segment and journals it; the slots of one that becomes FREE leave the read cache. -/
def segTo (p g st : Nat) (s : State) : State :=
  let f := segFrame s p g
  let s := setSegState p g st s
  let s := { s with plc := { s.plc with frames := if st = sForwarded ∨ st = sFree then kdel s.plc.frames (frameKey p f) else s.plc.frames } }
  let s := if st = sFree then { s with plc := { s.plc with cache := s.plc.cache.filter fun kv => !(decide (slotPool kv.1 = p) && decide (slotSeg kv.1 = g)) } } else s
  crossing p (journal tyTun (g + p * 2 ^ 28) 32 [.segment p g (segEntry s p g)] none [] s)

/-- A FORWARDED segment whose last forwarding entry has gone becomes FREE (R261). -/
def freeForwarded (slot : Nat) (s : State) : State :=
  let p := slotPool slot
  let g := slotSeg slot
  if segState s p g = sForwarded && !(s.plc.fwd.any fun kv => decide (slotPool kv.1 = p) && decide (slotSeg kv.1 = g)) then segTo p g sFree s
  else s

/-- Whether the racker of a pool is held, by PAUSE or for a rebuild (R286). -/
def rackHeld (s : State) (p : Nat) : Bool := decide (s.plc.rack ≠ some p) || isF s F.PLC_RKCTL_PAUSE || isF s F.PLC_RKSTAT_PAUSED

/-- SEGMENT_MOVE (R260, R285): a segment that the governor or the racker picked becomes MOVING and its slots are moved with the blocks read for them; once none is left and the
RECLAIM tuns are SEALED it becomes FORWARDED and its frame is free. (log 79, DESIGN CHOICE, unsafe) -/
def moveSegment (p g : Nat) (reads : List (Nat × DriveAns)) (s : State) : State :=
  let st := segState s p g
  let key := p * 2 ^ 26 + g
  if st = sSealed && (s.plc.picked.contains key || (s.plc.racked.contains key && !rackHeld s p)) || decide (st = sMoving) then
    let s := if st = sSealed then
        segTo p g sMoving { s with plc := { s.plc with picked := s.plc.picked.erase key, racked := s.plc.racked.erase key } }
      else s
    let s := (segSlots s p g).foldl (moveOne reads) s
    if segSlots s p g = [] ∧ !reclaimOpen s p g then
      let s := bump .TA_LEES_CNT (segTo p g sForwarded s)
      if s.plc.fwd.any fun kv => decide (slotPool kv.1 = p) && decide (slotSeg kv.1 = g) then s else segTo p g sFree s
    else s
  else s

@[inherit_doc moveSegment] def execSegmentMove (pool : BitVec 3) (seg : BitVec 26) (reads : List (Nat × DriveAns)) (s : State) : Res :=
  ok (moveSegment pool.toNat seg.toNat reads s)

/-- A reference to a forwarded slot has been rewritten: the remaining-reference count of its entry falls, and at zero the entry goes (R261). -/
def countForward (slot : Nat) (s : State) : State :=
  match kget s.plc.fwd slot with
  | some (_, n) =>
    if n ≤ 1 then freeForwarded slot { s with plc := { s.plc with fwd := kdel s.plc.fwd slot } }
    else { s with plc := { s.plc with fwd := kmod s.plc.fwd slot fun x => (x.1, x.2 - 1) } }
  | none => s

/-- One forwarded word is followed through at most `n` entries, each of which counts the reference down (R261). -/
def rewriteIn : Nat → Nat → State → Nat × State
  | 0, w, s => (w, s)
  | n + 1, w, s =>
    match resolveStep s w with
    | some w' => rewriteIn n w' (countForward (swSlot w) s)
    | none => (w, s)

/-- One forwarded word of a page is rewritten. -/
def rewriteWord (w : Nat) (s : State) : Nat × State := rewriteIn s.plc.fwd.length w s

/-- The 48 bits of an index entry beside FPR, and the slot word they give (R174, R175). -/
def ixWord (w : Nat) : Nat := bitsN w 44 0 + swClass w * 2 ^ 45 + 2 ^ 47
@[inherit_doc ixWord] def ixSlotWord (pool x : Nat) : Nat := pool * 2 ^ 45 + bitsN x 44 0 + bitsN x 46 45 * 2 ^ 48 + 2 ^ 50
@[inherit_doc ixWord] def ixValid (x : Nat) : Bool := x.testBit 47

/-- The slot word that an entry of a page holds, of a map page or of an index page, and the entry with another. -/
def Page.wordOf (p : Page) (e : Nat × Nat) : Nat := if p.ty = 3 then (if ixValid e.2 then ixSlotWord (p.owner % 8) e.2 else 0) else e.1
@[inherit_doc Page.wordOf] def Page.withWord (p : Page) (e : Nat × Nat) (w : Nat) : Nat × Nat := if p.ty = 3 then (e.1, ixWord w) else (w, e.2)

/-- The forwarded words of a page are rewritten in it, at write-back, at page-in and in the walks of CENSUS and SWEEP (R261). An entry of the
index whose slot is forwarded to the lost slot word goes with the SWEEP. -/
def rewritePage (id : Nat) (s : State) : State :=
  match pageOf s id with
  | some p =>
    (p.ent.filter fun e => (resolveStep s (p.wordOf e.2)).isSome && !(decide (p.ty = 3) && decide (resolve s (p.wordOf e.2) = lostSlotWord))).foldl (fun t e =>
      let (w, t) := rewriteWord (p.wordOf e.2) t
      modPage id (fun q => { q with ent := kput q.ent e.1 (p.withWord e.2 w) }) t) s
  | none => s

/-- Whether a page belongs to this head: only it writes the page back (R424). -/
def pageMine (s : State) (p : Page) : Bool :=
  if p.ty = 3 then owns s (p.owner / 2 ^ 16) else if p.ty = 4 then myHalf s (p.index / 64) else ownsVol s p.owner

end Sys2Proof.Machine
end

