-- ==== Sys2Proof/Machine/Drive.lean ====
section
/-! DEFINITION. Drive I/O jobs, slow and failed members, and lost slots (R248, R249, R266 to R274, R358). -/

namespace Sys2Proof.Machine

/-! ### Block rows -/

/-- The two parts of the answer of a read of one block, as one list of 4,160 bytes. -/
def ansBytes : DriveAns → Option (List Byte)
  | .block data md => some (data ++ md)
  | .media | .timeout => none

/-- A block row of a frame: for each position its block with its metadata, or nothing where the position has no readable copy or its read
gave no data (R270). -/
def rowOf (s : State) (p f : Nat) (ans : List DriveAns) : List (Option (List Byte)) :=
  (positions s p f).map fun pos => if (posRead s p f pos).isNone then none else ansBytes (ans.getD pos .timeout)

/-- The erased positions of a row. -/
def erased (row : List (Option (List Byte))) : List Nat := (List.range row.length).filter fun i => (row.getD i none).isNone

/-- The whole row, its erased positions reconstructed (R246). -/
def solvedRow (k : Nat) (row : List (Option (List Byte))) : List (List Byte) := solveStrips k 4160 row

/-- Whether a row with at most one erasure agrees with what was read of it (R270 step 3). -/
def rowAgrees (row : List (Option (List Byte))) (full : List (List Byte)) : Bool :=
  (row.zip full).all fun (r, b) => match r with | some x => decide (x = b) | none => true

/-- The power of the generator that a number is, below a bound (R270). -/
def gfLog (n : Nat) (a : Nat) : Option Nat := (List.range n).find? fun z => pqPow z = a

/-- What the syndromes of one byte column say: nothing wrong, the position to correct with the byte to add, or an unlocatable pattern
(R270 step 3). -/
inductive Located where
  | clean
  | at (pos byte : Nat)
  | lost
  deriving DecidableEq, Repr

/-- The syndromes of one column of a row without erasure. -/
def locate (k : Nat) (c : List Nat) : Located :=
  let d := c.take k
  let sp := c.getD k 0 ^^^ pCol d
  let sq := c.getD (k + 1) 0 ^^^ qCol d
  if sp = 0 ∧ sq = 0 then .clean
  else if sq = 0 then .at k sp
  else if sp = 0 then .at (k + 1) sq
  else match gfLog k (pqMul sq (pqInv sp)) with
    | some z => .at z sp
    | none => .lost

/-- A row without erasure corrected column by column: the corrected row with the positions corrected, or nothing where a column is
unlocatable. -/
def correctRow (k : Nat) (row : List (List Byte)) : Option (List (List Byte) × List Nat) :=
  let cols := (List.range 4160).map fun i => locate k (row.map fun b => (b.getD i 0).toNat)
  if cols.contains .lost then none
  else
    let fix (pos : Nat) (b : List Byte) : List Byte :=
      (b.zip cols).map fun (x, c) => match c with | .at q v => if q = pos then x ^^^ BitVec.ofNat 8 v else x | _ => x
    some (row.zipIdx.map fun (b, pos) => fix pos b,
      (List.range row.length).filter fun pos => cols.any fun c => match c with | .at q _ => decide (q = pos) | _ => false)

/-- What becomes of a block row: repaired, with the positions reconstructed and corrected; unlocatable; or with three or more erasures. -/
inductive RowFate where
  | good (full : List (List Byte)) (rebuilt corrected : List Nat)
  | unlocatable
  | gone (missing : List Nat)
  deriving DecidableEq, Repr

/-- Repairs a block row (R270 steps 2 and 3). -/
def repairRow (k : Nat) (row : List (Option (List Byte))) : RowFate :=
  match erased row with
  | [] =>
    match correctRow k (row.map fun o => o.getD []) with
    | some (full, fixed) => .good full [] fixed
    | none => .unlocatable
  | [x] => if rowAgrees row (solvedRow k row) then .good (solvedRow k row) [x] [] else .unlocatable
  | [x, y] => .good (solvedRow k row) [x, y] []
  | l => .gone l

/-- Rewrites a block of a position in place, where the position can be read (R270 step 5). -/
def rewriteBlock (p f b pos : Nat) (bytes : List Byte) (s : State) : State :=
  match posRead s p f pos with
  | some (m, c) => driveWr p m (driveLba c b) (bytes.take 4096) (bytes.drop 4096) s
  | none => s

/-! ### Lost slots (R272) -/

/-- The slots of a segment in a block of a strip that have COUNT > 0 or UNJ = 1 (R272, R281). -/
def liveSlots (s : State) (p g strip b : Nat) : List Nat :=
  (s.me.srt.filter fun kv => decide (slotPool kv.1 = p) && decide (slotSeg kv.1 = g) && decide (offStrip (slotOff kv.1) = strip) &&
    decide (offBlock (slotOff kv.1) = b) && (decide (0 < srtCount kv.2) || srtUnj kv.2)).map Prod.fst

/-- Marks a slot LOST. -/
def markSlot (p slot : Nat) (s : State) : State :=
  let e := srt s slot
  if srtLost e then s
  else
    let w := wordOfSlot s slot
    let s := journalPool [.lost slot] (setSrt slot (putBitsN e 43 43 1) s)
    cel 0x0B11 p 4 (w % 2 ^ 32) (w / 2 ^ 32) 0 (bump .PLC_LOSTSLOT_CNT (queueLost slot { s with rst := { s.rst with lost := true } }))

/-- Marks the slots in block `b` of the erased data positions of a frame. The loss of block 255 loses nothing. -/
def markLost (p f b : Nat) (missing : List Nat) (s : State) : State :=
  match segOfFrame s p f with
  | some g =>
    if b = 255 then s
    else ((missing.filter fun x => decide (x < frameK s p f)).flatMap fun x => liveSlots s p g x b).foldl (fun t slot => markSlot p slot t) s
  | none => s

/-! ### Acceptance (R98, R102, R248, R270, R358) -/

/-- Fields of a DRVIO descriptor. -/
def dvSlot (j : Job) : Nat := j.n 8 8
@[inherit_doc dvSlot] def dvMember (j : Job) : Nat := j.n 40 1
@[inherit_doc dvSlot] def dvPool (j : Job) : Nat := j.n 41 1
@[inherit_doc dvSlot] def dvNblk (j : Job) : Nat := j.n 44 4

/-- The size of the buffer that a slot read fills. -/
def dvSlotLen (j : Job) : Nat := classSize (swClass (dvSlot j)) + 16

/-- The volume and the pass-through entry of a PASS job (R357). -/
def passVol (s : State) (j : Job) : Nat := jobVol s j 24
@[inherit_doc passVol] def passEntry (s : State) (v : Nat) : Nat := rdN s (getF s F.HFE_PASSTAB_BASE * 4096 + 8 * v) 8

/-- Whether a root port, device and namespace name a pool member or a vault drive (R231, R358, R459). -/
def ownDrive (s : State) (port dev nsid : Nat) : Bool :=
  ((List.range 8).any fun p => (List.range 256).any fun m =>
    decide (memState s p m ≠ 0) && decide (getF s F.PLC_MEM_PORT p m = port) && decide (getF s F.PLC_MEM_DEV p m = dev) &&
      decide (getF s F.PLC_MEM_NSID p m = nsid)) ||
    (isF s F.PWR_VAULT_EN && decide (dev = 0) && decide (nsid = 1) &&
      (((List.range 4).any fun d => bits (rd s .PWR_VAULT) (8 * d + 7) (8 * d) = port) ||
        (isF s F.PWR_VAULT_SPAREEN && decide (getF s F.PWR_VAULT_SPARE = port))))

/-- The acceptance checks of a PASS job (R358). (log 73, DESIGN CHOICE, safe) -/
def checkPass (j : Job) (s : State) : List (Bool × JobResult) :=
  let opc := j.n 20 1
  let e := passEntry s (passVol s j)
  [(j.nonzero 21 3 || decide (2 ^ 18 ≤ j.n 24 4) || j.nonzero 28 4 || j.nonzero 56 8, internal 3),
   (!([0, 1, 2, 5, 8, 9].contains opc) || decide (16777216 < j.n 16 4), internal 4),
   (decide (opc ≠ 0 ∧ opc ≠ 8) && !bufOk s j (decide (opc = 2)) (j.n 8 8) (j.n 16 4), JobResult.of rBounds),
   (!e.testBit 63 || ownDrive s (e % 256) (bitsN e 15 8) (bitsN e 47 16), internal 4),
   (!ownsVol s (passVol s j), JobResult.of rFenced)]

/-- The acceptance checks of a DRVIO job. -/
def checkDrvio (j : Job) (s : State) : Option JobResult :=
  let n := dvNblk j
  let slot := decide (j.op = 1 ∨ j.op = 4)
  firstFail (j.headChecks [1, 2, 3, 4, 6] (if j.op = 4 ∨ j.op = 6 then 1 else 0) ++
    (if j.op = 6 then checkPass j s
     else
      [(!slot && !j.fromStew, internal 2),
       (decide (8 ≤ dvPool j) || j.nonzero 42 2 || j.nonzero 56 8, internal 3),
       (!slot && decide (n = 0 ∨ 256 < n), internal 4),
       (slot && !bufOk s j true (j.n 16 8) (dvSlotLen j), JobResult.of rBounds),
       (decide (j.op = 2) && !bufOk s j true (j.n 16 8) (4096 * n), JobResult.of rBounds),
       (decide (j.op = 3) && !bufOk s j false (j.n 48 8) (4096 * n), JobResult.of rBounds),
       (!slot && !bufOk s j (decide (j.op = 2)) (j.n 24 8) (64 * n), JobResult.of rBounds)]))

/-! ### Drive answers -/

/-- A command to a member of a root port is counted, with the bytes it read (R539). -/
def issued (port n : Nat) (s : State) : State := pmc 0x1702 port n (pmc 0x1701 port 1 s)

/-- A member has answered: its timeouts are no longer consecutive (R267). -/
def answered (p m : Nat) (s : State) : State := { s with plc := { s.plc with tmo := kdel s.plc.tmo (p * 256 + m) } }

/-- The members of a frame's positions that answered a read of a block row (R267). -/
def rowAnswered (p f : Nat) (ans : List DriveAns) (s : State) : State :=
  (positions s p f).foldl (fun t pos =>
    match posRead t p f pos, ans.getD pos .timeout with
    | some (m, _), .block .. | some (m, _), .media => answered p m t
    | _, _ => t) s

/-- A slot read has taken its data or ended: the working buffer of a retired tun that no other such read needs is free (R39). -/
def dropRead (id : Nat) (s : State) : State :=
  match kget s.ta.reads id with
  | none => s
  | some key =>
    let l := kdel s.ta.reads id
    let wanted := l.any fun kv => decide (kv.2 = key)
    { s with ta := { s.ta with reads := l, bufs := if wanted then s.ta.bufs else kdel s.ta.bufs key } }

/-- A slot read is accepted while the slot's tun is not yet SEALED: its buffer stays until the read has taken its data (R39). -/
def noteRead (id : Nat) (j : Job) (s : State) : State :=
  let n := swSlot (resolve s (dvSlot j))
  match tunOf s (slotPool n) (slotSeg n) with
  | some (_, t) => if t.phase = .sealed then s else { s with ta := { s.ta with reads := kput s.ta.reads id (slotPool n * 2 ^ 26 + slotSeg n) } }
  | none => s

/-- The slot and its trailer in the working buffer that a read has kept (R39). -/
def keptSlot (s : State) (id w : Nat) : Option (List Byte × List Byte) :=
  let n := swSlot w
  let key := slotPool n * 2 ^ 26 + slotSeg n
  if kget s.ta.reads id ≠ some key then none
  else
    let t := match tunOf s (slotPool n) (slotSeg n) with | some (_, t) => some t | none => kget s.ta.bufs key
    t.map fun t => (t.read (slotData (slotOff n)) (classSize (swClass w)), t.read (slotTrailer (slotOff n)) 16)

/-- A drive I/O job ends; its COUNT is a free value, as no rule defines it. (log 12, DESIGN CHOICE, safe; 73, DESIGN CHOICE, safe) -/
def endDrive (id code value : Nat) (s : State) : State :=
  let c := (Config.freeWord s.free).toNat % 2 ^ 32
  finish id ⟨code, 0, c, value⟩ (nextFree (dropRead id { s with plc := { s.plc with around := s.plc.around.erase id } }))

/-- A slot read ends without data: its output is undefined (R99, R101). (log 73, DESIGN CHOICE, safe) -/
def endNoData (id : Nat) (j : Job) (code value : Nat) (s : State) : State := endDrive id code value (wrFree (j.n 16 8) (dvSlotLen j) s)

/-- A slot and its trailer go to DST. -/
def giveSlot (id : Nat) (j : Job) (d tr : List Byte) (value : Nat) (s : State) : State := endDrive id 0 value (wrB (j.n 16 8) (d ++ tr) s)

/-- The slot and the trailer of a tun in HBM, of this head or in the mirror (R249, R250, R254). (log 74, DEDUCED, unsafe) -/
def heldSlot (s : State) (w : Nat) : Option (List Byte × List Byte) :=
  match hbmSlot s w with
  | some x => some x
  | none =>
    match s.ta.ptuns.find? fun kv => decide (kv.2.pool = slotPool (swSlot w)) && decide (kv.2.seg = slotSeg (swSlot w)) with
    | some (i, _) =>
      let a := imageAddr s mirrorRing i
      let o := slotOff (swSlot w)
      some (rdB s (a + slotData o) (classSize (swClass w)), rdB s (a + slotTrailer o) 16)
    | none => none

/-- The slot and the trailer of a block of a drive. -/
def ofBlock (w : Nat) (b : List Byte) : List Byte × List Byte :=
  slotInBlock (slotOff (swSlot w)) (swClass w) (b.take 4096) (b.drop 4096)

/-- The slot and the trailer that SLOTRD takes from HBM: of a tun there, of a buffer that the read has kept, or of the read cache (R39, R249). -/
def fromHbm (s : State) (id w : Nat) : Option (List Byte × List Byte) :=
  match heldSlot s w with
  | some x => some x
  | none => match keptSlot s id w with | some x => some x | none => kget s.plc.cache (swSlot w)

/-- A slot that was read from the drives may go into the read cache, and others may leave it: the spec does not say which, and the choice is
free (R249). (log 168, DESIGN CHOICE, safe) -/
def cacheSlot (w : Nat) (d tr : List Byte) (s : State) : State :=
  let x := (Config.freeWord s.free).toNat
  let c := if x.testBit 1 then [] else s.plc.cache
  nextFree { s with plc := { s.plc with cache := if x.testBit 0 then kput c (swSlot w) (d, tr) else c } }

/-- Where a slot lies: its pool, frame, block and position. -/
def dvPlace (s : State) (w : Nat) : Nat × Nat × Nat × Nat :=
  let p := slotPool (swSlot w)
  let o := slotOff (swSlot w)
  (p, segFrame s p (slotSeg (swSlot w)), offBlock o, offStrip o)

/-- The pool's reads and read-arounds of this millisecond (R271). (log 76, DESIGN CHOICE, safe) -/
def raWindow (s : State) (p : Nat) : Nat × Nat :=
  let ms := s.dtime.toNat / 1000000
  match kget s.plc.raWin p with
  | some (t, r, a) => if t = ms then (r, a) else (0, 0)
  | none => (0, 0)

/-- Counts reads and read-arounds of a pool in this millisecond. (log 76, DESIGN CHOICE, safe) -/
def countRa (p r a : Nat) (s : State) : State :=
  let (r0, a0) := raWindow s p
  { s with plc := { s.plc with raWin := kput s.plc.raWin p (s.dtime.toNat / 1000000, r0 + r, a0 + a) } }

/-! ### SLOTRD and SLOTREC (R249, R269, R270) -/

/-- The slot of a reconstructed row: given to the job where its RTAG is right. `v` is VALUE. -/
def giveRow (id : Nat) (j : Job) (w pos v : Nat) (full : List (List Byte)) (s : State) : State :=
  let (d, tr) := ofBlock w (full.getD pos [])
  if rtagOk w tr then giveSlot id j d tr v (cacheSlot w d tr s) else endNoData id j rCheck v (bump .DRV_RTAG_CNT s)

/-- A slot read whose position has no readable copy (R269). -/
def readDegraded (id : Nat) (j : Job) (w : Nat) (ans : List DriveAns) (s : State) : State :=
  let (p, f, b, pos) := dvPlace s w
  let row := rowOf s p f ans
  let s := bump .DRV_DEGR_CNT (rowAnswered p f ans s)
  if 3 ≤ (erased row).length then endDrive id rLost 4 (markLost p f b (erased row) s)
  else giveRow id j w pos 4 (solvedRow (frameK s p f) row) s

/-- A read-around wins over the member's own answer (R271). -/
def readAround (id : Nat) (j : Job) (w : Nat) (ans : List DriveAns) (s : State) : Option State :=
  let (p, f, _, pos) := dvPlace s w
  let row := (rowOf s p f ans).set pos none
  if !s.plc.around.contains id || decide (3 ≤ (erased row).length) then none
  else
    let (d, tr) := ofBlock w ((solvedRow (frameK s p f) row).getD pos [])
    if rtagOk w tr then some (giveSlot id j d tr 2 (bump .DRV_RAWIN_CNT s)) else none

/-- A slot read of a position with a readable copy: its drive's answer is used, or the reconstruction where a read-around runs and the
answer is late or fails RTAG. -/
def readMember (id : Nat) (j : Job) (w m : Nat) (ans : List DriveAns) (s : State) : State :=
  let (p, _, _, pos) := dvPlace s w
  let s := countRa p 1 0 (issued (getF s F.PLC_MEM_PORT p m) 4096 s)
  let other (s : State) (t : State) : State := (readAround id j w ans s).getD t
  match ans.getD pos .timeout with
  | .block data md =>
    let (d, tr) := slotInBlock (slotOff (swSlot w)) (swClass w) data md
    let s := answered p m s
    if rtagOk w tr then giveSlot id j d tr 0 (cacheSlot w d tr s) else other s (endNoData id j rCheck 0 (bump .DRV_RTAG_CNT s))
  | .media => other s (endNoData id j rMedia 0 (bump .DRV_MEDIA_CNT (answered p m s)))
  | .timeout => other s (endNoData id j rTimeout 0 s)

/-- SLOTRD (R249, R269, R274): `reads` are what the frame's positions answer for the slot's block. -/
def execSlotrd (job : Nat) (reads : List DriveAns) (s : State) : Res :=
  ok (runJob job cDrvio 1 (fun j s =>
    let w := resolve s (dvSlot j)
    if w = lostSlotWord ∨ srtLost (srt s (swSlot w)) then endDrive job rLost 0 s
    else
      match fromHbm s job w with
      | some (d, tr) =>
        if rtagOk w tr then giveSlot job j d tr 1 s else endNoData job j rCheck 1 (bump .DRV_RTAG_CNT s)
      | none =>
        let (p, f, _, pos) := dvPlace s w
        match posRead s p f pos with
        | some (m, _) => readMember job j w m reads s
        | none => readDegraded job j w reads s) s)

/-- A row whose blocks agree and whose slot is still wrong, or that cannot be located, ends SLOTREC with CHECK. (log 75, DEDUCED, unsafe) -/
def recCheck (id : Nat) (j : Job) (f b v : Nat) (s : State) : State :=
  endNoData id j rCheck v (celOpen 0x17 f b 0 (bump .DRV_CONSIST_CNT s))

/-- SLOTREC (R270). -/
def execSlotrec (job : Nat) (reads : List DriveAns) (s : State) : Res :=
  ok (runJob job cDrvio 4 (fun j s =>
    let w := resolve s (dvSlot j)
    if w = lostSlotWord then endDrive job rLost 0 s
    else
      let (p, f, b, pos) := dvPlace s w
      let s := rowAnswered p f reads s
      match repairRow (frameK s p f) (rowOf s p f reads) with
      | .gone l => endDrive job rLost 4 (markLost p f b l s)
      | .unlocatable => recCheck job j f b 0 s
      | .good full rebuilt fixed =>
        let v := 4 * b2n (decide (rebuilt ≠ [])) + 8 * b2n (decide (fixed ≠ []))
        let (d, tr) := ofBlock w (full.getD pos [])
        if !rtagOk w tr then recCheck job j f b v s
        else
          let t := if (j.hflags / 256).testBit 0 then
              (rebuilt ++ fixed).foldl (fun t q =>
                if (posRead t p f q).isSome then bump .DRV_REPAIR_CNT (rewriteBlock p f b q (full.getD q []) t) else t) s
            else s
          giveSlot job j d tr v t) s)

/-! ### BLKRD, BLKWR and PASS (R248, R358) -/

/-- The answers of a run of blocks as data and metadata, or the code that ends the job. -/
def joinAnswers : List DriveAns → Sum Nat (List Byte × List Byte)
  | [] => .inr ([], [])
  | .block d m :: l => (match joinAnswers l with | .inr (x, y) => .inr (d ++ x, m ++ y) | .inl c => .inl c)
  | .media :: _ => .inl rMedia
  | .timeout :: _ => .inl rTimeout

/-- The root port of the member of a block job. -/
def blkPort (s : State) (j : Job) : Nat := getF s F.PLC_MEM_PORT (dvPool j) (dvMember j)

/-- The root port that a drive I/O job reports as its instance (R100): that of its member, for a slot the member of the slot's position, or
that of its spare chunk. -/
def dvPort (s : State) (j : Job) : Nat :=
  if j.op = 6 then passEntry s (passVol s j) % 256
  else if j.op = 2 ∨ j.op = 3 then blkPort s j
  else
    let (p, f, _, pos) := dvPlace s (resolve s (dvSlot j))
    getF s F.PLC_MEM_PORT p (match posRead s p f pos with | some (m, _) => m | none => posMember s p f pos)

/-- BLKRD (R248): `reads` answers for NBLK blocks. -/
def execBlkrd (job : Nat) (reads : List DriveAns) (s : State) : Res :=
  ok (runJob job cDrvio 2 (fun j s =>
    let n := dvNblk j
    let s := issued (blkPort s j) (4096 * n) s
    match joinAnswers ((List.range n).map fun i => reads.getD i .timeout) with
    | .inr (d, m) => endDrive job 0 0 (wrB (j.n 24 8) m (wrB (j.n 16 8) d (answered (dvPool j) (dvMember j) s)))
    | .inl c =>
      let s := if c = rMedia then bump .DRV_MEDIA_CNT (answered (dvPool j) (dvMember j) s) else s
      endDrive job c 0 (wrFree (j.n 24 8) (64 * n) (wrFree (j.n 16 8) (4096 * n) s))) s)

/-- BLKWR (R231, R248): the blocks are written; the answer is the drive's. -/
def execBlkwr (job : Nat) (ans : DriveAns) (s : State) : Res :=
  ok (runJob job cDrvio 3 (fun j s =>
    let n := dvNblk j
    let s := driveWr (dvPool j) (dvMember j) (j.n 32 8) (rdB s (j.n 48 8) (4096 * n)) (rdB s (j.n 24 8) (64 * n)) s
    match ans with
    | .block .. => endDrive job 0 0 (answered (dvPool j) (dvMember j) s)
    | .media => endDrive job rMedia 0 (answered (dvPool j) (dvMember j) s)
    | .timeout => endDrive job rTimeout 0 s) s)

/-- DRVIO_PASS (R358): the drive's status, its dword 0 and the data it returns, or no answer in time. -/
def execDrvioPass (job : Nat) (ans : Option (BitVec 15 × BitVec 32 × List Byte)) (s : State) : Res :=
  ok (runJob job cDrvio 6 (fun j s =>
    let e := passEntry s (passVol s j)
    let opc := j.n 20 1
    let len := j.n 16 4
    let data := if opc = 1 ∨ opc = 5 ∨ opc = 9 then rdB s (j.n 8 8) len else []
    if !ownsVol s (passVol s j) then finish job (JobResult.of rFenced) s
    else
      let s := pmc 0x1701 (e % 256) 1 (emit (.drivePass (e % 256) (bitsN e 15 8) (bitsN e 47 16) opc (leBytes 24 (j.n 32 24)) data) s)
      match ans with
      | some (st, dw0, d) =>
        let s := if opc = 2 then pmc 0x1702 (e % 256) len (wrB (j.n 8 8) (d.take len) s) else s
        endDrive job 0 (st.toNat + dw0.toNat * 2 ^ 32) s
      | none => endDrive job rTimeout 0 (if opc = 2 then wrFree (j.n 8 8) len s else s)) s)

/-- A drive I/O job that times out at its deadline: its output is undefined (R99). (log 12, DESIGN CHOICE, safe; 73, DESIGN CHOICE, safe) -/
def timeoutDrvio (id : Nat) (j : Job) (s : State) : State × JobResult :=
  let s := dropRead id { s with plc := { s.plc with around := s.plc.around.erase id } }
  let c := (Config.freeWord s.free).toNat % 2 ^ 32
  let s := nextFree s
  (if j.op = 1 ∨ j.op = 4 then wrFree (j.n 16 8) (dvSlotLen j) s
   else if j.op = 2 then wrFree (j.n 24 8) (64 * dvNblk j) (wrFree (j.n 16 8) (4096 * dvNblk j) s)
   else if j.op = 6 ∧ j.n 20 1 = 2 then wrFree (j.n 8 8) (j.n 16 4) s
   else s, ⟨rTimeout, 0, c, 0⟩)

/-! ### Slow members (R271) -/

/-- READ_AROUND_START (R271): a slot read of a SLOW member has waited WAITUS. (log 76, DESIGN CHOICE, safe) -/
def execReadAroundStart (job : Nat) (s : State) : Res :=
  ok (runJob job cDrvio 1 (fun j s =>
    let w := resolve s (dvSlot j)
    let (p, f, _, pos) := dvPlace s w
    let (r, a) := raWindow s p
    match posRead s p f pos with
    | some (m, _) =>
      let bad := ((positions s p f).filter fun q => q ≠ pos).countP fun q => match posRead s p f q with
        | some (x, _) => s.plc.slow.contains (p * 256 + x)
        | none => true
      if isF s F.DRV_RA_EN && s.plc.slow.contains (p * 256 + m) && decide (bad ≤ 1) && !s.plc.around.contains job &&
          decide ((a + 1) * 100 ≤ getF s F.DRV_RA_BUDGET * r) && decide (w ≠ lostSlotWord) && (fromHbm s job w).isNone then
        countRa p 0 1 (bump .DRV_RA_CNT { s with plc := { s.plc with around := job :: s.plc.around } })
      else s
    | none => s) s)

/-- The members of a pool that stay or become SLOW: above SLOWUS, or marked and not below half of it; the slowest of them, at most MAXSLOW. -/
def slowSet (s : State) (p : Nat) : List Nat :=
  let us := getF s F.DRV_RA_SLOWUS
  let cand := s.plc.lat.filter fun kv => decide (kv.1 / 256 = p) &&
    (decide (us < kv.2) || (s.plc.slow.contains kv.1 && decide (us ≤ 2 * kv.2)))
  (cand.filter fun kv => (cand.countP fun o => decide (kv.2 < o.2) || (decide (kv.2 = o.2) && decide (o.1 < kv.1))) < getF s F.DRV_RA_MAXSLOW).map Prod.fst

/-- SLOW_MARK (R271, R42): the mean latency of a member's last 1,024 completed reads, in µs, decides which members are SLOW; each change is
a governor decision. -/
def execSlowMark (pool : BitVec 3) (member : Byte) (mean : Nat) (s : State) : Res :=
  let p := pool.toNat
  let s := { s with plc := { s.plc with lat := kput s.plc.lat (p * 256 + member.toNat) mean } }
  let old := s.plc.slow.filter fun k => k / 256 = p
  let new := slowSet s p
  let s := { s with plc := { s.plc with slow := (s.plc.slow.filter fun k => k / 256 ≠ p) ++ new } }
  let s := (new.filter fun k => !old.contains k).foldl (fun t k => govRecord 5 k 1 0 t) s
  ok ((old.filter fun k => !new.contains k).foldl (fun t k => govRecord 5 k 0 1 t) s)

/-! ### Members that fail (R266 to R268) -/

/-- A member becomes FAILED from any state but ABSENT and FAILED. -/
def memberFail (p m : Nat) (s : State) : State := if memState s p m = 0 ∨ memState s p m = 2 then s else memberTo p m 2 s

/-- MEDIA_RESULT (R267): more than MEDIAMAX in 24 h fail the member. -/
def execMediaResult (pool : BitVec 3) (member : Byte) (s : State) : Res :=
  let p := pool.toNat
  let m := member.toNat
  let now := s.dtime.toNat
  let l := now :: (kgetD s.plc.media (p * 256 + m) []).filter fun t => decide (now < t + 86400000000000)
  let s := { s with plc := { s.plc with media := kput s.plc.media (p * 256 + m) l } }
  ok (if getF s F.DRV_HEALTH_MEDIAMAX < l.length then memberFail p m s else s)

/-- MEMBER_COMMAND_TIMEOUT (R267): TMOMAX consecutive timeouts fail the member. -/
def execMemberCommandTimeout (pool : BitVec 3) (member : Byte) (s : State) : Res :=
  let p := pool.toNat
  let m := member.toNat
  let n := kgetD s.plc.tmo (p * 256 + m) 0 + 1
  let s := { s with plc := { s.plc with tmo := kput s.plc.tmo (p * 256 + m) n } }
  ok (if max 1 (getF s F.DRV_HEALTH_TMOMAX) ≤ n then memberFail p m s else s)

/-- CONTROLLER_FATAL (R267). -/
def execControllerFatal (pool : BitVec 3) (member : Byte) (s : State) : Res := ok (memberFail pool.toNat member.toNat s)

/-- SMART_POLL (R267): critical warning bit 0, 2 or 3 makes an ACTIVE member EVACUATE. -/
def execSmartPoll (pool : BitVec 3) (member : Byte) (warning : Byte) (s : State) : Res :=
  ok (if warning &&& 0x0D ≠ 0 ∧ memState s pool.toNat member.toNat = 1 then memberTo pool.toNat member.toNat 3 s else s)

/-- The members on a root port. -/
def portMembers (s : State) (port : Nat) : List (Nat × Nat) :=
  (List.range 8).flatMap fun p => ((List.range 256).filter fun m =>
    decide (memState s p m ≠ 0) && decide (getF s F.PLC_MEM_PORT p m = port)).map fun m => (p, m)

/-- ROOT_PORT_LINK_DOWN (R267): the 100 ms begin. -/
def execRootPortLinkDown (port : Byte) (s : State) : Res :=
  ok { s with plc := { s.plc with down := if s.plc.down.contains port.toNat then s.plc.down else port.toNat :: s.plc.down } }

/-- The strip writes of WRITING tuns that are in flight to a root port, as the tun and the position. -/
def flightStrips (s : State) (port : Nat) : List (Tun × Nat) :=
  s.ta.tuns.flatMap fun kv =>
    if kv.2.phase ≠ .writing then []
    else (kv.2.left.filter fun q => getF s F.PLC_MEM_PORT kv.2.pool (stripMember s kv.2 q) = port).map fun q => (kv.2, q)

/-- A strip is written again to where it was being written. -/
def reissueStrip (t : Tun) (q : Nat) (s : State) : State :=
  let m := stripMember s t q
  let chunk := if m = posMember s t.pool t.frame q then posChunk s t.pool t.frame q
    else match kget s.plc.reloc (posKey t.pool t.frame q) with | some r => r.chunk | none => 0
  writeStrip t.pool m chunk (t.strip q) s

/-- ROOT_PORT_LINK_RETRAINED (R267): nothing fails, and what was in flight is reissued: strip writes go out again, and a read goes on to its
answer. -/
def execRootPortLinkRetrained (port : Byte) (s : State) : Res :=
  let p := port.toNat
  ok (if !s.plc.down.contains p then s
    else (flightStrips s p).foldl (fun t x => reissueStrip x.1 x.2 t) { s with plc := { s.plc with down := s.plc.down.erase p } })

/-- LINK_RETRAIN_TIMEOUT (R267): the members of a port that is still down fail. -/
def execLinkRetrainTimeout (port : Byte) (s : State) : Res :=
  ok (if s.plc.down.contains port.toNat then (portMembers s port.toNat).foldl (fun t x => memberFail x.1 x.2 t) s else s)

/-- Whether every chunk that a frame of a pool uses on a member lies below a bound (R280). -/
def chunksFit (s : State) (p m bound : Nat) : Bool :=
  (List.range (frameBound s p)).all fun f => !frameExists s p f ||
    (positions s p f).all fun pos => decide (posMember s p f pos ≠ m) || decide (posChunk s p f pos < bound)

/-- Whether the drive that a member register names is admitted (R231). -/
def admitted (v : Word) : Bool := Config.driveFormat (bits v 7 0) (bits v 23 16) (bits v 27 24)

/-- Whether a steward may write a member's STATE (R231, R266, R268, R280): in a pool with EN = 1 only three transitions; before EN is set any
of the named states but ACTIVE for a FAILED member, and a drive without the LBA format stays ABSENT. (log 77, DEDUCED, unsafe) -/
def mayState (s : State) (p m old new : Nat) (v : Word) : Bool :=
  if poolEn s p then
    decide (old = 1 ∧ (new = 2 ∨ new = 3)) || (decide (old = 2 ∧ new = 4) && chunksFit s p m (bits v 63 32 - getF s F.PLC_SPARE_SPARECH p))
  else decide (new < 7) && !decide (old = 2 ∧ new = 1) && (decide (old ≠ 0) || admitted v)

/-- A write of a member register (R264, R266, R268, R280): a change of STATE that is not allowed refuses the write. (log 37, DEDUCED, unsafe) -/
def wrPlcMem (p m : Nat) (v : Word) (s : State) : State :=
  let plain := wr .PLC_MEM (writeFields (rd s .PLC_MEM p m) v (RegName.info .PLC_MEM).fields) s p m
  let old := memState s p m
  let new := bits v 11 8
  if new = old then plain
  else if mayState s p m old new v then memberTo p m new (setF F.PLC_MEM_STATE old plain p m)
  else celRefused .PLC_MEM v s p m

/-- MEMBER_STATE_WRITE (R266, R280). (log 77, DEDUCED, unsafe) -/
def execMemberStateWrite (pool : BitVec 3) (member : Byte) (v : Word) (s : State) : Res := ok (wrPlcMem pool.toNat member.toNat v s)

end Sys2Proof.Machine
end

