-- ==== Sys2Proof/Machine/Pages.lean ====
section
/-! DEFINITION. Metadata pages on flash (R30, R129, R130, R137 to R141, R152, R174, R232, R241, R274, R292, R297): their bytes and headers, write-back
into META tuns, and page-in with its checks. -/

namespace Sys2Proof.Machine

/-! ### The bytes of a page (R125, R129, R131, R174) -/

/-- The first slot that a slot-reference page covers (R131). -/
def srtBase (p : Page) : Nat := p.owner * 2 ^ 45 + p.index * 512

/-- The 4,096 bytes of a page: 256 entries of 16 bytes of a map page, 128 of 32 bytes of an index page, 512 of 8 bytes of a slot-reference
page. -/
def pageBytes (s : State) (p : Page) : List Byte :=
  if p.ty = 4 then (List.range 512).flatMap fun i => leBytes 8 (srt s (srtBase p + i))
  else if p.ty = 3 then (List.range 128).flatMap fun i => leBytes 26 (p.entry i).1 ++ leBytes 6 (p.entry i).2
  else (List.range 256).flatMap fun i => leBytes 8 (p.entry i).1 ++ leBytes 8 (p.entry i).2

/-- The entries in the bytes of a page; those of a slot-reference page are single words. -/
def pageEnts (ty : Nat) (l : List Byte) : KMap (Nat × Nat) :=
  (if ty = 4 then (List.range 512).map fun i => (i, (fieldN l (8 * i) 8, 0))
   else if ty = 3 then (List.range 128).map fun i => (i, (fieldN l (32 * i) 26, fieldN l (32 * i + 26) 6))
   else (List.range 256).map fun i => (i, (fieldN l (16 * i) 8, fieldN l (16 * i + 8) 8))).filter fun e => decide (e.2 ≠ (0, 0))

/-- The header of a page in bytes 16 to 63 of the metadata of its block (R129). -/
def pageHeader (p : Page) : List Byte :=
  let h := leBytes 4 0x4750_414D ++ leBytes 1 p.ty ++ leBytes 1 1 ++ leBytes 1 p.level ++ [0] ++ leBytes 4 p.owner ++ leBytes 4 p.index ++
    leBytes 4 p.epoch ++ zeros 4 ++ leBytes 8 p.last ++ zeros 8
  h ++ leBytes 8 (crc64 h)

/-- The checks of R130 on a block that should hold a page: its RTAG, the trailer guard, HCRC, MAGIC, and that it is the page that the parent
names, in a known format. A map page may be of any volume of the reading volume's ownership group (R303). -/
def pageGood (s : State) (p : Page) (b : List Byte) : Bool :=
  let md := b.drop 4096
  let owner := fieldN md 24 4
  rtagOk p.home (md.take 16) && decide (fieldN md 0 8 = crc64 (b.take 4096)) && decide (fieldN md 56 8 = crc64 ((md.drop 16).take 40)) &&
    decide (fieldN md 16 4 = 0x4750_414D) && decide (fieldN md 20 1 = p.ty) && decide (fieldN md 22 1 = p.level) &&
    (if p.ty ≤ 2 then decide (owner < 2 ^ 18) && decide (volGroup s owner = volGroup s p.owner) else decide (owner = p.owner)) && decide (fieldN md 28 4 = p.index) && decide (fieldN md 21 1 ≤ 1)

/-- The entries that a good block gives. What a page of an older format holds after its conversion the spec does not say: its bytes are free
then (R130). (log 170, DESIGN CHOICE, safe) -/
def readEnts (p : Page) (b : List Byte) (s : State) : KMap (Nat × Nat) × State :=
  if fieldN (b.drop 4096) 21 1 = 1 then (pageEnts p.ty (b.take 4096), s)
  else (pageEnts p.ty (freeBytes s 4096), { s with free := s.free + 4096 })

/-! ### Write-back (R140, R292, R297) -/

/-- The pool that holds the home of a page (R129): a volume's, or the one that OWNER names. -/
def pagePool (s : State) (p : Page) : Nat := if p.ty ≤ 2 then volPool s p.owner else p.owner % 8

/-- The write-back of a page starts (R140): a copy is taken and placed as an S4 slot in a META tun, with its header in the block's metadata
(R129, R232, R233). It waits where no tun takes it. (log 171, DEDUCED, unsafe) -/
def startWriteback (id : Nat) (s : State) : State :=
  match pageOf s id with
  | none => s
  | some p =>
    match findPlace (pagePool s p) 1 3 s with
    | none => s
    | some (i, off, s) =>
      let data := pageBytes s p
      let s := modPage id (fun p => { p with st := .writing false, cent := p.ent, ckid := p.kid }) s
      let (w, s) := handOut i off 0 3 (1 + 3 * 2 ^ 40 + 2 ^ 42 + 2 ^ 45) true false s
      let tr := putBytes (newTrailer (swSlot w) 0 3 true false) 0 (leBytes 8 (crc64 data))
      let md := tr ++ pageHeader p
      let s := modTun i (fun t => (t.write (slotData off) data).write (slotTrailer off) md) s
      let s := wrB (imageAddr s ownRing i + slotTrailer off) md (wrB (imageAddr s ownRing i + slotData off) data s)
      modPage id (fun p => { p with dest := swSlot w }) s

/-- A write-back with the page's forwarded words rewritten (R140, R261). -/
def rewriteBack (id : Nat) (s : State) : State := startWriteback id (rewritePage id s)

/-- WBVOL (R152): every dirty page of the volume is written back at once, and the job is done when none is dirty or in flight. -/
def execWbvol (job : Nat) (s : State) : Res :=
  ok (runMap job 9 (fun _ _ _ => []) (fun _ v s =>
    let busy (s : State) : List (Nat × Page) := (volPages s v).filter fun kv => kv.2.changed
    let dirty := (busy s).filter fun kv => decide (kv.2.st = .dirty)
    let n := kgetD s.me.jobPages job 0
    if busy s = [] then finish job (JobResult.done 0 n) { s with me := { s.me with jobPages := kdel s.me.jobPages job } }
    else
      let t := dirty.foldl (fun t kv => rewriteBack kv.1 t) s
      let started := dirty.countP fun kv => (pageOf t kv.1).any fun p => decide (p.st ≠ .dirty)
      { t with me := { t.me with jobPages := kput t.me.jobPages job (n + started) } }) s)

/-- WRITEBACK_START (R140, R297, R424): the dirty page of the lowest pending CKSEQ goes first, a pinned one at once. -/
def execWritebackStart (page : Nat) (s : State) : Res :=
  ok (match pageOf s page with
    | some p =>
      let lowest (c : Option Nat) (mirror : Bool) := match c with | some n => decide (n ≤ ckptSeq s mirror) | none => false
      let first := lowest p.ck false || lowest p.pck true
      if p.st = .dirty ∧ pageMine s p ∧ (first ∨ (p.ck = none ∧ p.pck = none) ∨ p.pin.isSome) then rewriteBack page s else s
    | none => s)

/-- The entries of an index page as the partner learns its home copy. -/
def homeEnts (s : State) (id : Nat) : KMap (Nat × Nat) := match pageOf s id with | some p => p.hent | none => []

/-- A page has a new home: its parents name the new slot and are dirty, a root's new home goes to ROOT with a root record, and that of an
index page or of a slot-reference page to its home directory (R137, R241, R297). -/
def rehome (id slot : Nat) (ck : Option RingSeq) (s : State) : State :=
  let s := (parentsOf s id).foldl (fun t pe =>
    markDirty pe.1 ck (modPage pe.1 (fun p => { p with ent := kput p.ent pe.2 (pageWord slot, (p.entry pe.2).2) }) (bringIn pe.1 t))) s
  let s := (rootsOf s id).foldl (fun t v => rootRecord (.root v slot) (wrBits (volAddr v) 8 47 0 slot t)) s
  let s := match s.gl.ixPage.find? fun kv => kv.2 = id with
    | some kv => rootRecord (.ixHome kv.1 slot (homeEnts s id)) s
    | none => s
  match s.me.srtPage.find? fun kv => kv.2 = id with
  | some kv => journalPool [.srtHome kv.1 slot] s
  | none => s

/-- Whether a page names a pinned child: the child's home will change it again. -/
def kidPinned (s : State) (p : Page) : Bool :=
  p.kid.any fun e => match pageOf s e.2 with | some c => c.pin.isSome | none => false

/-- How many references a page's home has (R292): its parents' entries and the ROOTs that name it; a directory entry counts as one. -/
def homeRefs (s : State) (id : Nat) : Nat := max 1 ((parentsOf s id).length + (rootsOf s id).length + (snapRootsOf s id).length)

/-- A page has reached its home: it is CLEAN, or DIRTY again where a delta came meanwhile, and pinned no more. Its new home counts the
references that its old one loses (R138, R140, R239, R292, R297). -/
def writebackHomed (page : Nat) (s : State) : State :=
  match pageOf s page with
  | some p =>
    match p.st with
    | .writing _ =>
      let n := homeRefs s page
      let s := if p.home = 0 then s else freeSlot p.home s
      let s := sendSrt p.dest (setSrt p.dest (n + 3 * 2 ^ 40 + 2 ^ 45) s)
      let s := modPage page (fun p =>
        let again := decide (p.st = .writing true)
        { p with
          st := if again then .dirty else .clean
          ck := if again then p.ck else none
          pck := if again then p.pck else none
          pin := if again || kidPinned s p then p.pin else none
          home := p.dest, hent := p.cent, hkid := p.ckid, cent := [], ckid := [] }) s
      rehome page p.dest (p.ck.map fun c => ⟨false, c⟩) s
    | _ => s
  | none => s

/-- Whether the tun of a page in flight has been sealed: its strips are written (R138, R245). (log 171, DEDUCED, unsafe) -/
def destSealed (s : State) (p : Page) : Bool :=
  match tunOf s (slotPool p.dest) (slotSeg p.dest) with
  | some (_, t) => decide (t.phase = .sealed)
  | none => true

/-- WRITEBACK_HOMED (R138, R140, R292): the tun of the slot to which the page's write-back goes has been written. -/
def execWritebackHomed (page slot : Nat) (s : State) : Res :=
  ok (match pageOf s page with
    | some p => if p.dest = slot ∧ destSealed s p = true then drainRoots (writebackHomed page s) else s
    | none => s)

/-! ### Page-in (R130, R139, R141, R274) -/

/-- The block of a page's home where its tun is in HBM: of this head, or in the mirror (R249). -/
def heldBlock (s : State) (slot : Nat) : Option (List Byte) :=
  let o := slotOff slot
  match tunOf s (slotPool slot) (slotSeg slot) with
  | some (_, t) => if t.phase = .sealed then none else some (t.read (slotData o) 4096 ++ t.read (slotTrailer o) 64)
  | none =>
    match s.ta.ptuns.find? fun kv => decide (kv.2.pool = slotPool slot) && decide (kv.2.seg = slotSeg slot) with
    | some (i, _) => let a := imageAddr s mirrorRing i; some (rdB s (a + slotData o) 4096 ++ rdB s (a + slotTrailer o) 64)
    | none => none

/-- The blocks that a page read tries in turn: the home itself, then what reconstruction gives of its row (R130, R269, R270). -/
def pageTries (s : State) (p : Page) (ans : List DriveAns) : List (List Byte) :=
  match heldBlock s p.home with
  | some b => [b]
  | none =>
    let (q, f, _, pos) := dvPlace s (pageWord p.home)
    let row := rowOf s q f ans
    let k := frameK s q f
    let fixed := match repairRow k row with | .good full .. => [full.getD pos []] | .unlocatable | .gone _ => []
    let others := row.set pos none
    (row.getD pos none).toList ++ fixed ++ (if (erased others).length ≤ 2 then [(solvedRow k others).getD pos []] else [])

/-- The child that an entry of an interior page names: the one it was, or the page at that home (R128). -/
def kidOf (p : Page) (i : Nat) (w ep : Nat) (s : State) : Nat × State :=
  match (kget p.hkid i).bind fun c => (pageOf s c).bind fun q => if q.home = swSlot w then some c else none with
  | some c => (c, s)
  | none => pageAtHome (if p.level = 1 then 1 else 2) (p.level - 1) p.owner (p.index * 256 + i) ep (swSlot w) s

/-- The children that the entries of an interior page name. -/
def kidsOf (p : Page) : List (Nat × Nat × Nat) → State → KMap Nat × State
  | [], s => ([], s)
  | (i, w, ep) :: l, s =>
    if !swValid w || decide (w = lostSlotWord) then kidsOf p l s
    else
      let (c, s) := kidOf p i w ep s
      let (m, s) := kidsOf p l s
      (kput m i c, s)

/-- The entries of a slot-reference page replace those of its range. -/
def putSrtPage (p : Page) (ents : KMap (Nat × Nat)) (s : State) : State :=
  let lo := srtBase p
  let rest := s.me.srt.filter fun kv => !(decide (lo ≤ kv.1) && decide (kv.1 < lo + 512))
  { s with me := { s.me with srt := ents.foldl (fun m e => kput m (lo + e.1) e.2.1) rest } }

/-- A page has been read: its entries go into its frame, and it is CLEAN. -/
def installPage (page : Nat) (p : Page) (b : List Byte) (s : State) : State :=
  let (ents, s) := readEnts p b s
  let s := if p.ty = 4 then putSrtPage p ents s else s
  let (kid, s) := if p.ty = 2 then kidsOf p ents s else ([], s)
  let own := if p.ty = 4 then [] else ents
  modPage page (fun p => { p with ent := own, kid := kid, hent := own, hkid := kid, last := fieldN (b.drop 4096) 40 8 }) s

/-- A page is lost: the jobs that wait end with LOST, and a map page is replaced by one whose entries all hold the lost slot word (R130, R273,
R274). (log 47, DESIGN CHOICE, unsafe) -/
def losePage (page : Nat) (p : Page) (s : State) : State :=
  let s := p.waiters.foldl (fun t id => finish id (JobResult.of rLost) t) s
  let s :=
    if p.ty ≤ 2 then
      let n := 256 ^ (p.level + 1)
      reportLost p.owner (p.index * n) n true
        (modPage page (fun p => { p with st := .dirty, ent := lostEntries, kid := [], waiters := [] }) s)
    else modPage page (fun p => { p with st := .lost, waiters := [] }) (if p.ty = 4 then putSrtPage p [] s else s)
  cel 0x0D10 p.ty 4 p.owner p.level p.index (setF F.ME_LOST_COUNT (getF s F.ME_LOST_COUNT + 1) s)

/-- The page is CLEAN and its waiters can go on (R141). -/
def pageReady (page : Nat) (s : State) : State :=
  modPage page (fun p => { p with st := .clean, waiters := [], held := p.waiters, move := false, pre := false }) s

/-- The read of a page, or its move from DDR, has ended: it is installed, or lost (R130, R138, R139, R141). (log 47, DESIGN CHOICE, unsafe) -/
def pageInstalled (page : Nat) (ans : List DriveAns) (s : State) : State :=
  match pageOf s page with
  | some p =>
    if p.st ≠ .reading then s
    else
      let side (t : State) : State := if p.pre then loadSide p t else t
      if p.move then side (pageReady page s)
      else
        match (pageTries s p ans).find? (pageGood s p) with
        | some b => side (pageReady page (installPage page p b s))
        | none => losePage page p s
  | none => s

end Sys2Proof.Machine
end

