-- ==== Sys2Proof/Machine/Rebuild.lean ====
section
/-! DEFINITION. Rebuild, copy-back, sparge passes and racking (R276 to R286). -/

namespace Sys2Proof.Machine

/-! ### The scan (R276, R277, R279) -/

/-- The bit of a frame in the progress bitmap (R279). (log 78, DEDUCED, unsafe) -/
def progressBit (p f v : Nat) (s : State) : State :=
  wrBits (getF s F.PLC_RBCTL_MAPBASE p * 4096 + f / 8) 1 (f % 8) (f % 8) v s

/-- Whether rebuild may run in a pool. -/
def rebuildOn (s : State) (p : Nat) : Bool := poolEn s p && isF s F.PLC_RBCTL_EN p && !isF s F.PLC_RBCTL_PAUSE p

/-- The bitmap follows the relocation table (R279): a frame that has been relocated and has no position left to rebuild is done, one with a
position left is not. -/
def putBitmap (p : Nat) (l : List (Nat × Nat)) (s : State) : State :=
  let due := (l.map Prod.fst).eraseDups
  let moved := ((s.plc.reloc.filter fun kv => decide (kv.1 / 2 ^ 31 = p)).map fun kv => kv.1 / 32 % 2 ^ 26).eraseDups
  let s := due.foldl (fun t f => progressBit p f 0 t) s
  (moved.filter fun f => myHalf s f && !due.contains f).foldl (fun t f => progressBit p f 1 t) s

/-- REBUILD_SCAN (R276, R277): the scan starts at the top; with MAPBASE zero it does not, and a record is written. Racking that was held
for the rebuild goes on once nothing is left (R286). -/
def execRebuildScan (pool : BitVec 3) (s : State) : Res :=
  let p := pool.toNat
  ok (if !rebuildOn s p then s
    else
      let l := dueList s p
      if getF s F.PLC_RBCTL_MAPBASE p = 0 then (if l = [] then s else celOpen 0x0B p 0 0 s)
      else
        let s := putBitmap p l (putScan p l s)
        if l = [] ∧ s.plc.rack = some p then setF F.PLC_RKSTAT_PAUSED 0 s else s)

/-! ### Rebuilding a position (R277, R278) -/

/-- A row with three or more erasures: its slots are lost, the erased data positions become zero, and P and Q are recomputed. The new row
is written in place where a position other than `pos` is readable. -/
def zeroRow (p f b pos : Nat) (row : List (Option (List Byte))) (s : State) : List (List Byte) × State :=
  let k := frameK s p f
  let full := solveStrips k 4160 ((List.range (k + 2)).map fun i =>
    if i < k then some ((row.getD i none).getD (zeros 4160)) else none)
  let s := markLost p f b (erased row) s
  let l := ((erased row).filter fun q => q < k) ++ [k, k + 1]
  (full, (l.filter fun q => q ≠ pos).foldl (fun t q => rewriteBlock p f b q (full.getD q []) t) s)

/-- Whether a position is read from a member that is neither SLOW nor LEAVING (R278). -/
def preferred (s : State) (p f pos : Nat) : Bool :=
  match posRead s p f pos with
  | some (m, _) => !s.plc.slow.contains (p * 256 + m) && decide (memState s p m ≠ 6)
  | none => false

/-- The K positions that a rebuild reads: those with readable copies, preferred ones first. Which of equals the spec does not say; the lowest
are taken. (log 172, DESIGN CHOICE, unsafe) -/
def sources (s : State) (p f pos : Nat) : List Nat :=
  let l := (positions s p f).filter fun q => decide (q ≠ pos) && (posRead s p f q).isSome
  ((l.filter (preferred s p f)) ++ l.filter fun q => !preferred s p f q).take (frameK s p f)

/-- The bytes of one block row of a position: its own copy where it has one that can be read, else what the K sources give, or, where one of
those gives nothing, what SLOTREC's rule makes of the strips that remain (R278). (log 79, DESIGN CHOICE, unsafe) -/
def rebuildBlock (p f pos b : Nat) (ans : List DriveAns) (s : State) : List Byte × State :=
  let k := frameK s p f
  let row := rowOf s p f ans
  let src := sources s p f pos
  match row.getD pos none with
  | some x => (x, s)
  | none =>
    if src.length = k && src.all fun q => (row.getD q none).isSome then
      ((solvedRow k (row.zipIdx.map fun (x, q) => if src.contains q then x else none)).getD pos [], s)
    else if 3 ≤ (erased row).length then
      let (full, s) := zeroRow p f b pos row s
      (full.getD pos [], s)
    else ((solvedRow k row).getD pos [], s)

/-- The strip image of a position: its data and its metadata, block row by block row. -/
def rebuildStrip (p f pos : Nat) (rows : List (List DriveAns)) (s : State) : List Byte × State :=
  let (d, m, s) := (List.range 256).foldl (fun (acc : List Byte × List Byte × State) b =>
    let ans := rows.getD b []
    let (x, t) := rebuildBlock p f pos b ans (rowAnswered p f ans acc.2.2)
    (acc.1 ++ x.take 4096, acc.2.1 ++ x.drop 4096, t)) ([], [], s)
  (d ++ m, s)

/-- An EVACUATE member whose last position has been relocated becomes FAILED. (log 79, DESIGN CHOICE, unsafe) -/
def evacDone (p m : Nat) (s : State) : State :=
  if memState s p m = 3 && !((sealedFrames s p false).any fun f => (positions s p f).any fun pos => decide (posMember s p f pos = m) && evacPos s p f pos)
  then memberTo p m 2 s else s

/-- One position is rebuilt onto a spare chunk: the strip is written, and the relocation is journalled once it is durable; without a spare
chunk it is left (R278). -/
def rebuildPos (p f pos : Nat) (rows : List (List DriveAns)) (s : State) : State :=
  let (img, s) := rebuildStrip p f pos rows s
  match spareChunk s p f with
  | some (q, c) => bump .PLC_RBSTRIP_CNT (relocate p f pos q c (writeStrip p q c img s))
  | none => celOpen 0x0B p f pos (bump .PLC_NOSPARE_CNT s)

/-- REBUILD_POSITION (R277, R278): the first position of the scan, with what the positions of its frame answer for each of the 256 blocks; one
that is no longer due is skipped (R276, R280). -/
def execRebuildPosition (pool : BitVec 3) (rows : List (List DriveAns)) (s : State) : Res :=
  let p := pool.toNat
  ok (match scanOf s p with
    | [] => s
    | (f, pos) :: l =>
      if !rebuildOn s p then s
      else
        let m := posMember s p f pos
        let s := if stillDue s p f pos then rebuildPos p f pos rows s else s
        let s := if l.any fun x => x.1 = f then s else progressBit p f 1 s
        evacDone p m (putScan p l s))

/-! ### Copy-back (R280) -/

/-- Whether the strips of a frame are on its members: its segment is neither OPEN nor SEALING. -/
def stripsWritten (s : State) (p f : Nat) : Bool :=
  match segOfFrame s p f with
  | some g => decide (segState s p g ≠ sOpen) && decide (segState s p g ≠ sSealing)
  | none => true

/-- The next position to copy back onto a member, of this head's half where `mine` says so: a relocated one, then one that never was. (log 78, DEDUCED, unsafe) -/
def nextBack (s : State) (p m : Nat) (mine : Bool) : Option (Nat × Nat) :=
  match s.plc.reloc.find? fun kv => decide (kv.1 / 2 ^ 31 = p) && (!mine || myHalf s (kv.1 / 32 % 2 ^ 26)) &&
      decide (posMember s p (kv.1 / 32 % 2 ^ 26) (kv.1 % 32) = m) && (!mine || stripsWritten s p (kv.1 / 32 % 2 ^ 26)) with
  | some kv => some (kv.1 / 32 % 2 ^ 26, kv.1 % 32)
  | none => (sealedFrames s p mine).findSome? fun f =>
      ((positions s p f).find? fun pos => decide (posMember s p f pos = m) && (posRead s p f pos).isNone).map fun pos => (f, pos)

/-- COPYBACK_STRIP (R280): the next position of this head's half is copied from its spare chunk, or reconstructed, onto the member, and its
relocation entry is removed; the same record tells the partner of a position that had none. After the last of both halves the member is
ACTIVE. (log 173, DEDUCED, unsafe) -/
def execCopybackStrip (pool : BitVec 3) (member : Byte) (rows : List (List DriveAns)) (s : State) : Res :=
  let p := pool.toNat
  let m := member.toNat
  ok (if !poolEn s p || decide (memState s p m ≠ 4) then s
    else
      let s := match nextBack s p m true with
        | some (f, pos) =>
          let key := posKey p f pos
          let (img, s) := rebuildStrip p f pos rows s
          let s := journalPool [.unreloc key] (bump .PLC_RBSTRIP_CNT (writeStrip p m (posChunk s p f pos) img s))
          { s with plc := { s.plc with reloc := kdel s.plc.reloc key, back := key :: s.plc.back } }
        | none => s
      if (nextBack s p m false).isNone then
        let s := memberTo p m 1 s
        { s with plc := { s.plc with back := s.plc.back.filter fun k => !(decide (k / 2 ^ 31 = p) && decide (posMember s p (k / 32 % 2 ^ 26) (k % 32) = m)) } }
      else s)

/-! ### Sparge passes (R281, R282) -/

/-- A finding of a sparge pass: its record names the pool and the frame, the block and the position. -/
def finding (p f b pos : Nat) (cnt : RegName) (s : State) : State := celOpen 0x0B (p * 2 ^ 26 + f) b pos (bump cnt s)

/-- Whether a segment header is valid, and a header without its strip number and its check (R236). -/
def headerOk (h : List Byte) : Bool := decide (fieldN h 0 4 = 0x4E47_4553) && decide (fieldN h 56 8 = crc64 (h.take 56))
@[inherit_doc headerOk] def headerCore (h : List Byte) : List Byte := putBytes (h.take 56) 7 [0]

/-- Block row 255: a bad header copy is rewritten from a good one; where none is good every copy is a finding. -/
def spargeHeaders (p f : Nat) (full : List (List Byte)) (s : State) : State :=
  let k := frameK s p f
  let heads := (full.take k).map fun b => b.take 64
  match heads.find? headerOk with
  | none => (List.range k).foldl (fun t pos => finding p f 255 pos .PLC_SPG_HDR_CNT t) s
  | some g =>
    (List.range k).foldl (fun t pos =>
      let h := heads.getD pos []
      if headerOk h && decide (headerCore h = headerCore g) && decide (fieldN h 7 1 = pos) then t
      else
        let n := putBytes (g.take 56) 7 (leBytes 1 pos)
        finding p f 255 pos .PLC_SPG_HDR_CNT (rewriteBlock p f 255 pos (n ++ leBytes 8 (crc64 n) ++ zeros 4032 ++ zeros 64) t)) s

/-- A steward's cipher and decompression jobs for the DEEP check of a slot: the slot, and the volume, LBA and GEN that they name for it. -/
abbrev DeepJob := Nat × Nat × Nat × Nat

/-- Whether the DEEP check of a slot fails: its cipher job ends with CHECK, or its block does not decode (R191, R221, R281). A job whose key slot
is empty checks nothing. -/
def deepBad (s : State) (jobs : List DeepJob) (slot : Nat) (d tr : List Byte) : Bool :=
  match jobs.find? fun j => j.1 = slot with
  | none => false
  | some (_, v, lba, gen) =>
    match xeJobOf s v (volKeyslot s v) with
    | none => false
    | some x =>
      let c := srtClass (srt s slot)
      match openSlot x (volSealed s v) c lba gen d tr with
      | none => true
      | some pl => (plainBlock c pl).isNone

/-- The trailers of a data block: that of a live slot is right and passes its DEEP check, every other is zero, but for the headers of the pages
of a META segment with their check (R232, R281). -/
def badTrailers (s : State) (isMeta : Bool) (live : List Nat) (jobs : List DeepJob) (b : List Byte) : Nat :=
  let md := b.drop 4096
  let head := (md.drop 16).take 48
  let bad (j : Nat) : Bool :=
    let tr := (md.drop (16 * j)).take 16
    match live.find? fun w => offPos (slotOff w) = j with
    | some w =>
      let (d, tr) := slotInBlock j (srtClass (srt s w)) (b.take 4096) md
      !rtagOk w tr || deepBad s jobs w d tr
    | none => if isMeta && decide (0 < j) then false else tr.any fun b => b ≠ 0
  (List.range 4).countP bad + b2n (isMeta && head.any (fun b => decide (b ≠ 0)) && decide (fieldN md 56 8 ≠ crc64 (head.take 40)))

/-- One block row of a visit. -/
def spargeRow (p f b : Nat) (ans : List DriveAns) (jobs : List DeepJob) (s : State) : State :=
  let k := frameK s p f
  let s := rowAnswered p f ans s
  match repairRow k (rowOf s p f ans) with
  | .gone l => celOpen 0x0B (p * 2 ^ 26 + f) b (l.headD 0) (markLost p f b l s)
  | .unlocatable => finding p f b 0 .PLC_SPG_UNLOC_CNT s
  | .good full rebuilt fixed =>
    let s := (rebuilt ++ fixed).foldl (fun t q =>
      if (posRead t p f q).isSome then finding p f b q .PLC_SPG_REPAIR_CNT (rewriteBlock p f b q (full.getD q []) t) else t) s
    if b = 255 then spargeHeaders p f full s
    else
      match segOfFrame s p f with
      | none => s
      | some g =>
        (List.range k).foldl (fun t pos =>
          let n := badTrailers t (segMeta t p g) (liveSlots t p g pos b) (if isF t F.PLC_SPG_DEEP p then jobs else []) (full.getD pos [])
          (List.range n).foldl (fun u _ => finding p f b pos .PLC_SPG_TAG_CNT u) t) s

/-- The next SEALED frame of this head's half from a frame on. (log 79, DESIGN CHOICE, unsafe) -/
def spargeFrame (s : State) (p from' : Nat) : Option Nat :=
  (sealedFrames s p true).find? fun f => decide (from' ≤ f) && (match segOfFrame s p f with | some g => decide (segState s p g = sSealed) | none => false)

/-- A cycle ends, late or in time. -/
def spargeCycle (p : Nat) (s : State) : State :=
  let now := s.dtime.toNat
  let late := decide (kgetD s.plc.cycle0 p now + max 1 (getF s F.PLC_SPG_CYCLEH p) * 3600000000000 < now)
  let s := setF F.PLC_SPGSTAT_CYCLES (getF s F.PLC_SPGSTAT_CYCLES p + 1) (setF F.PLC_SPGSTAT_NEXT 0 s p) p
  let s := { s with plc := { s.plc with cycle0 := kput s.plc.cycle0 p now } }
  if late then setF F.PLC_SPGSTAT_OVERRUN 1 s p else s

/-- The first visit of a pool starts its first cycle. -/
def startCycle (p : Nat) (s : State) : State :=
  if (kget s.plc.cycle0 p).isSome then s else { s with plc := { s.plc with cycle0 := kput s.plc.cycle0 p s.dtime.toNat } }

/-- SPARGE_VISIT (R281, R282): the next frame is visited, with what its positions answer for each of the 256 blocks, and the steward jobs of the
DEEP check. (log 76, DESIGN CHOICE, safe) -/
def execSpargeVisit (pool : BitVec 3) (rows : List (List DriveAns)) (jobs : List (Nat × Nat × Nat × Nat)) (s : State) : Res :=
  let p := pool.toNat
  ok (if !poolEn s p || !isF s F.PLC_SPG_EN p then s
    else if spargePaused s p then markPause p s
    else
      let s := startCycle p (markPause p s)
      match spargeFrame s p (getF s F.PLC_SPGSTAT_NEXT p) with
      | none => spargeCycle p s
      | some f =>
        let s := (List.range 256).foldl (fun t b => spargeRow p f b (rows.getD b []) jobs t) s
        if (spargeFrame s p (f + 1)).isSome then setF F.PLC_SPGSTAT_NEXT (f + 1) s p else spargeCycle p s)

/-! ### Racking (R283 to R286) -/

/-- The members that the used positions of a target table image name. -/
def rackNamed (s : State) (a k : Nat) : List Nat := ((List.range 4096).flatMap fun r => (imageRow s a k r).map Prod.fst).eraseDups

/-- The target slot capacity of a pool in KiB: every band of the target geometry that its members hold (R284). -/
def targetKib (s : State) (p : Nat) (named : List Nat) : Nat :=
  let n := named.foldl (fun t m => min t (spareBase s p m / max 1 (getF s F.PLC_RKGEOM_EPOCHCH))) 16384
  n * 4096 * getF s F.PLC_RKGEOM_K * 1020

/-- The live KiB of a pool. -/
def liveKib (s : State) (p : Nat) : Nat :=
  ((s.plc.frames.filter fun kv => kv.1 / 2 ^ 26 = p).map fun kv => segLivek s p kv.2).sum

/-- Whether the drive of an ABSENT member may join: it offers the LBA format (R231). -/
def mayJoin (s : State) (p m : Nat) : Bool := memState s p m = 0 && decide (memChunks s p m ≠ 0) && admitted (rd s .PLC_MEM p m)

/-- Why racking of a pool is refused (R284); 0 where it is not. A named drive without the LBA format counts as one that is not there (R231). (log 174, DEDUCED, unsafe) -/
def rackError (s : State) (p : Nat) : Nat :=
  let a := getF s F.PLC_RKPT_BASE * 4096
  let k := getF s F.PLC_RKGEOM_K
  let named := rackNamed s a k
  if s.plc.rack.isSome || decide (dueAmong s p (sealedFrames s p false) ≠ []) || decide (scanOf s p ≠ []) ||
      (List.range 256).any fun m => memState s p m = 3 ∨ memState s p m = 4 then 1
  else if (badRow s a k (getF s F.PLC_RKGEOM_MEMBERS) (getF s F.PLC_RKGEOM_EPOCHCH)).isSome then 2
  else if named.any fun m => !(decide (memState s p m = 1) || mayJoin s p m) then 3
  else if targetKib s p named * (100 - getF s F.TA_LEES_LOW) < liveKib s p * 100 then 4
  else if freePoolFrames s p < 8192 then 5
  else if getF s F.PLC_BAND_BASE p = 0 then 6
  else 0

/-- The band table at the first racking: every epoch whose frames exist (R283). -/
def initBands (p : Nat) (s : State) : State :=
  if bandOn s p then s
  else
    let ch := getF s F.PLC_GEOM_EPOCHCH p
    let t := (List.range 16384).foldl (fun t e =>
      wrN (bandAddr s p e) 8 (if (List.range 4096).any fun r => frameExists s p (4096 * e + r) then ch * e + 2 ^ 33 else 0) t) s
    setF F.PLC_BAND_EN 1 t p

/-- A write of PLC_RKCTL (R284). -/
def wrRkCtl (v : Word) (s : State) : State :=
  let s := wr .PLC_RKCTL (writeFields (rd s .PLC_RKCTL) v (RegName.info .PLC_RKCTL).fields) s
  if !bit v 0 then s
  else
    let p := bits v 3 1
    let err := rackError s p
    if err ≠ 0 then setF F.PLC_RKSTAT_ERR err (setF F.PLC_RKSTAT_REFUSED 1 s)
    else
      let a := getF s F.PLC_RKPT_BASE * 4096
      let named := rackNamed s a (getF s F.PLC_RKGEOM_K)
      let s := initBands p s
      let s := { s with plc := { s.plc with
        target := (s.plc.target.filter fun kv => kv.1 / 131072 < p) ++ imageTable s a p ++ s.plc.target.filter fun kv => p < kv.1 / 131072
        rack := some p } }
      let s := setF F.PLC_RKSTAT_PAUSED 0 (setF F.PLC_RKSTAT_WAITP 0 (setF F.PLC_RKSTAT_RUN 1 s))
      let s := (List.range 256).foldl (fun t m =>
        if named.contains m then (if memState t p m = 0 then memberTo p m 5 t else t)
        else if memState t p m = 1 then memberTo p m 6 t else t) s
      putRkstat p (noteRepair p s)

/-- RACKING_GO (R284). -/
def execRackingGo (pool : BitVec 3) (s : State) : Res := ok (wrRkCtl (BitVec.ofNat 64 (2 * pool.toNat + 1)) s)

/-- A band entry changes, journalled in a POOL record (R285). -/
def setBand (p e entry : Nat) (s : State) : State := journalPool [.band p e entry] (wrN (bandAddr s p e) 8 entry s)

/-- The chunks that the VALID bands use, as first chunk and length. -/
def bandRanges (s : State) (p : Nat) : List (Nat × Nat) :=
  ((bandsOf s p false).map fun e => (bandOf s p e % 2 ^ 32, getF s F.PLC_GEOM_EPOCHCH p)) ++
    (bandsOf s p true).map fun e => (bandOf s p e % 2 ^ 32, getF s F.PLC_RKGEOM_EPOCHCH)

/-- The lowest chunk that no band uses, and how many free chunks follow it, none where nothing bounds them. -/
def lowestFree (l : List (Nat × Nat)) : Nat :=
  let start (c : Nat) : Nat := l.foldl (fun c r => if decide (r.1 ≤ c) && decide (c < r.1 + r.2) then r.1 + r.2 else c) c
  l.foldl (fun c _ => start c) 0
@[inherit_doc lowestFree] def freeRun (l : List (Nat × Nat)) (c : Nat) : Option Nat :=
  l.foldl (fun b r => if r.1 < c then b else match b with | some n => some (min n (r.1 - c)) | none => some (r.1 - c)) none

/-- Places target bands while the lowest free run holds one (R285 step 4). -/
def placeBands (p : Nat) (named : List Nat) : Nat → State → State
  | 0, s => s
  | fuel + 1, s =>
    let l := bandRanges s p
    let c := lowestFree l
    let ch := getF s F.PLC_RKGEOM_EPOCHCH
    let fits := (match freeRun l c with | some n => decide (ch ≤ n) | none => true) && named.all fun m => decide (c + ch ≤ spareBase s p m)
    match fits && decide (0 < ch), (List.range 16384).find? fun e => !(bandOf s p e).testBit 33 with
    | true, some e => placeBands p named fuel (setBand p e (c + 2 ^ 32 + 2 ^ 33) s)
    | _, _ => s

/-- The members of a pool's target table. -/
def targetMembers (s : State) (p : Nat) : List Nat :=
  ((s.plc.target.filter fun kv => decide (kv.1 / 131072 = p) && decide (kv.1 % 32 < getF s F.PLC_RKGEOM_K + 2)).map fun kv => kv.2 % 256).eraseDups

/-- The pages of a META segment are paged in, become DIRTY and are written back at once (R285 step 2). -/
def homeAway (p g : Nat) (s : State) : State :=
  let slots := (s.me.srt.filter fun kv => decide (slotPool kv.1 = p) && decide (slotSeg kv.1 = g) && srtMeta kv.2 && decide (0 < srtCount kv.2)).map Prod.fst
  (s.me.pages.filter fun kv => slots.contains kv.2.home).foldl (fun t kv =>
    match kv.2.st with
    | .flash => faultPage true kv.1 none t
    | .clean => rewriteBack kv.1 (markDirty kv.1 none (bringIn kv.1 t))
    | .dirty => rewriteBack kv.1 t
    | .reading | .writing _ | .lost => t) s

/-- The segments of a band start to be emptied: open ones are sealed, DATA and RECLAIM ones picked for a move, META ones written away. -/
def emptyBand (p e : Nat) (s : State) : State :=
  let l := s.plc.frames.filter fun kv => decide (kv.1 / 2 ^ 26 = p) && decide (kv.1 % 2 ^ 26 / 4096 = e) && myHalf s (kv.1 % 2 ^ 26)
  l.foldl (fun t kv =>
    if segState t p kv.2 = sOpen then (match tunOf t p kv.2 with | some (i, _) => startSeal i t | none => t)
    else if segState t p kv.2 = sSealed then
      (if segMeta t p kv.2 then homeAway p kv.2 t
       else if t.plc.racked.contains (p * 2 ^ 26 + kv.2) then t
       else { t with plc := { t.plc with racked := (p * 2 ^ 26 + kv.2) :: t.plc.racked } })
    else t) s

/-- Whether no frame of a band is in use, of this head's half where `mine` says so. -/
def bandEmpty (s : State) (p e : Nat) (mine : Bool) : Bool :=
  !(s.plc.frames.any fun kv => decide (kv.1 / 2 ^ 26 = p) && decide (kv.1 % 2 ^ 26 / 4096 = e) && (!mine || myHalf s (kv.1 % 2 ^ 26)))

/-- BAND_DRAIN (R285): the racker goes on with the lowest band of the current geometry; `theirs` says that the partner has reported its
half of that band FREE. (log 76, DESIGN CHOICE, safe) -/
def execBandDrain (pool : BitVec 3) (theirs : Bool) (s : State) : Res :=
  let p := pool.toNat
  let lowest := (bandsOf s p false).foldl (fun b e => match b with
    | some x => if bandOf s p e % 2 ^ 32 < bandOf s p x % 2 ^ 32 then some e else b
    | none => some e) none
  ok (if rackHeld s p then s
    else match lowest with
      | none => s
      | some e =>
        let s := if (bandOf s p e).testBit 34 then s else setBand p e (bandOf s p e + 2 ^ 34) s
        let s := emptyBand p e s
        if !bandEmpty s p e true then s
        else if !(theirs || soloMode s) || !bandEmpty s p e false then
          (if isF s F.PLC_RKSTAT_WAITP then s else setF F.PLC_RKSTAT_WAITP 1 (toPartner (.bandFree p e) s))
        else
          let s := if isF s F.PLC_RKSTAT_WAITP then s else toPartner (.bandFree p e) s
          let s := setF F.PLC_RKSTAT_WAITP 0 (setBand p e 0 s)
          putRkstat p (placeBands p (targetMembers s p) 16384 s))

/-- RACKING_SWITCHOVER (R286): one journalled change to the target geometry; each member that changes state has its event and record. -/
def execRackingSwitchover (pool : BitVec 3) (s : State) : Res :=
  let p := pool.toNat
  ok (if s.plc.rack ≠ some p || isF s F.PLC_RKSTAT_PAUSED || decide (bandsOf s p false ≠ []) then s
    else
      let old := s
      let s := switchOver p (journalPool [.switchover p] s)
      (List.range 256).foldl (fun t m =>
        if memState old p m = memState t p m then t else memberNote p m (memState old p m) (memState t p m) t) s)

end Sys2Proof.Machine
end

