-- ==== Sys2Proof/Machine/Grist.lean ====
section
/-! DEFINITION. Grist units and the lauter filter (R158 to R171, R184). -/

namespace Sys2Proof.Machine

/-! ### Fingerprints (R160 to R163) -/

/-- The values of a fingerprint (R160). -/
def fpK (f : List Byte) : Nat := fieldN f 0 8
@[inherit_doc fpK] def fpTag (f : List Byte) : Nat := fpK f % 65536
@[inherit_doc fpK] def fpH (f : List Byte) : Nat := fieldN f 8 8

/-- The acceptance checks of a GRIST job (R161). -/
def checkGrist (j : Job) (s : State) : Option JobResult :=
  let n := j.n 24 4
  firstFail (j.headChecks [1] 0 ++
    [(j.nonzero 28 36, internal 3), (decide (n = 0 ∨ 65536 < n), internal 4),
     j.bounds s false (j.n 8 8) (4096 * n), j.bounds s true (j.n 16 8) (32 * n)])

/-- Block `i` of the source of a GRIST job. -/
def gristBlock (s : State) (j : Job) (i : Nat) : List Byte := rdB s (j.n 8 8 + 4096 * i) 4096

/-- The fingerprints of the first `n` blocks go to DST. -/
def gristOut (j : Job) (n : Nat) (s : State) : State :=
  wrB (j.n 16 8) ((List.range n).flatMap fun i => sha512t256 (gristBlock s j i)) s

/-- VALUE of a GRIST job: the zero blocks among the first 64 (R162). -/
def gristZeros (s : State) (j : Job) (n : Nat) : Nat :=
  ((List.range (min n 64)).map fun i => if (gristBlock s j i).all (· = 0) then 2 ^ i else 0).sum

/-- GRIST_FP (R160, R162). -/
def execGristFp (job : Nat) (s : State) : Res :=
  ok (runJob job cGrist 1 (fun j s =>
    let n := j.n 24 4
    finish job (JobResult.done n (gristZeros s j n)) (gristOut j n s)) s)

/-- A GRIST job that times out: its first `n` fingerprints are valid (R162). -/
def timeoutGrist (j : Job) (n : Nat) (s : State) : State × JobResult :=
  let n := min n (j.n 24 4)
  (wrFree (j.n 16 8 + 32 * n) (32 * (j.n 24 4 - n)) (gristOut j n s), ⟨rTimeout, 0, n, gristZeros s j n⟩)

/-- SEC_BORROW (R163): SEC takes grist unit 0 of L0 once the jobs it has accepted are complete, or gives it back. -/
def execSecBorrow (take : Bool) (s : State) : Res :=
  ok (if !take then { s with gl := { s.gl with borrow := false } }
    else if instLoad s cGrist 0 = 0 then { s with gl := { s.gl with borrow := true } } else s)

/-! ### The filter (R164 to R168) -/

/-- E for a size of mapped DDR5 (R31). -/
def filterLog2 (size : Nat) : Nat := ((List.range 41).filter fun e => 2 ^ (e + 1) ≤ size / 2).foldl max 0

/-- E as it is fixed. -/
def fcap (s : State) : Nat := getF s F.GL_FCAP_LOG2E

/-- A write of GL_CTL (R164, R184). While builds are queued EN does not change. (log 37, DEDUCED, unsafe; 58, DESIGN CHOICE, unsafe) -/
def wrGlCtl (v : Word) (s : State) : State :=
  let held := (decide (s.gl.builds ≠ []) || s.gl.building.isSome) && decide (b2n (bit v 0) ≠ getF s F.GL_CTL_EN)
  let v' := if held then setBits v 0 0 (getF s F.GL_CTL_EN) else v
  let on := bit v' 0 && !isF s F.GL_CTL_EN
  let s1 := wr .GL_CTL (writeFields (rd s .GL_CTL) v' (RegName.info .GL_CTL).fields) s
  let s1 := if held then celRefused .GL_CTL v s1 else s1
  if on then setF F.GL_FCAP_LOG2E (filterLog2 s1.ddrcSize) { s1 with gl := { s1.gl with evicted := 0 } } else s1

/-- GL_ENABLE (R164): a write of GL_CTL. (log 58, DESIGN CHOICE, unsafe) -/
def execGlEnable (v : Word) (s : State) : Res := ok (wrGlCtl v s)

/-- The bucket of a fingerprint of a group, and the remainder (R165). -/
def bucketOf (s : State) (g : Nat) (f : List Byte) : Nat := (fpK f ^^^ (g * 2 ^ 48)) / 2 ^ (70 - fcap s)
@[inherit_doc bucketOf] def remOf (f : List Byte) : Nat := fpK f % 65536

/-- Where a bucket, its summary and its hot filter line lie (R164). -/
def bucketAddr (b : Nat) : Nat := 0x100_0000_0000 + 128 * b
@[inherit_doc bucketAddr] def summaryAddr (b : Nat) : Nat := 0x38_0000_0000 + 8 * b
@[inherit_doc bucketAddr] def hotAddr (b : Nat) : Nat := 0x48_0000_0000 + 128 * (b % 2 ^ 28)

/-- COUNT, OLDEST and MASK of a bucket's summary (R165). -/
def sumCount (s : State) (b : Nat) : Nat := rdBits s (summaryAddr b) 8 6 0
@[inherit_doc sumCount] def sumOldest (s : State) (b : Nat) : Nat := rdBits s (summaryAddr b) 8 13 8
@[inherit_doc sumCount] def sumMask (s : State) (b : Nat) : Nat := rdBits s (summaryAddr b) 8 63 32

/-- Whether the hot filter holds a bucket. -/
def isHot (s : State) (b : Nat) : Bool := decide (kget s.gl.hot (b % 2 ^ 28) = some b)

/-- The ring position of the `i`-th oldest entry of a bucket, and the remainder at a ring position. -/
def ringPos (s : State) (b i : Nat) : Nat := (sumOldest s b + i) % 64
@[inherit_doc ringPos] def entryAt (s : State) (b pos : Nat) : Nat := rdN s (bucketAddr b + 2 * pos) 2

/-- The held entries of a bucket, oldest first. -/
def heldOf (s : State) (b : Nat) : List Nat := (List.range (sumCount s b)).map fun i => entryAt s b (ringPos s b i)

/-- Writes an entry of a bucket, through to DDR5 and to its hot filter line. -/
def putEntry (b pos v : Nat) (s : State) : State :=
  let s := wrN (bucketAddr b + 2 * pos) 2 v s
  if isHot s b then wrN (hotAddr b + 2 * pos) 2 v s else s

/-- MASK of a list of entries. -/
def maskOf (l : List Nat) : Nat := l.foldl (fun m r => m ||| 2 ^ (r % 32)) 0

/-- Writes the summary of a bucket, with MASK recomputed from the held entries (R165). -/
def putSummary (b count oldest : Nat) (s : State) : State :=
  let s := wrN (summaryAddr b) 8 (count + oldest * 2 ^ 8) s
  wrBits (summaryAddr b) 8 63 32 (maskOf (heldOf s b)) s

/-- A bucket that was read from DDR5 is installed in the hot filter (R166). -/
def installHot (b : Nat) (s : State) : State :=
  if isHot s b then s
  else { wrB (hotAddr b) (rdB s (bucketAddr b) 128) s with gl := { s.gl with hot := kput s.gl.hot (b % 2 ^ 28) b } }

/-- Whether the filter answers "maybe seen" (R166), and the state after the probe. -/
def filterProbe (g : Nat) (f : List Byte) (s : State) : Bool × State :=
  let b := bucketOf s g f
  if sumCount s b = 0 ∨ !(sumMask s b).testBit (remOf f % 32) then (false, s)
  else ((heldOf s b).contains (remOf f), installHot b s)

/-- Inserts a remainder (R167): the first eviction after EN is set, and the first after each further 2^E, write a record. -/
def filterInsert (g : Nat) (f : List Byte) (s : State) : State :=
  let b := bucketOf s g f
  let n := sumCount s b
  let o := sumOldest s b
  if n < 64 then putSummary b (n + 1) o (putEntry b ((o + n) % 64) (remOf f) s)
  else
    let s := putSummary b 64 ((o + 1) % 64) (putEntry b o (remOf f) s)
    let k := s.gl.evicted
    let s := bump .GL_EVICT_CNT { s with gl := { s.gl with evicted := k + 1 } }
    if k % 2 ^ fcap s = 0 then celOpen 0x0E 0 0 0 s else s

/-- The index of the last element of a list equal to a value. -/
def lastIdx (l : List Nat) (v : Nat) : Option Nat := ((List.range l.length).filter fun i => l.getD i 0 = v).getLast?

/-- Removes the newest held entry equal to the remainder and closes the ring (R168). -/
def filterDelete (g : Nat) (f : List Byte) (s : State) : State :=
  let b := bucketOf s g f
  let l := heldOf s b
  match lastIdx l (remOf f) with
  | none => s
  | some i =>
    let l' := l.eraseIdx i
    let s := (List.range l'.length).foldl (fun t k => if i ≤ k then putEntry b (ringPos t b k) (l'.getD k 0) t else t) s
    putSummary b l'.length (sumOldest s b) s

/-! ### Admission (R170) -/

/-- The admission state of a volume. -/
def admitOf (s : State) (v : Nat) : Admit := kgetD s.gl.admission v {}
@[inherit_doc admitOf] def setAdmit (v : Nat) (a : Admit) (s : State) : State := { s with gl := { s.gl with admission := kputD {} s.gl.admission v a } }

/-- The probes of a window. -/
def admitWindow (s : State) : Nat := max 1024 (getF s F.GL_ADMIT_WINDOW)

/-- The end of a volume's window: the governor sets or clears its bit; a change writes a record. -/
def admitEnd (v : Nat) (s : State) : State :=
  let a := admitOf s v
  let b := decide (getF s F.GL_ADMIT_THRESH * a.probes ≤ a.hits * 65536)
  let s := setAdmit v ⟨b, 0, 0⟩ s
  if b = a.bit then s else govRecord 6 v (b2n b) (b2n a.bit) s

/-- The entry of a volume becomes VALID: its admission bit is set, and a change of it writes a record (R170). -/
def admitNew (v : Nat) (s : State) : State :=
  if (admitOf s v).bit then setAdmit v {} s else govRecord 6 v 1 0 (setAdmit v {} s)

/-- ADMISSION_WINDOW_END (R170). -/
def execAdmissionWindowEnd (vol : BitVec 18) (s : State) : Res :=
  let v := vol.toNat
  ok (if isF s F.GL_CTL_ADMITEN ∧ admitWindow s ≤ (admitOf s v).probes then admitEnd v s else s)

/-- Counts a probe of a volume; a window that is full ends first. (log 54, DEDUCED, unsafe) -/
def admitProbe (v : Nat) (s : State) : State :=
  if !isF s F.GL_CTL_ADMITEN then s
  else
    let s := if admitWindow s ≤ (admitOf s v).probes then admitEnd v s else s
    setAdmit v { admitOf s v with probes := (admitOf s v).probes + 1 } s

/-- Counts a hit of a volume. -/
def admitHit (v : Nat) (s : State) : State :=
  if isF s F.GL_CTL_ADMITEN then setAdmit v { admitOf s v with hits := (admitOf s v).hits + 1 } s else s

/-! ### LAUTER jobs (R159, R171, R177) -/

/-- Sets or clears the fingerprint latch of an agent. -/
def putLatch (a : Agent) (l : Option Latch) (s : State) : State :=
  { s with gl := { s.gl with latch := match l with | some x => kput s.gl.latch (agentKey a) x | none => kdel s.gl.latch (agentKey a) } }

/-- A probe or lookup for a volume that does not deduplicate: the latch is cleared, and a key mismatch counts (R159, R177). -/
def noDedupe (a : Agent) (v : Nat) (s : State) : State :=
  let s := putLatch a none s
  if !volFlag s v 2 && !volSealed s v && keyMismatch s v then bump .GL_KEYMIS_CNT s else s

/-- The acceptance checks of a LAUTER job. -/
def checkLauter (j : Job) (s : State) : Option JobResult :=
  firstFail (j.headChecks [1, 2, 3] 1 ++
    [(decide (j.op ≠ 1) && !j.fromStew, internal 2), (decide (2 ^ 18 ≤ j.n 16 4) || j.nonzero 20 44, internal 3),
     j.bounds s false (j.n 8 8) 32, (!volValid s (jobVol s j 16), internal 4)])

/-- The fingerprint that a job names. -/
def jobFp (s : State) (j : Job) : List Byte := rdB s (j.n 8 8) 32

/-- LAUTER_PROBE (R159, R166, R170, R171, R177). (log 54, DEDUCED, unsafe) -/
def execLauterProbe (job : Nat) (s : State) : Res :=
  ok (runJob job cLauter 1 (fun j s =>
    let v := jobVol s j 16
    let f := jobFp s j
    let s := admitProbe v (bump .GL_PROBE_CNT s)
    if !dedups s v then finish job (JobResult.done 1 0) (noDedupe j.owner v s)
    else
      let g := volGroup s v
      let bank := bucketOf s g f % 8
      let (yes, s) := filterProbe g f (pmc 0x0E01 bank 1 s)
      let s := if yes then pmc 0x0E02 bank 1 (bump .GL_MAYBE_CNT s) else s
      let l := s.gl.maybe.erase (agentKey j.owner)
      let s := { s with gl := { s.gl with maybe := if yes then agentKey j.owner :: l else l } }
      finish job (JobResult.done 1 (b2n yes)) (putLatch j.owner (some ⟨f, v⟩) s)) s)

/-- LAUTER_INSERT (R167, R171). -/
def execLauterInsert (job : Nat) (s : State) : Res :=
  ok (runJob job cLauter 2 (fun j s =>
    finish job (JobResult.done 1 0) (filterInsert (volGroup s (jobVol s j 16)) (jobFp s j) s)) s)

/-- LAUTER_DELETE (R168, R171). -/
def execLauterDelete (job : Nat) (s : State) : Res :=
  ok (runJob job cLauter 3 (fun j s =>
    finish job (JobResult.done 1 0) (filterDelete (volGroup s (jobVol s j 16)) (jobFp s j) s)) s)

/-- A LAUTER job that times out has changed nothing (R99). -/
def timeoutLauter (s : State) : State × JobResult := (s, ⟨rTimeout, 0, 0, 0⟩)

/-- GL_FSTAT.HELD: the entries of all summaries (R184). -/
def filterHeld (s : State) : Nat :=
  ((s.mem.filter fun c => decide (0x38_0000_0000 ≤ c.1) && decide (c.1 < 0x48_0000_0000) && decide (c.1 % 8 = 0)).map fun c => c.2.toNat % 128).sum

end Sys2Proof.Machine
end

