-- ==== Sys2Proof/Machine/Index.lean ====
section
/-! DEFINITION. The fingerprint index, its builds, insertions and removals, and the census (R169, R172 to R182). -/

namespace Sys2Proof.Machine

/-! ### Index pages (R172 to R174) -/

/-- How many pages a domain has. -/
def domPages (x : Domain) : Nat := 2 ^ x.level + x.split

/-- The page of a fingerprint hash (R173). -/
def pageNo (x : Domain) (h : Nat) : Nat := let p := h % 2 ^ x.level; if p < x.split then h % 2 ^ (x.level + 1) else p

/-- The key of an index page, and the page object. -/
def ixKey (d p : Nat) : Nat := d * 2 ^ 33 + p
@[inherit_doc ixKey] def ixPageId (s : State) (d p : Nat) : Option Nat := kget s.gl.ixPage (ixKey d p)

/-- The group and the pool of a domain. -/
def domGroup (d : Nat) : Nat := d % 1024
@[inherit_doc domGroup] def domPool (d : Nat) : Nat := d / 1024

/-- An index page of a domain, created where it is empty (R172, R174). -/
def ixPageFor (d p : Nat) (s : State) : Nat × State :=
  match ixPageId s d p with
  | some id => (id, bringIn id s)
  | none =>
    let (id, s) := newPage 3 0 (domPool d + domGroup d * 2 ^ 16) p 0 s
    (id, { s with gl := { s.gl with ixPage := kput s.gl.ixPage (ixKey d p) id } })

/-- What an index page stores of a fingerprint: FPR, bytes f[6] to f[31] (R160, R174). -/
def fxNum (f : List Byte) : Nat := fieldN f 6 26

/-- The hash and START of a stored fingerprint (R160). -/
def fprH (r : Nat) : Nat := r / 2 ^ 16 % 2 ^ 64
@[inherit_doc fprH] def fprStart (r : Nat) : Nat := r / 2 ^ 80 % 128

/-- The places of a search from START on, up to the first entry not VALID: the run and whether it ended (R174). -/
def ixRun (ent : KMap (Nat × Nat)) (start : Nat) : Nat → List Nat
  | 0 => []
  | n + 1 => if ixValid (kgetD ent (start % 128) (0, 0)).2 then start % 128 :: ixRun ent (start + 1) n else []

/-- The place of the entry that matches, in the run from START. -/
def ixFind (ent : KMap (Nat × Nat)) (r : Nat) : Option Nat :=
  (ixRun ent (fprStart r) 128).find? fun e => (kgetD ent e (0, 0)).1 = r

/-- The entries with one more, at the end of the run from its START; nothing where all 128 are in use. -/
def ixAdd (ent : KMap (Nat × Nat)) (x : Nat × Nat) : Option (KMap (Nat × Nat)) :=
  let n := (ixRun ent (fprStart x.1) 128).length
  if n = 128 then none else some (kput ent ((fprStart x.1 + n) % 128) x)

/-- The entries without the one at a place: the later entries of its run move back one place (R174). (log 55, DEDUCED, unsafe) -/
def ixDel (ent : KMap (Nat × Nat)) (e : Nat) : KMap (Nat × Nat) :=
  let run := ixRun ent (e + 1) 127
  let moved := run.foldl (fun m k => kput m ((k + 127) % 128) (kgetD ent k (0, 0))) ent
  kdel moved ((e + run.length) % 128)

/-- Changes the entries of a page. -/
def setEnt (id : Nat) (ent : KMap (Nat × Nat)) (s : State) : State := markDirty id none (modPage id (fun p => { p with ent := ent }) s)

/-- The entries of a page. -/
def entOf (s : State) (id : Nat) : KMap (Nat × Nat) := match pageOf s id with | some p => p.ent | none => []

/-- Splits page SPLIT of a domain (R173). -/
def splitDomain (d : Nat) (s : State) : State :=
  let x := domOf s d
  if x.level = 32 then s
  else
    let (a, s) := ixPageFor d x.split s
    let go := (entOf s a).filter fun e => fprH e.2.1 % 2 ^ (x.level + 1) = x.split + 2 ^ x.level
    let s := go.foldl (fun t e => match ixFind (entOf t a) e.2.1 with | some k => setEnt a (ixDel (entOf t a) k) t | none => t) s
    let s := if go = [] then s
      else
        let (b, s) := ixPageFor d (x.split + 2 ^ x.level) s
        go.foldl (fun t e => match ixAdd (entOf t b) e.2 with | some m => setEnt b m t | none => t) s
    let full := decide (x.split + 1 = 2 ^ x.level)
    setDomain d { x with split := if full then 0 else x.split + 1, level := if full then x.level + 1 else x.level } s

/-- Sets or clears INDEXED of a slot; the change goes to the partner (R425). -/
def setIndexed (slot v : Nat) (s : State) : State :=
  if bitsN (srt s slot) 44 44 = v then s else sendSrt slot (setSrt slot (putBitsN (srt s slot) 44 44 v) s)

/-- Looks a fingerprint up in a domain: the slot word of the match, or 0 (R175). A forwarded slot gives its new word (R261). -/
def ixLookup (s : State) (d : Nat) (f : List Byte) : Nat :=
  match ixPageId s d (pageNo (domOf s d) (fpH f)) with
  | none => 0
  | some id =>
    match ixFind (entOf s id) (fxNum f) with
    | some e => resolve s (ixSlotWord (domPool d) (kgetD (entOf s id) e (0, 0)).2)
    | none => 0

/-- An insertion into the index (R178 step 4): whether it took place. -/
def ixInsert (d : Nat) (f : List Byte) (word : Nat) (s : State) : Bool × State :=
  let x := domOf s d
  let (id, s) := ixPageFor d (pageNo x (fpH f)) s
  match ixFind (entOf s id) (fxNum f) with
  | some _ => (false, bump .GL_DUPINS_CNT s)
  | none =>
    match ixAdd (entOf s id) (fxNum f, ixWord word) with
    | none => (false, bump .GL_IXFULL_CNT s)
    | some m =>
      let s := setDomain d { x with entries := x.entries + 1 } (setEnt id m s)
      let s := if 48 * domPages x < x.entries + 1 then splitDomain d s else s
      (true, setIndexed (swSlot word) 1 (filterInsert (domGroup d) f s))

/-- Removes the entry that matches a fingerprint and a slot, and deletes the fingerprint from the filter (R179, R181): whether there was
one. (log 55, DEDUCED, unsafe) -/
def ixRemove (d : Nat) (f : List Byte) (slot : Nat) (s : State) : Bool × State :=
  match ixPageId s d (pageNo (domOf s d) (fpH f)) with
  | none => (false, s)
  | some id =>
    let s := bringIn id s
    match ixFind (entOf s id) (fxNum f) with
    | none => (false, s)
    | some e =>
      let w := ixSlotWord (domPool d) (kgetD (entOf s id) e (0, 0)).2
      if swSlot (resolve s w) ≠ slot then (false, s)
      else
        let s := (rewriteWord w s).2
        let x := domOf s d
        (true, filterDelete (domGroup d) f (setDomain d { x with entries := x.entries - 1 } (setEnt id (ixDel (entOf s id) e) s)))

/-- The index page of a fingerprint, where it has one. -/
def fpPages (s : State) (d : Nat) (f : List Byte) : List Nat := (ixPageId s d (pageNo (domOf s d) (fpH f))).toList

/-- All pages of a domain, in page order. -/
def allIxPages (s : State) (d : Nat) : List Nat := (s.gl.ixPage.filter fun kv => decide (kv.1 / 2 ^ 33 = d)).map Prod.snd

/-! ### FPX jobs (R176, R180, R181) -/

/-- The volume or the domain of an FPX job. -/
def fxVol (s : State) (j : Job) : Nat := jobVol s j 24
@[inherit_doc fxVol] def fxDom (s : State) (j : Job) : Nat :=
  if j.op ≤ 3 then volDom s (fxVol s j) else domKey (bitsN (j.n 24 4) 9 0) (bitsN (j.n 24 4) 18 16)

/-- The policy class of a LOOKUP, and whether it compares bytes (R176). -/
def fxClass (s : State) (j : Job) : Nat :=
  match j.owner with
  | .ctx n => clsOf s n
  | .stew _ => volClass s (fxVol s j)
@[inherit_doc fxClass] def fxCompare (s : State) (j : Job) : Bool := bit (rd s .GL_BCMP) (fxClass s j)

/-- Whether another CENSUS, SWEEP or RESET has been accepted for a domain (R181). -/
def walkRuns (s : State) (d : Nat) : Bool :=
  s.jobs.any fun kv => decide (kv.2.cls = cFpx) && decide (4 ≤ kv.2.op) && decide (kv.2.phase = .accepted) && decide (fxDom s kv.2 = d)

/-- The acceptance checks of an FPX job. -/
def checkFpx (j : Job) (s : State) : Option JobResult :=
  let n := j.n 28 4
  firstFail (j.headChecks [1, 2, 3, 4, 5, 6] 1 ++
    [(decide (j.op ≠ 1) && !j.fromStew, internal 2),
     ((if j.op ≤ 3 then decide (2 ^ 18 ≤ j.n 24 4) else decide (bitsN (j.n 24 4) 15 10 ≠ 0 ∨ bitsN (j.n 24 4) 31 19 ≠ 0)) || j.nonzero 48 16 ||
       (decide (j.op ≠ 1) && j.nonzero 32 8), internal 3),
     (decide (j.op = 4) && decide (n = 0 ∨ 2 ^ 28 < n), internal 4),
     (decide (j.op ≤ 3) && !bufOk s j false (j.n 8 8) 32, JobResult.of rBounds),
     (decide (j.op = 1) && decide (j.n 32 8 ≠ 0) && !bufOk s j false (j.n 32 8) 4096, JobResult.of rBounds),
     (decide (j.op = 4) && !bufOk s j true (j.n 40 8) (4 * n), JobResult.of rBounds),
     (decide (j.op = 1) && fxCompare s j && decide (j.n 32 8 = 0), internal 4),
     (!owns s (domGroup (fxDom s j)), JobResult.of rFenced),
     (decide (4 ≤ j.op) && walkRuns s (fxDom s j), internal 4)])

/-- Runs an FPX operation once its pages are resident, or ends it with FENCED where ownership has been lost (R153, R181). (log 57, DESIGN CHOICE, unsafe) -/
def runFpx (id op : Nat) (pages : Job → Nat → State → List Nat) (f : Job → Nat → State → State) (s : State) : State :=
  runJob id cFpx op (fun j s =>
    let d := fxDom s j
    if !owns s (domGroup d) then finish id (JobResult.of rFenced) s
    else withPages id (pages j d s) (f j d) s) s

/-- The plain block of a slot of a domain, from its bytes and its trailer (R176, R179): with the domain's adopted key. -/
def domBlock (s : State) (d w : Nat) (dt : List Byte × List Byte) : Option (List Byte) :=
  let x := domOf s d
  match kget s.xe.keys x.keyslot with
  | some k =>
    if !x.keyset then none
    else
      match openSlot ⟨x.keyslot, k.key, 0, x.keyepoch, domGroup d, false, true⟩ false (swClass w) 0 0 dt.1 dt.2 with
      | some p => plainBlock (swClass w) p
      | none => none
  | none => none

/-- The bytes and the trailer that the device's own read of a slot gives: from a tun in HBM, else as the drives answered. -/
def ownRead (s : State) (w : Nat) (read : Option (List Byte × List Byte)) : Option (List Byte × List Byte) :=
  match heldSlot s w with
  | some x => some x
  | none => read

/-- The answer of a LOOKUP after the byte compare (R176): the slot word or 0. -/
def fxCompared (j : Job) (d w : Nat) (read : Option (List Byte × List Byte)) (s : State) : Nat × State :=
  if w = 0 ∨ !fxCompare s j then (w, s)
  else
    match (ownRead s w read).bind (domBlock s d w) with
    | none => (0, s)
    | some b =>
      if b = rdB s (j.n 32 8) 4096 then (w, s)
      else (0, celOpen 0x0E (w % 2 ^ 32) (w / 2 ^ 32) (fpTag (jobFp s j)) (bump .GL_COLL_CNT s))

/-- FPX_LOOKUP (R159, R175 to R177, R170): `read` is the slot with its trailer where a byte compare has it read from the drives. -/
def execFpxLookup (job : Nat) (read : Option (List Byte × List Byte)) (s : State) : Res :=
  ok (runFpx job 1 (fun j d s => if dedups s (fxVol s j) then fpPages s d (jobFp s j) else []) (fun j d s =>
    let v := fxVol s j
    let k := agentKey j.owner
    let done (w : Nat) (s : State) : State :=
      let s := if w = 0 && s.gl.maybe.contains k then bump .GL_FALSE_CNT s else s
      finish job (JobResult.done 1 w) { s with gl := { s.gl with maybe := s.gl.maybe.erase k } }
    if !dedups s v then done 0 (noDedupe j.owner v s)
    else
      let f := jobFp s j
      let (w, s) := fxCompared j d (ixLookup s d f) read s
      let s := if w = 0 then s else admitHit v s
      done w (putLatch j.owner (some ⟨f, v⟩) s)) s)

/-- A domain without a key pair adopts that of a volume (R159, R178 step 3). -/
def adoptKeys (d v : Nat) (s : State) : State :=
  let x := domOf s d
  if x.keyset then s else setDomain d { x with keyset := true, keyslot := volKeyslot s v, keyepoch := volKeyEpoch s v } s

/-- FPX_INSERT (R159, R178 step 4, R181): the block is one of the named volume. -/
def execFpxInsert (job : Nat) (s : State) : Res :=
  ok (runFpx job 2 (fun j d s => fpPages s d (jobFp s j)) (fun j d s =>
    let s := adoptKeys d (fxVol s j) s
    let (yes, s) := ixInsert d (jobFp s j) (resolve s (j.n 16 8)) s
    finish job (JobResult.done 1 (b2n yes)) s) s)

/-- FPX_REMOVE (R181). (log 55, DEDUCED, unsafe) -/
def execFpxRemove (job : Nat) (s : State) : Res :=
  ok (runFpx job 3 (fun j d s => fpPages s d (jobFp s j)) (fun j d s =>
    let (yes, s) := ixRemove d (jobFp s j) (swSlot (resolve s (j.n 16 8))) s
    finish job (JobResult.done 1 (b2n yes)) s) s)

/-! ### CENSUS, SWEEP and RESET (R181, R182) -/

/-- The pages below a list of pages, each once. -/
def below (s : State) (l : List Nat) : List Nat :=
  (l.flatMap fun id => match pageOf s id with | some p => p.kids.map Prod.snd | none => []).eraseDups

/-- The map pages of a domain, of its volumes and their snapshots, each once. -/
def domMapPages (s : State) (d : Nat) : List Nat :=
  let roots := ((s.me.root.filter fun kv => volDom s kv.1 = d).map Prod.snd ++
    (s.me.snapRoot.filter fun kv => volDom s (snapVol s kv.1) = d).map Prod.snd).eraseDups
  let l2 := below s roots
  let l1 := below s l2
  roots ++ l2 ++ l1 ++ below s l1

/-- How many leaf entries of a list of pages name a slot. -/
def leafCount (s : State) (pages : List Nat) (slot : Nat) : Nat :=
  (pages.map fun id => match pageOf s id with
    | some p => if p.level = 0 then kcount p.ents fun _ e => swValid e.1 && decide (swSlot (resolve s e.1) = slot) else 0
    | none => 0).sum

/-- A slot's COUNT is corrected (R182 step 4): whether it was, and the state. One that becomes 0 proceeds as R132 states. -/
def censusSlot (slot t : Nat) (s : State) : Bool × State :=
  let e := srt s slot
  let c := srtCount e
  if srtLost e || srtUnj e || decide (c = t) || (decide (c = 0xFF_FFFF) && decide (0xFF_FFFF ≤ t)) then (false, s)
  else
    let s := if c = 0xFF_FFFF then s else celOpen 0x0D (slot % 2 ^ 32) c t s
    let s := setSrt slot (withCount e (min t 0xFF_FFFF)) s
    let s := if t = 0 then subLivek slot (srtClass e) s else if c = 0 then addLivek slot (srtClass e) s else s
    let s := if t = 0 && srtIndexed e then queueRemoval slot s else s
    (true, sendSrt slot s)

/-- The slots of a range that have an entry or are named. -/
def censusSlots (s : State) (pages : List Nat) (base n : Nat) : List Nat :=
  let named := pages.flatMap fun id => match pageOf s id with
    | some p => if p.level = 0 then (p.ents.filter fun e => swValid e.2.1).map fun e => swSlot (resolve s e.2.1) else []
    | none => []
  ((s.me.srt.map Prod.fst ++ named).eraseDups).filter fun x => decide (base ≤ x) && decide (x < base + n)

/-- The class of a slot as the first leaf entry that names it gives it. -/
def namingClass (s : State) (pages : List Nat) (slot : Nat) : Nat :=
  ((pages.findSome? fun id => (pageOf s id).bind fun p =>
    if p.level ≠ 0 then none else (p.ents.find? fun e => swValid e.2.1 && decide (swSlot (resolve s e.2.1) = slot)).map fun e => swClass e.2.1)).getD 0

/-- A lost slot-reference page all of whose slots a CENSUS counts is made anew: CLASS from the leaf entries that name a slot, FPTAG and INDEXED
0 (R273). -/
def remakeSrt (pages : List Nat) (key : Nat) (s : State) : State :=
  match kget s.me.srtPage key with
  | none => s
  | some id =>
    if (pageOf s id).map Page.st ≠ some .lost then s
    else
      let s := makeRoom s
      let f := nextFrame s false
      let s := modPage id (fun p => { p with st := .clean, ddr := false, frame := f }) s
      (List.range 512).foldl (fun t i =>
        let slot := key * 512 + i
        let n := leafCount t pages slot
        setSrt slot (if n = 0 then 0 else min n 0xFF_FFFF + namingClass t pages slot * 2 ^ 40) t) s

/-- FPX_CENSUS (R182, R273): the walk of every map page of the domain, which also rewrites forwarded words (R261), and the corrections. (log 57, DESIGN CHOICE, unsafe) -/
def execFpxCensus (job : Nat) (s : State) : Res :=
  ok (runFpx job 4 (fun _ _ _ => []) (fun j d s =>
    let n := j.n 28 4
    let base := swSlot (j.n 16 8)
    let buf := j.n 40 8
    let pages := domMapPages s d
    let s := pages.foldl (fun t id => rewritePage id t) s
    let s := ((s.me.srtPage.map Prod.fst).filter fun k => decide (base ≤ k * 512) && decide (k * 512 + 512 ≤ base + n)).foldl (fun t k => remakeSrt pages k t) s
    let slots := censusSlots s pages base n
    let s := wipe buf (buf + 4 * n - 1) s
    let s := slots.foldl (fun t x => wrN (buf + 4 * (x - base)) 4 (leafCount t pages x) t) s
    let (k, s) := slots.foldl (fun (acc : Nat × State) x =>
      let (fixed, t) := censusSlot x (leafCount acc.2 pages x) acc.2
      (acc.1 + b2n fixed, t)) (0, s)
    finish job (JobResult.done n k) s) s)

/-- The entries of a page whose slot has COUNT zero or is LOST. -/
def deadEntries (s : State) (d id : Nat) : List (Nat × Nat) :=
  ((entOf s id).filter fun e => let x := srt s (swSlot (ixSlotWord (domPool d) e.2.2)); decide (srtCount x = 0) || srtLost x).map Prod.snd

/-- FPX_SWEEP (R181). (log 55, DEDUCED, unsafe; 57, DESIGN CHOICE, unsafe) -/
def execFpxSweep (job : Nat) (s : State) : Res :=
  ok (runFpx job 5 (fun _ d s => allIxPages s d) (fun _ d s =>
    let pages := allIxPages s d
    let (k, s) := pages.foldl (fun (acc : Nat × State) id =>
      let s := rewritePage id (bringIn id acc.2)
      let dead := deadEntries s d id
      let s := dead.foldl (fun t e => match ixFind (entOf t id) e.1 with
        | some i =>
          let w := ixSlotWord (domPool d) e.2
          setIndexed (swSlot w) 0 (rewriteWord w (setEnt id (ixDel (entOf t id) i) t)).2
        | none => t) s
      (acc.1 + dead.length, s)) (0, s)
    let x := domOf s d
    let s := if k = 0 then s else setDomain d { x with entries := x.entries - k } s
    finish job (JobResult.done pages.length k) s) s)

/-- FPX_RESET (R181): its COUNT is a free value, as no rule defines it. (log 12, DESIGN CHOICE, safe; 57, DESIGN CHOICE, unsafe) -/
def execFpxReset (job : Nat) (s : State) : Res :=
  ok (runFpx job 6 (fun _ _ _ => []) (fun _ d s =>
    let pages := allIxPages s d
    let s := pages.foldl (fun t id => match pageOf t id with | some p => if p.home = 0 then t else srtSub p.home t | none => t) s
    let s := { s with
      me := { s.me with pages := s.me.pages.filter fun kv => !pages.contains kv.1 }
      gl := { s.gl with ixPage := s.gl.ixPage.filter fun kv => decide (kv.1 / 2 ^ 33 ≠ d) } }
    let c := (Config.freeWord s.free).toNat % 2 ^ 32
    finish job ⟨0, 0, c, pages.length⟩ (setDomain d {} (nextFree s))) s)

/-- An FPX job that times out has changed nothing (R99). -/
def timeoutFpx (j : Job) (s : State) : State × JobResult :=
  (if j.op = 4 then wrFree (j.n 40 8) (4 * j.n 28 4) s else s, ⟨rTimeout, 0, 0, 0⟩)

/-! ### Builds, insertions and removals (R169, R178, R179) -/

/-- The fingerprint that a build inserts for an entry: f[0] and f[1] are FPTAG of its slot, f[6] to f[31] its FPR; f[2] to f[5] are stored
nowhere, so they are free. (log 175, DESIGN CHOICE, safe) -/
def buildFp (s : State) (d : Nat) (e : Nat × Nat) : List Byte :=
  leBytes 2 (srtFptag (srt s (swSlot (resolve s (ixSlotWord (domPool d) e.2))))) ++ freeBytes s 4 ++ leBytes 26 e.1

/-- FILTER_BUILD (R169): the build of a domain begins, or goes on with the domain's next page, or ends. (log 52, DEDUCED, unsafe) -/
def execFilterBuild (s : State) : Res :=
  ok (match s.gl.building with
    | none =>
      match s.gl.builds with
      | d :: l => { s with gl := { s.gl with builds := l, building := some (d, 0) } }
      | [] => s
    | some (d, n) =>
      match (allIxPages s d)[n]? with
      | none => { s with gl := { s.gl with building := none } }
      | some id =>
        let s := bringIn id s
        let s := (entOf s id).foldl (fun t e =>
          if ixValid e.2.2 then filterInsert (domGroup d) (buildFp t d e.2) { t with free := t.free + 4 } else t) s
        { s with gl := { s.gl with building := some (d, n + 1) } })

/-- FP_INSERTION (R178): the oldest queued insertion; a domain without a key pair adopts the volume's. It is dropped where ownership of
the group has moved. -/
def execFpInsertion (s : State) : Res :=
  ok (match s.gl.ins with
    | [] => s
    | i :: l =>
      let s := { s with gl := { s.gl with ins := l } }
      let d := volDom s i.vol
      if !owns s (domGroup d) then s
      else
        (ixInsert d i.fp (resolve s i.word) (adoptKeys d i.vol s)).2)

/-- The domains of this head in a slot's pool. (log 56, DESIGN CHOICE, unsafe) -/
def slotDoms (s : State) (slot : Nat) : List Nat :=
  (s.gl.dom.filter fun kv => decide (domPool kv.1 = slotPool slot) && owns s (domGroup kv.1)).map Prod.fst

/-- Whether an entry of an index that this head keeps for a slot's pool names the slot. -/
def indexNames (s : State) (slot : Nat) : Bool :=
  (slotDoms s slot).any fun d => (allIxPages s d).any fun id => match pageOf s id with
    | some p => p.ents.any fun e => ixValid e.2.2 && decide (swSlot (resolve s (ixSlotWord (domPool d) e.2.2)) = slot)
    | none => false

/-- FP_REMOVAL (R179): the oldest slot of the removal queue is read, decrypted, decoded and fingerprinted; `read` gives its bytes where they have
to be read from the drives. A slot whose read fails, or whose entry cannot be found for want of its fingerprint, keeps INDEXED; one
that no entry names, as after a RESET, loses it (R181). (log 56, DESIGN CHOICE, unsafe; 176, DEDUCED, safe) -/
def execFpRemoval (read : Option (List Byte × List Byte)) (s : State) : Res :=
  ok (match s.gl.rem with
    | [] => s
    | slot :: rest =>
      let s := { s with gl := { s.gl with rem := rest } }
      let w := slot + srtClass (srt s slot) * 2 ^ 48 + 2 ^ 50
      match ownRead s w read with
      | none => s
      | some dt =>
        match (slotDoms s slot).findSome? fun d => (domBlock s d w dt).map fun b => (d, sha512t256 b) with
        | some (d, f) => setIndexed slot 0 (ixRemove d f slot s).2
        | none => if indexNames s slot then s else setIndexed slot 0 s)

/-! ### SRTINC (R40, R133, R152) -/

/-- The index entry of a slot of COUNT zero goes at once, by the fingerprint in the latch of the agent whose SRTINC failed; without a latch the
slot waits in the removal queue (R40, R179). -/
def removeAtOnce (slot : Nat) (a : Agent) (s : State) : State :=
  match latchOf s a with
  | some l => if ownsVol s l.vol then setIndexed slot 0 (ixRemove (volDom s l.vol) l.fp slot s).2 else s
  | none => if srtIndexed (srt s slot) && !s.gl.rem.contains slot then queueRemoval slot s else s

/-- SRTINC (R133, R152, R274): LOST with VALUE 0 for a count of zero and 1 for a lost slot, or for the word that stands for one. A count of zero
removes the fingerprint-index entry (R40). -/
def execSrtinc (job : Nat) (s : State) : Res :=
  ok (runMap job 3 (fun j _ s => srtPages s [swSlot (resolve s (j.n 16 8))]) (fun j _ s =>
    let w := resolve s (j.n 16 8)
    let slot := swSlot w
    let e := srt s slot
    if w = lostSlotWord ∨ srtLost e then finish job ⟨rLost, 0, 1, 1⟩ s
    else if srtCount e = 0 then finish job ⟨rLost, 0, 1, 0⟩ (removeAtOnce slot j.owner s)
    else
      let s := sendSrt slot (srtAdd slot s)
      finish job (JobResult.done 1 (srtCount (srt s slot))) s) s)

end Sys2Proof.Machine
end

