-- ==== Sys2Proof/Machine/Snap.lean ====
section
/-! DEFINITION. Snapshots, clones, delete walks, the diff walk and the pair cut (R293 to R304). -/

namespace Sys2Proof.Machine

/-! ### SNAP jobs (R295) -/

/-- The sub-operation, PAIR and CGID of a SNAP job. -/
def snSub (j : Job) : Nat := bitsN (j.n 40 8) 3 0
@[inherit_doc snSub] def snPair (j : Job) : Bool := decide (bitsN (j.n 40 8) 4 4 = 1)
@[inherit_doc snSub] def snCgid (j : Job) : Nat := bitsN (j.n 40 8) 63 32

/-- An entry of a SNAP job: volume, snapshot and, for CLONE, the new volume. -/
structure SnapEnt where
  vol : Nat
  snap : Nat
  new : Nat
  deriving DecidableEq, Repr

/-- The entries of a SNAP job. -/
def snEnts (s : State) (j : Job) : List SnapEnt :=
  (List.range (mapNblk j)).map fun i =>
    let a := j.n 32 8 + 16 * i
    ⟨rdBits s a 8 17 0, rdBits s a 8 55 32, rdBits s (a + 8) 8 17 0⟩

/-- The snapshots of a volume that are CUTTING or READY. -/
def liveSnaps (s : State) (v : Nat) : List Nat :=
  ((snapsInUse s).filter fun e => decide (e.2 = 1 ∨ e.2 = 2) && decide (snapVol s e.1 = v)).map Prod.fst

/-- Whether CLONE may make a volume of a snapshot (R302). -/
def mayClone (s : State) (e : SnapEnt) : Bool :=
  let v := snapVol s e.snap
  let x := domOf s (volDom s v)
  decide (snapState s e.snap = 2) && !volFlag s v 2 && !volSealed s v && !volValid s e.new &&
    decide (volRoot s e.new = 0 ∧ volMapped s e.new = 0) &&
    decide (volGroup s e.new = volGroup s v ∧ volPool s e.new = volPool s v ∧ volKeyslot s e.new = volKeyslot s v ∧
      volKeyEpoch s e.new = volKeyEpoch s v) &&
    (!x.keyset || decide (x.keyslot = volKeyslot s v ∧ x.keyepoch = volKeyEpoch s v))

/-- Whether an entry of a SNAP job is refused (R295, R301, R302). -/
def snRefused (s : State) (sub : Nat) (e : SnapEnt) : Bool :=
  if sub = 1 then !volValid s e.vol || decide (snapState s e.snap ≠ 0)
  else if sub = 2 then decide (snapState s e.snap ≠ 2)
  else if sub = 3 then !mayClone s e
  else decide (liveSnaps s e.vol ≠ [])

/-- Whether a volume that an entry names, the new one of a CLONE among them, is not this head's (R153, R295). -/
def snFenced (s : State) (sub : Nat) (e : SnapEnt) : Bool := !ownsVol s e.vol || (decide (sub = 3) && !ownsVol s e.new)

/-- The acceptance checks of a SNAP job (R98, R102, R295, R300). -/
def checkSnap (j : Job) (s : State) : Option JobResult :=
  let n := mapNblk j
  let arg := j.n 40 8
  firstFail (j.headChecks [7] 1 ++
    [(!j.fromStew, internal 2),
     (j.nonzero 8 16 || j.nonzero 24 4 || j.nonzero 48 16 || decide (bitsN arg 31 5 ≠ 0) || (snPair j && decide (snSub j ≠ 1)), internal 3),
     (decide (256 < j.n 28 4 ∨ j.n 32 8 = 0 ∨ snSub j = 0 ∨ 4 < snSub j), internal 4),
     j.bounds s false (j.n 32 8) (16 * n),
     (!isF s F.ME_CTL_EN, internal 5),
     ((snEnts s j).any (snRefused s (snSub j)), internal 4),
     (snPair j && decide (getF s F.SYS_HEAD_STATE = 4), internal 4),
     ((snEnts s j).any (snFenced s (snSub j)), JobResult.of rFenced)])

/-- Runs a sub-operation of a SNAP job; ownership is checked again before the changes (R153), and so are the conditions of the entries, which an
earlier job may have changed: the map engine serves the jobs in acceptance order (R303). -/
def runSnap (id sub : Nat) (f : Job → List SnapEnt → State → State) (s : State) : State :=
  runJob id cMap 7 (fun j s =>
    if snSub j ≠ sub then s
    else if (snEnts s j).any (snFenced s sub) then finish id (JobResult.of rFenced) s
    else if sub ≠ 1 ∧ (snEnts s j).any (snRefused s sub) then finish id (internal 4) s
    else f j (snEnts s j) s) s

/-- Whether a volume has a CUTTING snapshot, or it or the snapshot is in a cut that the map engine has not reached (R298). -/
def cutPending (s : State) (x : Nat × Nat) : Bool :=
  let names (l : List (Nat × Nat)) : Bool := l.any fun e => decide (e.1 = x.1) || decide (e.2 = x.2)
  s.snap.cutting.any (fun kv => kv.2 = x.1) || s.snap.cuts.any (fun c => names c.ents) ||
    s.ta.recs.any fun r => !r.done && r.acts.any fun a => match a with | .cut ents _ => names ents | _ => false

/-- The entries of a list that a cut takes: a volume whose EPOCH cannot rise is left out (R293). -/
def cutTakes (s : State) (l : List (Nat × Nat)) : List (Nat × Nat) := l.filter fun e => decide (volEpoch s e.1 < 0xFFFF_FFFF)

/-- Appends a cut record for a job (R296): nothing where the ring has no room. -/
def appendCut (job : Option Nat) (ents : List (Nat × Nat)) (cgid : Nat) (s : State) : Option State :=
  let takes := cutTakes s ents
  let r : JRec := {
    seq := 0, len := recordUnits (16 * ents.length), ty := tyRoot, arg := 0, nent := takes.length, body := freeBytes s (16 * ents.length)
    acts := [.cut takes cgid], job := job, code := if takes = ents then 0 else rNospace }
  appendRecord r { s with free := s.free + 16 * ents.length }

/-- SNAP CUT as it leaves the acceptance: held while a volume has a CUTTING snapshot (R298); with PAIR it fences, and head B sends READY
(R299). (log 68, DESIGN CHOICE, safe; 81, DEDUCED, unsafe) -/
def startCut (id : Nat) (j : Job) (ents : List (Nat × Nat)) (s : State) : State :=
  if s.ta.recs.any (fun r => r.job = some id) || decide (s.snap.pair.job = some id) || ents.any (cutPending s) then s
  else if (snEnts s j).any (snRefused s 1) then finish id (internal 4) s
  else if !snPair j then (appendCut (some id) ents (snCgid j) s).getD s
  else if getF s F.ME_CGSTAT_PSTATE ≠ 0 then s
  else
    let s := { s with snap := { s.snap with fence := true, pair := ⟨some id, snCgid j, ents, [], getF s F.SYS_PTR_SEQ_MACC⟩ } }
    let s := setF F.ME_CGSTAT_CGID (snCgid j) (setF F.ME_CGSTAT_PSTATE 1 s)
    if headB s then
      let m := PMsg.cutReady (snCgid j) ents
      toPartner m { s with snap := { s.snap with resend := some m } }
    else s

/-- SNAP_CUT (R296, R298, R299). -/
def execSnapCut (job : Nat) (s : State) : Res :=
  ok (runSnap job 1 (fun j l s => startCut job j (l.map fun e => (e.vol, e.snap)) s) s)

/-- A snapshot table entry with another STATE, journalled (R294). -/
def putSnapState (n st : Nat) (s : State) : State :=
  let s := wrN (snapAddr s n + 16) 1 st s
  journalRoot [.snapshot n (rdB s (snapAddr s n) 64)] s

/-- SNAP_DELETE (R301). -/
def execSnapDelete (job : Nat) (s : State) : Res :=
  ok (runSnap job 2 (fun _ l s =>
    finish job (JobResult.done l.length 0) (l.foldl (fun t e => startWalk true e.snap (putSnapState e.snap 3 t)) s)) s)

/-- SNAP_RELEASE (R301): the change of the root's COUNT goes to the partner (R425). -/
def execSnapRelease (job : Nat) (s : State) : Res :=
  ok (runSnap job 4 (fun _ l s =>
    finish job (JobResult.done l.length 0) (l.foldl (fun t e =>
      let t := startWalk false e.vol t
      if volRoot t e.vol = 0 then t else sendSrt (volRoot t e.vol) t) s)) s)

/-- One CLONE (R170, R302): the new volume shares the snapshot's tree. -/
def cloneOne (e : SnapEnt) (s : State) : State :=
  let v := e.new
  let home := snapRootSlot s e.snap
  let s := wrN (volAddr v + 32) 4 (snapEpoch s e.snap + 1) (wrN (volAddr v + 40) 8 (snapMapped s e.snap) (wrBits (volAddr v) 8 47 0 home s))
  let s := if home = 0 then s else sendSrt home (srtAdd home s)
  let s := match kget s.me.snapRoot e.snap with
    | some r => { s with me := { s.me with root := kput s.me.root v r } }
    | none => s
  journalRoot [.root v home] (admitNew v (wrN (volAddr v + 19) 1 (volFlags s v ||| 1) s))

/-- SNAP_CLONE (R302). -/
def execSnapClone (job : Nat) (s : State) : Res :=
  ok (runSnap job 3 (fun _ l s => finish job (JobResult.done l.length 0) (l.foldl (fun t e => cloneOne e t) s)) s)

/-! ### The cut and the walk (R297, R301) -/

/-- SNAPSHOT_READY (R294, R297): the OWNER of the volume's group sees that every pinned page of the cut is homed, the root among them; ROOT and READY are written and journalled and the
source is raised. -/
def execSnapshotReady (snap : BitVec 24) (s : State) : Res :=
  let n := snap.toNat
  ok (if (kget s.snap.cutting n).isNone || !ownsVol s (snapVol s n) || s.me.pages.any (fun kv => kv.2.pin = some n) then s
    else
      let home := match (kget s.me.snapRoot n).bind (pageOf s) with | some p => p.home | none => 0
      let s := putSnapState n 2 (wrBits (snapAddr s n) 8 47 0 home { s with snap := { s.snap with cutting := kdel s.snap.cutting n } })
      raise 0x0D10 n s)

/-- The end of a delete walk: the snapshot is FREE, or the volume has no tree and is not VALID (R301). -/
def endWalk (w : Walk) (s : State) : State :=
  if w.snap then putSnapState w.num 0 s
  else
    let v := w.num
    let s := wrN (volAddr v + 40) 8 0 (wrBits (volAddr v) 8 47 0 0 s)
    journalRoot [.root v 0] (wrN (volAddr v + 19) 1 (volFlags s v &&& 0xFE) s)

/-- Whether a DIFF job or a stream cycle runs on a snapshot (R301). -/
def snapBusy (s : State) (n : Nat) : Bool :=
  s.jobs.any (fun kv => decide (kv.2.cls = cMap ∧ kv.2.op = 8 ∧ kv.2.phase = .accepted) &&
    (decide (bitsN (kv.2.n 40 8) 23 0 = n) || decide (bitsN (kv.2.n 40 8) 55 32 = n))) ||
  (List.range 4096).any fun k => strValid s k && decide (strMode s k = 0 ∧ strState s k = 1) &&
    (decide (strTarget s k = n) || decide (strBase s k = n))

/-- Whether this head walks: the OWNER of the volume's group does. (log 51, DEDUCED, unsafe) -/
def walkMine (s : State) (w : Walk) : Bool :=
  ownsVol s (if w.snap then snapVol s w.num else w.num) && !(w.snap && snapBusy s w.num)

/-- DELETE_WALK (R301): the first walk of this head visits its next page, which it journals and then frees where nothing names it any more, once the
ring takes the record; with no page left the walk ends. (log 51, DEDUCED, unsafe) -/
def execDeleteWalk (s : State) : Res :=
  ok (match s.snap.walks.find? (walkMine s) with
    | none => s
    | some w =>
      let s := dropRoot w.snap w.num s
      match w.todo with
      | [] => endWalk w { s with snap := { s.snap with walks := s.snap.walks.erase w } }
      | id :: rest =>
        match pageOf s id with
        | some p =>
          if pageDead s id then
            if !ringTakes s 2 ∨ s.ta.waiting ≠ [] then s
            else
              let t := journalRoot [.freed p.home (pageWords s p)] s
              freePage ⟨false, nextSeq t - 1⟩ id t
          else { s with snap := { s.snap with walks := s.snap.walks.map fun x => if x = w then { x with todo := rest } else x } }
        | none => { s with snap := { s.snap with walks := s.snap.walks.map fun x => if x = w then { x with todo := rest } else x } })

/-! ### The diff walk (R304) -/

/-- A subtree of a map: absent, lost (R274) or a page. -/
inductive Sub where
  | absent
  | lost
  | page (id : Nat)
  deriving DecidableEq, Repr

/-- The subtree that an entry of a subtree names, with the entry's word 0. -/
def Sub.child (s : State) (t : Sub) (i : Nat) : Nat × Sub :=
  match t with
  | .absent => (0, .absent)
  | .lost => (lostSlotWord, .lost)
  | .page id =>
    match pageOf s id with
    | some p =>
      let w := (p.entry i).1
      (w, if w = lostSlotWord then .lost else match kget p.kid i with | some c => .page c | none => .absent)
    | none => (0, .absent)

/-- The entries of a subtree that may differ from an empty one. -/
def Sub.keys (s : State) : Sub → List Nat
  | .absent => []
  | .lost => List.range 256
  | .page id => match pageOf s id with | some p => p.ent.map Prod.fst | none => []

/-- The leaves that the walk compares, ascending: their first LBA and both subtrees. A subtree whose entries hold the same word 0 is
skipped; a child without a home is another child. -/
def diffLeaves (s : State) : Nat → Nat → Sub → Sub → List (Nat × Sub × Sub)
  | 0, base, a, b => [(base, a, b)]
  | level + 1, base, a, b =>
    ((List.range 256).filter fun i => (a.keys s).contains i || (b.keys s).contains i).flatMap fun i =>
      let (wa, ca) := a.child s i
      let (wb, cb) := b.child s i
      if wa = wb ∧ ca = cb then [] else diffLeaves s level ((base + i) * 256) ca cb

/-- The pages of subtrees. -/
def subPages (l : List Sub) : List Nat := l.filterMap fun t => match t with | .page id => some id | _ => none

/-- The interior pages that the walk reads. -/
def diffPages (s : State) : Nat → Nat → Sub → Sub → List Nat
  | 0, _, _, _ => []
  | level + 1, base, a, b =>
    subPages [a, b] ++ ((List.range 256).filter fun i => (a.keys s).contains i || (b.keys s).contains i).flatMap fun i =>
      let (wa, ca) := a.child s i
      let (wb, cb) := b.child s i
      if wa = wb ∧ ca = cb then [] else diffPages s level ((base + i) * 256) ca cb

/-- A leaf entry of a subtree. -/
def Sub.leaf (s : State) (t : Sub) (i : Nat) : Nat × Nat :=
  match t with
  | .absent => (0, 0)
  | .lost => (lostSlotWord, 0)
  | .page id => match pageOf s id with | some p => p.entry i | none => (0, 0)

/-- The delta entries for the blocks of one leaf that differ, from an LBA on and below a size (R304). -/
def diffLeaf (s : State) (lo size : Nat) (x : Nat × Sub × Sub) : List Delta :=
  (List.range 256).filterMap fun i =>
    let wa := (x.2.1.leaf s i).1
    let (wb, gb) := x.2.2.leaf s i
    if x.1 + i < lo ∨ size ≤ x.1 + i ∨ wa = wb then none
    else some ⟨x.1 + i, if swValid wb then gb % 2 ^ 32 else 0, if swValid wb then wb else 0⟩

/-- The walk over leaves: an absent leaf page stops it, else the delta entries up to a limit, with the leaf pages read. -/
def diffWalk (s : State) (lo size n : Nat) : List (Nat × Sub × Sub) → List Delta → Nat → Nat ⊕ (List Delta × Nat)
  | [], acc, k => .inr (acc, k)
  | x :: l, acc, k =>
    if n < acc.length then .inr (acc, k)
    else if x.1 + 256 ≤ lo ∨ size ≤ x.1 then diffWalk s lo size n l acc k
    else
      let pages := subPages [x.2.1, x.2.2]
      match firstAbsent s pages with
      | some p => .inl p
      | none => diffWalk s lo size n l (acc ++ diffLeaf s lo size x) (k + pages.length)

/-- The tree of a snapshot. -/
def snapTree (s : State) (n : Nat) : Sub := match kget s.me.snapRoot n with | some r => .page r | none => .absent

/-- The differences between two snapshots from an LBA on, at most `n`: the page that must be read first, or the delta entries, the next
LBA and the leaf pages read. -/
def diffFrom (s : State) (base : Option Nat) (target lo n : Nat) : Nat ⊕ (List Delta × Nat × Nat) :=
  let a := match base with | some b => snapTree s b | none => .absent
  let b := snapTree s target
  match firstAbsent s (diffPages s 3 0 a b) with
  | some p => .inl p
  | none =>
    match diffWalk s lo (snapSize s target) n (if a = b then [] else diffLeaves s 3 0 a b) [] 0 with
    | .inl p => .inl p
    | .inr (l, k) => .inr (l.take n, if n < l.length then (match l[n]? with | some d => d.lba | none => 0) else 0x1_0000_0000, k)

/-- The BASE and TARGET of a DIFF job. -/
def dfBase (j : Job) : Option Nat := if bitsN (j.n 40 8) 24 24 = 1 then none else some (bitsN (j.n 40 8) 23 0)
@[inherit_doc dfBase] def dfTarget (j : Job) : Nat := bitsN (j.n 40 8) 55 32

/-- The acceptance checks of a DIFF job (R98, R102, R304). -/
def checkDiff (j : Job) (s : State) : Option JobResult :=
  let arg := j.n 40 8
  let t := dfTarget j
  firstFail (j.headChecks [8] 1 ++
    [(!j.fromStew, internal 2),
     (j.nonzero 12 12 || j.nonzero 24 4 || j.nonzero 48 16 || decide (bitsN arg 31 25 ≠ 0 ∨ bitsN arg 63 56 ≠ 0), internal 3),
     (decide (256 < j.n 28 4 ∨ j.n 32 8 = 0), internal 4),
     j.bounds s true (j.n 32 8) (16 * mapNblk j),
     (!isF s F.ME_CTL_EN, internal 5),
     (decide (snapState s t ≠ 2) || (match dfBase j with
       | some b => decide (snapState s b ≠ 2) || decide (volGroup s (snapVol s b) ≠ volGroup s (snapVol s t))
       | none => false), internal 4),
     (!ownsVol s (snapVol s t), JobResult.of rFenced)])

/-- DIFF (R304). -/
def execDiff (job : Nat) (s : State) : Res :=
  ok (runJob job cMap 8 (fun j s =>
    if !ownsVol s (snapVol s (dfTarget j)) then finish job (JobResult.of rFenced) s
    else
      match diffFrom s (dfBase j) (dfTarget j) (j.n 8 8) (mapNblk j) with
      | .inl p => withPages job [p] id s
      | .inr (l, next, k) =>
        let s := wrB (j.n 32 8) (l.flatMap fun d => leBytes 4 d.lba ++ leBytes 4 d.gen ++ leBytes 8 d.word) s
        finish job (JobResult.done l.length next) (bumpBy k .ME_DIFFPG_CNT s)) s)

/-! ### The pair cut (R299, R300) -/

/-- The fence of a pair cut ends: DONE returns to what waits for it. -/
def releaseFence (s : State) : State := returnDone { s with snap := { s.snap with fence := false } }

/-- A pair cut message that is repeated until the partner confirms it. -/
def cutSend (m : PMsg) (s : State) : State := toPartner m { s with snap := { s.snap with resend := some m } }

/-- A pair cut is given up: the fence ends, the job times out and ABORTED sets. (log 81, DEDUCED, unsafe) -/
def pairGiveUp (s : State) : State :=
  let s := match s.snap.pair.job with | some id => finish id (JobResult.of rTimeout) s | none => s
  setF F.ME_CGSTAT_ABORTED 1 (setF F.ME_CGSTAT_PSTATE 0 (releaseFence { s with snap := { s.snap with pair := {} } }))

/-- A pair cut is complete: the fence ends, and the job is DONE with its record. -/
def pairDone (s : State) : State :=
  setF F.ME_CGSTAT_DONE 1 (setF F.ME_CGSTAT_PSTATE 0 (releaseFence { s with snap := { s.snap with pair := {} } }))

/-- This head's cut record of the pair cut is appended; where the ring has no room it is appended as room comes. (log 68, DESIGN CHOICE, safe) -/
def pairCutRecord (s : State) : State :=
  let p := s.snap.pair
  match appendCut p.job p.ents p.cgid s with
  | some t => t
  | none =>
    let takes := cutTakes s p.ents
    let r : JRec := {
      seq := 0, len := recordUnits (16 * p.ents.length), ty := tyRoot, arg := 0, nent := takes.length, body := freeBytes s (16 * p.ents.length)
      acts := [.cut takes p.cgid], job := p.job, code := if takes = p.ents then 0 else rNospace }
    { s with free := s.free + 16 * p.ents.length, ta := { s.ta with waiting := s.ta.waiting ++ [r] } }

/-- PAIR_CUT_READY (R299): head A cuts and sends GO, or answers ABORT. -/
def execPairCutReady (cgid : BitVec 32) (ents : List (Nat × Nat)) (s : State) : Res :=
  let s := toPartner .cutConfirm s
  ok (match getF s F.ME_CGSTAT_PSTATE with
    | 0 => cutSend (.cutAbort cgid.toNat) s
    | 1 =>
      if headB s then s
      else
        let s := pairCutRecord { s with snap := { s.snap with pair := { s.snap.pair with theirs := ents } } }
        setF F.ME_CGSTAT_PSTATE 2 (cutSend (.cutGo cgid.toNat) s)
    | _ => s)

/-- PAIR_CUT_GO (R299): head B cuts, sends CUT and releases. -/
def execPairCutGo (cgid : BitVec 32) (s : State) : Res :=
  let s := toPartner .cutConfirm s
  ok (if headB s && decide (getF s F.ME_CGSTAT_PSTATE = 1) then pairDone (cutSend (.cutCut cgid.toNat) (pairCutRecord s)) else s)

/-- PAIR_CUT_CUT (R299): head A releases, and the job is done. (log 81, DEDUCED, unsafe) -/
def execPairCutCut (cgid : BitVec 32) (s : State) : Res :=
  let s := toPartner .cutConfirm s
  ok (if getF s F.ME_CGSTAT_PSTATE = 2 ∧ s.snap.pair.cgid = cgid.toNat then pairDone s else s)

/-- PAIR_CUT_ABORT (R299): head B releases with TIMEOUT. -/
def execPairCutAbort (cgid : BitVec 32) (s : State) : Res :=
  let s := toPartner .cutConfirm s
  ok (if headB s && decide (getF s F.ME_CGSTAT_PSTATE = 1 ∧ s.snap.pair.cgid = cgid.toNat) then
      pairGiveUp { s with snap := { s.snap with resend := none } }
    else s)

/-- PAIR_CUT_TIMEOUT (R299): PREPUS has passed at head A, which aborts. -/
def execPairCutTimeout (s : State) : Res :=
  ok (if !headB s && decide (getF s F.ME_CGSTAT_PSTATE = 1) then pairGiveUp (cutSend (.cutAbort s.snap.pair.cgid) s) else s)

/-- PAIR_CUT_RESEND_TIMER (R299). -/
def execPairCutResendTimer (s : State) : Res :=
  ok (match s.snap.resend with
    | some m => if s.partner.dead then s else toPartner m s
    | none => s)

/-- PAIR_CUT_CONFIRM (R299). -/
def execPairCutConfirm (s : State) : Res := ok { s with snap := { s.snap with resend := none } }

/-- Whether the partner's cut record of the pair cut has come into the mirror since this head began it, and has been replayed (R299). -/
def partnerCut (s : State) : Bool :=
  s.ta.mrecs.any fun r => decide (s.snap.pair.macc < r.seq) &&
    r.acts.any fun a => match a with | .cut _ cgid => decide (cgid = s.snap.pair.cgid) | _ => false

/-- The partner is declared dead, once its mirror has been replayed (R299): A gives up or cuts for B; B cuts where A did. -/
def pairPartnerDead (s : State) : State :=
  let s := { s with snap := { s.snap with resend := none } }
  match getF s F.ME_CGSTAT_PSTATE with
  | 1 =>
    if headB s then (if partnerCut s then pairDone (pairCutRecord s) else pairGiveUp s)
    else pairGiveUp (cutSend (.cutAbort s.snap.pair.cgid) s)
  | 2 =>
    let s := if partnerCut s then s
      else (appendCut none s.snap.pair.theirs s.snap.pair.cgid s).getD (reachCut true (nextSeq s) s.snap.pair.theirs s.snap.pair.cgid s)
    pairDone s
  | _ => s

end Sys2Proof.Machine
end

