-- ==== Sys2Proof/Machine/Start.lean ====
section
/-! DEFINITION. Starting a flow context (R33, R45, R107): what host commands, forwarded commands and stream contexts share. -/

namespace Sys2Proof.Machine

/-- The start offset that the active binding bank gives a policy class and an opcode (R107, R108). -/
def bindingOf (s : State) (cls opc : Nat) : Option Nat :=
  let e := bindEntry s (getF s F.FSQ_PSET_CTL_BANKSEL) (cls * 256 + opc)
  if e < 0x8000 then none else some (entryOffset s (e % 4096))

/-- A context receives its record and is queued in its policy class (R45, R52). `posted` says that no completion is owed. -/
def startCtx (n : Nat) (w : WaitCmd) (posted : Bool) (s : State) : State :=
  let c : Ctx := {
    st := .queued, cls := w.cls, vol := w.vol, hq := w.hq, cid := w.cid, seq := 0, frame := 0, rf := ⟨[], 0, []⟩, sbuf := []
    fences := 0, dsts := 0, used := 0, epoch := w.epoch, posted := posted, fwd := w.fwd }
  let record := w.sqe ++ leBytes 8 (ctxHeader n c) ++ leBytes 4 w.pc ++ leBytes 4 (2 * b2n w.fwd) ++ zeros 48
  queueCtx n (wrB (ctxRec n) record { s with ctxs := kput s.ctxs n c })

/-- The lowest free context number, if one is free (R33). (log 151, DESIGN CHOICE, unsafe) -/
def freeCtxNo (s : State) : Option Nat := kfree s.ctxs 0x40_0000

end Sys2Proof.Machine
end

