-- ==== Sys2Proof/Machine/Stream.lean ====
section
/-! DEFINITION. Replication streams: cycles, stream contexts, epochs, and the messages at the receiver (R305 to R319). -/

namespace Sys2Proof.Machine

/-! ### Cycles and stream contexts (R307, R308, R319) -/

/-- The BASE of a stream's cycle; none for an empty tree. -/
def strBaseSnap (s : State) (n : Nat) : Option Nat := if (strBase s n).testBit 24 then none else some (strBase s n % 2 ^ 24)

/-- A write of TA_STRCMD (R319): GO starts a SNAP cycle, or is ignored with a record. -/
def wrStrCmd (v : Word) (s : State) : State :=
  let n := bits v 11 0
  let s := setF F.TA_STRCMD_STREAM n s
  if !bit v 16 then s
  else if strMode s n ≠ 0 ∨ strState s n ≠ 0 ∨ snapState s (strTarget s n) ≠ 2 ∨ !strValid s n ∨ strRecv s n ∨
      ((strBaseSnap s n).any fun b => snapState s b ≠ 2) then celRefused .TA_STRCMD v s
  else wrN (strAddr s n + 56) 8 0 (setStrState n 1 s)

/-- STREAM_CYCLE_GO (R319). -/
def execStreamCycleGo (v : Word) (s : State) : Res := ok (wrStrCmd v s)

/-- The contexts of a stream that run or wait. -/
def strRunning (s : State) (n : Nat) : List StrCtx :=
  (s.str.ctxs.filter fun kv => kv.2.stream = n).map Prod.snd ++ (s.str.waits.filter fun w => w.info.stream = n).map StrWait.info

/-- The 4 KiB slot of the batch area that no context uses. -/
def freeBatch (s : State) (n : Nat) : Option Nat :=
  (List.range (strPar s n)).find? fun k => !((strRunning s n).any fun c => c.src = strBatch s n + 4096 * k)

/-- The next context of a SNAP cycle is due at the OWNER (R306, R307, R312): a batch of the diff walk from CURSOR on, with an OFFER and a DATA for each 64
entries; once the walk is complete and the last batch has ended, the cycle end with its MARK. -/
def nextBatch (n : Nat) (s : State) : State :=
  if strMode s n ≠ 0 ∨ strState s n ≠ 1 ∨ !ownsVol s (strVol s n) then s
  else if 0x1_0000_0000 ≤ strCursor s n then
    if strRunning s n = [] then
      let seq := strNext s n
      queueStream 0xCC n 1 seq 0 0 0 false (wrN (strAddr s n + 24) 8 (seq + 1) s)
    else s
  else
    match freeBatch s n with
    | none => s
    | some k =>
      match diffFrom s (strBaseSnap s n) (strTarget s n) (strCursor s n) 256 with
      | .inl p => faultPage false p none s
      | .inr (l, next, pages) =>
        let s := bumpBy pages .ME_DIFFPG_CNT (wrN (strAddr s n + 56) 8 next s)
        if l = [] then s
        else
          let src := strBatch s n + 4096 * k
          let s := wrB src (l.flatMap fun d => leBytes 4 d.lba ++ leBytes 4 d.gen ++ leBytes 8 d.word) s
          let nmsg := 2 * ((l.length + 63) / 64)
          let seq := strNext s n
          queueStream 0xC4 n nmsg seq src l.length 0 false (wrN (strAddr s n + 24) 8 (seq + nmsg) s)

/-- The first waiting context of a stream starts (R307): it has host queue index 0xFFFF and the volume's policy class and owes no
completion. Where no context number is free it waits and is counted. (log 82, DEDUCED, unsafe) -/
def startWaiting (n : Nat) (s : State) : State :=
  match s.str.waits.find? fun w => w.info.stream = n with
  | none => s
  | some w =>
    let v := strVol s n
    if !isF s F.TA_STRCTL_EN then s
    else
      match bindingOf s (volClass s v) w.info.opc, freeCtxNo s with
      | some pc, some c =>
        let s := { s with str := { s.str with waits := s.str.waits.erase w, ctxs := kput s.str.ctxs c w.info } }
        let s := wrN (strAddr s n + 64) 4 (strInflight s n + 1) (bump .TA_STRSPAWN_CNT s)
        startCtx c ⟨0xFFFF, 0, volClass s v, v, pc, s.bung.epoch, w.sqe, false⟩ true s
      | some _, none =>
        if w.counted then s
        else bump .TA_STRWAIT_CNT { s with str := { s.str with waits := s.str.waits.map fun x => if x = w then { x with counted := true } else x } }
      | none, _ => s

/-- A context could not deliver a message after RETRY attempts (R308): the stream is BROKEN. (log 82, DEDUCED, unsafe) -/
def breakStream (n code : Nat) (s : State) : State :=
  raise 0x1210 n (bump .TA_STRBRK_CNT (wrN (strAddr s n + 88) 1 code (setStrState n 2 s)))

/-- STREAM_CONTEXT_START (R307, R308): what is due starts; `broken` reports the code of a running context's failed delivery. -/
def execStreamContextStart (stream : BitVec 12) (broken : Option Byte) (s : State) : Res :=
  let n := stream.toNat
  ok (match broken with
    | some c => breakStream n c.toNat s
    | none => startWaiting n (nextBatch n s))

/-! ### Epochs (R309, R316) -/

/-- The DELTA records of a stream's volume that were not sent: those of the mirror, or those replayed from it, above LASTSEQ. -/
def unsentRecs (s : State) (n : Nat) : List JRec :=
  s.ta.mrecs.filter fun r => decide (r.ty = tyDelta) && decide (strOfVol s (bitsN r.arg 17 0) = some n) && decide (strLast s n < 64 * r.seq)

/-- A stream's EPOCH rises (R309, R316): the old epoch's messages that this head holds are sent first; OLDLAST is then the last SEQ, a
SNAP cycle starts again at CURSOR 0, and the partner of a TWIN stream learns the epoch. -/
def raiseEpoch (n : Nat) (s : State) : State :=
  if !strValid s n ∨ strRecv s n then s
  else
    let s := if strMode s n = 0 then (if strState s n = 1 then wrN (strAddr s n + 56) 8 0 s else s)
      else (unsentRecs s n).foldl (fun t r => queueStream 0xC8 n ((r.nent + 63) / 64) (64 * r.seq) (mirrorRing + r.off) r.nent r.seq true t) s
    let e := (strEpoch s n + 1) % 2 ^ 32
    let s := wrN (strAddr s n + 80) 8 (strLast s n) (wrN (strAddr s n + 4) 4 e s)
    let s := { s with str := { s.str with first := n :: s.str.first.erase n } }
    if strMode s n = 2 ∧ linkUp s then toPartner (.streamEpoch n e (strOldLast s n)) s else s

/-- STREAM_EPOCH_RAISE (R309, R316). -/
def execStreamEpochRaise (stream : BitVec 12) (s : State) : Res := ok (raiseEpoch stream.toNat s)

/-- STREAM_EPOCH_MESSAGE (R309): the partner takes the new epoch and OLDLAST, and its copies begin with the record after the message. -/
def execStreamEpochMessage (stream : BitVec 12) (epoch : BitVec 32) (oldlast : Word) (s : State) : Res :=
  let n := stream.toNat
  let s := wrN (strAddr s n + 80) 8 oldlast.toNat (wrN (strAddr s n + 4) 4 epoch.toNat s)
  ok { s with str := { s.str with first := n :: s.str.first.erase n, mute := s.str.mute.filter fun k => k ≠ n } }

/-- The streams of a mode whose volume this head owns and sends. -/
def sentStreams (s : State) (p : Nat → Bool) : List Nat :=
  (List.range 4096).filter fun n => strValid s n && !strRecv s n && p (strMode s n) && ownsVol s (strVol s n)

/-! ### The receiver (R311 to R316) -/

/-- The answers of a receiver: success and Command Sequence Error. -/
def stOk : Nat := 0x000
@[inherit_doc stOk] def stSequence : Nat := 0x400C

/-- Answers a message. -/
def answer (n seq status : Nat) (s : State) : State := emit (.streamAnswer n seq status 0 0) s

/-- The bit of a SEQ in the window bitmap of a SNAP receiver (R305, R315). -/
def winByte (s : State) (n seq : Nat) : Nat := strBatch s n + seq % 65536 / 8
@[inherit_doc winByte] def winBit (s : State) (n seq : Nat) : Bool := (rdN s (winByte s n seq) 1).testBit (seq % 8)

/-- Sets or clears the bit of a SEQ. (log 83, DEDUCED, unsafe) -/
def setWin (n seq v : Nat) (s : State) : State := wrBits (winByte s n seq) 1 (seq % 8) (seq % 8) v s

/-- LOW advances over the set bits (R315). (log 83, DEDUCED, unsafe) -/
def advanceLow : Nat → Nat → State → State
  | 0, _, s => s
  | fuel + 1, n, s =>
    let low := strNext s n
    if winBit s n low then advanceLow fuel n (wrN (strAddr s n + 24) 8 (low + 1) (setWin n low 0 s)) else s

/-- A SEQ has been applied at the receiver: LASTSEQ and ACK become it (R314); in SNAP mode they are the highest, its bit is set and LOW advances (R305, R315). -/
def applied (n seq : Nat) (s : State) : State :=
  if strMode s n = 0 then
    advanceLow 65536 n (setWin n seq 1 (wrN (strAddr s n + 40) 8 (max (strAck s n) seq) (wrN (strAddr s n + 32) 8 (max (strLast s n) seq) s)))
  else wrN (strAddr s n + 40) 8 seq (wrN (strAddr s n + 32) 8 seq s)

/-- A higher epoch is adopted (R314): in SNAP mode the window starts afresh after the last SEQ of the old one. (log 83, DEDUCED, unsafe) -/
def adoptEpoch (h : StrHdr) (s : State) : State :=
  let n := h.stream
  let s := wrN (strAddr s n + 80) 8 h.oldlast (wrN (strAddr s n + 4) 4 h.epoch s)
  if strMode s n = 0 then
    wrN (strAddr s n + 24) 8 (h.oldlast + 1) (wipe (strBatch s n) (strBatch s n + 8191) s)
  else s

/-- What the rules of R314 and R315 make of a message on arrival. -/
inductive Arrival where
  | discard
  | duplicate
  | take
  | adopt
  | hold
  | refuse
  deriving DecidableEq, Repr

/-- R314 for SYNC and TWIN, R315 for SNAP; a MARK is taken when LOW reaches it. (log 83, DEDUCED, unsafe) -/
def arrival (s : State) (h : StrHdr) (mark : Bool) : Arrival :=
  let n := h.stream
  let e := strEpoch s n
  let snap := decide (strMode s n = 0)
  if h.epoch < e then .discard
  else if e < h.epoch then
    if snap then (if h.prev = 0 then .adopt else .hold)
    else if h.oldlast = strAck s n then .adopt else .hold
  else if snap then
    if h.seq < strNext s n ∨ (decide (h.seq < strNext s n + 65536) && winBit s n h.seq) then .duplicate
    else if strNext s n + 65536 ≤ h.seq then .refuse
    else if mark && decide (h.seq ≠ strNext s n) then .hold
    else .take
  else if h.seq ≤ strLast s n then .duplicate
  else if h.prev = strLast s n then .take
  else .hold

/-- The slot words that an OFFER's entries reference, by SEQ of the OFFER (R312). -/
def offerOf (s : State) (n seq : Nat) : Option (Nat × List Nat) := kget (kgetD s.str.offers n []) seq

/-- The delta entries of a DATA (R312): a deallocated block has slot word 0, a lost one the lost slot word, one that the receiver has the
slot it referenced, another the next slot word and generation of the blocks written. -/
def dataDeltas (have' : List Nat) : Nat → List StrEnt → List (Nat × Nat) → List Delta
  | _, [], _ => []
  | i, e :: l, ws =>
    if e.flags.testBit 1 then ⟨e.lba, 0, 0⟩ :: dataDeltas have' (i + 1) l ws
    else if e.flags.testBit 2 then ⟨e.lba, 0, lostSlotWord⟩ :: dataDeltas have' (i + 1) l ws
    else if e.flags.testBit 3 then ⟨e.lba, 0, have'.getD i 0⟩ :: dataDeltas have' (i + 1) l ws
    else ⟨e.lba, (ws.headD (0, 0)).2, (ws.headD (0, 0)).1⟩ :: dataDeltas have' (i + 1) l ws.tail

/-- The bytes of delta entries (R134). -/
def deltaBytes (l : List Delta) : List Byte := l.flatMap fun d => leBytes 4 d.lba ++ leBytes 4 d.gen ++ leBytes 8 d.word

/-- A DATA is applied (R312): one cask record with every entry of the message. -/
def applyData (m : StrMsg) (s : State) : State :=
  let n := m.hdr.stream
  let have' := match offerOf s n (m.hdr.seq - 1) with | some x => x.2 | none => []
  let ds := dataDeltas have' 0 m.ents m.words
  let body := deltaBytes ds
  let s := if ds = [] then s
    else appendOwn { seq := 0, len := recordUnits body.length, ty := tyDelta, arg := strVol s n, nent := ds.length, body := body, imgs := imagesOf s ds } s
  { s with str := { s.str with offers := kput s.str.offers n (kdel (kgetD s.str.offers n []) (m.hdr.seq - 1)) } }

/-- A message is applied and answered: a DATA as a write of the replica, a MARK with the stream event (R312, R315). -/
def applyMsg (m : StrMsg) (s : State) : State :=
  let n := m.hdr.stream
  let s := if m.ty = 3 then raise 0x1210 n s else applyData m s
  answer n m.hdr.seq stOk (applied n m.hdr.seq s)

/-- A DATA or MARK arrives. A duplicate completes once ACK reaches its SEQ, and is held until then (R314). -/
def receive (m : StrMsg) (s : State) : State :=
  let n := m.hdr.stream
  let hold (s : State) : State := { s with str := { s.str with held := s.str.held ++ [m] } }
  if !strValid s n ∨ !strRecv s n then s
  else
    match arrival s m.hdr (decide (m.ty = 3)) with
    | .discard => answer n m.hdr.seq stOk s
    | .duplicate => if m.hdr.seq ≤ strAck s n then answer n m.hdr.seq stOk s else hold s
    | .refuse => answer n m.hdr.seq stSequence s
    | .hold => hold s
    | .take => applyMsg m s
    | .adopt => applyMsg m (adoptEpoch m.hdr s)

/-- Whether a held message can go on now. -/
def canGo (s : State) (m : StrMsg) : Bool :=
  match arrival s m.hdr (decide (m.ty = 3)) with
  | .hold => false
  | .duplicate => decide (m.hdr.seq ≤ strAck s m.hdr.stream)
  | .discard | .refuse | .take | .adopt => true

/-- Messages that were held go on as what came lets them. -/
def releaseHeld : Nat → State → State
  | 0, s => s
  | fuel + 1, s =>
    match s.str.held.find? (canGo s) with
    | some m => releaseHeld fuel (receive m { s with str := { s.str with held := s.str.held.erase m } })
    | none => s

/-- DATA (R312, R314, R315): `words` are the slot words of the blocks that it carries, as the receiving flow has stored them, each with the generation that it reserved
for a block of a sealed volume, or 0. -/
def execData (h : StrHdr) (ents : List StrEnt) (words : List (Nat × Nat)) (s : State) : Res :=
  ok (releaseHeld (s.str.held.length + 1) (receive ⟨h, 2, ents, words⟩ s))

/-- MARK (R315). -/
def execMark (h : StrHdr) (s : State) : Res := ok (releaseHeld (s.str.held.length + 1) (receive ⟨h, 3, [], []⟩ s))

/-- Which entries of an OFFER are needed, from entry `i` on: an entry found in the index of the replica's domain is referenced with an
SRTINC, and needed where that fails, which removes the index entry at once (R40, R312). -/
def offerEntries (n : Nat) : Nat → List StrEnt → State → Nat × List Nat × State
  | _, [], s => (0, [], s)
  | i, e :: l, s =>
    let v := strVol s n
    let w := if e.flags.testBit 1 || e.flags.testBit 2 || !dedups s v then 0 else ixLookup s (volDom s v) e.fp
    let r := srt s (swSlot w)
    let have' := decide (w ≠ 0) && !srtLost r && decide (srtCount r ≠ 0)
    let s := if have' then sendSrt (swSlot w) (srtAdd (swSlot w) s) else s
    let s := if decide (w ≠ 0 ∧ w ≠ lostSlotWord) && decide (srtCount r = 0) then setIndexed (swSlot w) 0 (ixRemove (volDom s v) e.fp (swSlot w) s).2 else s
    let (m, ws, s) := offerEntries n (i + 1) l s
    let need := !have' && !(e.flags.testBit 1 || e.flags.testBit 2)
    (m + (if need then 2 ^ i else 0), (if have' then w else 0) :: ws, s)

/-- An OFFER is answered with the blocks needed, and the slot words referenced are kept under its SEQ (R312). -/
def takeOffer (h : StrHdr) (ents : List StrEnt) (s : State) : State :=
  let n := h.stream
  let (m, ws, s) := offerEntries n 0 ents s
  let s := { s with str := { s.str with offers := kput s.str.offers n (kput (kgetD s.str.offers n []) h.seq (m, ws)) } }
  emit (.streamAnswer n h.seq stOk (m % 2 ^ 32) (m / 2 ^ 32)) (applied n h.seq s)

/-- OFFER (R312, R315): a repeated one gets the stored answer. -/
def execOffer (h : StrHdr) (ents : List StrEnt) (s : State) : Res :=
  let n := h.stream
  ok (if !strValid s n ∨ !strRecv s n then s
    else
      match (if h.epoch = strEpoch s n then offerOf s n h.seq else none) with
      | some (m, _) => emit (.streamAnswer n h.seq stOk (m % 2 ^ 32) (m / 2 ^ 32)) s
      | none =>
        match arrival s h false with
        | .discard | .duplicate => answer n h.seq stOk s
        | .refuse | .hold => answer n h.seq stSequence s
        | .take => releaseHeld (s.str.held.length + 1) (takeOffer h ents s)
        | .adopt => releaseHeld (s.str.held.length + 1) (takeOffer h ents (adoptEpoch h s)))

/-- STREAM_HOLD_TIMEOUT (R314): a message held for HOLDMS completes with Command Sequence Error. -/
def execStreamHoldTimeout (stream : BitVec 12) (seq : Word) (s : State) : Res :=
  ok (match s.str.held.find? fun m => m.hdr.stream = stream.toNat && decide (m.hdr.seq = seq.toNat) with
    | some m => answer m.hdr.stream m.hdr.seq stSequence { s with str := { s.str with held := s.str.held.erase m } }
    | none => s)

end Sys2Proof.Machine
end

