-- ==== Sys2Proof/Machine/Host.lean ====
section
/-! DEFINITION. The host front end: connections, controllers, the checks of an I/O capsule, ANA, the admin commands and the service ring
(R320 to R346, R350 to R356, R571, R572). Layouts of Identify structures, log pages and submission queue entries that spec/ takes
from the NVMe specifications are those specifications'. -/

namespace Sys2Proof.Machine

/-! ### Queues, controllers and their end (R327, R332, R333) -/

/-- The host queue index of the admin queue of a controller. -/
def adminHq (c : Nat) : Nat := 65536 + c

/-- A controller, and the controller of a queue. -/
def ctrlOf (s : State) (c : Nat) : Option Ctrl := kget s.host.ctrls c
@[inherit_doc ctrlOf] def queueOf (s : State) (hq : Nat) : Option HQueue := kget s.host.queues hq

/-- Changes a controller. -/
def modCtrl (c : Nat) (f : Ctrl → Ctrl) (s : State) : State := { s with host := { s.host with ctrls := kmod s.host.ctrls c f } }

/-- HFE_STAT and HFE_IOQ count the live controllers and I/O queues (R359). -/
def syncHost (s : State) : State :=
  setF F.HFE_IOQ_COUNT (kcount s.host.queues fun _ q => decide (q.qid ≠ 0)) (setF F.HFE_STAT_CTRLS s.host.ctrls.length s)

/-- Every context of some queues is cancelled, and counted; what waits or is held for them is dropped (R333). -/
def cancelQueues (p : Nat → Bool) (s : State) : State :=
  let mine (c : Ctx) : Bool := p c.hq && !c.fwd && !c.cancelled
  let n := kcount s.ctxs fun _ c => mine c
  let s := { s with
    ctxs := kmapV s.ctxs fun _ c => if mine c then { c with cancelled := true } else c
    ctxWait := s.ctxWait.filter fun w => w.fwd || !p w.hq
    host := { s.host with
      held := s.host.held.filter fun c => c.fwd || !p c.hq
      fwds := s.host.fwds.filter fun c => !p c.hq
      unfetched := s.host.unfetched.filter fun c => !p c.hq }
    rx := { s.rx with stage := s.rx.stage.filter fun kv => !p (kv.1 / 65536) } }
  bumpBy n .HFE_CANCEL_CNT s

/-- The queues of a controller. -/
def ctrlQueues (s : State) (c : Nat) (io : Bool) : List Nat :=
  (s.host.queues.filter fun kv => decide (kv.2.ctrl = c) && (!io || decide (kv.2.qid ≠ 0))).map Prod.fst

/-- The association of a controller ends (R333): every context of it is cancelled. A controller reset keeps the admin queue, so that the
host can read CSTS. (log 87, DEDUCED, unsafe) -/
def endAssociation (c : Nat) (reset : Bool) (s : State) : State :=
  let qs := ctrlQueues s c reset
  let s := cancelQueues qs.contains s
  let s := { s with host := { s.host with
    queues := s.host.queues.filter fun kv => !qs.contains kv.1
    svc := s.host.svc.filter fun kv => kv.2.ctrl ≠ c } }
  syncHost (if reset then modCtrl c (fun x => { x with old := qs, aers := [] }) s else { s with host := { s.host with ctrls := kdel s.host.ctrls c } })

/-- A queue freezes (R333); a freeze of an admin queue ends the association. (log 88, DEDUCED, unsafe) -/
def freezeQueue (hq : Nat) (s : State) : State :=
  match queueOf s hq with
  | none => s
  | some q =>
    if q.frozen then s
    else
      let s := bump .HFE_FREEZE_CNT { s with host := { s.host with queues := kput s.host.queues hq { q with frozen := true } } }
      if q.qid = 0 then endAssociation q.ctrl false s else cancelQueues (fun k => k = hq) s

/-- QUEUE_FREEZE (R333). -/
def execQueueFreeze (hq : BitVec 17) (s : State) : Res := ok (freezeQueue hq.toNat s)

/-- KATO_EXPIRY (R329). (log 89, DESIGN CHOICE, safe) -/
def execKatoExpiry (cntlid : BitVec 16) (s : State) : Res :=
  ok (if (ctrlOf s cntlid.toNat).isNone then s else endAssociation cntlid.toNat false (bump .HFE_KATO_CNT s))

/-- A capsule arrives on a queue: dropped where the queue is frozen or gone, the controller shuts down or the head serves no host; the
command that fills the queue freezes it (R331 step 1, R333, R337, R431). (log 88, DEDUCED, unsafe) -/
def arrive (hq : Nat) (s : State) : Option State × State :=
  match queueOf s hq with
  | none => (none, s)
  | some q =>
    let shut := match ctrlOf s q.ctrl with | some c => decide (bitsN c.cc 15 14 ≠ 0) | none => true
    if q.frozen || shut || decide (4 ≤ getF s F.SYS_HEAD_STATE) then (none, s)
    else if q.size ≤ q.used + 1 then (none, freezeQueue hq s)
    else
      let t := { s with host := { s.host with queues := kput s.host.queues hq { q with used := q.used + 1, head := (q.head + 1) % q.size } } }
      (some t, t)

/-- Runs an admin command that arrives on an admin queue. -/
def onAdmin (hq : Nat) (f : HQueue → Ctrl → State → State) (s : State) : State :=
  match queueOf s hq with
  | some q =>
    if q.qid ≠ 0 then s
    else
      match arrive hq s with
      | (some t, _) => match ctrlOf t q.ctrl with | some c => f q c t | none => t
      | (none, t) => t
  | none => s

/-- Completes an admin command. -/
def adminDone (hq cid code dw0 : Nat) (s : State) : State := postCompletion hq cid (status code) dw0 [] s

/-! ### Asynchronous events (R338, R343, R352) -/

/-- The Dword 0 of an asynchronous event: type, information and log page. -/
def aerDw0 (ty info lid : Nat) : Nat := ty + info * 256 + lid * 65536

/-- An event goes to every controller that passes a test and has an AER outstanding, which it completes (R343). -/
def notify (p : Nat → Ctrl → Bool) (dw0 : Nat) (s : State) : State :=
  s.host.ctrls.foldl (fun t kv =>
    match ctrlOf t kv.1 with
    | some c =>
      match c.aers with
      | cid :: l => if p kv.1 c then postCompletion (adminHq kv.1) cid 0 dw0 [] (modCtrl kv.1 (fun x => { x with aers := l }) t) else t
      | [] => t
    | none => t) s

/-- The notices that a controller has enabled (R341 feature 0Bh). -/
def wants (b : Nat) : Nat → Ctrl → Bool := fun _ c => c.aec.testBit b

/-- A namespace has changed: it joins the Changed Namespace Lists, and the notice is sent (R342, R343). -/
def nsChanged (nsid : Nat) (s : State) : State :=
  let add (_ : Nat) (c : Ctrl) : Ctrl := if c.changed.contains nsid then c else { c with changed := (nsid :: c.changed).take 1024 }
  notify (wants 8) (aerDw0 2 0 4) { s with host := { s.host with ctrls := kmapV s.host.ctrls add } }

/-! ### Namespaces, attachment and volumes (R322, R323) -/

/-- The namespace table entry of an NSID, and its fields. -/
def nsEntry (s : State) (n : Nat) : Nat :=
  if n = 0 ∨ 262144 < n then 0 else rdN s (getF s F.HFE_NSTAB_BASE * 4096 + 8 * (n - 1)) 8
@[inherit_doc nsEntry] def nsVol (s : State) (n : Nat) : Nat := bitsN (nsEntry s n) 17 0
@[inherit_doc nsEntry] def nsValid (s : State) (n : Nat) : Bool := (nsEntry s n).testBit 20
@[inherit_doc nsEntry] def nsPass (s : State) (n : Nat) : Bool := (nsEntry s n).testBit 21

/-- The index of a CNTLID, and its attachment map (R321, R323). -/
def ctrlIndex (s : State) (c : Nat) : Nat := if gangChips s = 1 then c % 2 ^ 15 else c % 2 ^ 13
@[inherit_doc ctrlIndex] def attachAddr (s : State) (c : Nat) : Nat := getF s F.HFE_ATTACH_BASE * 4096 + 0x8000 * ctrlIndex s c

/-- Whether an NSID is attached to a controller. -/
def attachedTo (s : State) (c n : Nat) : Bool :=
  decide (0 < n ∧ n ≤ 262144) && decide (rdBits s (attachAddr s c + (n - 1) / 8) 1 ((n - 1) % 8) ((n - 1) % 8) = 1)

/-- The NSIDs attached to a controller, ascending. -/
def attachedList (s : State) (c : Nat) : List Nat :=
  let lo := attachAddr s c
  (s.mem.filter fun x => decide (lo ≤ x.1) && decide (x.1 < lo + 0x8000)).flatMap fun x => (bitsSet 8 x.2.toNat).map fun b => (x.1 - lo) * 8 + b + 1

/-- Sets or clears an attachment in the map of a controller. -/
def putAttach (c n v : Nat) (s : State) : State :=
  wrBits (attachAddr s c + (n - 1) / 8) 1 ((n - 1) % 8) ((n - 1) % 8) v s

/-! ### Connect (R321, R326, R327, R571) -/

/-- The bytes of the receive pool that live queues use (R327). -/
def poolUsed (s : State) : Nat := (s.host.queues.map fun kv => 1088 * kv.2.size).sum

/-- The lowest free controller index (R321). -/
def freeCtrl (s : State) : Option Nat :=
  let n := if gangChips s = 1 then 16384 else 8175
  ((List.range (min n (s.host.ctrls.length + 1))).map (· + 1)).find? fun i => !(s.host.ctrls.any fun kv => ctrlIndex s kv.1 = i)

/-- The CNTLID of an index (R321). -/
def cntlidOf (s : State) (i : Nat) : Nat := headNo s * 2 ^ 15 + (if gangChips s = 1 then 0 else gangChip s * 2 ^ 13) + i

/-- The lowest host queue index that no queue and no context uses. -/
def freeHq (s : State) : Option Nat :=
  (List.range (min 65535 (s.host.queues.length + s.ctxs.length + 1))).find? fun i =>
    (queueOf s i).isNone && !(s.ctxs.any fun kv => decide (kv.2.hq = i) && !kv.2.fwd)

/-- Whether an I/O Connect is in order (R321). -/
def ioConnectOk (s : State) (a : ConnArgs) : Bool :=
  match ctrlOf s a.cntlid with
  | some c => decide (c.nqn = a.nqn ∧ c.hostid = a.host ∧ 1 ≤ a.qid ∧ a.qid ≤ c.granted) && !c.disc &&
      !(s.host.queues.any fun kv => decide (kv.2.ctrl = a.cntlid ∧ kv.2.qid = a.qid))
  | none => false

/-- Whether the connection of a Connect is open and carries no queue (R571): over RDMA a TARGET queue pair that answers requests. -/
def connOpen (s : State) (a : ConnArgs) : Bool :=
  if a.tcp then decide (0 < s.host.tcpOpen)
  else (qpOf s a.conn).any (fun x => decide (x.kind = 0 ∧ (x.st = 2 ∨ x.st = 3))) && !(s.host.queues.any fun kv => !kv.2.tcp && decide (kv.2.conn = a.conn))

/-- A queue takes the connection of its Connect. -/
def takeConn (tcp : Bool) (s : State) : State := if tcp then { s with host := { s.host with tcpOpen := s.host.tcpOpen - 1 } } else s

/-- CONNECT (R321, R323, R326, R327): without an open connection no Connect reaches the front end, and none is answered (R571). -/
def execConnect (a : ConnArgs) (s : State) : Res :=
  let refuse (code : Nat) : State := emit (.connected a.conn a.cid (status code) 0) s
  let full := decide (getF s F.HFE_RXPOOL_GIB * 2 ^ 30 < poolUsed s + 1088 * a.size)
  ok (if !connOpen s a then s
    else if a.qid = 0 then
      if a.cntlid ≠ 0xFFFF ∨ a.size < 2 ∨ 128 < a.size then refuse 0x182
      else if full then refuse 0x181
      else
        match freeCtrl s with
        | none => refuse 0x181
        | some i =>
          let c := cntlidOf s i
          let x : Ctrl := { disc := a.disc, nqn := a.nqn, hostid := a.host, kato := if a.kato = 0 then 120000 else a.kato }
          let q : HQueue := { ctrl := c, qid := 0, size := a.size, tcp := a.tcp, used := 0, conn := a.conn }
          let s := { s with host := { s.host with ctrls := kput s.host.ctrls c x, queues := kput s.host.queues (adminHq c) q } }
          let s := wipe (attachAddr s c) (attachAddr s c + 0x7FFF) s
          let s := (s.host.attached.filter fun e => e.1 = a.nqn).foldl (fun t e => putAttach c e.2 1 t) s
          emit (.connected a.conn a.cid 0 c) (takeConn a.tcp (syncHost s))
    else if !ioConnectOk s a ∨ a.size < 2 ∨ min 1024 (getF s F.HFE_CTL_MQES + 1) < a.size then refuse 0x182
    else if full then refuse 0x181
    else
      match freeHq s with
      | none => refuse 0x181
      | some h =>
        let q : HQueue := { ctrl := a.cntlid, qid := a.qid, size := a.size, tcp := a.tcp, conn := a.conn }
        emit (.connected a.conn a.cid 0 a.cntlid) (takeConn a.tcp <| syncHost { s with host := { s.host with queues := kput s.host.queues h q } }))

/-- TCP_CONNECT (R571): a connection request is accepted while EN and TCPEN are 1, else answered with a reset. -/
def execTcpConnect (s : State) : Res :=
  let on := isF s F.HFE_CTL_EN && isF s F.HFE_CTL_TCPEN
  ok (emit (.tcpAnswer on) (if on then { s with host := { s.host with tcpOpen := s.host.tcpOpen + 1 } } else s))

/-- DISCONNECT (R333): answered, and the association ends. -/
def execDisconnect (hq : BitVec 17) (cid : BitVec 16) (s : State) : Res :=
  ok (match queueOf s hq.toNat with
    | some q => endAssociation q.ctrl false (adminDone hq.toNat cid.toNat 0 0 s)
    | none => s)

/-- PROPERTY_SET (R333): CC alone can be written. Clearing EN ends the association; a shutdown cancels nothing. (log 87, DEDUCED, unsafe) -/
def execPropertySet (hq : BitVec 17) (cid off : BitVec 16) (v : Word) (s : State) : Res :=
  ok (onAdmin hq.toNat (fun q c s =>
    if off.toNat ≠ 0x14 then adminDone hq.toNat cid.toNat 0x002 0 s
    else
      let cc := v.toNat % 2 ^ 32
      let s := modCtrl q.ctrl (fun x => { x with cc := cc }) s
      let s := adminDone hq.toNat cid.toNat 0 0 s
      if c.cc.testBit 0 && !cc.testBit 0 then endAssociation q.ctrl true s else s) s)

/-- Whether a context of a controller is still there. -/
def ctrlBusy (s : State) (c : Nat) (x : Ctrl) : Bool :=
  s.ctxs.any fun kv => !kv.2.fwd && ((ctrlQueues s c true).contains kv.2.hq || (kv.2.cancelled && x.old.contains kv.2.hq))

/-- CSTS: RDY and SHST (R333). (log 87, DEDUCED, unsafe) -/
def cstsOf (s : State) (c : Nat) (x : Ctrl) : Nat :=
  let shst := if bitsN x.cc 15 14 = 0 then 0 else if ctrlBusy s c x then 1 else 2
  b2n (x.cc.testBit 0 || ctrlBusy s c x) + shst * 4

/-- PROPERTY_GET (R338): CC and CSTS; of CAP the MQES field is HFE_CTL.MQES (R326), and what spec/ gives no value is free. (log 85, PRESUMED, unsafe; 86, DESIGN CHOICE, safe) -/
def execPropertyGet (hq : BitVec 17) (cid off : BitVec 16) (s : State) : Res :=
  ok (onAdmin hq.toNat (fun q c s =>
    let free := (Config.freeWord s.free).toNat
    if off.toNat = 0x14 then adminDone hq.toNat cid.toNat 0 c.cc s
    else if off.toNat = 0x1C then adminDone hq.toNat cid.toNat 0 (cstsOf s q.ctrl c) s
    else if off.toNat = 0 then adminDone hq.toNat cid.toNat 0 (putBitsN free 15 0 (getF s F.HFE_CTL_MQES)) (nextFree s)
    else if off.toNat = 8 then adminDone hq.toNat cid.toNat 0 (free % 2 ^ 32) (nextFree s)
    else adminDone hq.toNat cid.toNat 0x002 0 s) s)

/-! ### ANA (R351, R352, R440) -/

/-- The ANA state of a group on this head: 1 Optimized, 2 Non-optimized, 3 Inaccessible, 15 Change, as NVMe numbers them. -/
def anaState (s : State) (g : Nat) : Nat :=
  if getF s F.SYS_HEAD_STATE = 5 ∨ getF s F.SYS_HEAD_STATE = 3 then 3
  else if getF s F.SYS_GRP_POS g ≠ 0 then 15
  else if getF s F.SYS_GRP_OWNER g = headNo s then 1
  else 2

/-- The chip of a gang on which a group lies (R440). -/
def groupChip (s : State) (g : Nat) : Nat := g * 0x9E37_79B1 % 2 ^ 32 * gangChips s / 2 ^ 32

/-! ### I/O commands (R330, R331, R346, R572) -/

/-- Completes an I/O command, or sends its result to the head that received the capsule (R41). -/
def ioDone (c : HostCmd) (code : Nat) (s : State) : State :=
  if c.fwd then returnResult c.hq c.cid (status code) 0 s else postCompletion c.hq c.cid (status code) 0 c.sqe s

/-- The lowest-numbered PASS namespace attached to a controller (R334). -/
def firstPass (s : State) (c : Nat) : Option Nat := (attachedList s c).find? fun n => nsValid s n && nsPass s n

/-- The controller of a command's queue. -/
def cmdCtrl (s : State) (hq : Nat) : Nat := match queueOf s hq with | some q => q.ctrl | none => 0

/-- The namespace that a command on a queue is checked for: that of its NSID, or for a Flush of every namespace the lowest attached PASS one. -/
def cmdNs (s : State) (hq : Nat) (sqe : List Byte) : Nat :=
  if sqNsid sqe = 0xFFFF_FFFF then (firstPass s (cmdCtrl s hq)).getD 0 else sqNsid sqe

/-- The volume of a command, which its namespace table entry names when it is accepted (R322). -/
def cmdVol (s : State) (hq : Nat) (sqe : List Byte) : Nat := nsVol s (cmdNs s hq sqe)

/-- The reservation of a volume forbids a host's command (R345, R346). -/
def resvForbids (s : State) (v host opc : Nat) : Bool :=
  let a := getF s F.HFE_RESVTAB_BASE * 4096 + 2048 * v
  let ty := rdN s a 1
  let holder := rdN s (a + 1) 1
  let count := rdN s (a + 3) 1
  let isReg (i : Nat) : Bool := decide (i < count) && decide (rdN s (a + 64 + 24 * i) 16 = host)
  let writes := if readType opc then false else if writeType opc ∨ opc = 0 then true else decide (opc % 2 = 1)
  if ty = 0 then false
  else if decide (holder < count) && isReg holder then false
  else
    let reg := (List.range 63).any isReg
    if ty = 1 then writes
    else if ty = 2 then true
    else if ty = 3 ∨ ty = 5 then writes && !reg
    else !reg

/-- The length of the SGL of a capsule; none for PRP and for a form that R326 does not list. -/
def sglLen (tcp : Bool) (q data : List Byte) : Option Nat :=
  let id := fieldN q 39 1
  let keyed (d : List Byte) : Option Nat := if [0x40, 0x4F].contains (fieldN d 15 1) then some (fieldN d 8 3) else none
  if sqPsdt q = 0 then none
  else if id = 0x01 then some (fieldN q 32 4)
  else if tcp then (if id = 0x5A then some (fieldN q 32 4) else none)
  else if id = 0x31 then
    let n := fieldN q 32 4
    if n % 16 ≠ 0 ∨ 256 < n then none
    else
      ((List.range (n / 16)).map fun i => keyed ((data.drop (fieldN q 24 8 + 16 * i)).take 16)).foldl (fun acc o =>
        match acc, o with | some a, some b => some (a + b) | _, _ => none) (some 0)
  else keyed ((q.drop 24).take 16)

/-- The transfer length of a command (R572); none where the front end does not check it. -/
def xferLen (pi : Bool) (q : List Byte) : Option Nat :=
  let opc := sqOpc q
  if [0x01, 0x02, 0x05].contains opc then
    some (sqNlb q * (if pi && !((sqPrinfo q).testBit 3) then 4112 else 4096))
  else if opc = 0x09 then some (16 * (fieldN q 40 1 + 1))
  else if opc = 0x19 then some ((fieldN q 48 1 + 1) * (if bitsN (fieldN q 49 1) 3 0 = 0 then 32 else 40))
  else if opc = 0x08 ∨ opc = 0 then some 0
  else none

/-- The check of step 9 of R331. -/
def sglCheck (s : State) (tcp pi : Bool) (q data : List Byte) : Option Nat :=
  match sglLen tcp q data with
  | none => some 0x002
  | some n =>
    match xferLen pi q with
    | none => none
    | some m =>
      if tcp && readType (sqOpc q) && decide (fieldN q 39 1 = 0x01) then some 0x002
      else if n ≠ m then some 0x00F
      else if [0x01, 0x02, 0x05].contains (sqOpc q) && decide (getF s F.HFE_CTL_MDTS ≠ 0) && decide (4096 * 2 ^ getF s F.HFE_CTL_MDTS < m) then some 0x002
      else if !pi && decide (sqPrinfo q ≠ 0) && ([0x01, 0x02, 0x05, 0x08].contains (sqOpc q)) then some 0x002
      else none

/-- Step 12 of R331: the binding, and a flow context or a place among those that wait for one (R33, R107, R307). -/
def bindIo (c : HostCmd) (s : State) : State :=
  let v := c.vol
  let opc := sqOpc c.sqe
  if [0xC4, 0xC8, 0xCC].contains opc then ioDone c 0x001 s
  else
    match bindingOf s (volClass s v) opc with
    | none => ioDone c 0x001 s
    | some pc =>
      let w : WaitCmd := ⟨c.hq, c.cid, volClass s v, v, pc, s.bung.epoch, c.sqe, c.fwd⟩
      match (if s.ctxWait = [] then freeCtxNo s else none) with
      | some n => startCtx n w false s
      | none => { s with ctxWait := s.ctxWait ++ [w] }

/-- Whether a chip of the gang can be reached (R441). -/
def chipReached (s : State) (chip : Nat) : Bool := (getF s F.GANG_STAT_REACH).testBit chip

/-- A command is held (R351, R441). -/
def holdIo (c : HostCmd) (s : State) : State := bump .HFE_HELD_CNT { s with host := { s.host with held := s.host.held ++ [c] } }

/-- The host data of a command that a head has to stage before it forwards it: its SGL, where the command moves data from the host (R41). (log 182, DEDUCED, unsafe) -/
def hostSgl (s : State) (c : HostCmd) : Option Sgl :=
  match queueOf s c.hq with
  | some q => if sqOpc c.sqe % 2 = 1 then sglOf q.tcp ((c.sqe.drop 24).take 16) (kgetD s.rx.capsule (cmdKey c.hq c.cid) []) else none
  | none => none

/-- A command goes to the chip of its group or to its OWNER with its host data (R41, R441). -/
def sendForward (c : HostCmd) (data : List Byte) (s : State) : State :=
  let g := volGroup s c.vol
  if groupChip s g = gangChip s then toPartner (.forward c.hq c.cid c.host c.vol c.sqe data) s
  else
    let x : Xfer := { src := hfeBlock, dst := hfeBlock, chip := groupChip s g, tc := 5, ty := 5, addr := cmdKey c.hq c.cid, data := c.sqe ++ data }
    emit (.gangForward (groupChip s g) c.hq c.cid c.host c.vol c.sqe data) (sendXfer x s)

/-- A command is forwarded once its host data is in this head's staging (R41): in-capsule data is there, keyed blocks are read by RDMA READ
requests, and a transport data block by an R2T. (log 182, DEDUCED, unsafe; 193, DESIGN CHOICE, safe) -/
def forwardIo (c : HostCmd) (s : State) : State :=
  let s := { s with host := { s.host with fwds := s.host.fwds ++ [c] } }
  let stage (x : Stage) : State := { s with rx := { s.rx with stage := kput s.rx.stage (cmdKey c.hq c.cid) x } }
  match hostSgl s c, queueOf s c.hq with
  | some (.capsule d), _ => sendForward c d s
  | some (.transport n), _ => if n = 0 then sendForward c [] s
    else nextFree (emit (.tcpR2t c.hq c.cid ((Config.freeWord s.free).toNat % 2 ^ 16) 0 n) (stage { need := n }))
  | some (.keyed l), some q =>
    if (Sgl.keyed l).total = 0 then sendForward c [] s
    else
      let ents := (l.filter fun e => decide (e.2.1 ≠ 0)).map fun e =>
        { kind := .read, addr := e.1, len := e.2.1, rkey := e.2.2, stage := some (cmdKey c.hq c.cid) }
      enqueue q.conn ents (stage {})
  | _, _ => sendForward c [] s

/-- Steps 10 to 12 of R331: held, turned away, forwarded to the chip of the group or to its OWNER, or started (R41, R351, R441). -/
def startIo (c : HostCmd) (s : State) : State :=
  let g := volGroup s c.vol
  let away := decide (groupChip s g ≠ gangChip s)
  if away && !c.fwd then
    if chipReached s (groupChip s g) then forwardIo c s else holdIo c s
  else
    match anaState s g with
    | 15 => holdIo c s
    | 3 => ioDone c 0x302 s
    | 2 => if c.fwd then holdIo c s else forwardIo c s
    | _ => bindIo c s

/-- A command for the steward goes to the service ring (R340); while the ring is full its capsule is not accepted. -/
def toService (hq cid : Nat) (sqe : List Byte) (s : State) : State :=
  match queueOf s hq with
  | none => s
  | some q =>
    let tail := getF s F.HFE_SVCIDX_TAIL
    let host := match ctrlOf s q.ctrl with | some c => c.hostid | none => 0
    let entry := sqe ++ leBytes 2 q.ctrl ++ leBytes 2 q.qid ++ zeros 4 ++ leBytes 16 host ++ leBytes 8 s.dtime.toNat ++ zeros 32
    let s := wrB (getF s F.HFE_SVC_BASE * 4096 + 128 * tail) entry s
    let s := { s with host := { s.host with svc := kput s.host.svc tail ⟨hq, cid, q.ctrl, sqe⟩ } }
    raise 0x0910 tail (setF F.HFE_SVCIDX_TAIL ((tail + 1) % 4096) s)

/-- Whether the service ring is full (R340). -/
def svcFull (s : State) : Bool := decide ((getF s F.HFE_SVCIDX_TAIL + 1) % 4096 = getF s F.HFE_SVCIDX_HEAD)

/-- The reservation opcodes (R330). -/
def resvOpc (opc : Nat) : Bool := [0x0D, 0x0E, 0x11, 0x15].contains opc

/-- A Flush (R334): of a namespace that is not PASS, and of every namespace where none attached is PASS, it completes at acceptance; else
it is bound. -/
def flushIo (c : HostCmd) (s : State) : Option State :=
  if sqNsid c.sqe = 0xFFFF_FFFF then
    match firstPass s (cmdCtrl s c.hq) with
    | none => some (ioDone c 0 s)
    | some _ => some (startIo c s)
  else if nsPass s (sqNsid c.sqe) then none
  else some (ioDone c 0 s)

/-- Step 3 of R331: the status that an unfinished or a failed sanitize gives (R355). -/
def sanitizeStatus (s : State) : Option Nat :=
  match getF s F.HFE_SANSTAT_SSTAT with
  | 2 => some 0x01D
  | 3 => some 0x01C
  | _ => none

/-- Steps 2 to 12 of R331 for a command that was accepted. -/
def admitIo (c : HostCmd) (tcp : Bool) (data : List Byte) (s : State) : State :=
  let q := c.sqe
  let opc := sqOpc q
  let n := sqNsid q
  let all := decide (opc = 0 ∧ n = 0xFFFF_FFFF)
  let v := c.vol
  if !all && (!nsValid s n || !attachedTo s (cmdCtrl s c.hq) n) then ioDone c 0x00B s
  else
    match sanitizeStatus s with
    | some st => ioDone c st s
    | none =>
      if !all && !volValid s v then ioDone c 0x082 s
      else
        match (if opc = 0 then flushIo c s else none) with
        | some t => t
        | none =>
          if resvOpc opc then toService c.hq c.cid q s
          else if [0x01, 0x02, 0x05, 0x08].contains opc && decide (volSize s v < sqLba q + sqNlb q) then ioDone c 0x080 s
          else if writeType opc && volRo s v then ioDone c 0x020 s
          else if ownsVol s v && resvForbids s v c.host opc then ioDone c 0x083 s
          else
            match sglCheck s tcp (volFlag s v 4) q data with
            | some st => ioDone c st s
            | none => startIo c s

/-- The HOSTID of a queue's controller. -/
def hostOf (s : State) (hq : Nat) : Nat := match ctrlOf s (cmdCtrl s hq) with | some c => c.hostid | none => 0

/-- Whether the front end fetches nothing more from a queue: a command of it waits for a flow context (R33). -/
def fetchStops (s : State) (hq : Nat) : Bool :=
  (s.ctxWait.any fun w => !w.fwd && decide (w.hq = hq)) || s.host.unfetched.any fun c => decide (c.hq = hq)

/-- A capsule arrives on a queue that the front end does not fetch from: it waits, and the one that the queue cannot hold freezes the
queue (R33, R333). (log 183, DEDUCED, unsafe) -/
def holdCapsule (hq : Nat) (q : HQueue) (c : Capsule) (s : State) : State :=
  if q.frozen then s
  else if q.size ≤ q.used + 1 + s.host.unfetched.countP (fun c => decide (c.hq = hq)) then freezeQueue hq s
  else { s with host := { s.host with unfetched := s.host.unfetched ++ [c] } }

/-- A capsule of an I/O queue: its SQE with the data it carries, and whether a data digest failed (R33, R331, R333, R340). (log 91, DESIGN CHOICE, safe) -/
def ioCapsule (hq : Nat) (sqe data : List Byte) (digestBad : Bool) (s : State) : State :=
  match queueOf s hq with
  | none => s
  | some q =>
    if q.qid = 0 ∨ (resvOpc (sqOpc sqe) ∧ svcFull s) then s
    else if fetchStops s hq then holdCapsule hq q ⟨hq, sqe, data, digestBad⟩ s
    else
      match arrive hq s with
      | (none, t) => t
      | (some t, _) =>
        let c : HostCmd := ⟨hq, sqCid sqe, hostOf t hq, sqe, false, cmdVol t hq sqe⟩
        let t := { t with rx := { t.rx with capsule := kput t.rx.capsule (cmdKey hq (sqCid sqe)) data } }
        let t := pmc 0x0901 0 1 t
        if digestBad then ioDone c 0x022 t else admitIo c q.tcp data t

/-- IO_CAPSULE_RECEIVED (R107, R331, R333). -/
def execIoCapsuleReceived (hq : BitVec 16) (sqe data : List Byte) (digestBad : Bool) (s : State) : Res :=
  ok (ioCapsule hq.toNat sqe data digestBad s)

/-- CONTEXT_ALLOCATION (R33, R107): the oldest command that waits receives a free context, and the front end fetches again from a queue
of which no command waits. -/
def execContextAllocation (s : State) : Res :=
  ok (match s.ctxWait, freeCtxNo s with
    | w :: l, some n =>
      let t := startCtx n w false { s with ctxWait := l }
      t.host.unfetched.foldl (fun u c => ioCapsule c.hq c.sqe c.data c.bad u) { t with host := { t.host with unfetched := [] } }
    | _, _ => s)

/-- FLUSH (R334). -/
def execFlush (hq : BitVec 16) (sqe : List Byte) (s : State) : Res :=
  ok (if sqOpc sqe = 0 then ioCapsule hq.toNat sqe [] false s else s)

/-- FORWARDED_COMMAND_RECEIVED (R41, R346): the OWNER enforces the reservation and runs the command, whose volume and host data come with it. -/
def execForwardedCommandReceived (hq cid : BitVec 16) (host : BitVec 128) (cmd : FwdCmd) (s : State) : Res :=
  let c : HostCmd := ⟨hq.toNat, cid.toNat, host.toNat, cmd.sqe, true, cmd.vol.toNat⟩
  let s := { s with rx := { s.rx with staged := kput s.rx.staged (cmdKey hq.toNat cid.toNat) cmd.data } }
  ok (if resvForbids s c.vol c.host (sqOpc cmd.sqe) then ioDone c 0x083 s else startIo c s)

/-- The forwarded command of a queue and CID. -/
def fwdOf (s : State) (key : Nat) : Option HostCmd := s.host.fwds.find? fun c => decide (cmdKey c.hq c.cid = key)

/-- A forwarded command is forwarded no more. -/
def dropForward (c : HostCmd) (s : State) : State :=
  { s with host := { s.host with fwds := s.host.fwds.erase c }, rx := { s.rx with stage := kdel s.rx.stage (cmdKey c.hq c.cid) } }

/-- The completion of a forwarded command is posted (R41). -/
def postForward (c : HostCmd) (st dw0 : Nat) (s : State) : State := postCompletion c.hq c.cid st dw0 c.sqe (dropForward c s)

/-- The host data of a forwarded command is all in staging: the command goes out with it, or starts here where this head now owns its group (R41). -/
def stageFull (c : HostCmd) (data : List Byte) (s : State) : State :=
  let g := volGroup s c.vol
  if groupChip s g ≠ gangChip s ∨ anaState s g = 2 then sendForward c data { s with rx := { s.rx with stage := kdel s.rx.stage (cmdKey c.hq c.cid) } }
  else startIo c (dropForward c s)

/-- The write entries that carry staged data, from offsets of a command's keyed blocks on. -/
def stageEnts (c : HostCmd) (l : List (Nat × Nat × Nat)) (data : List (Nat × List Byte)) : List SendEnt :=
  data.flatMap fun d => writeEnts none (some (cmdKey c.hq c.cid)) (sliceKeyed l d.1 d.2.length) d.2

/-- FORWARDED_RESULT_RECEIVED (R41): the data that came for the host goes from the staging to the host, and the head that received the capsule
then posts the completion. (log 182, DEDUCED, unsafe) -/
def execForwardedResultReceived (hq cid st : BitVec 16) (res : FwdResult) (s : State) : Res :=
  ok (match fwdOf s (cmdKey hq.toNat cid.toNat), queueOf s hq.toNat with
    | some c, some q =>
      if q.tcp then
        postForward c st.toNat res.dw0.toNat (res.data.foldl (fun t d => emit (.tcpData c.hq c.cid d.1 d.2) t) s)
      else
        let ents := match sglOf false ((c.sqe.drop 24).take 16) (kgetD s.rx.capsule (cmdKey c.hq c.cid) []) with
          | some (.keyed l) => stageEnts c l res.data
          | _ => []
        if ents = [] then postForward c st.toNat res.dw0.toNat s
        else enqueue q.conn ents { s with rx := { s.rx with stage := kput s.rx.stage (cmdKey c.hq c.cid) { result := some (st.toNat, res.dw0.toNat) } } }
    | _, _ => s)

/-- ANA_HOLD_TIMEOUT (R351): a held command completes with Asymmetric Access Transition. (log 89, DESIGN CHOICE, safe) -/
def execAnaHoldTimeout (hq cid : BitVec 16) (s : State) : Res :=
  ok (match s.host.held.find? fun c => decide (c.hq = hq.toNat ∧ c.cid = cid.toNat) with
    | some c => ioDone c 0x303 { s with host := { s.host with held := s.host.held.erase c } }
    | none => s)

/-- The held commands of a group start once its state has settled (R351, R433). -/
def startHeld (g : Nat) (s : State) : State :=
  let mine := s.host.held.filter fun c => decide (volGroup s c.vol = g)
  if anaState s g = 15 ∨ mine = [] then s
  else mine.foldl (fun t c => startIo c t) { s with host := { s.host with held := s.host.held.filter fun c => !mine.contains c } }

/-- The change count of R352 counts a change of a group's state and the notices go out; the commands held for it start where it has
settled. -/
def anaChange (g : Nat) (s : State) : State :=
  let st := anaState s g
  let s := if kgetD s.host.anaSeen g 15 = st then s
    else notify (wants 11) (aerDw0 2 3 0x0C) { s with host := { s.host with anaSeen := kput s.host.anaSeen g st, anaCount := s.host.anaCount + 1 } }
  startHeld g s

/-- ANA_STATE_CHANGE (R352). -/
def execAnaStateChange (g : BitVec 10) (s : State) : Res := ok (anaChange g.toNat s)

/-! ### Identify (R324, R338, R339) -/

/-- The image area (R359). -/
def image (s : State) (off n : Nat) : List Byte := rdB s (getF s F.HFE_IMG_BASE * 4096 + off) n

/-- Replaces fields of a structure: offset, length and value of each. (log 85, PRESUMED, unsafe) -/
def patch (l : List Byte) (fs : List (Nat × Nat × Nat)) : List Byte := fs.foldl (fun m f => putBytes m f.1 (leBytes f.2.1 f.2.2)) l

/-- Identify Controller (R339). (log 85, PRESUMED, unsafe) -/
def identifyCtrl (s : State) (c size : Nat) : List Byte :=
  patch (image s 0 4096) [(78, 2, c), (76, 1, 0x0B), (256, 2, 0x000A), (259, 1, 7), (262, 1, 255), (320, 2, 1), (328, 4, 3), (342, 1, 1),
    (343, 1, 0xD7), (344, 4, 1024), (348, 4, 1024), (514, 2, size), (516, 4, 262144), (520, 2, 0x016D), (524, 1, 0x04), (525, 1, 0),
    (540, 4, 262144), (1792, 4, 68), (1796, 4, 1)]

/-- Identify Namespace (R324). (log 85, PRESUMED, unsafe) -/
def identifyNs (s : State) (v : Nat) : List Byte :=
  let pi := b2n (volFlag s v 4)
  patch (image s 0x1000 4096) [(0, 8, volSize s v), (8, 8, volSize s v), (16, 8, volMapped s v), (24, 1, 1), (25, 1, 1), (26, 1, pi * 0x11),
    (29, 1, pi), (33, 1, 9), (92, 4, volGroup s v + 1), (99, 1, b2n (volRo s v)), (128, 4, 12 * 65536), (132, 4, 16 + 12 * 65536)]

/-- IDENTIFY (R324, R328, R338, R339): CNS 00h, 01h, 02h, 03h, 05h and 06h; spec/ gives CNS 03h no image, so its bytes are free. (log 86, DESIGN CHOICE, safe) -/
def execIdentify (hq : BitVec 17) (cid : BitVec 16) (cns : Byte) (nsid : BitVec 32) (s : State) : Res :=
  let h := hq.toNat
  let n := nsid.toNat
  let give (l : List Byte) (s : State) : State := adminDone h cid.toNat 0 0 (emit (.hostData h cid.toNat l) s)
  ok (onAdmin h (fun q c s =>
    let bad := !nsValid s n || !attachedTo s q.ctrl n
    if c.disc && decide (cns ≠ 1) then adminDone h cid.toNat 0x002 0 s
    else
      match cns.toNat with
      | 0 => if bad then adminDone h cid.toNat 0x00B 0 s else give (identifyNs s (nsVol s n)) s
      | 1 => give (identifyCtrl s q.ctrl q.size) s
      | 2 => give (((attachedList s q.ctrl).filter fun k => nsValid s k && decide (n < k)).take 1024 |>.flatMap (leBytes 4)) s
      | 3 => if bad then adminDone h cid.toNat 0x00B 0 s else give (freeBytes s 4096) { s with free := s.free + 4096 }
      | 5 => if bad then adminDone h cid.toNat 0x00B 0 s else give (patch (image s 0x2000 4096) [(16, 4, 0x100)]) s
      | 6 => give (image s 0x3000 4096) s
      | _ => adminDone h cid.toNat 0x002 0 s) s)

/-! ### Log pages (R342 to R344, R352) -/

/-- The composite temperature in kelvin (R344): THM_STAT.HOTTEST counts sixteenths of a degree. -/
def compositeK (s : State) : Nat :=
  let x := getF s F.THM_STAT_HOTTEST
  let c : Int := if x < 2 ^ 15 then x else (x : Int) - 2 ^ 16
  (c / 16 + 273).toNat

/-- Critical warning bits 1 and 2 (R344). -/
def critWarn (s : State) (c : Ctrl) : Nat :=
  let hot := (decide (c.tover ≠ 0) && decide (c.tover ≤ compositeK s)) || decide (compositeK s ≤ c.tunder)
  let thin := s.plc.frames.any fun kv =>
    let p := kv.1 / 2 ^ 26
    let f := kv.1 % 2 ^ 26
    decide (2 ≤ ((positions s p f).filter fun pos => (posRead s p f pos).isNone).length)
  let lost := s.rst.lost || s.me.srt.any fun kv => srtLost kv.2
  2 * b2n hot + 4 * b2n (thin || lost)

/-- The SMART page: the image with the live fields of R344; `peer` holds the partner's data units and commands read and written. -/
def smartPage (s : State) (c : Ctrl) (peer : List Nat) : List Byte :=
  let cnt (r : RegName) (i : Nat) : Nat := bits (rd s r) 47 0 + peer.getD i 0
  let img := image s 0x6000 512
  let warn := (fieldN img 0 1 &&& 0xF9) ||| critWarn s c
  patch img [(0, 1, warn), (1, 2, compositeK s), (32, 16, cnt .HFE_RDDU_CNT 0), (48, 16, cnt .HFE_WRDU_CNT 1), (64, 16, cnt .HFE_RDCMD_CNT 2),
    (80, 16, cnt .HFE_WRCMD_CNT 3), (160, 16, s.host.mediaErrs)]

/-- The SMART warnings of one controller (R343, R344): a critical warning that has come to hold, where the host has enabled its notice, completes an AER; it
counts as sent once it has been. (log 188, DEDUCED, unsafe) -/
def smartCtrl (c : Nat) (x : Ctrl) (s : State) : State :=
  let now := critWarn s x
  let new := (now &&& x.aec) &&& (6 ^^^ (x.warned &&& 6))
  match x.aers with
  | [] => modCtrl c (fun y => { y with warned := x.warned &&& now }) s
  | cid :: l =>
    if new.testBit 2 then postCompletion (adminHq c) cid 0 (aerDw0 1 0 2) [] (modCtrl c (fun y => { y with aers := l, warned := x.warned &&& now ||| 4 }) s)
    else if new.testBit 1 then postCompletion (adminHq c) cid 0 (aerDw0 1 1 2) [] (modCtrl c (fun y => { y with aers := l, warned := x.warned &&& now ||| 2 }) s)
    else modCtrl c (fun y => { y with warned := x.warned &&& now }) s

/-- The SMART warnings go out (R343): the front end looks at what holds in every 10 ns in which no command waits. (log 188, DEDUCED, unsafe) -/
def smartNotices (s : State) : State := s.host.ctrls.foldl (fun t kv => if kv.2.disc then t else smartCtrl kv.1 kv.2 t) s

/-- The groups with a namespace attached to a controller, with the state and, where `rgo` does not say otherwise, the NSIDs. -/
def anaLog (s : State) (c : Nat) (rgo : Bool) : List (List Nat) :=
  let ns := (attachedList s c).filter (nsValid s)
  let gs := (ns.map fun n => volGroup s (nsVol s n)).eraseDups
  [s.host.anaCount] :: gs.map fun g => (g + 1) :: anaState s g :: (if rgo then [] else ns.filter fun n => volGroup s (nsVol s n) = g)

/-- GET_LOG_PAGE (R328, R342): `rae` and `rgo` are the command's bits. -/
def execGetLogPage (hq : BitVec 17) (cid : BitVec 16) (lid : Byte) (rae rgo : Bool) (sqe : List Byte) (peer : List Nat) (s : State) : Res :=
  let h := hq.toNat
  let n := cid.toNat
  let give (l : List Byte) (s : State) : State := adminDone h n 0 0 (emit (.hostData h n l) s)
  let fields (l : List (List Nat)) (s : State) : State := adminDone h n 0 0 (emit (.logPage h n lid.toNat l) s)
  ok (if lid = 0x0D && svcFull s then s
    else onAdmin h (fun q c s =>
    if c.disc && decide (lid ≠ 0x70) || !c.disc && decide (lid = 0x70) then adminDone h n 0x109 0 s
    else
      match lid.toNat with
      | 0x00 => give (image s 0x4000 4096) s
      | 0x01 => fields (s.host.errs.map fun e => [e.count, e.sqid, e.cid, e.status, 0xFFFF, e.lba, e.nsid, e.trtype, e.csi]) s
      | 0x02 => give (smartPage s c peer) s
      | 0x04 => fields [c.changed] (if rae then s else modCtrl q.ctrl (fun x => { x with changed := [] }) s)
      | 0x05 => give (image s 0x5000 4096) s
      | 0x0C => fields (anaLog s q.ctrl rgo) s
      | 0x0D => toService h n sqe s
      | 0x70 => give (image s 0x1_0000 0x1_0000) s
      | 0x80 => fields [[c.resvLog]] (if rae then s else modCtrl q.ctrl (fun x => { x with resvLog := 0 }) s)
      | 0x81 => fields [[getF s F.HFE_SANSTAT_SPROG, getF s F.HFE_SANSTAT_SSTAT]] s
      | _ => adminDone h n 0x109 0 s) s)

/-! ### Features and the other admin commands (R335, R338, R341) -/

/-- ABORT (R335): never aborted. A discovery controller serves none (R328). (log 187, DEDUCED, unsafe) -/
def execAbort (hq : BitVec 17) (cid : BitVec 16) (s : State) : Res :=
  ok (onAdmin hq.toNat (fun _ c s => if c.disc then adminDone hq.toNat cid.toNat 0x001 0 s else adminDone hq.toNat cid.toNat 0 1 s) s)

/-- KEEP_ALIVE (R329): the model keeps no timer, which KATO_EXPIRY ends. (log 89, DESIGN CHOICE, safe) -/
def execKeepAlive (hq : BitVec 17) (cid : BitVec 16) (s : State) : Res :=
  ok (onAdmin hq.toNat (fun _ _ s => adminDone hq.toNat cid.toNat 0 0 s) s)

/-- ASYNC_EVENT_REQUEST (R338): up to eight are outstanding. -/
def execAsyncEventRequest (hq : BitVec 17) (cid : BitVec 16) (s : State) : Res :=
  ok (onAdmin hq.toNat (fun q c s =>
    if 8 ≤ c.aers.length then adminDone hq.toNat cid.toNat 0x105 0 s
    else modCtrl q.ctrl (fun x => { x with aers := x.aers ++ [cid.toNat] }) s) s)

/-- SET_FEATURES (R341): a discovery controller serves the configuration of its notices alone (R328). (log 187, DEDUCED, unsafe) -/
def execSetFeatures (hq : BitVec 17) (cid : BitVec 16) (fid : Byte) (sv : Bool) (dw11 nsid : BitVec 32) (s : State) : Res :=
  let h := hq.toNat
  let v := dw11.toNat
  let fin (code dw0 : Nat) (s : State) : State := adminDone h cid.toNat code dw0 s
  ok (onAdmin h (fun q c s =>
    let known := [0x02, 0x04, 0x07, 0x0B, 0x0E, 0x0F, 0x81, 0x82, 0x83].contains fid.toNat
    if c.disc && decide (fid ≠ 0x0B) then fin 0x001 0 s
    else if !known then fin 0x002 0 s
    else if sv then fin 0x10D 0 s
    else
      match fid.toNat with
      | 0x02 => if v % 32 = 0 then fin 0 0 s else fin 0x002 0 s
      | 0x04 =>
        let isOver := decide (bitsN v 21 20 = 0)
        fin 0 0 (modCtrl q.ctrl (fun x => if isOver then { x with tover := v % 65536 } else { x with tunder := v % 65536 }) s)
      | 0x07 =>
        if ctrlQueues s q.ctrl true ≠ [] then fin 0x00C 0 s
        else
          let n := min 128 (min (v % 65536) (v / 65536) + 1)
          let nsq := min 127 (v % 65536)
          let ncq := min 127 (v / 65536)
          fin 0 (nsq + ncq * 65536) (modCtrl q.ctrl (fun x => { x with granted := n }) s)
      | 0x0B => fin 0 0 (modCtrl q.ctrl (fun x => { x with aec := v }) s)
      | 0x0E => fin 0x002 0 s
      | 0x0F => fin 0 0 (modCtrl q.ctrl (fun x => { x with kato := if v = 0 then 120000 else v }) s)
      | 0x81 => fin 0x00C 0 s
      | 0x82 => fin 0 0 (modCtrl q.ctrl (fun x => { x with mask := kput x.mask nsid.toNat v }) s)
      | _ =>
        let a := getF s F.HFE_RESVTAB_BASE * 4096 + 2048 * nsVol s nsid.toNat
        fin 0 0 (wrBits (a + 2) 1 0 0 v s)) s)

/-- GET_FEATURES (R341): SEL 0 and 3 alone. (log 86, DESIGN CHOICE, safe) -/
def execGetFeatures (hq : BitVec 17) (cid : BitVec 16) (fid sel : Byte) (dw11 nsid : BitVec 32) (s : State) : Res :=
  let h := hq.toNat
  let fin (code dw0 : Nat) (s : State) : State := adminDone h cid.toNat code dw0 s
  ok (onAdmin h (fun _ c s =>
    if c.disc && decide (fid ≠ 0x0B) then fin 0x001 0 s
    else if sel.toNat ≠ 0 ∧ sel.toNat ≠ 3 then fin 0x002 0 s
    else if sel.toNat = 3 then
      if [0x02, 0x04, 0x07, 0x0B, 0x0E, 0x0F, 0x81, 0x82, 0x83].contains fid.toNat then
        let caps := (Config.freeWord s.free).toNat % 8
        fin 0 caps (nextFree s)
      else fin 0x002 0 s
    else
      match fid.toNat with
      | 0x02 => fin 0 0 s
      | 0x04 => fin 0 (if bitsN dw11.toNat 21 20 = 0 then c.tover else c.tunder) s
      | 0x07 => fin 0 ((c.granted - 1) * 65537) s
      | 0x0B => fin 0 c.aec s
      | 0x0E => fin 0 0 (emit (.hostData h cid.toNat (leBytes 6 (s.dtime.toNat / 10 ^ 6) ++ leBytes 1 4 ++ zeros 1)) s)
      | 0x0F => fin 0 c.kato s
      | 0x81 => fin 0 0 (emit (.hostData h cid.toNat (leBytes 16 c.hostid)) s)
      | 0x82 => fin 0 (kgetD c.mask nsid.toNat 0) s
      | 0x83 => fin 0 (rdBits s (getF s F.HFE_RESVTAB_BASE * 4096 + 2048 * nsVol s nsid.toNat + 2) 1 0 0) s
      | _ => fin 0x002 0 s) s)

/-- DISCOVERY_GENCTR_WRITE (R328). -/
def wrDisc (v : Word) (s : State) : State :=
  notify (fun i c => c.disc && wants 31 i c) (aerDw0 2 0xF0 0x70) (setF F.HFE_DISC_GENCTR (bits v 31 0) s)

@[inherit_doc wrDisc] def execDiscoveryGenctrWrite (v : Word) (s : State) : Res := ok (wrDisc v s)

/-! ### The service ring and steward commands (R340, R345, R354 to R356) -/

/-- A write of HFE_SVCCMP (R340): the entry's completion is posted, unless its association has ended. -/
def wrSvcCmp (v : Word) (s : State) : State :=
  let e := bits v 11 0
  match kget s.host.svc e with
  | some x => postCompletion x.hq x.cid (bits v 30 16) (bits v 63 32) x.sqe { s with host := { s.host with svc := kdel s.host.svc e } }
  | none => s

/-- SERVICE_COMPLETION (R340). -/
def execServiceCompletion (v : Word) (s : State) : Res := ok (wrSvcCmp v s)

/-- An admin command that the steward serves arrives (R338, R340); `refuse` is a status that answers it first. -/
def serviceAdmin (hq : Nat) (sqe : List Byte) (refuse : State → Option Nat) (s : State) : State :=
  if svcFull s then s
  else onAdmin hq (fun _ c s =>
    if c.disc then adminDone hq (sqCid sqe) 0x001 0 s
    else match refuse s with
    | some code => adminDone hq (sqCid sqe) code 0 s
    | none => toService hq (sqCid sqe) sqe s) s

/-- The steward completes the service entry of a command. -/
def serveDone (entry code dw0 : Nat) (s : State) : State :=
  wrSvcCmp (BitVec.ofNat 64 (entry + status code * 65536 + dw0 * 2 ^ 32)) s

/-- A STEW record of the steward (R252, R345, R354). -/
def stewRecord (body : List Byte) (s : State) : State :=
  appendOwn { seq := 0, len := recordUnits body.length, ty := tyStew, arg := 0, nent := 0, body := body } s

/-- NAMESPACE_MANAGEMENT (R338, R340). -/
def execNamespaceManagement (hq : BitVec 17) (sqe : List Byte) (s : State) : Res := ok (serviceAdmin hq.toNat sqe (fun _ => none) s)

/-- NAMESPACE_ATTACHMENT (R323, R338): it arrives, or, with the ring entry, the host NQNs of the controllers it names, the NSID and the
direction, steward firmware serves it: the attachment is recorded for each host and set in the map of every present controller
of it. (log 90, DESIGN CHOICE, unsafe) -/
def execNamespaceAttachment (hq : BitVec 17) (sqe : List Byte) (serve : Option (Nat × List (List Byte) × Nat × Bool)) (s : State) : Res :=
  ok (match serve with
    | none => serviceAdmin hq.toNat sqe (fun _ => none) s
    | some (entry, hosts, n, on) =>
      let rest := s.host.attached.filter fun e => !(hosts.contains e.1 && decide (e.2 = n))
      let s := { s with host := { s.host with attached := if on then rest ++ hosts.map fun q => (q, n) else rest } }
      let s := s.host.ctrls.foldl (fun t kv => if hosts.contains kv.2.nqn then putAttach kv.1 n (b2n on) t else t) s
      serveDone entry 0 0 (nsChanged n s))

/-- Whether a key slot serves a VALID volume other than one. -/
def slotShared (s : State) (slot v : Nat) : Bool :=
  (s.mem.filter fun c => decide (volTableBase ≤ c.1) && decide (c.1 < volTableBase + 0x100_0000) && decide ((c.1 - volTableBase) % 64 = 19) &&
    c.2.getLsbD 0).any fun c =>
      let u := (c.1 - volTableBase) / 64
      decide (u ≠ v) && decide (volKeyslot s u = slot)

/-- A namespace gets a new volume (R354 steps 2 and 3): a copy of the old entry with no map, the PI flag, a new key epoch and, where one is
named, a new key slot; the change is journalled and the namespace names it. -/
def renewVolume (nsid vol keyEpoch : Nat) (slot : Option Nat) (pi : Bool) (s : State) : State :=
  let old := nsVol s nsid
  let s := match slot with | some k => keyGenerate k s | none => s
  let flags := (volFlags s old &&& 0xEF) ||| (if pi then 16 else 0)
  let entry := patch (rdB s (volAddr old) 64) [(0, 8, 0), (16, 2, slot.getD (volKeyslot s old)), (19, 1, flags), (24, 8, 0), (32, 4, 0), (36, 4, keyEpoch), (40, 8, 0)]
  let s := stewRecord (leBytes 8 nsid ++ leBytes 8 vol ++ zeros 48) (setRoot vol (wrB (volAddr vol) entry s))
  nsChanged nsid (wrBits (getF s F.HFE_NSTAB_BASE * 4096 + 8 * (nsid - 1)) 8 17 0 vol s)

/-- The steward serves a Format (R354): refused for a format or a key slot that cannot be, else carried out. (log 90, DESIGN CHOICE, unsafe) -/
def formatServe (f : FormatArgs) (s : State) : State :=
  match kget s.host.svc f.entry with
  | none => s
  | some x =>
    let nsid := sqNsid x.sqe
    let cdw := fieldN x.sqe 40 4
    let old := nsVol s nsid
    let oldSlot := volKeyslot s old
    let ses2 := decide (bitsN cdw 11 9 = 2)
    if 1 < bitsN cdw 3 0 ∨ 1 < bitsN cdw 7 5 ∨ (ses2 ∧ slotShared s oldSlot old) then serveDone f.entry 0x10A 0 s
    else
      let s := renewVolume nsid f.vol f.keyEpoch (if ses2 then some f.slot else none) (decide (bitsN cdw 3 0 = 1)) s
      let s := serveDone f.entry 0 0 s
      if ses2 then keyClear true oldSlot s else s

/-- FORMAT_NVM (R354, R356): it arrives, or the steward serves it. -/
def execFormatNvm (hq : BitVec 17) (sqe : List Byte) (serve : Option FormatArgs) (s : State) : Res :=
  ok (match serve with
    | none => serviceAdmin hq.toNat sqe (fun s => if getF s F.HFE_SANSTAT_SSTAT = 2 then some 0x01D else none) s
    | some f => formatServe f s)

/-- The status that refuses a Sanitize (R355, R356). -/
def sanitizeRefusal (sqe : List Byte) (s : State) : Option Nat :=
  let cdw := fieldN sqe 40 4
  if !isF s F.HFE_CTL_SANEN then some 0x015
  else if cdw.testBit 9 || cdw.testBit 3 || decide (bitsN cdw 2 0 = 3) then some 0x002
  else if getF s F.HFE_SANSTAT_SSTAT = 2 then some 0x01D
  else none

/-- Writes HFE_SANSTAT. -/
def putSanitize (sstat sprog : Nat) (s : State) : State := setF F.HFE_SANSTAT_SPROG sprog (setF F.HFE_SANSTAT_SSTAT sstat s)

/-- The key slots that VALID volumes name. -/
def volSlots (s : State) : List Nat :=
  ((s.mem.filter fun c => decide (volTableBase ≤ c.1) && decide (c.1 < volTableBase + 0x100_0000) && decide ((c.1 - volTableBase) % 64 = 19) &&
    c.2.getLsbD 0).map fun c => volKeyslot s ((c.1 - volTableBase) / 64)).eraseDups

/-- The crypto erase of step 3 of R355: every READY snapshot is deleted, every key slot that a volume names is erased and every index domain
reset. -/
def sanitizePurge (s : State) : State :=
  let slots := volSlots s
  let s := ((snapsInUse s).filter fun e => decide (e.2 = 2)).foldl (fun t e => startWalk true e.1 (putSnapState e.1 3 t)) s
  let s := slots.foldl (fun t k => { t with xe := { t.xe with
    keys := kdel t.xe.keys k
    minSerial := kput t.xe.minSerial k ((minSerial t k + 1) % 2 ^ 32) } }) s
  s.gl.dom.foldl (fun t kv => setDomain kv.1 {} { t with gl := { t.gl with ixPage := t.gl.ixPage.filter fun e => decide (e.1 / 2 ^ 33 ≠ kv.1) } }) s

/-- A pool record is rebuilt empty (R355): no segment, frame, relocation or forwarding entry, no slot reference, no tun and nothing in the read cache. -/
def emptyPool (p : Nat) (s : State) : State :=
  let mine (slot : Nat) : Bool := decide (slotPool slot = p)
  wipe (segAddr s p 0) (segAddr s p 0x7FFF + 7) { s with
    me := { s.me with srt := s.me.srt.filter fun kv => !mine kv.1 }
    ta := { s.ta with tuns := s.ta.tuns.filter fun kv => kv.2.pool ≠ p }
    plc := { s.plc with
      cache := s.plc.cache.filter fun kv => !mine kv.1
      frames := s.plc.frames.filter fun kv => kv.1 / 2 ^ 26 ≠ p
      reloc := s.plc.reloc.filter fun kv => kv.1 / 2 ^ 31 ≠ p
      fwd := s.plc.fwd.filter fun kv => !mine kv.1
      lost := s.plc.lost.filter fun w => swPool w ≠ p
      scan := kdel s.plc.scan p } }

/-- The block erase of step 3 of R355: every pool member gets an NVMe Sanitize block erase, and the pool records are rebuilt empty. -/
def sanitizeErase (s : State) : State :=
  ((List.range 8).filter (poolEn s)).foldl (fun t p =>
    emptyPool p ((List.range (poolMembers s p)).foldl (fun u m => if memState s p m = 0 then u else emit (.driveSanitize p m) u) t)) s

/-- What the steward does for a Sanitize, one step at a time (R355). (log 90, DESIGN CHOICE, unsafe) -/
def sanitizeStep (a : SanStep) (s : State) : State :=
  match a with
  | .start entry => serveDone entry 0 0 (toPartner .sanitize (putSanitize 2 0 s))
  | .theirs => putSanitize 2 0 s
  | .purge => sanitizePurge s
  | .blockErase => sanitizeErase s
  | .renew nsid vol keyEpoch slot => renewVolume nsid vol keyEpoch (some slot) (volFlag s (nsVol s nsid) 4) s
  | .progress n => putSanitize 2 n s
  | .done => notify (fun _ _ => true) (aerDw0 6 1 0x81) (putSanitize 1 0xFFFF s)
  | .failed => putSanitize 3 (getF s F.HFE_SANSTAT_SPROG) s
  | .exitFailure entry => serveDone entry 0 0 (if getF s F.HFE_SANSTAT_SSTAT = 3 then putSanitize 0 0xFFFF s else s)

/-- SANITIZE (R355, R356): it arrives, or the steward takes one step of it. -/
def execSanitize (hq : BitVec 17) (sqe : List Byte) (step : Option SanStep) (s : State) : Res :=
  ok (match step with
    | none => serviceAdmin hq.toNat sqe (sanitizeRefusal sqe) s
    | some a => sanitizeStep a s)

/-- RESERVATION_COMMAND (R331, R345): it arrives as an I/O command, or the steward serves it: the change of the volume's entry is
journalled and written, the command completed, and the controllers named get the notice that they do not mask (R341). (log 90, DESIGN CHOICE, unsafe) -/
def execReservationCommand (hq : BitVec 16) (sqe : List Byte) (serve : Option ResvArgs) (s : State) : Res :=
  ok (match serve with
    | none => if resvOpc (sqOpc sqe) then ioCapsule hq.toNat sqe [] false s else s
    | some a =>
      let s := match a.table with
        | some l => wrB (getF s F.HFE_RESVTAB_BASE * 4096 + 2048 * a.vol) (l.take 2048) (stewRecord (l.take 2048) s)
        | none => s
      let told (c : Nat) (x : Ctrl) : Bool := a.notices.contains c && !(kgetD x.mask (nsidOf s a.vol) 0).testBit a.kind
      let s := { s with host := { s.host with ctrls := s.host.ctrls.map fun kv => (kv.1, if told kv.1 kv.2 then { kv.2 with resvLog := kv.2.resvLog + 1 } else kv.2) } }
      serveDone a.entry a.status a.dw0 (notify told (aerDw0 6 0 0x80) s))

/-! ### Registers and DRAIN (R337, R359) -/

/-- A write of HFE_CTL (R359): MQES keeps its value while EN is 1, with a record where it would change. -/
def wrHfeCtl (v : Word) (s : State) : State :=
  let on := isF s F.HFE_CTL_EN
  let t := wr .HFE_CTL (writeFields (rd s .HFE_CTL) v (RegName.info .HFE_CTL).fields) s
  if on then
    let t := setF F.HFE_CTL_MQES (getF s F.HFE_CTL_MQES) t
    if bits v 21 12 = getF s F.HFE_CTL_MQES then t else celRefused .HFE_CTL v t
  else t

/-- A write of a table base register (R359): ignored with a record while EN is 1. -/
def wrHfeBase (r : RegName) (v : Word) (s : State) : State :=
  if isF s F.HFE_CTL_EN then celRefused r v s else wr r (writeFields (rd s r) v r.info.fields) s

/-- DRAIN_TIMEOUT (R337): 50 ms into the DRAIN of an activation the contexts still running are cancelled. (log 89, DESIGN CHOICE, safe) -/
def execDrainTimeout (s : State) : Res :=
  ok (if getF s F.SYS_HEAD_STATE = 4 && s.upd.draining then cancelQueues (fun _ => true) s else s)

/-! ### Lost slots (R273) -/

/-- The LBAs of a volume whose leaf entries name a slot, ascending. -/
def lbasOfSlot (s : State) (v slot : Nat) : List Nat :=
  ((volPages s v).filter fun kv => kv.2.level = 0).flatMap fun kv =>
    ((if kv.2.resident then kv.2.ent else kv.2.hent).filter fun e => swValid e.2.1 && decide (swSlot (resolve s e.2.1) = slot)).map fun e =>
      kv.2.index * 256 + e.1

/-- Contiguous ranges of ascending numbers, each with its first and its length. -/
def ranges : List Nat → List (Nat × Nat)
  | [] => []
  | x :: l =>
    match ranges l with
    | (a, n) :: r => if a = x + 1 then (x, n + 1) :: r else (x, 1) :: (a, n) :: r
    | [] => [(x, 1)]

/-- The volumes of this head with a map, in a pool. -/
def poolVols (s : State) (p : Nat) : List Nat :=
  ((s.me.pages.filter fun kv => kv.2.ty ≤ 2).map fun kv => kv.2.owner).eraseDups.filter fun v => ownsVol s v && decide (volPool s v = p)

/-- The map pages of this head's volumes whose only copy is in a slot: a lost one of level *k* is reported as the 256^(k+1) LBAs that it
covers (R273). -/
def pagesOfSlot (s : State) (slot : Nat) : List Page :=
  (s.me.pages.map Prod.snd).filter fun p => decide (p.ty ≤ 2) && decide (p.st = .flash) && decide (p.home = slot) && ownsVol s p.owner

/-- The LBA ranges of a volume that lose their data with a slot: those whose leaf entries name it, and those of a map page that it holds (R273). -/
def lostRanges (s : State) (v slot : Nat) : List (Nat × Nat) :=
  ranges ((lbasOfSlot s v slot).mergeSort) ++
    ((pagesOfSlot s slot).filter fun p => decide (p.owner = v)).map fun p => (p.index * 256 ^ (p.level + 1), 256 ^ (p.level + 1))

/-- LOST_SLOT_RESOLVE (R273, R343): the first queued slot is resolved: for each volume and range of LBAs that names it a record, and an entry
in both heads' rings; `theirs` is a range that the partner has resolved. -/
def execLostSlotResolve (theirs : Option (Nat × Nat × Nat)) (s : State) : Res :=
  ok (match theirs, s.plc.lost with
    | some (v, first, len), _ => reportLost v first len false s
    | none, [] => s
    | none, w :: l =>
      let s := { s with plc := { s.plc with lost := l } }
      (poolVols s (swPool w)).foldl (fun t v =>
        (lostRanges t v (swSlot w)).foldl (fun u r => celOpen 0x0B v r.1 r.2 (reportLost v r.1 r.2 true u)) t) s)

end Sys2Proof.Machine
end

