-- ==== Sys2Proof/Machine/HostEng.lean ====
section
/-! DEFINITION. The host engine: the posting operations and PIGEN (R308, R325, R347 to R350). -/

namespace Sys2Proof.Machine

/-- The context of a HOST job, and its submission queue entry. -/
def heCtx (s : State) (j : Job) : Option (Nat × Ctx) :=
  match j.owner with
  | .ctx n => (kget s.ctxs n).map fun c => (n, c)
  | .stew _ => none
@[inherit_doc heCtx] def heSqe (s : State) (j : Job) : List Byte :=
  match j.owner with | .ctx n => rdB s (ctxRec n) 64 | .stew _ => zeros 64

/-- LBAX, the blocks of a PIGEN, and its output. -/
def heLbax (j : Job) : Bool := (j.hflags / 256).testBit 0
@[inherit_doc heLbax] def heNblk (j : Job) : Nat := j.n 24 4
@[inherit_doc heLbax] def hePidst (j : Job) : Nat := if j.n 16 8 = 0 then j.n 8 8 + 4096 * heNblk j else j.n 16 8

/-- The acceptance checks of a HOST job (R98, R102, R348). A posting operation of a steward, which has no context, and a PIGEN of one that
does not give its LBA are refused as values outside their range. (log 92, DEDUCED, unsafe) -/
def checkHost (j : Job) (s : State) : Option JobResult :=
  let n := heNblk j
  let gl := j.n 40 8
  let posted := match heCtx s j with | some (_, c) => c.posted && decide (c.hq ≠ 0xFFFF) | none => true
  firstFail (j.headChecks [1, 2, 3, 4, 5] 1 ++
    [(j.nonzero 33 1 || j.nonzero 36 4 || j.nonzero 56 8 || decide (bitsN (j.n 34 2) 13 11 ≠ 0) || decide (bitsN (j.n 34 2) 15 15 ≠ 0), internal 3),
     (decide (j.op = 4) && decide (n = 0 ∨ 65536 < n), internal 4),
     (decide (j.op = 4) && !bufOk s j false (j.n 8 8) (4096 * n), JobResult.of rBounds),
     (decide (j.op = 4) && !bufOk s j true (hePidst j) (16 * n), JobResult.of rBounds),
     (decide (j.op = 4 ∧ gl ≠ 0) && !bufOk s j false gl (8 * n), JobResult.of rBounds),
     (decide (j.op ≠ 4) && posted, internal 4),
     (decide (j.op = 4) && j.fromStew && !heLbax j, internal 4)])

/-- The completion of a stream's write is held until the stream has acknowledged the context's last APPEND (R308). (log 84, DEDUCED, unsafe) -/
def syncHolds (s : State) (n : Nat) (c : Ctx) : Bool :=
  match strOfVol s c.vol, kget s.str.lastApp n with
  | some k, some seq => strValid s k && decide (strMode s k = 1) && decide (strState s k ≠ 2) && decide (strAck s k < seq)
  | _, _ => false

/-- A posting operation (R348): a second one is refused; a cancelled and a stream context post nothing; a forwarded command's result goes to
the head that received the capsule; a success of a SYNC volume may be held. (log 84, DEDUCED, unsafe) -/
def heRun (id op : Nat) (st : Job → State → Nat × Nat) (s : State) : State :=
  runJob id cHost op (fun j s =>
    match heCtx s j with
    | none => finish id (internal 4) s
    | some (n, c) =>
      let (code, dw0) := st j s
      if c.cancelled ∨ c.hq = 0xFFFF then finish id (JobResult.done 0 1) s
      else if c.posted then finish id (internal 4) s
      else if code = 0 ∧ syncHolds s n c then s
      else
        let s := modCtx n (fun c => { c with posted := true }) s
        let s := if c.fwd then returnResult c.hq c.cid code dw0 s else postCompletion c.hq c.cid code dw0 (heSqe s j) s
        finish id (JobResult.done 0 0) s) s

/-- The status of a result code (R349): Copy counts as read-type. -/
def errStatus (s : State) (j : Job) : Nat :=
  let opc := sqOpc (heSqe s j)
  let read := readType opc || decide (opc = 0x19)
  let pi := match heCtx s j with | some (n, _) => kgetD s.host.piCheck n 0 | none => 0
  match j.n 32 1 with
  | 0x04 => if read then 0x281 else if pi = 2 then 0x284 else 0x282
  | 0x07 | 0x08 => 0x281
  | 0x05 | 0x06 => 0x286
  | 0x02 => 0x081
  | 0x09 => 0x303
  | 0x0A => 0x004
  | 0x0C => 0x021
  | _ => 0x006

/-- HOST_OK (R347). -/
def execHostOk (job : Nat) (s : State) : Res := ok (heRun job 1 (fun j _ => (0, j.n 28 4)) s)

/-- HOST_ERR (R349). -/
def execHostErr (job : Nat) (s : State) : Res := ok (heRun job 2 (fun j s => (status (errStatus s j), 0)) s)

/-- HOST_BADLEN (R347). -/
def execHostBadlen (job : Nat) (s : State) : Res := ok (heRun job 3 (fun _ _ => (status 0x002, 0)) s)

/-- HOST_STATUS (R347, R350): the status field as given. -/
def execHostStatus (job : Nat) (s : State) : Res := ok (heRun job 5 (fun j _ => (j.n 34 2, 0)) s)

/-- The protection information of a block (R325): guard, application tag 0, 48-bit reference tag. -/
def piBytes (guard lba : Nat) : List Byte := beBytes 8 guard ++ zeros 2 ++ beBytes 6 (lba % 2 ^ 48)

/-- Whether the namespace of a job's context has protection information; a steward's PIGEN names none, and has. -/
def hePi (s : State) (j : Job) : Bool := match heCtx s j with | some (_, c) => volFlag s c.vol 4 | none => true

/-- What PIGEN does for its first `n` blocks: writes their protection information up to the first guard that differs from GLIST, which it
answers. -/
def piPart (j : Job) (s : State) : Nat → Option Nat × State
  | 0 => (none, s)
  | n + 1 =>
    match piPart j s n with
    | (some i, t) => (some i, t)
    | (none, t) =>
      let g := crc64 (rdB s (j.n 8 8 + 4096 * n) 4096)
      if j.n 40 8 ≠ 0 ∧ rdN s (j.n 40 8 + 8 * n) 8 ≠ g then (some n, t)
      else
        let lba := (if heLbax j then j.n 48 8 else sqLba (heSqe s j)) + n
        (none, wrB (hePidst j + 16 * n) (piBytes g lba) t)

/-- HOST_PIGEN (R325, R347): the VALUE of a CHECK is free. (log 93, DESIGN CHOICE, safe) -/
def execHostPigen (job : Nat) (s : State) : Res :=
  ok (runJob job cHost 4 (fun j s =>
    if !hePi s j then finish job (JobResult.done (heNblk j) 0) s
    else
      match piPart j s (heNblk j) with
      | (none, t) => finish job (JobResult.done (heNblk j) 0) t
      | (some i, t) => finish job ⟨rCheck, 0, i, (Config.freeWord t.free).toNat⟩ (nextFree t)) s)

/-- A HOST job that times out after `n` blocks (R99): a posting operation has posted nothing. -/
def timeoutHost (j : Job) (n : Nat) (s : State) : State × JobResult :=
  if j.op ≠ 4 ∨ !hePi s j then (s, ⟨rTimeout, 0, 0, 0⟩)
  else
    let n := min n (heNblk j)
    (wrFree (hePidst j + 16 * n) (16 * (heNblk j - n)) (piPart j s n).2, ⟨rTimeout, 0, n, 0⟩)

end Sys2Proof.Machine
end

