-- ==== Sys2Proof/Machine/Rdma.lean ====
section
/-! DEFINITION. Queue pairs, windows, the connection manager and congestion control (R362 to R378, R385 to R389). Numbers of opcodes and
syndromes on the wire are those of the IBTA specification. -/

namespace Sys2Proof.Machine

/-! ### Queue pairs (R364 to R366) -/

/-- The index of a local QPN (R364). -/
def qpIndex (qpn : Nat) : Option Nat := if 0x2_0000 ≤ qpn ∧ qpn < 0x4_0000 then some (qpn - 0x2_0000) else none

/-- The line rate of a queue pair's MAC in Mb/s (R378, R555). -/
def lineRate (s : State) (x : Qp) : Nat :=
  let byMode (m : Nat) : Nat := if m = 0 then 800000 else if m = 1 then 400000 else if m = 2 then 200000 else 100000
  match x.field 3 1 with
  | 0 => byMode (getF s F.LANE_HCFG_MODE)
  | 1 => 800000
  | _ => byMode (getF s F.LANE_GCFG_MODE)

/-- The window bound to a queue pair (R370). -/
def winOf (s : State) (q : Nat) : Option (Nat × Win) := kfind s.rx.wins fun _ w => decide (w.qp = q)

/-- The host queue that runs on a queue pair. -/
def qpQueue (s : State) (q : Nat) : Option Nat := (s.host.queues.find? fun kv => !kv.2.tcp && decide (kv.2.conn = q)).map Prod.fst

/-- The attribute record as QUERY writes it (R365). -/
def qpRecord (s : State) (q : Nat) (x : Qp) : List Byte :=
  let a := putBytes x.attr 0 [BitVec.ofNat 8 x.st, BitVec.ofNat 8 x.kind]
  let a := putBytes (putBytes a 8 (leBytes 4 x.spsn)) 12 (leBytes 4 x.epsn)
  let win := match winOf s q with | some (w, _) => w | none => 0xFFFF_FFFF
  putBytes (putBytes a 40 (leBytes 4 win)) 52 (leBytes 4 x.rate)

/-- The partner link is up while both PARTNER queue pairs of some P port are in RTS (R420); SYS_PTR_STAT shows it. (log 101, DESIGN CHOICE, unsafe) -/
def syncLink (s : State) : State :=
  let macs := (s.rx.qps.filter fun kv => decide (kv.2.kind = 2) && decide (kv.2.st = 3)).map fun kv => kv.2.field 2 1
  setF F.SYS_PTR_STAT_LINK (b2n (macs.any fun m => decide (2 ≤ macs.count m))) s

/-- A queue pair enters RTS: it starts at the line rate (R366, R378). -/
def toRts (q : Nat) (s : State) : State :=
  syncLink (modQp q (fun x => { x with st := 3, rate := lineRate s x, target := lineRate s x, alpha := 1024, step := 0 }) s)

/-! ### Jobs of a queue pair, and its errors (R367, R368, R379) -/

/-- Where an RDMA job moves its data: over a queue pair, over a TCP queue, or over the partner link for a forwarded command. -/
inductive RdmaPath where
  | qp (q : Nat)
  | tcp (hq : Nat)
  | peer
  | none
  deriving DecidableEq, Repr

/-- The path of a job (R379): a steward's job and a flow's with QPSEL name their queue pair. -/
def rdmaPath (s : State) (j : Job) : RdmaPath :=
  let named : RdmaPath := .qp (bitsN (j.n 28 4) 16 0)
  match j.owner with
  | .stew _ => named
  | .ctx n =>
    if (j.hflags / 256).testBit 2 then named
    else
      match kget s.ctxs n with
      | some c =>
        if c.fwd then .peer
        else
          match queueOf s c.hq with
          | some q => if q.tcp then .tcp c.hq else .qp q.conn
          | none => .none
      | none => .none

/-- What a job that stops before its end leaves: a READ's buffer is free (R368, R382). -/
def dropJob (id : Nat) (j : Job) (s : State) : State :=
  let s := { s with rx := { s.rx with
    got := kdel s.rx.got id
    r2t := kdel s.rx.r2t id
    qps := kmapV s.rx.qps fun _ x => { x with sq := x.sq.filter fun e => e.job ≠ some id, cmds := x.cmds.filter fun e => e.2 ≠ id } } }
  if j.op = 1 then wrFree (j.n 32 8) (j.n 24 4) s else s

/-- The RDMA jobs on a path that have been accepted and have not completed. -/
def pathJobs (s : State) (p : RdmaPath) : List (Nat × Job) :=
  s.jobs.filter fun kv => decide (kv.2.cls = cRdma) && decide (kv.2.phase = .accepted) && decide (rdmaPath s kv.2 = p)

/-- Flushes the jobs of a path (R368): the one that caused the error completes with its syndrome, the others with 0x08. -/
def flushJobs (p : RdmaPath) (cause : Option Nat) (syn : Nat) (s : State) : State :=
  (pathJobs s p).foldl (fun t kv =>
    finish kv.1 ⟨rRemote, 0, 0, if cause = some kv.1 then syn else 8⟩ (dropJob kv.1 kv.2 t)) s

/-- Step 7 of R422, once SWITCH has been sent and received on every PARTNER queue pair. -/
def rekeyFinish (s : State) : State :=
  if !s.rekey.switched || !(s.rekey.qps.all fun q => s.rekey.got.contains q) then s
  else
    let s := setF F.XE_PLINK_EPOCH (getF s F.XE_PLINK_NEXT_EPOCH) s
    let s := setF F.XE_PLINK_EN (getF s F.XE_PLINK_NEXT_EN) (setF F.XE_PLINK_KEYSLOT (getF s F.XE_PLINK_NEXT_KEYSLOT) s)
    let s := setF F.XE_PLINK_NEXT_DONE 1 (setF F.XE_PLINK_NEXT_STAGED 0 (setF F.XE_PLINK_NEXT_BUSY 0 s))
    celOpen 0x10 (getF s F.XE_PLINK_EPOCH) 0 0 { s with rekey := {}, xe := { s.xe with linkSeq := 0 } }

/-- A queue pair enters ERROR (R367, R368); a PARTNER queue pair is recreated under the staged values of a rekey, which waits for it no more
(R422). (log 97, DEDUCED, unsafe) -/
def errorQp (q syn psn : Nat) (cause : Option Nat) (s : State) : State :=
  match qpOf s q with
  | none => s
  | some x =>
    if x.st = 0 ∨ x.st = 4 then s
    else
      let s := modQp q (fun x => { x with st := 4, inWrite := none, inSend := [], reads := [] }) s
      let s := cel 0x0A10 0 2 q syn psn (bump .RXE_QPERR_CNT s)
      let s := flushJobs (.qp q) cause syn (rekeyFinish { s with rekey := { s.rekey with qps := s.rekey.qps.erase q } })
      let s := syncLink (modQp q (fun x => { x with sq := [], cmds := [] }) s)
      if x.kind = 0 then (match qpQueue s q with | some hq => freezeQueue hq s | none => s) else raise 0x0A10 q s

/-- Whether the flush of a queue pair in ERROR is complete, and its queue ended: it is then in RESET (R366). -/
def qpEnded (s : State) (q : Nat) (x : Qp) : Bool :=
  decide (x.st = 4) && (s.jobs.all fun kv => !(decide (kv.2.cls = cRdma) && decide (rdmaPath s kv.2 = .qp q))) &&
    (decide (x.kind ≠ 0) || (qpQueue s q).isNone)

/-- The state of a queue pair as R366 gives it. -/
def qpState (s : State) (q : Nat) : Nat := match qpOf s q with | some x => if qpEnded s q x then 0 else x.st | none => 0

/-- QP_QUIET_EXPIRY (R366): the index becomes free; ground firmware recreates a PARTNER queue pair of an ACTIVE head (R420). (log 101, DESIGN CHOICE, unsafe) -/
def execQpQuietExpiry (qp : BitVec 17) (s : State) : Res :=
  let q := qp.toNat
  ok (match qpOf s q with
    | some x =>
      if !qpEnded s q x then s
      else if x.kind = 2 ∧ getF s F.SYS_HEAD_STATE = 2 then
        let y : Qp := { st := 3, kind := 2, attr := x.attr, spsn := fieldN x.attr 8 3, epsn := fieldN x.attr 12 3 }
        toRts q { s with rx := { s.rx with qps := kput s.rx.qps q y } }
      else { s with rx := { s.rx with qps := kdel s.rx.qps q } }
    | none => s)

/-! ### The QP commands (R369, R386) -/

/-- The record in RXE_QPATTR0 to RXE_QPATTR7. -/
def qpAttr (s : State) : List Byte := (List.range 8).flatMap fun i => leBytes 8 (rd s .RXE_QPATTR i).toNat

/-- Whether the fields of a record lie in their ranges (R362, R365). -/
def qpAttrOk (s : State) (a : List Byte) : Bool :=
  let n := fieldN a
  let macs := if n 3 1 = 0 then (match getF s F.LANE_HCFG_MODE with | 0 => 32 | 1 => 64 | _ => 128) else if n 3 1 = 1 then 16 else 128
  decide (1 ≤ n 0 1 ∧ n 0 1 ≤ 3 ∧ 1 ≤ n 1 1 ∧ n 1 1 ≤ 2 ∧ n 3 1 ≤ 2 ∧ n 2 1 < macs ∧ n 7 1 = 0 ∧ n 11 1 = 0 ∧ n 15 1 = 0) &&
  decide (bitsN (n 32 2) 12 12 = 0 ∧ n 34 1 < 64 ∧ 3 ≤ n 35 1 ∧ n 35 1 ≤ 5 ∧ n 36 1 < 32 ∧ n 37 1 &&& 0x88 = 0) &&
  decide (1 ≤ n 38 1 ∧ n 38 1 ≤ 16 ∧ 1 ≤ n 39 1 ∧ n 39 1 ≤ 16 ∧ n 56 8 = 0)

/-- A refused command, and one that completes. -/
def qpRefuse (err : Nat) (s : State) : State := setF F.RXE_QPCMD_ERR err (setF F.RXE_QPCMD_REFUSED 1 s)
@[inherit_doc qpRefuse] def qpDone (s : State) : State := setF F.RXE_QPCMD_DONE 1 s

/-- CREATE (R366, R369). -/
def qpCreate (q : Nat) (s : State) : State :=
  let a := qpAttr s
  if (qpOf s q).isSome ∨ getF s F.RXE_CTL_STEWQP ≤ q then qpRefuse 1 s
  else if !qpAttrOk s a then qpRefuse 2 s
  else if fieldN a 1 1 = 2 ∧ 2 ≤ getF s F.SYS_HEAD_STATE then qpRefuse 4 s
  else
    let x : Qp := { st := fieldN a 0 1, kind := fieldN a 1 1, attr := a, spsn := fieldN a 8 3, epsn := fieldN a 12 3 }
    let s := { s with rx := { s.rx with qps := kput s.rx.qps q x } }
    qpDone (if x.st = 3 then toRts q s else s)

/-- MODIFY (R366, R369): forward, or to ERROR. -/
def qpModify (q : Nat) (s : State) : State :=
  let a := qpAttr s
  let st := fieldN a 0 1
  let old := qpState s q
  match qpOf s q with
  | none => qpRefuse 1 s
  | some x =>
    if !([(1, 2), (2, 3), (2, 4), (3, 4)].contains (old, st)) then qpRefuse 1 s
    else if x.kind = 0 ∧ st ≠ 4 then qpRefuse 3 s
    else if st = 4 then qpDone (errorQp q 7 x.epsn none s)
    else
      let s := modQp q (fun x => { x with st := st, attr := a, spsn := fieldN a 8 3, epsn := fieldN a 12 3 }) s
      qpDone (if st = 3 then toRts q s else s)

/-- QUERY (R369): of a queue pair in RESET, all zero but WIN. -/
def qpQuery (q : Nat) (s : State) : State :=
  let x : Qp := match qpOf s q with | some x => { x with st := qpState s q } | none => { st := 0, kind := 0, attr := zeros 64 }
  let r := qpRecord s q x
  qpDone ((List.range 8).foldl (fun t i => wr .RXE_QPATTR (BitVec.ofNat 64 (fieldN r (8 * i) 8)) t i) s)

/-- DESTROY (R366, R369). -/
def qpDestroy (q : Nat) (s : State) : State :=
  match qpOf s q with
  | some x => if x.kind = 0 then qpRefuse 3 s else qpDone (errorQp q 7 x.epsn none s)
  | none => qpDone s

/-- A write of RXE_QPCMD (R386). (log 97, DEDUCED, unsafe) -/
def wrQpCmd (v : Word) (s : State) : State :=
  let s := wr .RXE_QPCMD (writeFields (rd s .RXE_QPCMD) v RegName.RXE_QPCMD.info.fields) s
  let q := bits v 48 32
  if !bit v 0 then s
  else if isF s F.RXE_QPCMD_BUSY then qpRefuse 5 s
  else
    match bits v 3 1 with
    | 1 => qpCreate q s
    | 2 => qpModify q s
    | 3 => qpQuery q s
    | 4 => qpDestroy q s
    | _ => s

/-- Runs a write of RXE_QPCMD for one operation. -/
def qpCmd (op : Nat) (v : Word) (s : State) : Res := ok (if bits v 3 1 = op then wrQpCmd v s else s)

/-- QP_CREATE (R369). -/
def execQpCreate (v : Word) (s : State) : Res := qpCmd 1 v s

/-- QP_MODIFY (R369). -/
def execQpModify (v : Word) (s : State) : Res := qpCmd 2 v s

/-- QP_QUERY (R369). -/
def execQpQuery (v : Word) (s : State) : Res := qpCmd 3 v s

/-- QP_DESTROY (R369). -/
def execQpDestroy (v : Word) (s : State) : Res := qpCmd 4 v s

/-- A write of RXE_CTL (R385): STEWQP stays while EN is 1. -/
def wrRxeCtl (v : Word) (s : State) : State :=
  let old := rd s .RXE_CTL
  let new := writeFields old v RegName.RXE_CTL.info.fields
  if isF s F.RXE_CTL_EN ∧ bits new 63 48 ≠ bits old 63 48 then
    celRefused .RXE_CTL v (wr .RXE_CTL (setBits new 63 48 (bits old 63 48)) s)
  else wr .RXE_CTL new s

/-! ### The connection manager (R364 to R366, R571) -/

/-- The lowest free index at or above STEWQP. -/
def freeQp (s : State) : Option Nat :=
  let base := getF s F.RXE_CTL_STEWQP
  ((List.range (s.rx.qps.length + 1)).map (· + base)).find? fun q => decide (q < 131072) && (qpOf s q).isNone

/-- The record of a TARGET queue pair (R365). (log 94, PRESUMED, unsafe) -/
def targetAttr (s : State) (a : CmReq) : List Byte :=
  zeros 2 ++ leBytes 1 a.mac ++ leBytes 1 a.group ++ leBytes 4 (a.rqpn % 2 ^ 24) ++ zeros 8 ++ leBytes 16 a.rip ++ leBytes 2 a.vlan ++ leBytes 1 a.dscp ++
    leBytes 1 a.pmtu ++ leBytes 1 (getF s F.RXE_CTL_ACKTO) ++ leBytes 1 (getF s F.RXE_CTL_RETRY + 16 * getF s F.RXE_CTL_RNRRETRY) ++
    leBytes 1 (min 16 a.resources) ++ leBytes 1 16 ++ zeros 4 ++ leBytes 2 a.sip ++ leBytes 6 a.dmac ++ zeros 12

/-- CM_REQ (R364, R366, R571): a TARGET queue pair and REP, or REJ. (log 95, DESIGN CHOICE, safe; 102, DEDUCED, unsafe) -/
def execCmReq (a : CmReq) (s : State) : Res :=
  let reject (n : Nat) : State := emit (.cmReject n) (bump .RXE_CMREJ_CNT s)
  let ioqs := kcount s.rx.qps fun q x => decide (x.kind = 0) && x.ioq && decide (qpState s q ≠ 0)
  ok (if !isF s F.HFE_CTL_EN || !isF s F.HFE_CTL_RDMAEN then reject 28
    else if !isF s F.RXE_CTL_EN then s
    else if a.ioq ∧ 65536 ≤ ioqs then reject 1
    else
      match freeQp s with
      | none => reject 1
      | some q =>
        let psn := (Config.freeWord s.free).toNat % 2 ^ 24
        let x : Qp := { st := 2, kind := 0, attr := targetAttr s a, spsn := psn, epsn := a.psn % 2 ^ 24, ioq := a.ioq }
        emit (.rdma q (.rep psn)) (nextFree { s with rx := { s.rx with qps := kput s.rx.qps q x } }))

/-- CM_RTU (R366). -/
def execCmRtu (qp : BitVec 17) (s : State) : Res :=
  ok (match qpOf s qp.toNat with | some x => if x.st = 2 then toRts qp.toNat s else s | none => s)

/-- CM_DREQ (R367). -/
def execCmDreq (qp : BitVec 17) (s : State) : Res :=
  ok (match qpOf s qp.toNat with | some x => errorQp qp.toNat 7 x.epsn none (emit (.rdma qp.toNat .drep) s) | none => s)

/-- Step 4 of R337: every RDMA and every TCP connection of the head is closed, which ends the associations. -/
def closeHosts (s : State) : State :=
  let tcp := (s.host.queues.filter fun kv => kv.2.tcp).map fun kv => kv.2.conn
  let qps := (s.rx.qps.filter fun kv => decide (kv.2.kind = 0) && decide (kv.2.st = 2 ∨ kv.2.st = 3)).map Prod.fst
  let s := s.host.ctrls.foldl (fun t kv => endAssociation kv.1 false t) s
  let s := tcp.foldl (fun t c => emit (.tcpClose c) t) { s with host := { s.host with tcpOpen := 0 } }
  qps.foldl (fun t q => match qpOf t q with | some x => errorQp q 7 x.epsn none (emit (.rdma q .dreq) t) | none => t) s

/-! ### Windows (R370 to R374, R387) -/

/-- The key of a window (R371). -/
def winKey (w : Nat) (x : Win) : Nat := w * 65536 + x.tag

/-- A refused command, and one that completes. -/
def winRefuse (err : Nat) (s : State) : State := setF F.RXE_WINCMD_ERR err (setF F.RXE_WINCMD_REFUSED 1 s)
@[inherit_doc winRefuse] def winDone (s : State) : State := setF F.RXE_WINCMD_DONE 1 s

/-- REGISTER (R370, R371, R387). (log 95, DESIGN CHOICE, safe) -/
def winRegister (w : Nat) (s : State) : State :=
  let pages := getF s F.RXE_WINATTR1_PAGES
  let q := getF s F.RXE_WINATTR1_QP
  let base := getF s F.RXE_WINATTR0_BASE * 4096
  if (kget s.rx.wins w).isSome then winRefuse 1 s
  else if pages = 0 ∨ !inHbmDdr s base (4096 * pages) then winRefuse 2 s
  else if qpState s q = 0 ∨ qpState s q = 4 ∨ (winOf s q).isSome ∨ ((qpOf s q).any fun x => x.kind = 0) then winRefuse 3 s
  else
    let x : Win := {
      base := base
      pages := pages
      rrd := isF s F.RXE_WINATTR0_RRD
      rwr := isF s F.RXE_WINATTR0_RWR
      qp := q
      tag := (Config.freeWord s.free).toNat % 65535 + 1 }
    winDone (setF F.RXE_WINKEY_KEY (winKey w x) (nextFree { s with rx := { s.rx with wins := kput s.rx.wins w x } }))

/-- REVOKE (R374): the fence is raised; DONE follows when the last request from before it has drained. -/
def winRevoke (w : Nat) (s : State) : State :=
  match kget s.rx.wins w with
  | some x =>
    if x.revoking then winRefuse 1 s
    else setF F.RXE_WINCMD_BUSY 1 { s with rx := { s.rx with wins := kput s.rx.wins w { x with revoking := true } } }
  | none => winRefuse 1 s

/-- QUERY (R387): of a FREE window, zeros. -/
def winQuery (w : Nat) (s : State) : State :=
  match kget s.rx.wins w with
  | some x =>
    let s := setF F.RXE_WINATTR0_BASE (x.base / 4096) (setF F.RXE_WINATTR0_RWR (b2n x.rwr) (setF F.RXE_WINATTR0_RRD (b2n x.rrd) s))
    winDone (setF F.RXE_WINKEY_KEY (winKey w x) (setF F.RXE_WINATTR1_QP x.qp (setF F.RXE_WINATTR1_PAGES x.pages s)))
  | none => winDone (setF F.RXE_WINKEY_KEY 0 (wr .RXE_WINATTR1 0 (wr .RXE_WINATTR0 0 s)))

/-- A write of RXE_WINCMD (R387). (log 97, DEDUCED, unsafe) -/
def wrWinCmd (v : Word) (s : State) : State :=
  let s := wr .RXE_WINCMD (writeFields (rd s .RXE_WINCMD) v RegName.RXE_WINCMD.info.fields) s
  if !bit v 0 then s
  else if isF s F.RXE_WINCMD_BUSY then winRefuse 5 s
  else
    match bits v 2 1 with
    | 1 => winRegister (bits v 47 32) s
    | 2 => winRevoke (bits v 47 32) s
    | 3 => winQuery (bits v 47 32) s
    | _ => s

/-- Runs a write of RXE_WINCMD for one operation. -/
def winCmd (op : Nat) (v : Word) (s : State) : Res := ok (if bits v 2 1 = op then wrWinCmd v s else s)

/-- WINDOW_REGISTER (R370, R387). -/
def execWindowRegister (v : Word) (s : State) : Res := winCmd 1 v s

/-- WINDOW_REVOKE (R374). -/
def execWindowRevoke (v : Word) (s : State) : Res := winCmd 2 v s

/-- WINDOW_QUERY (R387). -/
def execWindowQuery (v : Word) (s : State) : Res := winCmd 3 v s

/-- REVOKE_DRAIN_DONE (R374): when no WRITE that was checked before the fence has packets to come, the window becomes FREE. -/
def execRevokeDrainDone (win : BitVec 16) (s : State) : Res :=
  let w := win.toNat
  ok (match kget s.rx.wins w with
    | some x =>
      if !x.revoking || (s.rx.qps.any fun kv => kv.2.inWrite.any fun i => decide (i.win = w)) then s
      else
        let s := { s with rx := { s.rx with wins := kdel s.rx.wins w } }
        winDone (setF F.RXE_WINCMD_BUSY 0 s)
    | none => s)

/-! ### Congestion (R377, R378, R388) -/

/-- Runs a received packet of a queue pair (R363): dropped with its count where its ICRC fails or no queue pair is held; a CE mark is answered
with a CNP (R377). -/
def inbound (h : Bth) (f : Nat → Qp → State → State) (s : State) : State :=
  if !h.icrcOk then bump .RXE_ICRC_CNT s
  else
    match qpIndex h.qpn with
    | none => bump .RXE_NOQP_CNT s
    | some q =>
      match qpOf s q with
      | none => bump .RXE_NOQP_CNT s
      | some x =>
        if qpState s q = 0 then bump .RXE_NOQP_CNT s
        else
          let due := match x.cnp with | some t => decide (t + 1000 * getF s F.RXE_CC_CNPUS ≤ s.dtime.toNat) | none => true
          let s := if h.ce && isF s F.RXE_CC_EN && due then
              emit (.rdma q .cnp) (bump .RXE_CNPTX_CNT (modQp q (fun x => { x with cnp := some s.dtime.toNat }) s))
            else s
          match qpOf s q with
          | some x => f q x s
          | none => s

/-- The reaction of a queue pair to a CNP (R378). -/
def ccReact (s : State) (x : Qp) : Qp :=
  { x with
    target := x.rate
    rate := max (getF s F.RXE_CC_MINRATE) (x.rate * (2048 - x.alpha) / 2048)
    alpha := x.alpha - x.alpha / 16 + 64
    step := 0
    react := some s.dtime.toNat }

/-- CNP_RECEIVED (R378): a reaction where MINGAP has passed since the last one. -/
def execCnpReceived (h : Bth) (s : State) : Res :=
  ok (inbound h (fun q x s =>
    let due := match x.react with | some t => decide (t + 1000 * getF s F.RXE_CC_MINGAP ≤ s.dtime.toNat) | none => true
    let s := bump .RXE_CNPRX_CNT s
    if x.st = 3 && isF s F.RXE_CC_EN && due then modQp q (ccReact s) s else s) s)

/-- The step of a queue pair when its timer expires (R378). -/
def ccStep (s : State) (x : Qp) : Qp :=
  let target := if 5 < x.step + 1 then min (lineRate s x) (x.target + getF s F.RXE_CC_AI) else x.target
  { x with
    alpha := x.alpha - x.alpha / 16
    step := x.step + 1
    target := target
    rate := min (lineRate s x) ((x.rate + target) / 2) }

/-- CC_TIMER (R378): dropped where a CNP has been reacted to at the same time. -/
def execCcTimer (qp : BitVec 17) (s : State) : Res :=
  ok (match qpOf s qp.toNat with
    | some x => if x.st ≠ 3 ∨ !isF s F.RXE_CC_EN ∨ x.react = some s.dtime.toNat then s else modQp qp.toNat (ccStep s) s
    | none => s)

end Sys2Proof.Machine
end

