-- ==== Sys2Proof/Machine/RdmaJobs.lean ====
section
/-! DEFINITION. RDMA jobs and the requester (R376, R379 to R383). Numbers of opcodes and syndromes on the wire are those of the IBTA
specification. -/

namespace Sys2Proof.Machine

/-! ### The descriptor (R379, R380) -/

/-- LEN, LADDR, OFFSET and the SGL of a job. -/
def rxLen (j : Job) : Nat := j.n 24 4
@[inherit_doc rxLen] def rxLaddr (j : Job) : Nat := j.n 32 8
@[inherit_doc rxLen] def rxOffset (j : Job) : Nat := j.n 40 8
@[inherit_doc rxLen] def rxSgl (j : Job) : List Byte := (List.range 16).map fun i => BitVec.ofNat 8 (j.n (8 + i) 1)

/-- The flow context of a job, its submission queue entry and in-capsule data. -/
def rxCtx (s : State) (j : Job) : Option Ctx := match j.owner with | .ctx n => kget s.ctxs n | .stew _ => none
@[inherit_doc rxCtx] def rxSqe (s : State) (j : Job) : List Byte := match j.owner with | .ctx n => rdB s (ctxRec n) 64 | .stew _ => zeros 64
@[inherit_doc rxCtx] def rxCapsule (s : State) (j : Job) : List Byte :=
  match rxCtx s j with
  | some c => kgetD s.rx.capsule (cmdKey c.hq c.cid) []
  | none => []

/-- The host data that the partner staged for the forwarded command of a job's context (R41). -/
def rxStaged (s : State) (j : Job) : List Byte :=
  match rxCtx s j with
  | some c => kgetD s.rx.staged (cmdKey c.hq c.cid) []
  | none => []

/-- Whether the remote blocks carry protection information (R380). -/
def rxPi (s : State) (j : Job) : Bool :=
  match bitsN (j.hflags / 256) 1 0 with
  | 1 => true
  | 2 => (match rxCtx s j with | some c => volFlag s c.vol 4 && !((sqPrinfo (rxSqe s j)).testBit 3) | none => false)
  | _ => false

/-- PIKEEP, the remote length, and the blocks of a job with protection information. -/
def rxKeep (j : Job) : Bool := (j.hflags / 256).testBit 3
@[inherit_doc rxKeep] def rxRlen (s : State) (j : Job) : Nat := if rxPi s j then rxLen j / 4096 * 4112 else rxLen j
@[inherit_doc rxKeep] def rxBlocks (j : Job) : Nat := rxLen j / 4096

/-- The SGL of a job on its path. -/
def jobSgl (s : State) (j : Job) : Option Sgl :=
  match rdmaPath s j with
  | .qp _ => sglOf false (rxSgl j) (rxCapsule s j)
  | .tcp _ => sglOf true (rxSgl j) (rxCapsule s j)
  | .peer | .none => none

/-- Whether the path of a job may carry it (R379, R383), and its range lies in its SGL. (log 99, DEDUCED, unsafe) -/
def rxPathOk (s : State) (j : Job) : Bool :=
  let flowQp := match j.owner with | .ctx _ => (j.hflags / 256).testBit 2 | .stew _ => false
  let path := match rdmaPath s j with
    | .qp q =>
      (match qpOf s q with
       | some x => decide (qpState s q ≠ 0 ∨ x.st = 4) && (!(flowQp || decide (j.op = 3)) || decide (x.kind = 1))
       | none => false)
    | .tcp _ | .peer => decide (j.op ≠ 3)
    | .none => false
  let range := match jobSgl s j with
    | some g =>
      decide (rxOffset j + rxRlen s j ≤ g.total) && (match g with | .capsule _ => decide (j.op = 1) | .keyed _ | .transport _ => true)
    | none => decide (rdmaPath s j = .peer) && (decide (j.op ≠ 1) || decide (rxOffset j + rxRlen s j ≤ (rxStaged s j).length))
  path && (decide (j.op = 3) || range)

/-- The acceptance checks of an RDMA job (R98, R102, R379 to R381). -/
def checkRdma (j : Job) (s : State) : Option JobResult :=
  let mode := bitsN (j.hflags / 256) 1 0
  let pi := rxPi s j
  let keep := pi && (rxKeep j || decide (j.op = 2))
  let piArea := rxLaddr j + rxLen j
  let piLen := 16 * rxBlocks j
  let misfit : Bool := decide (rxLen j % 4096 ≠ 0 ∨ rxOffset j % 4112 ≠ 0)
  firstFail (j.headChecks [1, 2, 3] 0x0F ++
    [(j.nonzero 60 4 || decide (2 ^ 17 ≤ j.n 28 4) || (decide (j.op = 3) && (j.nonzero 8 16 || j.nonzero 40 8)), internal 3),
     (decide (rxLen j = 0 ∨ 16777216 < rxLen j) || decide (mode = 3) || (j.fromStew && decide (mode ≠ 0)) || (decide (mode = 1) && misfit), internal 4),
     j.bounds s (decide (j.op = 1)) (rxLaddr j) (if j.op = 3 then 64 else rxLen j),
     (decide (j.op ≠ 3) && keep && !bufOk s j (decide (j.op = 1)) piArea piLen, JobResult.of rBounds),
     (decide (j.op = 3 ∧ j.n 48 8 ≠ 0) && !bufOk s j true (j.n 48 8) 16, JobResult.of rBounds),
     (decide (j.op ≠ 3) && pi && misfit, internal 4),
     (!rxPathOk s j, internal 4)])

/-! ### Data (R381, R382) -/

/-- The LBA of a job's block `i` (R380). -/
def rxLba (s : State) (j : Job) (i : Nat) : Nat := (sqLba (rxSqe s j) + rxOffset j / 4112 + i) % 2 ^ 48

/-- Whether the guard and the reference tag of block `i` of the remote data fail. (log 98, DEDUCED, unsafe) -/
def piFails (s : State) (j : Job) (data : List Byte) (i : Nat) : Bool × Bool :=
  let b := (data.drop (4112 * i)).take 4096
  let p := (data.drop (4112 * i + 4096)).take 16
  (decide (beNat (p.take 8) ≠ crc64 b), decide (beNat (p.drop 10) ≠ rxLba s j i))

/-- Writes the first `n` blocks of remote data with their protection information where PIKEEP asks for it. -/
def putBlocks (j : Job) (data : List Byte) : Nat → State → State
  | 0, s => s
  | n + 1, s =>
    let t := wrB (rxLaddr j + 4096 * n) ((data.drop (4112 * n)).take 4096) (putBlocks j data n s)
    if rxKeep j then wrB (rxLaddr j + rxLen j + 16 * n) ((data.drop (4112 * n + 4096)).take 16) t else t

/-- A READ has all its data (R381, R382): under protection information, the blocks before the first that fails are written, the buffer from
there on is free, and the context keeps what failed. (log 12, DESIGN CHOICE, safe; 98, DEDUCED, unsafe) -/
def readDone (id : Nat) (j : Job) (data : List Byte) (s : State) : State :=
  let s := { s with rx := { s.rx with got := kdel s.rx.got id, r2t := kdel s.rx.r2t id } }
  if !rxPi s j then finish id (JobResult.done (rxLen j) 0) (wrB (rxLaddr j) (data.take (rxLen j)) s)
  else
    let n := rxBlocks j
    let fails := (List.range n).map (piFails s j data)
    match fails.findIdx? fun f => f.1 || f.2 with
    | none => finish id (JobResult.done (rxLen j) 0) (putBlocks j data n s)
    | some k =>
      let what := b2n (fails.any Prod.fst) + 2 * b2n (fails.any Prod.snd)
      let s := wrFree (rxLaddr j + 4096 * k) (rxLen j - 4096 * k) (putBlocks j data k s)
      let s := match j.owner with
        | .ctx c => { s with host := { s.host with piCheck := kput s.host.piCheck c what } }
        | .stew _ => s
      finish id ⟨rCheck, 0, 4096 * k, k + what * 2 ^ 32⟩ s

/-- The remote data of a WRITE (R381). -/
def writeData (s : State) (j : Job) : List Byte :=
  if rxPi s j then
    (List.range (rxBlocks j)).flatMap fun i => rdB s (rxLaddr j + 4096 * i) 4096 ++ rdB s (rxLaddr j + rxLen j + 16 * i) 16
  else rdB s (rxLaddr j) (rxLen j)

/-! ### Running jobs (R376, R379) -/

/-- Runs a job on its path once it can move data; one whose queue pair or connection is gone is flushed (R366, R368). -/
def rdmaRun (id op : Nat) (peer : Job → State → State) (tcp : Job → Nat → State → State) (qp : Job → Nat → State → State) (s : State) : State :=
  runJob id cRdma op (fun j s =>
    let flush := finish id ⟨rRemote, 0, 0, 8⟩ (dropJob id j s)
    match rdmaPath s j with
    | .peer => peer j s
    | .tcp hq => (match queueOf s hq with | some q => if q.frozen then flush else tcp j hq s | none => flush)
    | .qp q =>
      match qpOf s q with
      | some x => if x.st = 0 ∨ x.st = 4 then flush else if x.st ≠ 3 ∨ (kget s.rx.got id).isSome then s else qp j q s
      | none => flush
    | .none => flush) s

/-- A job has begun to use its queue pair. -/
def begin_ (id : Nat) (s : State) : State := { s with rx := { s.rx with got := kput s.rx.got id [] } }

/-- RDMA_READ (R381, R383): in-capsule data is copied; keyed blocks are read by RDMA READ requests, and a transport data block by an R2T; the data of a forwarded command is what the partner staged (R41). (log 193, DESIGN CHOICE, safe) -/
def execRdmaRead (job : Nat) (ttag : BitVec 16) (s : State) : Res :=
  ok (rdmaRun job 1
    (fun j s => readDone job j (((rxStaged s j).drop (rxOffset j)).take (rxRlen s j)) s)
    (fun j hq s =>
      match jobSgl s j with
      | some (.capsule d) => readDone job j ((d.drop (rxOffset j)).take (rxRlen s j)) s
      | some (.keyed _) | some (.transport _) | none =>
        if (kget s.rx.r2t job).isSome then s
        else
          let cid := match rxCtx s j with | some c => c.cid | none => 0
          let s := begin_ job { s with rx := { s.rx with r2t := kput s.rx.r2t job (rxRlen s j) } }
          emit (.tcpR2t hq cid ttag.toNat (rxOffset j) (rxRlen s j)) s)
    (fun j q s =>
      match jobSgl s j with
      | some (.capsule d) => readDone job j ((d.drop (rxOffset j)).take (rxRlen s j)) s
      | some (.keyed l) =>
        let parts := sliceKeyed l (rxOffset j) (rxRlen s j)
        enqueue q (parts.map fun p => { kind := .read, job := some job, addr := p.1, rkey := p.2.1, len := p.2.2 }) (begin_ job s)
      | some (.transport _) | none => finish job (internal 4) s) s)

/-- RDMA_WRITE (R381, R383): over a queue pair it completes when every packet has been acknowledged. (log 99, DEDUCED, unsafe) -/
def execRdmaWrite (job : Nat) (s : State) : Res :=
  ok (rdmaRun job 2
    (fun j s =>
      let (hq, cid) := match rxCtx s j with | some c => (c.hq, c.cid) | none => (0, 0)
      finish job (JobResult.done (rxLen j) 0) (toPartner (.hostData hq cid (rxOffset j) (writeData s j)) s))
    (fun j hq s =>
      let cid := match rxCtx s j with | some c => c.cid | none => 0
      finish job (JobResult.done (rxLen j) 0) (emit (.tcpData hq cid (rxOffset j) (writeData s j)) s))
    (fun j q s =>
      match jobSgl s j with
      | some (.keyed l) => enqueue q (writeEnts (some job) none (sliceKeyed l (rxOffset j) (rxRlen s j)) (writeData s j)) (begin_ job s)
      | some (.capsule _) | some (.transport _) | none => finish job (internal 4) s) s)

/-- The capsule of a CMD (R381): the SQE with its CID, and a keyed SGL of the queue pair's window key. -/
def cmdCapsule (s : State) (j : Job) (cid key : Nat) : List Byte :=
  let q := putBytes (rdB s (rxLaddr j) 64) 2 (leBytes 2 cid)
  putBytes q 24 (leBytes 8 (j.n 56 4) ++ leBytes 3 (rxLen j) ++ leBytes 4 key ++ [0x40])

/-- RDMA_CMD (R381): the capsule is sent; the job completes with the response. (log 95, DESIGN CHOICE, safe; 96, DESIGN CHOICE, unsafe) -/
def execRdmaCmd (job : Nat) (s : State) : Res :=
  ok (rdmaRun job 3 (fun _ s => finish job (internal 4) s) (fun _ _ s => finish job (internal 4) s)
    (fun j q s =>
      let cid := match qpOf s q with | some x => (kfree x.cmds 65536).getD 0 | none => 0
      let (key, s) := match winOf s q with
        | some (w, x) => (winKey w x, s)
        | none => ((Config.freeWord s.free).toNat % 2 ^ 32, nextFree s)
      let e : SendEnt := { kind := .cmd, job := some job, len := 64, data := cmdCapsule s j cid key }
      enqueue q [e] (modQp q (fun x => { x with cmds := kput x.cmds cid job }) (begin_ job s))) s)

/-! ### Acknowledgements (R376) -/

/-- Whether PSN `a` is at or after PSN `b`, modulo 2^24. -/
def psnCovers (a b : Nat) : Bool := decide ((a + 2 ^ 24 - b % 2 ^ 24) % 2 ^ 24 < 2 ^ 23)

/-- The entries at the head of a send queue that an acknowledgement of a PSN completes, and the rest; a READ completes only by its data. -/
def ackSplit (x : Qp) (psn : Nat) : List SendEnt → List SendEnt × List SendEnt
  | [] => ([], [])
  | e :: l =>
    if e.sent ∧ e.kind ≠ .read ∧ psnCovers psn (e.psn + e.packets x.pmtu - 1) then
      let (d, r) := ackSplit x psn l
      (e :: d, r)
    else ([], e :: l)

/-- A READ response packet for the READ at the head of the rest. -/
def respSplit (x : Qp) (psn : Nat) (data : List Byte) : List SendEnt → Option (List SendEnt × List SendEnt)
  | e :: l =>
    if e.sent ∧ e.kind = .read ∧ (e.psn + (e.data.length + x.pmtu - 1) / x.pmtu) % 2 ^ 24 = psn then
      let e := { e with data := (e.data ++ data).take e.len }
      if e.data.length = e.len then some ([e], l) else some ([], e :: l)
    else none
  | [] => none

/-- An entry of a forwarded command is complete (R41): a READ's data is staged, and with the last entry the command goes out, or its completion
is posted. -/
def stageDone (q key : Nat) (e : SendEnt) (s : State) : State :=
  let more := (qpOf s q).any fun x => x.sq.any fun e => decide (e.stage = some key)
  match kget s.rx.stage key, fwdOf s key with
  | some x, some c =>
    if e.kind = .read then
      let got := x.got ++ e.data
      if more then { s with rx := { s.rx with stage := kput s.rx.stage key { x with got := got } } } else stageFull c got s
    else match x.result with
      | some (st, dw0) => if more then s else postForward c st dw0 s
      | none => s
  | _, _ => s

/-- The jobs of completed entries go on: a READ keeps its data, and a READ or WRITE with no entry left is done. -/
def entryDone (q : Nat) (s : State) (e : SendEnt) : State :=
  match e.job with
  | none => match e.stage with | some key => stageDone q key e s | none => s
  | some id =>
    let got := kgetD s.rx.got id [] ++ (if e.kind = .read then e.data else [])
    let s := if e.kind = .read then pmc 0x0A02 (q / 1024) e.len { s with rx := { s.rx with got := kput s.rx.got id got } } else s
    let more := (qpOf s q).any fun x => x.sq.any fun e => decide (e.job = some id)
    match kget s.jobs id with
    | some j =>
      if more then s
      else if e.kind = .read then readDone id j got s
      else if e.kind = .write then finish id (JobResult.done (rxLen j) 0) { s with rx := { s.rx with got := kdel s.rx.got id } }
      else s
    | none => s

/-- A send queue with `done` taken from it; progress starts the retry counts afresh. (log 97, DEDUCED, unsafe) -/
def ackProgress (q : Nat) (done rest : List SendEnt) (s : State) : State :=
  let s := modQp q (fun x => { x with sq := rest, retry := 0, rnr := 0 }) s
  pump q (done.foldl (entryDone q) s)

/-- RDMA_ACK_RECEIVED (R376): what has already been acknowledged is discarded. -/
def execRdmaAckReceived (h : Bth) (data : List Byte) (s : State) : Res :=
  ok (inbound h (fun q x s =>
    if x.st ≠ 3 then s
    else if data = [] then
      let (done, rest) := ackSplit x h.psn x.sq
      if done = [] then s else ackProgress q done rest s
    else
      let (done, rest) := ackSplit x (h.psn + 2 ^ 24 - 1) x.sq
      match respSplit x (h.psn % 2 ^ 24) data rest with
      | some (d, r) => ackProgress q (done ++ d) r s
      | none => if done = [] then s else ackProgress q done rest s) s)

/-- The oldest unacknowledged entry, and the entry of a PSN. -/
def oldest (x : Qp) : Option SendEnt := x.sq.find? (·.sent)
@[inherit_doc oldest] def psnEntry (x : Qp) (psn : Nat) : Option SendEnt :=
  x.sq.find? fun e => e.sent && psnCovers psn e.psn && !psnCovers psn (e.psn + e.packets x.pmtu)

/-- Retransmits go-back-N what is unacknowledged (R376). -/
def retransmit (q : Nat) (s : State) : State :=
  match qpOf s q with
  | some x => (x.sq.filter (·.sent)).foldl (fun t e => emit (.rdma q e.message) t) s
  | none => s

/-- RDMA_NAK_RECEIVED (R367, R376). (log 85, PRESUMED, unsafe) -/
def execRdmaNakReceived (h : Bth) (syn : Byte) (s : State) : Res :=
  ok (inbound h (fun q x s =>
    let n := syn.toNat
    let cause := (psnEntry x h.psn).bind (·.job)
    let (done, rest) := ackSplit x (h.psn + 2 ^ 24 - 1) x.sq
    if x.st ≠ 3 then s
    else if n / 32 = 1 then
      let s := if done = [] then s else ackProgress q done rest s
      match qpOf s q with
      | some y =>
        if y.rnrRetries ≠ 7 ∧ y.rnrRetries ≤ y.rnr then errorQp q 6 h.psn cause s
        else modQp q (fun y => { y with rnr := y.rnr + 1, rnrHold := true }) s
      | none => s
    else if n = 0x60 then retransmit q (if done = [] then s else ackProgress q done rest s)
    else if n = 0x62 then errorQp q 3 h.psn cause s
    else if n = 0x61 ∨ n = 0x63 then errorQp q 4 h.psn cause s
    else s) s)

/-- RDMA_ACK_TIMEOUT (R376). -/
def execRdmaAckTimeout (qp : BitVec 17) (s : State) : Res :=
  let q := qp.toNat
  ok (match qpOf s q with
    | some x =>
      match oldest x with
      | some e =>
        if x.st ≠ 3 ∨ x.rnrHold then s
        else if x.retries ≤ x.retry then errorQp q 5 e.psn e.job s
        else retransmit q (bump .RXE_RETRY_CNT (modQp q (fun x => { x with retry := x.retry + 1 }) s))
      | none => s
    | none => s)

/-- RNR_TIMER (R376): the queue pair resumes. -/
def execRnrTimer (qp : BitVec 17) (s : State) : Res :=
  let q := qp.toNat
  ok (match qpOf s q with
    | some x => if x.st = 3 ∧ x.rnrHold then pump q (retransmit q (modQp q (fun x => { x with rnrHold := false }) s)) else s
    | none => s)

/-- A CMD's response arrives on an INITIATOR queue pair (R381). -/
def cmdResponse (q : Nat) (r : List Byte) (s : State) : State :=
  match (qpOf s q).bind fun x => kget x.cmds (fieldN r 12 2) with
  | some id =>
    match kget s.jobs id with
    | some j =>
      let s := modQp q (fun x => { x with cmds := kdel x.cmds (fieldN r 12 2) }) { s with rx := { s.rx with got := kdel s.rx.got id } }
      let s := if j.n 48 8 = 0 then s else wrB (j.n 48 8) (r.take 16) s
      finish id (JobResult.done (bitsN (fieldN r 12 4) 31 17) (fieldN r 0 8)) s
    | none => s
  | none => s

/-- An RDMA job that times out after `n` local bytes (R99, R382): its outstanding packets are discarded when they arrive. -/
def timeoutRdma (id : Nat) (j : Job) (n : Nat) (s : State) : State × JobResult :=
  let n := min n (rxLen j)
  let data := kgetD s.rx.got id []
  let s := dropJob id j s
  if j.op ≠ 1 then (s, ⟨rTimeout, 0, if j.op = 2 then n else 0, 0⟩)
  else
    let n := min n (if rxPi s j then data.length / 4112 * 4096 else data.length)
    let s := if rxPi s j then putBlocks j data (n / 4096) s else wrB (rxLaddr j) (data.take n) s
    (s, ⟨rTimeout, 0, n, 0⟩)

end Sys2Proof.Machine
end

