-- ==== Sys2Proof/Machine/RdmaPkt.lean ====
section
/-! DEFINITION. The responder: inbound SEND, RDMA WRITE and RDMA READ, and the PDUs of TCP queues (R362, R372 to R375, R383). -/

namespace Sys2Proof.Machine

/-- A request by its PSN (R375): new, a duplicate, or out of sequence. -/
inductive PsnClass where
  | new | duplicate | gap

/-- The class of a PSN against EPSN (R375). -/
def psnClass (epsn psn : Nat) : PsnClass :=
  let d := (psn + 2 ^ 24 - epsn % 2 ^ 24) % 2 ^ 24
  if d = 0 then .new else if 2 ^ 23 ≤ d then .duplicate else .gap

/-- The acknowledgement as it stands: everything before EPSN. -/
def sendAck (q : Nat) (s : State) : State :=
  match qpOf s q with
  | some x => emit (.rdma q (.ack ((x.epsn + 2 ^ 24 - 1) % 2 ^ 24))) s
  | none => s

/-- An inbound request (R366, R372, R375): the first valid one takes an RTR queue pair to RTS; out of sequence, one NAK for each gap. -/
def request (h : Bth) (bytes : Nat) (new dup : Nat → Qp → State → State) (s : State) : State :=
  inbound h (fun q x s =>
    if x.st ≠ 2 ∧ x.st ≠ 3 then s
    else
      match psnClass x.epsn h.psn with
      | .gap => if x.nakked then s else emit (.rdma q (.nak x.epsn 0x60)) (modQp q (fun x => { x with nakked := true }) s)
      | .duplicate => dup q x s
      | .new =>
        let s := pmc 0x0A02 (q / 1024) bytes s
        let s := if x.st = 2 then toRts q s else s
        new q x (modQp q (fun x => { x with nakked := false }) s)) s

/-- EPSN advances. -/
def advance (q n : Nat) (s : State) : State := modQp q (fun x => { x with epsn := (x.epsn + n) % 2 ^ 24 }) s

/-- A duplicate SEND or WRITE packet: acknowledged and not executed (R375). -/
def dupPacket (q : Nat) (_ : Qp) (s : State) : State := sendAck q (bump .RXE_DUP_CNT s)

/-- A request that R362 does not support (R367). -/
def badRequest (q psn : Nat) (s : State) : State := errorQp q 2 psn none (emit (.rdma q (.nak psn 0x61)) s)

/-- A SEND's message is complete: a capsule for the I/O queue of a TARGET queue pair, a response on an INITIATOR one. Admin capsules and the
messages of the partner are commands of their own. (log 100, DEDUCED, unsafe) -/
def deliver (q : Nat) (x : Qp) (m : List Byte) (s : State) : State :=
  match x.kind with
  | 0 => (match qpQueue s q with | some hq => ioCapsule hq (m.take 64) (m.drop 64) false s | none => s)
  | 1 => cmdResponse q m s
  | _ => s

/-- RDMA_SEND_RECEIVED (R362, R367, R375). -/
def execRdmaSendReceived (h : Bth) (data : List Byte) (s : State) : Res :=
  ok (request h data.length
    (fun q x s =>
      if !([0x00, 0x01, 0x02, 0x04, 0x16, 0x17].contains h.op) then badRequest q h.psn s
      else
        let m := (if [0x00, 0x04, 0x17].contains h.op then [] else x.inSend) ++ data
        let last := [0x02, 0x04, 0x16, 0x17].contains h.op
        let s := advance q 1 (modQp q (fun x => { x with inSend := if last then [] else m }) s)
        if last then deliver q x m (sendAck q s) else s)
    dupPacket s)

/-- The checks of R372 on a request: the window, or what fails. -/
def winCheck (s : State) (q rkey va len : Nat) (write : Bool) : Option (Nat × Win) :=
  match winOf s q with
  | none => none
  | some (w, x) =>
    if winKey w x ≠ rkey ∨ x.revoking then none
    else if x.pages * 4096 < va + len then none
    else if (if write then x.rwr else x.rrd) then some (w, x)
    else none

/-- A request that fails R372 (R367). -/
def accessError (q psn va : Nat) (s : State) : State :=
  let w := match winOf s q with | some (w, _) => w | none => 0xFFFF_FFFF
  let s := emit (.rdma q (.nak psn 0x62)) (celOpen 0x0A w (va % 2 ^ 32) (va / 2 ^ 32) (bump .RXE_RAERR_CNT s))
  errorQp q 1 psn none s

/-- RDMA_WRITE_REQUEST (R372, R375): checked once, on its first or only packet; each later packet goes to its offset. -/
def execRdmaWriteRequest (h : Bth) (va : Word) (rkey len : BitVec 32) (data : List Byte) (s : State) : Res :=
  ok (request h data.length
    (fun q x s =>
      if [0x06, 0x0A].contains h.op then
        match winCheck s q rkey.toNat va.toNat len.toNat true with
        | none => accessError q h.psn va.toNat s
        | some (w, y) =>
          let d := data.take len.toNat
          let next : Option InWrite := if h.op = 0x0A then none else some ⟨w, y.base + va.toNat + d.length, len.toNat - d.length⟩
          sendAck q (advance q 1 (modQp q (fun x => { x with inWrite := next }) (wrB (y.base + va.toNat) d s)))
      else if [0x07, 0x08].contains h.op then
        match x.inWrite with
        | none => badRequest q h.psn s
        | some i =>
          let d := data.take i.left
          let next : Option InWrite := if h.op = 0x08 then none else some ⟨i.win, i.addr + d.length, i.left - d.length⟩
          sendAck q (advance q 1 (modQp q (fun x => { x with inWrite := next }) (wrB i.addr d s)))
      else badRequest q h.psn s)
    dupPacket s)

/-- Answers a READ request that has been checked. -/
def answerRead (q psn addr len : Nat) (s : State) : State :=
  pmc 0x0A01 (q / 1024) len (emit (.rdma q (.readResp psn (rdB s addr len))) s)

/-- RDMA_READ_REQUEST (R372, R374, R375): a duplicate of one of the last IRD requests is checked and executed afresh. -/
def execRdmaReadRequest (h : Bth) (va : Word) (rkey len : BitVec 32) (s : State) : Res :=
  let r : Nat × Nat × Nat × Nat := (h.psn, va.toNat, rkey.toNat, len.toNat)
  ok (request h 0
    (fun q x s =>
      if h.op ≠ 0x0C then badRequest q h.psn s
      else
        match winCheck s q rkey.toNat va.toNat len.toNat false with
        | none => accessError q h.psn va.toNat s
        | some (_, y) =>
          let n := max 1 ((len.toNat + x.pmtu - 1) / x.pmtu)
          answerRead q h.psn (y.base + va.toNat) len.toNat
            (advance q n (modQp q (fun x => { x with reads := (r :: x.reads).take x.ird }) s)))
    (fun q x s =>
      if !x.reads.contains r then s
      else
        match winCheck s q rkey.toNat va.toNat len.toNat false with
        | none => accessError q h.psn va.toNat s
        | some (_, y) => answerRead q h.psn (y.base + va.toNat) len.toNat s) s)

/-- TCP_PDU_RECEIVED (R333, R383): a capsule; data for the READ job that awaits it; a broken connection freezes the queue and flushes its
jobs. (log 99, DEDUCED, unsafe) -/
def execTcpPduReceived (hq : BitVec 17) (p : TcpPdu) (s : State) : Res :=
  let q := hq.toNat
  ok (if !((queueOf s q).any fun x => x.tcp) then s
    else
      match p with
      | .capsule sqe data bad => ioCapsule q sqe data bad s
      | .h2cStage cid data bad =>
        match kget s.rx.stage (cmdKey q cid), fwdOf s (cmdKey q cid) with
        | some x, some c =>
          if x.need = 0 then s
          else if bad then ioDone c 0x022 (dropForward c s)
          else
            let got := (x.got ++ data).take x.need
            if got.length = x.need then stageFull c got s else { s with rx := { s.rx with stage := kput s.rx.stage (cmdKey q cid) { x with got := got } } }
        | _, _ => s
      | .broken => flushJobs (.tcp q) none 8 (freezeQueue q s)
      | .h2cData id data bad =>
        match kget s.jobs id, kget s.rx.r2t id with
        | some j, some n =>
          if rdmaPath s j ≠ .tcp q ∨ j.phase ≠ .accepted then s
          else if bad then
            let s := match j.owner with
              | .ctx c => modCtx c (fun c => { c with posted := true }) s
              | .stew _ => s
            let cid := match rxCtx s j with | some c => c.cid | none => 0
            finish id ⟨rRemote, 0, 0, 8⟩ (dropJob id j (postCompletion q cid (status 0x022) 0 (rxSqe s j) s))
          else
            let got := (kgetD s.rx.got id [] ++ data).take n
            if got.length = n then readDone id j got s
            else { s with rx := { s.rx with got := kput s.rx.got id got } }
        | _, _ => s)

end Sys2Proof.Machine
end

