-- ==== Sys2Proof/Machine/Switch.lean ====
section
/-! DEFINITION. The switch core and the cell links (R390 to R415). The cells of Ethernet frames, of the gang, of job descriptors and
results and of copies pass through the buffer; another transfer inside the device is one step of the model, and its cells are not held. -/

namespace Sys2Proof.Machine

/-! ### Ports and cells (R390, R392) -/

/-- The group of a port (R390). -/
def portGroup (p : Nat) : Nat :=
  if p < 24 then 0 else if p < 48 then 1 else if p < 62 then 2 else if p < 76 then 3 else if p < 83 then 4 else if p < 91 then 5 else if p < 95 then 6 else 7

/-- Whether a port carries a cell link, and whether it has Ethernet MACs. -/
def linkPort (p : Nat) : Bool := decide (83 ≤ p ∧ p ≤ 88)
@[inherit_doc linkPort] def macPort (p : Nat) : Bool := decide (48 ≤ p ∧ p ≤ 61) || decide (76 ≤ p ∧ p ≤ 82) || decide (p = 89 ∨ p = 90)

/-- Fields of a cell's header (R392). -/
def cDport (c : List Byte) : Nat := bitsN (fieldN c 0 1) 6 0
@[inherit_doc cDport] def cSport (c : List Byte) : Nat := bitsN (fieldN c 1 1) 6 0
@[inherit_doc cDport] def cDchip (c : List Byte) : Nat := bitsN (fieldN c 2 1) 1 0
@[inherit_doc cDport] def cSchip (c : List Byte) : Nat := bitsN (fieldN c 2 1) 3 2
@[inherit_doc cDport] def cTc (c : List Byte) : Nat := bitsN (fieldN c 2 1) 6 4
@[inherit_doc cDport] def cSeq (c : List Byte) : Nat := fieldN c 4 2

/-- A cell with its congestion mark set (R402). -/
def markCell (c : List Byte) : List Byte := putBytes c 0 [BitVec.ofNat 8 (fieldN c 0 1 ||| 0x80)]

/-! ### The links of the gang (R406, R412, R439) -/

/-- The state of a link (R414), and the link itself. -/
def linkState (s : State) (l : Nat) : Nat := getF s F.GANG_LNK_STAT_STATE l
@[inherit_doc linkState] def linkOf (s : State) (l : Nat) : CellLink := kgetD s.sw.links l {}

/-- Changes a link. -/
def modLink (l : Nat) (f : CellLink → CellLink) (s : State) : State := { s with sw := { s.sw with links := kput s.sw.links l (f (linkOf s l)) } }

/-- The link that takes a cell to another chip: the direct one while it is LOCKED, else one over a third chip (R412, R439, R441). (log 107, DESIGN CHOICE, unsafe) -/
def linkTo (s : State) (chip : Nat) : Option Nat :=
  let direct := (chip + 3 - gangChip s) % 4
  if direct < 3 ∧ linkState s direct = 4 then some direct
  else if (getF s F.GANG_STAT_REACH).testBit chip then (List.range 3).find? fun l => decide (linkState s l = 4)
  else none

/-- The output port of a cell; none for a chip that no path reaches. -/
def cellOutput (s : State) (c : List Byte) : Option Nat :=
  if cDchip c = gangChip s then (if cDport c < 96 then some (cDport c) else none) else (linkTo s (cDchip c)).map fun l => 83 + 2 * l

/-! ### The tap (R404, R405) -/

/-- A cell passes a port: where the tap observes it and it matches, one in every N is captured, or lost to a full ring. (log 106, DEDUCED, unsafe) -/
def tapCell (dep : Bool) (inp outp : Nat) (bytes : List Byte) (wait queued : Nat) (s : State) : State :=
  let port := if dep then outp else inp
  let hdr : Word := BitVec.ofNat 64 (fieldN bytes 0 8)
  let n := getF s F.SWC_TAP_LEN_ENTRIES
  if !isF s F.SWC_TAP_CTL_EN || decide (getF s F.SWC_TAP_CTL_PORT ≠ port) || decide (isF s F.SWC_TAP_CTL_DIR ≠ dep) ||
      decide (hdr &&& rd s .SWC_TAP_MASK ≠ rd s .SWC_TAP_MATCH) || decide (n = 0) then s
  else
    let every := max 1 (getF s F.SWC_TAP_CTL_N)
    let s := { s with sw := { s.sw with tapSeen := s.sw.tapSeen + 1 } }
    if s.sw.tapSeen % every ≠ 0 then s
    else
      let head := getF s F.SWC_TAP_HEAD_HEAD
      let next := (head + 1) % n
      if next = getF s F.SWC_TAP_TAIL_TAIL then bump .SWC_TAPLOST_CNT s
      else
        let r := bytes.take 64 ++ leBytes 8 (s.dtime.toNat - wait) ++ leBytes 4 wait ++ leBytes 1 inp ++ leBytes 1 outp ++ leBytes 2 (min 0xFFFF queued)
        setF F.SWC_TAP_HEAD_HEAD next (wrB (getF s F.SWC_TAP_BASE_BASE * 4096 + 80 * head) r s)

/-- TAP_CAPTURE (R405): a cell of a transfer inside the device. (log 103, DESIGN CHOICE, unsafe) -/
def execTapCapture (dep : Bool) (inp outp : BitVec 7) (bytes : List Byte) (wait : BitVec 32) (queued : Nat) (s : State) : Res :=
  ok (tapCell dep inp.toNat outp.toNat bytes (if dep then wait.toNat else 0) queued s)

/-- A write of SWC_TAP_BASE or SWC_TAP_LEN (R413). -/
def wrTapRing (r : RegName) (v : Word) (s : State) : State :=
  if isF s F.SWC_TAP_CTL_EN then celRefused r v s else wr r (writeFields (rd s r) v r.info.fields) s

/-! ### The buffer (R394 to R396, R402) -/

/-- The cells of an output, and all cells charged to the control reserve or to the shared pool. -/
def outCells (s : State) (o : Nat) : List BufCell := (s.sw.buf.filter fun kv => decide (kv.1 / 768 = o)).flatMap Prod.snd
@[inherit_doc outCells] def poolCells (s : State) (p : Nat) : Nat := (s.sw.buf.map fun kv => kv.2.countP fun c => decide (c.pool = p)).sum

/-- What a cell may be charged to: the minimum of its output, the control reserve, the shared pool; none where it is not admitted (R394). (log 105, DEDUCED, unsafe) -/
def admitPool (s : State) (o tc : Nat) : Option Nat :=
  let cells := outCells s o
  let used (p : Nat) : Nat := cells.countP fun c => decide (c.pool = p)
  let size := 131072 - 96 * s.sw.min - 1024
  if used 0 < s.sw.min then some 0
  else if tc = 7 ∧ poolCells s 1 < 1024 then some 1
  else if 16 * used 2 < 2 ^ s.sw.alpha * (size - poolCells s 2) then some 2
  else none

/-- A cell of a link leaves its place at the receiver (R411). -/
def freePlace (inp : Nat) (s : State) : State := modLink ((inp - 83) / 2) (fun x => { x with freed := (x.freed + 1) % 1024 }) s

/-- Admits a cell from an input, marked where its output is congested (R402). A cell of a link frees its place at the receiver (R411). (log 103, DESIGN CHOICE, unsafe) -/
def admitCell (inp o pool : Nat) (c : List Byte) (s : State) : State :=
  let n := (outCells s o).length
  let s := pmc 0x0801 inp 1 (tapCell false inp o c 0 n s)
  let mark := isF s F.SWC_CM_EN && decide (getF s F.SWC_CM_THRESH ≤ n)
  let s := if mark then pmc 0x0802 o 1 (bump .SWC_CM_CNT s) else s
  let key := (o * 96 + inp) * 8 + cTc c
  let cell : BufCell := ⟨if mark then markCell c else c, pool, s.dtime.toNat⟩
  let s := { s with sw := { s.sw with buf := kput s.sw.buf key (kgetD s.sw.buf key [] ++ [cell]) } }
  if linkPort inp then freePlace inp s else s

/-- The ingress queue of an input for an output. -/
def ingressOf (s : State) (inp o : Nat) : List (List Byte) := kgetD s.sw.ingress (inp * 96 + o) []

/-- Sets an ingress queue. -/
def putIngress (inp o : Nat) (l : List (List Byte)) (s : State) : State :=
  { s with sw := { s.sw with ingress := kputD [] s.sw.ingress (inp * 96 + o) l } }

/-- A cell arrives at an input: admitted, or it waits in the ingress queue of its output (R395). -/
def offerCell (inp : Nat) (c : List Byte) (s : State) : State :=
  match cellOutput s c with
  | none => if linkPort inp then freePlace inp s else s
  | some o =>
    let wait := putIngress inp o (ingressOf s inp o ++ [c]) (pmc 0x0803 inp 1 s)
    if ingressOf s inp o ≠ [] then wait
    else
      match admitPool s o (cTc c) with
      | some p => admitCell inp o p c s
      | none => wait

/-- Cells that wait for an output are admitted while there is room, inputs in ascending order. -/
def drainIngress (o : Nat) : List Nat → State → State
  | [], s => s
  | i :: l, s =>
    match ingressOf s i o with
    | [] => drainIngress o l s
    | c :: t =>
      match admitPool s o (cTc c) with
      | some p => drainIngress o l (admitCell i o p c (putIngress i o t s))
      | none => drainIngress o l s

/-- ETHERNET_FRAME_RECEIVED (R396): a frame whose ingress queue is full is paused or dropped. (log 104, DESIGN CHOICE, safe) -/
def execEthernetFrameReceived (port : BitVec 7) (pfc : Bool) (prio : BitVec 3) (cells : List (List Byte)) (s : State) : Res :=
  let p := port.toNat
  ok (if !macPort p then s
    else
      match cells with
      | [] => s
      | c :: _ =>
        let o := (cellOutput s c).getD 96
        if Config.ingressCells < (ingressOf s p o).length + cells.length then
          if pfc then emit (.pfcPause p prio.toNat) s else bump .SWC_ETHDROP_CNT s
        else cells.foldl (fun t c => offerCell p c t) s)

/-! ### Sending (R391, R392, R401) -/

/-- The first port of a group and how many it has (R390). -/
def groupPorts (g : Nat) : Nat × Nat :=
  if g = 0 then (0, 24) else if g = 1 then (24, 24) else if g = 2 then (48, 14) else if g = 3 then (62, 14)
  else if g = 4 then (76, 7) else if g = 5 then (83, 8) else if g = 6 then (91, 4) else (95, 1)

/-- The port on which a block receives: that of its DDR5 channel (R390), else the one that a hash of the block selects (R391). (log 184, DESIGN CHOICE, safe) -/
def blockPort (b : Nat) : Nat :=
  let (base, n) := groupPorts (b / 256)
  base + (if b / 256 = 6 then min 3 (b % 256 / 3) else Config.portHash (b / 256) (b % 256) % n)

/-- The block that sends the next cell of a transfer and the one that receives it: those of the memories' next bytes in a copy. -/
def Xfer.ends (x : Xfer) : Nat × Nat :=
  match x.mem with
  | some (a, b) => (memBlock a, memBlock b)
  | none => (x.src, x.dst)

/-- How many bytes the next cell carries: at most 240, and in a copy none beyond the 4 KiB that one memory block holds (R23, R392). -/
def Xfer.cellLen (x : Xfer) : Nat :=
  let n := min 240 x.data.length
  match x.mem with
  | some (a, b) => min n (min (4096 - a % 4096) (4096 - b % 4096))
  | none => n

/-- What a group has numbered and left unreleased, by destination chip and port. -/
def seqKey (g chip port : Nat) : Nat := (g * 4 + chip) * 128 + port

/-- Whether a group may send the next cell of a transfer: it is the group's, and fewer than 256 of the group's cells to that port are unreleased (R401). -/
def maySend (s : State) (g : Nat) (x : Xfer) : Bool :=
  decide (x.ends.1 / 256 = g) && decide (kgetD s.sw.unrel (seqKey g x.chip (blockPort x.ends.2)) 0 < 256)

/-- The cell that carries the next bytes of a transfer (R392). -/
def xferCell (s : State) (x : Xfer) (sport seq : Nat) : List Byte :=
  let n := x.cellLen
  leBytes 1 (blockPort x.ends.2) ++ leBytes 1 (sport + if n = x.data.length then 128 else 0) ++
  leBytes 1 (x.chip + 4 * gangChip s + 16 * x.tc) ++ leBytes 1 n ++ leBytes 2 seq ++ leBytes 1 x.ty ++ leBytes 1 (x.ends.2 % 256) ++
  leBytes 8 (x.addr % 2 ^ 48) ++ x.data.take n ++ freeBytes s (240 - n)

/-- What is left of a transfer after its next cell: ADDR goes on with the data, and stays where it is a job tag (R392). -/
def Xfer.rest (x : Xfer) : Xfer :=
  let n := x.cellLen
  { x with data := x.data.drop n, addr := if x.ty = 3 ∨ x.ty = 4 then x.addr else x.addr + n, mem := x.mem.map fun m => (m.1 + n, m.2 + n) }

/-- A group sends one cell, over the next of its ports in rotation (R391). Cells to another chip are released over a side channel that the model does not show. (log 192, DESIGN CHOICE, unsafe) -/
def sendCell (g : Nat) (s : State) : State :=
  match s.sw.xfers.findIdx? (maySend s g) with
  | none => s
  | some k =>
    match s.sw.xfers[k]? with
    | none => s
    | some x =>
      let (base, n) := groupPorts g
      let rot := kgetD s.sw.rot g 0 % n
      let key := seqKey g x.chip (blockPort x.ends.2)
      let seq := kgetD s.sw.seqs key 0
      let c := xferCell s x (base + rot) seq
      let left := x.rest
      offerCell (base + rot) c { s with
        free := s.free + (240 - x.cellLen)
        sw := { s.sw with
          xfers := if left.data = [] then s.sw.xfers.eraseIdx k else s.sw.xfers.set k left
          rot := kput s.sw.rot g ((rot + 1) % n)
          seqs := kput s.sw.seqs key ((seq + 1) % 65536)
          unrel := if x.chip = gangChip s then kput s.sw.unrel key (kgetD s.sw.unrel key 0 + 1) else s.sw.unrel } }

/-- In a cell time each port of a group takes at most one new cell. -/
def sendCells (s : State) : State :=
  if s.sw.xfers = [] then s
  else (List.range 8).foldl (fun t g => (List.range (groupPorts g).2).foldl (fun t _ => sendCell g t) t) s

/-! ### Ethernet egress (R403) -/

/-- Where the network header of an Ethernet frame starts, past a VLAN tag. (log 185, PRESUMED, unsafe) -/
def netStart (f : List Byte) : Nat := if beNat ((f.drop 12).take 2) = 0x8100 then 18 else 14

/-- The ones' complement sum of the 16-bit words of a header. -/
def onesSum : List Byte → Nat
  | a :: b :: l => let t := a.toNat * 256 + b.toNat + onesSum l; t % 65536 + t / 65536
  | [a] => a.toNat * 256
  | [] => 0

/-- An Ethernet frame with ECN CE, if it is ECN-capable: bits [1:0] of the IPv4 type of service, whose header checksum follows, or of the IPv6 traffic
class, are 1 or 2. (log 185, PRESUMED, unsafe) -/
def setCe (f : List Byte) : List Byte :=
  let a := netStart f
  let ty := beNat ((f.drop (a - 2)).take 2)
  let b1 := fieldN f (a + 1) 1
  if ty = 0x0800 ∧ (b1 % 4 = 1 ∨ b1 % 4 = 2) then
    let g := putBytes (putBytes f (a + 1) [BitVec.ofNat 8 (b1 ||| 3)]) (a + 10) (zeros 2)
    putBytes g (a + 10) (beBytes 2 (65535 - onesSum ((g.drop a).take (4 * (fieldN g a 1 % 16)))))
  else if ty = 0x86DD ∧ (b1 / 16 % 4 = 1 ∨ b1 / 16 % 4 = 2) then putBytes f (a + 1) [BitVec.ofNat 8 (b1 ||| 0x30)]
  else f

/-- The frame that cells carry: their valid payload bytes, with CE where a cell carries CM. -/
def cellFrame (cells : List (List Byte)) : List Byte :=
  let f := cells.flatMap fun c => (c.drop 16).take (fieldN c 3 1)
  if cells.any fun c => (fieldN c 0 1).testBit 7 then setCe f else f

/-- A cell is delivered to its block (R401): the source group's cell is released, and an Ethernet MAC sends the frame that the last of its cells completes. (log 106, DEDUCED, unsafe; 191, DESIGN CHOICE, safe) -/
def deliverCell (port : Nat) (c : List Byte) (s : State) : State :=
  let g := portGroup (cSport c)
  let key := seqKey g (gangChip s) port
  let s := if cSchip c = gangChip s then { s with sw := { s.sw with unrel := kputD 0 s.sw.unrel key (kgetD s.sw.unrel key 0 - 1) } } else s
  if macPort port && Config.macBlock port (fieldN c 7 1) then
    let k := ((port * 4 + cSchip c) * 8 + g) * 256 + fieldN c 7 1
    let cells := kgetD s.sw.egress k [] ++ [c]
    if (fieldN c 1 1).testBit 7 then emit (.frame port (cellFrame cells)) { s with sw := { s.sw with egress := kdel s.sw.egress k } }
    else { s with sw := { s.sw with egress := kput s.sw.egress k cells } }
  else emit (.cell port c) s

/-! ### The resequencer (R401) -/

/-- Delivers what a context holds from its next SEQ on. (log 106, DEDUCED, unsafe) -/
def releaseEarly (port : Nat) : Nat → Reseq → State → Reseq × State
  | 0, r, s => (r, s)
  | fuel + 1, r, s =>
    match kget r.early r.next with
    | some c => releaseEarly port fuel { next := (r.next + 1) % 65536, early := kdel r.early r.next } (deliverCell port c s)
    | none => (r, s)

/-- A cell arrives at an output port: delivered in SEQ order, held early, or discarded as already delivered (R401). (log 106, DEDUCED, unsafe) -/
def resequence (port : Nat) (c : List Byte) (s : State) : State :=
  let key := (port * 4 + cSchip c) * 8 + portGroup (cSport c)
  let r := kgetD s.sw.reseq key {}
  let d := (cSeq c + 65536 - r.next) % 65536
  let put (r : Reseq) (s : State) : State := { s with sw := { s.sw with reseq := kput s.sw.reseq key r } }
  if d = 0 then
    let (r, s) := releaseEarly port 256 { r with next := (r.next + 1) % 65536 } (deliverCell port c s)
    put r s
  else if d < 256 then put { r with early := kput r.early (cSeq c) c } (bump .SWC_RESEQ_CNT s)
  else s

/-! ### Scheduling (R397 to R400) -/

/-- The TC from which a pair moves a cell (R398): 7 where one waits, else by deficit round robin. (log 105, DEDUCED, unsafe) -/
def pickTc (s : State) (i o : Nat) : Option (Nat × (Nat × Nat)) :=
  let pair := o * 96 + i
  let has (t : Nat) : Bool := (kgetD s.sw.buf (pair * 8 + t) []) ≠ []
  let (cur, left) := kgetD s.sw.drr pair (6, 0)
  let quantum (t : Nat) : Nat := max 1 (bits (rd s .SWC_TCW) (8 * t + 7) (8 * t))
  if has 7 then some (7, (cur, left))
  else if 0 < left ∧ has cur then some (cur, (cur, left - 1))
  else (((List.range 7).map fun k => (cur + 1 + k) % 7).find? has).map fun t => (t, (t, quantum t - 1))

/-- The inputs that hold a cell for an output. -/
def waitingInputs (s : State) (o : Nat) : List Nat :=
  ((s.sw.buf.filter fun kv => decide (kv.1 / 768 = o) && decide (kv.2 ≠ [])).map fun kv => kv.1 / 8 % 96).eraseDups

/-- The first of some numbers at or after a pointer, cyclically. (log 105, DEDUCED, unsafe) -/
def pickFrom (l : List Nat) (p : Nat) : Option Nat :=
  match l.filter fun i => decide (p ≤ i) with
  | [] => l.min?
  | m => m.min?

/-- A match under way: the pairs of input and output, with the state that holds the pointers. -/
structure Match where
  pairs : List (Nat × Nat)
  s : State

/-- The inputs not yet matched among some. -/
def Match.free (m : Match) (l : List Nat) : List Nat := l.filter fun i => !(m.pairs.any fun p => p.1 = i)
@[inherit_doc Match.free] def Match.taken (m : Match) (o : Nat) : Bool := m.pairs.any fun p => p.2 = o

/-- One output of the central scheduler grants, over the pairs without a cell link port (R397, R399). -/
def centralGrant (m : Match) (o : Nat) : Match :=
  if m.taken o || linkPort o then m
  else
    match pickFrom ((m.free (waitingInputs m.s o)).filter fun i => !linkPort i) (kgetD m.s.sw.grant o 0) with
    | some i => ⟨m.pairs ++ [(i, o)], { m.s with sw := { m.s.sw with grant := kput m.s.sw.grant o ((i + 1) % 96) } }⟩
    | none => m

/-- The input that an output grants in an iterative round: a cell link port only where no other waits, if one took the output last (R399). -/
def iterGrant (m : Match) (all : Bool) (o : Nat) : Option (Nat × Nat) :=
  if m.taken o then none
  else
    let w := m.free (waitingInputs m.s o)
    let turn := m.s.sw.gtook.contains o && w.any fun i => !linkPort i
    let l := w.filter fun i => (all || linkPort i || linkPort o) && !(turn && linkPort i)
    (pickFrom l (kgetD m.s.sw.grant o 0)).map fun i => (i, o)

/-- One round of the iterative scheduler: requests, grants and accepts (R399). -/
def iterRound (all first : Bool) (m : Match) : Match :=
  let grants := (List.range 96).filterMap (iterGrant m all)
  (grants.map Prod.fst).eraseDups.foldl (fun (m : Match) i =>
    match pickFrom ((grants.filter fun g => g.1 = i).map Prod.snd) (kgetD m.s.sw.accept i 0) with
    | some o =>
      let s := if first then { m.s with sw := { m.s.sw with
          grant := kput m.s.sw.grant o ((i + 1) % 96)
          accept := kput m.s.sw.accept i ((o + 1) % 96) } }
        else m.s
      ⟨m.pairs ++ [(i, o)], s⟩
    | none => m) m

/-- The cell leaves the buffer of a pair: to its link, or through the resequencer. -/
def moveCell (s : State) (p : Nat × Nat) : State :=
  let (i, o) := p
  match pickTc s i o with
  | none => s
  | some (t, d) =>
    let key := (o * 96 + i) * 8 + t
    match kgetD s.sw.buf key [] with
    | [] => s
    | c :: l =>
      let s := { s with sw := { s.sw with buf := kputD [] s.sw.buf key l, drr := kput s.sw.drr (o * 96 + i) d } }
      let s := tapCell true i o c.bytes (s.dtime.toNat - c.since) (outCells s o).length s
      let s := if linkPort o then modLink ((o - 83) / 2) (fun x => { x with queue := x.queue ++ [c.bytes] }) s else resequence o c.bytes s
      drainIngress o (List.range 96) s

/-- One cell time (R397 to R400): the groups send, and the schedulers match. -/
def cellTime (s : State) : State :=
  let start := s.sw.start
  let s := sendCells s
  let s := { s with sw := { s.sw with start := (start + 1) % 96 } }
  if s.sw.buf = [] then s
  else if s.sw.discard then { s with sw := { s.sw with discard := false } }
  else
    let all := isF s F.SWC_STAT_DEGRADED
    let m := iterRound all false (iterRound all false (iterRound all true ⟨[], s⟩))
    let s := bumpBy m.pairs.length .SWC_ITER_CNT m.s
    let m := if all then ⟨m.pairs, s⟩ else ((List.range 96).map fun k => (start + k) % 96).foldl centralGrant ⟨m.pairs, s⟩
    let s := m.pairs.foldl moveCell m.s
    { s with sw := { s.sw with gtook := (m.pairs.filter fun p => linkPort p.1).map Prod.snd } }

/-- SCHEDULER_PARITY_ERROR (R400). -/
def execSchedulerParityError (s : State) : Res :=
  ok (if isF s F.SWC_STAT_DEGRADED then s
    else raise 0x0810 0 (celOpen 0x08 0 0 0 (setF F.SWC_STAT_DEGRADED 1 { s with sw := { s.sw with discard := true } })))

/-- SWITCH_ECC (R393, R484). -/
def execSwitchEcc (s : State) : Res := ok (assertReset 0x07 s)

/-! ### The frames of a cell link (R407 to R412) -/

/-- Sends a frame of a KIND with the current ACKSEQ and CREDSUM (R410). -/
def sendFrame (l kind fseq : Nat) (c : List Byte) (s : State) : State :=
  let x := linkOf s l
  emit (.linkFrame l kind fseq ((x.expect + 1023) % 1024) ((512 + x.freed) % 1024) c) s

/-- The cell bytes of IDLE and RETRY frames (R407). -/
def idleCell (s : State) : List Byte := leBytes 1 (gangChip s) ++ leBytes 1 (headNo s) ++ zeros 254

/-- A RETRY, one for each gap (R409). -/
def sendRetry (l : Nat) (s : State) : State :=
  if (linkOf s l).asked then s else sendFrame l 2 0 (idleCell s) (modLink l (fun x => { x with asked := true }) s)

/-- A replay of what is unacknowledged (R410). -/
def replayLink (l : Nat) (s : State) : State :=
  (linkOf s l).kept.foldl (fun t f => sendFrame l 1 f.1 f.2 t) (bump .GANG_LNK_RETRY_CNT s l)

/-- ACKSEQ and CREDSUM of a good frame are taken. -/
def takeAck (l : Nat) (f : LinkFrame) (s : State) : State :=
  modLink l (fun x => { x with
    acked := f.ackseq
    cred := f.credsum
    kept := x.kept.filter fun k => decide (512 ≤ (f.ackseq + 1024 - k.1 % 1024) % 1024) }) s

/-- A frame that arrives while LOCKED: its CRC, then its acknowledgement (R409). (log 107, DESIGN CHOICE, unsafe) -/
def onFrame (link : Fin 3) (f : LinkFrame) (g : Nat → State → State) (s : State) : State :=
  let l := link.val
  if linkState s l ≠ 4 then s
  else if !f.crcOk then sendRetry l (bump .GANG_LNK_CRC_CNT s l)
  else g l (takeAck l f s)

/-- CELL_FRAME (R409). -/
def execCellFrame (link : Fin 3) (f : LinkFrame) (s : State) : Res :=
  ok (onFrame link f (fun l s =>
    let d := (f.fseq + 1024 - (linkOf s l).expect) % 1024
    if d = 0 then offerCell (83 + 2 * l) f.cell (modLink l (fun x => { x with expect := (x.expect + 1) % 1024, asked := false }) s)
    else if 512 ≤ d then s
    else sendRetry l s) s)

/-- RETRY_FRAME (R410). -/
def execRetryFrame (link : Fin 3) (f : LinkFrame) (s : State) : Res := ok (onFrame link f replayLink s)

/-- The commands held for a chip that can be reached again start (R441). -/
def startReached (chip : Nat) (s : State) : State :=
  let mine := s.host.held.filter fun c => decide (groupChip s (volGroup s c.vol) = chip)
  if mine = [] ∨ chip = gangChip s then s
  else mine.foldl (fun t c => startIo c t) { s with host := { s.host with held := s.host.held.filter fun c => !mine.contains c } }

/-- IDLE_FRAME (R409, R412): the peer's chip number shows, and the chip is reached. -/
def execIdleFrame (link : Fin 3) (f : LinkFrame) (s : State) : Res :=
  ok (onFrame link f (fun l s =>
    let chip := bitsN (fieldN f.cell 0 1) 1 0
    startReached chip (setF F.GANG_STAT_REACH (getF s F.GANG_STAT_REACH ||| 2 ^ chip) (setF F.GANG_LNK_STAT_PEER chip s l))) s)

/-- REPLAY_TIMEOUT (R410). -/
def execReplayTimeout (link : Fin 3) (s : State) : Res :=
  let l := link.val
  ok (if linkState s l = 4 ∧ (linkOf s l).kept ≠ [] then replayLink l s else s)

/-- RETRY_RESEND_TIMEOUT (R409). -/
def execRetryResendTimeout (link : Fin 3) (s : State) : Res :=
  let l := link.val
  ok (if linkState s l = 4 ∧ (linkOf s l).asked then sendFrame l 2 0 (idleCell s) s else s)

/-- The state of a link. (log 44, DEDUCED, unsafe; 107, DESIGN CHOICE, unsafe) -/
def setLink (l st : Nat) (s : State) : State := setF F.GANG_LNK_STAT_STATE st s l

/-- LOCKED is reached: on the first time after DOWN the counts start, later a RETRY is sent (R412). -/
def lockLink (l : Nat) (s : State) : State :=
  let s := setF F.GANG_LNK_STAT_MISS 0 (setLink l 4 s) l
  let x := linkOf s l
  if x.begun then sendRetry l (modLink l (fun x => { x with asked := false }) s)
  else modLink l (fun x => { begun := true, queue := x.queue }) s

/-- SYNC_MARK (R408). -/
def execSyncMark (link : Fin 3) (diff : BitVec 7) (s : State) : Res :=
  let l := link.val
  let n := diff.toNat
  ok (match linkState s l with
    | 2 => if n = 0 then setLink l 3 (modLink l (fun x => { x with confirm := 1 }) s) else s
    | 3 =>
      if n ≠ 0 then setLink l 2 (modLink l (fun x => { x with confirm := 0 }) s)
      else if (linkOf s l).confirm < 3 then modLink l (fun x => { x with confirm := x.confirm + 1 }) s
      else lockLink l s
    | 4 =>
      let miss := getF s F.GANG_LNK_STAT_MISS l + 1
      if n ≤ 3 then setF F.GANG_LNK_STAT_MISS 0 s l
      else if miss < 3 then setF F.GANG_LNK_STAT_MISS miss s l
      else bump .GANG_LNK_LOCKLOSS_CNT (setF F.GANG_LNK_STAT_MISS 3 (setLink l 2 s) l) l
    | _ => s)

/-- A write of GANG_LNK CTL (R412, R414): WIDTH stays while EN is 1; EN starts training, and without it the link is DOWN, with its unacknowledged cells queued again. (log 107, DESIGN CHOICE, unsafe) -/
def wrLinkCtl (l : Nat) (v : Word) (s : State) : State :=
  let old := rd s .GANG_LNK_CTL l
  let new := writeFields old v RegName.GANG_LNK_CTL.info.fields
  let s := if bit old 0 && decide (bits new 2 1 ≠ bits old 2 1) then
      celRefused .GANG_LNK_CTL v (wr .GANG_LNK_CTL (setBits new 2 1 (bits old 2 1)) s l) l
    else wr .GANG_LNK_CTL new s l
  if bit new 0 && decide (linkState s l = 0) then setLink l 1 s
  else if !bit new 0 then setLink l 0 (modLink l (fun x => { queue := x.kept.map Prod.snd ++ x.queue }) s)
  else s

/-- CELL_LINK_ENABLE (R412). -/
def execCellLinkEnable (link : Fin 3) (v : Word) (s : State) : Res := ok (wrLinkCtl link.val v s)

/-- CELL_LINK_TRAINED (R412). -/
def execCellLinkTrained (link : Fin 3) (s : State) : Res := ok (if linkState s link.val = 1 then setLink link.val 2 s else s)

/-- The job whose descriptor or result a cell carries. -/
def cellJob (s : State) (c : List Byte) : Option Nat :=
  if fieldN c 6 1 % 16 = 3 ∨ fieldN c 6 1 % 16 = 4 then (s.jobs.find? fun kv => decide (kv.1 % 2 ^ 48 = fieldN c 8 6) && decide (kv.2.phase = .accepted)).map Prod.fst else none

/-- A cell for a chip that no path reaches is discarded (R412): the job it carries ends with INTERNAL 5. (log 186, DEDUCED, unsafe) -/
def discardCell (c : List Byte) (s : State) : State :=
  match cellJob s c with
  | some id => finish id (internal 5) s
  | none => s

/-- The forwarded commands of chips that no path reaches any more are held (R441). (log 186, DEDUCED, unsafe) -/
def holdForwarded (s : State) : State :=
  (s.host.fwds.filter fun c =>
    let chip := groupChip s (volGroup s c.vol)
    decide (chip ≠ gangChip s) && !chipReached s chip).foldl (fun t c => startIo c (dropForward c t)) s

/-- CELL_LINK_DOWN (R412): the cells kept for replay, then those queued, go over another path, or are discarded and counted in the record. (log 44, DEDUCED, unsafe) -/
def execCellLinkDown (link : Fin 3) (reach : BitVec 4) (s : State) : Res :=
  let l := link.val
  ok (if linkState s l = 0 then s
    else
      let x := linkOf s l
      let s := setF F.GANG_STAT_REACH reach.toNat (setLink l 0 (modLink l (fun _ => {}) s))
      let cells := x.kept.map Prod.snd ++ x.queue
      let lost := cells.countP fun c => (linkTo s (cDchip c)).isNone
      let s := cells.foldl (fun t c =>
        match linkTo t (cDchip c) with
        | some k => modLink k (fun y => { y with queue := y.queue ++ [c] }) t
        | none => discardCell c t) s
      raise 0x1910 l (cel 0x1910 l 3 ((x.next + 1023) % 1024) x.acked lost (holdForwarded s)))

/-- A LOCKED link sends: new cells while fewer than 512 are unacknowledged and there is credit, else IDLE (R410, R411). -/
def sendLink : Nat → Nat → State → State
  | 0, _, s => s
  | fuel + 1, l, s =>
    let x := linkOf s l
    if linkState s l ≠ 4 then s
    else
      match x.queue with
      | c :: t =>
        if 512 ≤ x.kept.length ∨ (x.cred + 1024 - x.sent % 1024) % 1024 = 0 then sendFrame l 0 0 (idleCell s) s
        else
          let s := sendFrame l 1 x.next c s
          sendLink fuel l (modLink l (fun x => { x with
            queue := t
            next := (x.next + 1) % 1024
            sent := (x.sent + 1) % 1024
            kept := x.kept ++ [(x.next, c)] }) s)
      | [] => sendFrame l 0 0 (idleCell s) s

/-- The frames that a link sends in 10 ns: a frame time is 0.68 ns at 32 lanes (R406). (log 3, DESIGN CHOICE, unsafe) -/
def linkFrames (s : State) (l : Nat) : Nat := match getF s F.GANG_LNK_CTL_WIDTH l with | 0 => 14 | 1 => 7 | _ => 3

/-- The part of its cycles that a region runs, in 32nds: its floor or skipping (R470, R471), at most every other from step 4 of a power
failure on (R453), and every other of those while its detector has tripped (R465). (log 3, DESIGN CHOICE, unsafe) -/
def regionRate (s : State) (n : Nat) : Nat :=
  let m := getF s F.THM_LVL_MODE n
  let r := if m = 0 then 32 else if m = 1 then 2 * (16 - min 16 (getF s F.THM_LVL_SKIPM n)) else if m = 2 then 16 else 8
  let r := if 4 ≤ getF s F.PWR_PF_STEP then min 16 r else r
  if (getF s F.PWR_DROOPSTAT_ACTIVE).testBit n then r / 2 else r

/-- What the switch core and the links do in 10 ns, 20 nominal CORE cycles: a cell time for each two cycles that its region 24 runs (R16), and what each
link sends. (log 3, DESIGN CHOICE, unsafe) -/
def switchTick (s : State) : State :=
  let n := s.sw.phase + 20 * regionRate s 24
  let s := { s with sw := { s.sw with phase := n % 64 } }
  let s := (List.range (n / 64)).foldl (fun t _ => cellTime t) s
  (List.range 3).foldl (fun t l => sendLink (linkFrames s l) l t) s

end Sys2Proof.Machine
end

