-- ==== Sys2Proof/Machine/Vault.lean ====
section
/-! DEFINITION. The vault drives: the images of the journal regions and their headers (R459 to R464). -/

namespace Sys2Proof.Machine

/-- The rows of an image that are written: those that hold a byte of the ring from the tail to the last record, or of a tun image in use
(R463). -/
def imageRows (s : State) (mirror : Bool) : List Nat :=
  ((if mirror then s.ta.mrecs else s.ta.recs).flatMap (fun r => rowsOf r.off (64 * r.len)) ++
    ((if mirror then s.ta.ptuns else s.ta.tuns).flatMap fun kv => rowsOf (ringSize s + 2 ^ 25 * kv.1) (2 ^ 25))).eraseDups

/-- The header block of an image (R462). (log 71, DESIGN CHOICE, unsafe) -/
def imageHeader (s : State) (mirror : Bool) (kind gen : Nat) : List Byte :=
  let oldest := if mirror then s.ta.mrecs.head? else s.ta.recs.head?
  let h := leBytes 4 0x5456_415A ++ [1, BitVec.ofNat 8 kind, BitVec.ofNat 8 (if mirror then 1 - headNo s else headNo s),
      BitVec.ofNat 8 (getF s F.PWR_VSTAT_FAILED)] ++ leBytes 8 gen ++
    leBytes 8 (match oldest with | some r => r.seq | none => if mirror then getF s F.SYS_PTR_SEQ_MACC + 1 else nextSeq s) ++
    leBytes 8 (match oldest with | some r => r.off | none => if mirror then 0 else s.ta.woff) ++
    leBytes 2 (getF s F.TA_JCFG_TUNS) ++ zeros 6 ++ leBytes 8 s.dtime.toNat ++ zeros 8
  h ++ leBytes 8 (crc64 h) ++ zeros 4032

/-- Writes an image (R463, R464): its rows, unless they are current already, and then its header, to every drive that has not failed. (log 71, DESIGN CHOICE, unsafe; 121, DEDUCED, unsafe) -/
def writeImage (mirror : Bool) (kind : Nat) (rows : Bool) (s : State) : State :=
  let ds := vaultDrives s
  let gen := s.pwr.gen + 1
  if ds = [] then setF F.PWR_VSTAT_LOSTIMG 1 s
  else
    let base := if mirror then mirrorRing else ownRing
    let blocks := if rows then (imageRows s mirror).flatMap fun r =>
        rowBlocks ds (rowUnits s base (2 ^ 34) r) (imagePlace mirror + 0x40 + 64 * r) (leBytes 8 gen ++ zeros 56)
      else []
    let head := imageHeader s mirror kind gen
    let t := emit (.vaultWrite (ds.map fun d => (d, imagePlace mirror, head, zeros 64))) (if rows then emit (.vaultWrite blocks) s else s)
    let t := { t with pwr := { t.pwr with gen := gen, images := t.pwr.images ||| (if mirror then 2 else 1) } }
    let t := setF F.PWR_VSTAT_DEGR (b2n (decide (ds.length < 4))) t
    if ds.length ≤ 2 then setF F.PWR_VSTAT_LOSTIMG 1 t else t

/-- VAULT_DRIVE_TIMEOUT (R464): a vault drive that fails a write, or is silent for 100 ms, is left out of what is written from then on. -/
def execVaultDriveTimeout (d : BitVec 2) (s : State) : Res :=
  ok (if isF s F.PWR_VAULT_EN then setF F.PWR_VSTAT_FAILED (getF s F.PWR_VSTAT_FAILED ||| 2 ^ d.toNat) s else s)

end Sys2Proof.Machine
end

