-- ==== Sys2Proof/Machine/Partner.lean ====
section
/-! DEFINITION. The partner: heartbeats, races, fences, takeover, SYNC, failback, handover and the link rekey (R416 to R447, R574). -/

namespace Sys2Proof.Machine

/-! ### Groups (R416 to R419) -/

/-- The head state, the partner's state as its last heartbeat gave it, and whether the partner is ACTIVE with the link up (R417). -/
def headState (s : State) : Nat := getF s F.SYS_HEAD_STATE
@[inherit_doc headState] def partnerState (s : State) : Nat := getF s F.SYS_PTR_STAT_PSTATE
@[inherit_doc headState] def partnerActive (s : State) : Bool := linkUp s && decide (partnerState s = 2)

/-- The TWIN streams of this head's table that it sends. -/
def twinStreams (s : State) : List Nat := (List.range 4096).filter fun n => strValid s n && !strRecv s n && decide (strMode s n = 2)

/-- Enters a head state; HEALTH_OUT toggles in SYNC, ACTIVE, STANDBY and DRAIN (R417, R428). A head that becomes ACTIVE sends copies of a TWIN stream only
once the OWNER has announced an epoch (R309). -/
def setHead (v : Nat) (s : State) : State :=
  setF F.SYS_HEAD_STATE v { s with
    rst := { s.rst with health := decide (1 ≤ v ∧ v ≤ 4) }
    str := if v = 2 ∧ getF s F.SYS_HEAD_STATE ≠ 2 then { s.str with mute := twinStreams s } else s.str }

/-- The position of a group and its recorded owner. -/
def grpPos (s : State) (g : Nat) : Nat := getF s F.SYS_GRP_POS g
@[inherit_doc grpPos] def grpOwner (s : State) (g : Nat) : Nat := getF s F.SYS_GRP_OWNER g

/-- The groups that pass a test, ascending. -/
def groups (p : Nat → Bool) : List Nat := (List.range 1024).filter p

/-- Puts groups into a position. -/
def setPos (v : Nat) (gs : List Nat) (s : State) : State := gs.foldl (fun t g => setF F.SYS_GRP_POS v t g) s

/-- The groups that this head owns: recorded as its own, and neither HELD nor to be received. -/
def ownedGroups (s : State) : List Nat := groups fun g => decide (grpOwner s g = headNo s) && decide (grpPos s g ≠ 1) && decide (grpPos s g ≠ 4)

/-- The XOR of the OEPOCH of some groups (R421). -/
def oepochXor (s : State) (gs : List Nat) : Nat := gs.foldl (fun x g => x ^^^ getF s F.SYS_GRP_OEPOCH g) 0

/-- A write of SYS_GRP (R445): ignored with a record while the group is not SETTLED. -/
def wrSysGrp (g : Nat) (v : Word) (s : State) : State :=
  if grpPos s g ≠ 0 then celRefused .SYS_GRP v s g else setF F.SYS_GRP_HOME (bits v 0 0) s g

/-- A write of GANG_CFG (R446): ignored with a record while a cell link is enabled. -/
def wrGangCfg (v : Word) (s : State) : State :=
  if (List.range 3).any fun l => isF s F.GANG_LNK_CTL_EN l then celRefused .GANG_CFG v s
  else wr .GANG_CFG (writeFields (rd s .GANG_CFG) v (RegName.info .GANG_CFG).fields) s

/-! ### Heartbeats (R421) -/

/-- The SEQ of the last record of the own ring that is DONE. -/
def lastDone (s : State) : Nat := match s.ta.recs.find? fun r => !r.done with | some r => r.seq - 1 | none => nextSeq s - 1

/-- The lowest pending SEQ of the partner's ring, of frames and of records whose stream contexts have not ended (R308, R421). -/
def mirrorPending (s : State) : Nat :=
  (((s.str.ctxs.filter fun kv => kv.2.mirror && decide (kv.2.cask ≠ 0)).map fun kv => kv.2.cask) ++
    ((s.str.waits.filter fun w => w.info.mirror && decide (w.info.cask ≠ 0)).map fun w => w.info.cask)).foldl min (ckptSeq s true)

/-- The bytes of a heartbeat (R421). -/
def heartbeatBytes (s : State) : List Byte :=
  leBytes 4 0x4842_5A4E ++ leBytes 1 (headNo s) ++ leBytes 1 (headState s) ++ leBytes 2 s.partner.hbnum ++ leBytes 8 s.dtime.toNat ++
    leBytes 8 (lastDone s) ++ leBytes 8 (getF s F.SYS_PTR_SEQ_MACC) ++ leBytes 8 (ckptSeq s false) ++ leBytes 8 (mirrorPending s) ++
    leBytes 8 (oepochXor s (ownedGroups s)) ++ leBytes 4 (getF s F.XE_PLINK_EPOCH) ++ zeros 4

/-- HEARTBEAT_SEND (R421, R428): every P port carries the heartbeat, unless a reset has silenced the lanes or they are unpowered. (log 108, DESIGN CHOICE, safe) -/
def execHeartbeatSend (s : State) : Res :=
  ok (if s.rst.asserted.isSome || s.rst.idle || headState s = 6 then s
    else
      let s := { s with partner := { s.partner with hbnum := (s.partner.hbnum + 1) % 65536 } }
      (List.range 7).foldl (fun t i => toPartner (.heartbeat (76 + i) (heartbeatBytes s)) t) s)

/-- The GIVING groups whose OWNER change has not been journalled (R437, R457). (log 113, DEDUCED, unsafe) -/
def unjournalled (s : State) : List Nat :=
  groups fun g => decide (grpPos s g = 3) && !s.partner.expired.contains g

/-- What changes when the partner's state changes: the epochs of the TWIN streams when it leaves or enters ACTIVE (R309); a handover whose
OWNER change is not journalled is given up when the partner drains (R457), and failback stops (R436). (log 113, DEDUCED, unsafe) -/
def partnerChanged (old new : Nat) (s : State) : State :=
  let s := if decide (old = 2) = decide (new = 2) then s else (sentStreams s fun m => m = 2).foldl (fun t n => raiseEpoch n t) s
  let s := if new = 2 then s else { s with partner := { s.partner with failback := false }, upd := { s.upd with theirs := false } }
  if new = 4 ∧ old ≠ 4 then
    let gs := unjournalled s
    gs.foldl (fun t g => anaChange g t) (setPos 0 gs s)
  else s

/-- A pending sequence number that the head to which a frame belongs has homed is pending no more. -/
def homedBelow (low : Nat) (c : Option Nat) : Option Nat := c.bind fun n => if n < low then none else some n

/-- A frame that belongs to the partner is CLEAN in a ring's sequence space below the number that the partner reports as its lowest pending one
(R421, R424). (log 179, DEDUCED, unsafe) -/
def cleanShadow (s : State) (own theirs : Nat) (p : Page) : Page :=
  let q := { p with ck := homedBelow own p.ck, pck := homedBelow theirs p.pck }
  if pageMine s p then p
  else if q.st = .dirty ∧ q.ck = none ∧ q.pck = none then { q with st := .clean }
  else q
@[inherit_doc cleanShadow] def cleanShadows (own theirs : Nat) (s : State) : State :=
  { s with me := { s.me with pages := kmapV s.me.pages fun _ p => cleanShadow s own theirs p } }

/-- HEARTBEAT (R416, R421, R429): its fields are taken where MAGIC and identity are those expected. A head that has been declared dead is
ignored until it reports BOOT or SYNC. -/
def execHeartbeat (_port : BitVec 7) (bytes : List Byte) (s : State) : Res :=
  ok (if fieldN bytes 0 4 ≠ 0x4842_5A4E then s
    else if fieldN bytes 4 1 = headNo s then (if headState s = 1 then celOpen 0 (headNo s) 0 0 s else s)
    else if fieldN bytes 4 1 ≠ 1 - headNo s then s
    else
      let new := fieldN bytes 5 1 % 8
      if s.partner.dead && decide (1 < new) then s
      else
        let old := partnerState s
        let s := setF F.SYS_PTR_STAT_PSTATE new { s with
          partner := { s.partner with hb := true, lastState := new, pdone := fieldN bytes 16 8, oxor := fieldN bytes 48 8, epoch := fieldN bytes 56 4 }
          ta := { s.ta with plow := fieldN bytes 40 8 } }
        let s := cleanShadows (fieldN bytes 40 8) (fieldN bytes 32 8) s
        if old = new then s else partnerChanged old new s)

/-! ### Fences (R431) -/

/-- A head fences itself, or obeys FENCE_IN_N (R431): FENCED, its D root ports but the vault's in hot reset, the cellar flushed, and a head
reset with the source "fenced". -/
def fence (self : Bool) (s : State) : State :=
  let s := setHead 5 { s with partner := { s.partner with fencedSelf := s.partner.fencedSelf || self, race := false } }
  assertReset 0x08 (requestFlush 4 s)

/-- FENCE_IN (R431): a head in BOOT goes on with its boot and waits at the end of it. (log 111, DEDUCED, unsafe) -/
def execFenceIn (s : State) : Res :=
  let t := { s with partner := { s.partner with fenceIn := true } }
  ok (if headState s = 0 ∨ s.partner.fenceIn then t else fence false t)

/-- The boot ends: the head enters SYNC, or waits for FENCE_IN_N; at SYNC it registers its key at the arbiter (R430, R431). -/
def arbiterKey (s : State) : Nat := 0x4E5A_4844_0000_0000 + headNo s
@[inherit_doc arbiterKey] def toArbiter (op : Nat) (s : State) : State :=
  emit (.arbiter op (getF s F.SYS_PTR_ARB_PORT) (getF s F.SYS_PTR_ARB_DEV) (getF s F.SYS_PTR_ARB_NSID) (arbiterKey s)) s
@[inherit_doc arbiterKey] def leaveBoot (s : State) : State :=
  if s.partner.fenceIn then { s with boot := { s.boot with waits := true } }
  else toArbiter 0 (setHead 1 { s with boot := { s.boot with waits := false } })

/-- FENCE_IN_RELEASE (R431). (log 111, DEDUCED, unsafe) -/
def execFenceInRelease (s : State) : Res :=
  let t := { s with partner := { s.partner with fenceIn := false } }
  ok (if s.boot.waits then leaveBoot t else t)

/-! ### Declaring the partner dead (R427 to R430) -/

/-- The PARTNER queue pairs in RTS. -/
def partnerQps (s : State) : List Nat := (s.rx.qps.filter fun kv => decide (kv.2.kind = 2) && decide (kv.2.st = 3)).map Prod.fst

/-- A rekey is abandoned by the dead declaration (R422). -/
def dropRekey (s : State) : State := setF F.XE_PLINK_NEXT_STAGED 0 (setF F.XE_PLINK_NEXT_BUSY 0 { s with rekey := {} })

/-- The exit of STANDBY (R491): clocks, steward cores 1 to 15 and the metadata cache return, and the head enters ACTIVE. -/
def leaveStandby (s : State) : State :=
  let run := getF s F.SYS_CORE_RUN
  setHead 2 (setF F.PWR_PSTATE_CUR 0 { s with
    pwr := { s.pwr with want := none }
    stews := kmapV s.stews fun k c => if run.testBit k then { c with run := true } else c })

/-- The partner is declared dead (R427, R429, R431, R432 steps 1 and 2): FENCE_OUT_N, solo mode with its image, the arbiter, and every
group of the partner TAKING; its own HELD and GIVING groups stay its own. A degraded vault without a spare refuses solo mode
(R464). (log 109, DEDUCED, unsafe; 112, DEDUCED, unsafe) -/
def declareDead (s : State) : State :=
  if s.partner.dead then s
  else if s.pwr.degraded then fence true s
  else
    let theirs := groups fun g => decide (grpOwner s g ≠ headNo s)
    let mine := groups fun g => decide (grpOwner s g = headNo s)
    let s := setPos 2 theirs (setPos 0 mine s)
    let s := setF F.SYS_PTR_STAT_SYNCD 0 (setF F.SYS_PTR_STAT_TAKE 1 (setF F.TA_CTL_SOLO 1 s))
    let s := { s with
      partner := { s.partner with dead := true, fenceOut := true, race := false, failback := false, expired := [], syncing := false, t0 := s.dtime.toNat }
      ta := { s.ta with mstop := true, mheld := [] } }
    let s := writeImage false 3 true (bungPartnerDead (dropRekey s))
    let s := if s.partner.arb then s else toArbiter 1 s
    if headState s = 3 then leaveStandby s else s

/-- A race starts: every group HELD, and an Acquire goes to the arbiter (R430). -/
def startRace (s : State) : State :=
  let s := setPos 1 (groups fun _ => true) s
  let s := bump .SYS_RACE_CNT { s with partner := { s.partner with race := true, tries := 1 } }
  toArbiter 1 s

/-- The partner-health event source and its record: one of the conditions of R429 holds. (log 110, DEDUCED, unsafe) -/
def healthNote (s : State) : State :=
  let p := b2n (decide (4 ≤ getF s F.SYS_PTR_STAT_MISSED)) + 2 * b2n (!isF s F.SYS_PTR_STAT_HLTH)
  raise 0x0010 p (celOpen 0 p 0 0 s)

/-- Whether this head watches its partner. -/
def watches (s : State) : Bool := decide (2 ≤ headState s ∧ headState s ≤ 4) && !s.partner.dead

/-- HEARTBEAT_PERIOD_END (R421, R429, R430). (log 108, DESIGN CHOICE, safe; 110, DEDUCED, unsafe) -/
def execHeartbeatPeriodEnd (s : State) : Res :=
  ok (if s.partner.hb then setF F.SYS_PTR_STAT_MISSED 0 { s with partner := { s.partner with hb := false } }
    else
      let n := getF s F.SYS_PTR_STAT_MISSED + 1
      let s := setF F.SYS_PTR_STAT_MISSED (min 15 n) (bump .SYS_HBMISS_CNT s)
      if n ≠ 4 || !watches s then s
      else if !isF s F.SYS_PTR_STAT_HLTH then declareDead s
      else startRace (healthNote s))

/-- HEALTH_TIMEOUT (R428, R429). (log 108, DESIGN CHOICE, safe; 110, DEDUCED, unsafe) -/
def execHealthTimeout (s : State) : Res :=
  let was := isF s F.SYS_PTR_STAT_HLTH
  let s := setF F.SYS_PTR_STAT_HLTH 0 s
  ok (if !was || !watches s then s
    else if 4 ≤ getF s F.SYS_PTR_STAT_MISSED then declareDead s
    else healthNote s)

/-- PARTNER_HEALTH_EDGE (R428). -/
def execPartnerHealthEdge (s : State) : Res := ok (setF F.SYS_PTR_STAT_HLTH 1 s)

/-- ARBITER_ANSWER (R430): success wins the race, which counts as a dead declaration; Reservation Conflict fences this head. An Acquire of
a head that has declared its partner dead without a race takes the reservation that solo mode holds (R427). -/
def execArbiterAnswer (won : Bool) (s : State) : Res :=
  ok (if s.partner.race then
      if won then declareDead (setF F.SYS_PTR_STAT_RACE 1 { s with partner := { s.partner with arb := true } })
      else fence true (setF F.SYS_PTR_STAT_RACE 2 s)
    else if won && s.partner.dead then { s with partner := { s.partner with arb := true } }
    else s)

/-- ARBITER_RETRY (R430): the Acquire is sent again, four times in all. (log 108, DESIGN CHOICE, safe) -/
def execArbiterRetry (s : State) : Res :=
  ok (if !s.partner.race then s
    else if s.partner.tries < 4 then toArbiter 1 { s with partner := { s.partner with tries := s.partner.tries + 1 } }
    else fence true (setF F.SYS_PTR_STAT_RACE 3 s))

/-! ### Takeover (R432 to R434) -/

/-- This head becomes OWNER of groups, at boot, takeover or a handover that it receives: their skip windows start afresh and their index domains
are to be built (R169, R206). -/
def becomeOwner (gs : List Nat) (s : State) : State :=
  let s := skipReset gs s
  { s with gl := { s.gl with builds := s.gl.builds ++ gs.flatMap fun g => (List.range 8).map fun p => domKey g p } }

/-- Step 5 of R432 for a group: the OWNER change is journalled, and the group is SETTLED with its skip windows afresh, its index domains
to be built and its held commands released (R169, R206). -/
def takeGroup (g : Nat) (s : State) : State :=
  let e := getF s F.SYS_GRP_OEPOCH g + 1
  let s := journalRoot [.owner g (headNo s) e] s
  anaChange g (becomeOwner [g] (setF F.SYS_GRP_POS 0 (putOwner g (headNo s) e s) g))

/-- Commands that were forwarded to the dead partner and not answered run again on this head (R433). -/
def rerunForwards (s : State) : State :=
  let mine := s.host.fwds.filter fun c => decide (groupChip s (volGroup s c.vol) = gangChip s)
  mine.foldl (fun t c => startIo c (bump .SYS_REFWD_CNT t)) (mine.foldl (fun t c => dropForward c t) s)

/-- Steps 4 to 6 of R432, once every accepted record is applied. -/
def takeAll (s : State) : State :=
  let gs := groups fun g => grpPos s g = 2
  let s := pairPartnerDead (adoptTuns mirrorRing s)
  let s := gs.foldl (fun t g => takeGroup g t) s
  let s := rerunForwards s
  let s := ((sentStreams s fun _ => true).filter fun n => gs.contains (volGroup s (strVol s n))).foldl (fun t n => raiseEpoch n t) s
  let s := bump .SYS_TAKE_CNT (setF F.SYS_PTR_STAT_TAKE 0 s)
  let s := raise 0x0011 gs.length (cel 0x0011 0 4 gs.length (oepochXor s gs) 0 s)
  if headState s = 1 then setHead 2 (becomeOwner (groups fun g => decide (grpOwner s g = headNo s) && !gs.contains g) s) else s

/-- 20,000 CORE cycles have passed since FENCE_OUT_N was asserted, and the pool members may be written for a partner group (R432 step 2). -/
def fenceHeld (s : State) : Bool := decide (s.partner.t0 + 10_000 ≤ s.dtime.toNat)

/-- TAKEOVER (R432): accepted records that are not yet applied are applied; once they all are, and FENCE_OUT_N has stood for 20,000 CORE
cycles, the groups are taken. (log 108, DESIGN CHOICE, safe) -/
def execTakeover (s : State) : Res :=
  ok (if !(s.partner.dead && isF s F.SYS_PTR_STAT_TAKE) then s
    else
      let s := applyBacklog s.ta.mrecs s
      if !fenceHeld s || s.ta.mrecs.any (fun r => !r.done) then s else takeAll s)

/-! ### SYNC (R435, R116, R422, R521) -/

/-- The registers that SYNC copies: the binding banks, the pool record and the ownership of groups. -/
def syncRegs : List RegName :=
  [.FSQ_PSET_CTL, .FSQ_ENTRY, .FSQ_BIND, .PLC_GEOM, .PLC_SPARE, .PLC_MEM, .PLC_BAND, .PLC_RKGEOM, .SYS_GRP, .UPD_FMT]

/-- The registers of a list that have been written, with their values. -/
def wordsOf (s : State) (rs : List RegName) : List (Nat × Word) :=
  s.csr.filter fun kv => match regAt kv.1 with | some (r, _) => rs.contains r | none => false

/-- The bytes that are not zero in a range of memory, each with its address. -/
def cellsIn (s : State) (lo n : Nat) : List (Nat × List Byte) :=
  (s.mem.filter fun c => decide (lo ≤ c.1) && decide (c.1 < lo + n)).map fun c => (c.1, [c.2])

/-- The unretired records of the own ring with the tun images, as SYNC copies them (R435 step 3). -/
def ringCopy (s : State) : List Rec :=
  let imgs := s.ta.tuns.flatMap fun kv =>
    (cellsIn s (imageAddr s ownRing kv.1) (2 ^ 25)).map fun c => (kv.1, c.1 - imageAddr s ownRing kv.1, c.2)
  s.ta.recs.zipIdx.map fun (r, i) => ⟨r.off, rdB s (ownRing + r.off) (64 * r.len), r.acts, if i = 0 then imgs else []⟩

/-- What the survivor copies (R435 steps 2 and 3). -/
def syncCopy (s : State) : SyncCopy where
  words := wordsOf s syncRegs
  setHash := s.bung.setHash
  mem := cellsIn s volTableBase 0x100_0000 ++ cellsIn s (snapAddr s 0) (2 ^ 30)
  place := s.plc.place
  acts := s.plc.reloc.map fun kv => .reloc kv.1 kv.2.member kv.2.chunk
  ring := ringCopy s

/-- The value that a copy gives a register. -/
def copyWord (c : SyncCopy) (r : RegName) (i : Nat) : Word := kgetD (c.words) (r.addr i 0) (r.resetVal i)

/-- The versions in use are the lower of both heads' (R521). (log 115, DESIGN CHOICE, unsafe) -/
def syncFmt (c : SyncCopy) (s : State) : State :=
  let mine := getF s F.UPD_FMT_FMT
  let theirs := bits (copyWord c .UPD_FMT 0) 39 0
  setF F.UPD_FMT_FMT (((List.range 5).map fun i => min (mine / 256 ^ i % 256) (theirs / 256 ^ i % 256) * 256 ^ i).sum) s

/-- The link key epoch of a SYNC: one above the higher of the two that the heartbeats carry; the record counter restarts (R422). -/
def syncEpoch (s : State) : State :=
  setF F.XE_PLINK_EPOCH (max (getF s F.XE_PLINK_EPOCH) s.partner.epoch + 1) { s with xe := { s.xe with linkSeq := 0 } }

/-- The survivor starts SYNC (R435 steps 1 and 3): FENCE_OUT_N is released, its PARTNER queue pairs run again, and the mirror receiver
takes the partner's ring from where it stands. Each head registers its key at the arbiter at each SYNC (R430). (log 115, DESIGN CHOICE, unsafe) -/
def syncSurvivor (copy : Option SyncCopy) (s : State) : State :=
  let s := { s with partner := { s.partner with fenceOut := false, syncing := true }, ta := { s.ta with mstop := false } }
  let s := (s.rx.qps.filter fun kv => decide (kv.2.kind = 2)).foldl (fun t kv => toRts kv.1 t) s
  let s := syncEpoch (setF F.SYS_PTR_SEQ_MACC s.partner.pdone s)
  let s := match copy with | some c => syncFmt c s | none => s
  toPartner (.sync (syncCopy s)) (toArbiter 0 s)

/-- The owner of a group at a cold start of both heads: the head whose recorded OEPOCH is higher, or the recorded owner where they are
equal; a change of OWNER adds one (R418, R435). (log 114, DEDUCED, unsafe) -/
def coldOwner (c : SyncCopy) (g : Nat) (s : State) : State :=
  let mine := getF s F.SYS_GRP_OEPOCH g
  let theirs := bits (copyWord c .SYS_GRP g) 63 32
  let winner := if theirs < mine then headNo s else if mine < theirs then 1 - headNo s else grpOwner s g
  let was := if mine < theirs then bits (copyWord c .SYS_GRP g) 1 1 else grpOwner s g
  putOwner g winner (max mine theirs + b2n (decide (winner ≠ was))) s

/-- The returning head takes the binding banks of a survivor that runs the same flow program set, and clears its bung state (R116). -/
def syncBanks (c : SyncCopy) (s : State) : State :=
  let s := { s with bung := { s.bung with pair := false, solo := false, resend := none } }
  let s := wr .FSQ_BUNG_STAT (RegName.resetVal .FSQ_BUNG_STAT 0) s
  if c.setHash ≠ s.bung.setHash then s
  else
    let s := { s with csr := (s.csr.filter fun kv => match regAt kv.1 with | some (r, _) => !([RegName.FSQ_BIND].contains r) | none => true) }
    let s := setF F.FSQ_PSET_CTL_BANKSEL (bits (copyWord c .FSQ_PSET_CTL 0) F.FSQ_PSET_CTL_BANKSEL.hi F.FSQ_PSET_CTL_BANKSEL.lo) s
    (c.words.filter fun w => match regAt w.1 with | some (r, _) => [RegName.FSQ_BIND].contains r | none => false).foldl
      (fun t w => { t with csr := kput t.csr w.1 w.2 }) s

/-- The returning head takes what the survivor sends (R435 steps 2 to 4), or the heads agree at a cold start of both. (log 114, DEDUCED, unsafe) -/
def syncReturn (c : SyncCopy) (s : State) : State :=
  let s := syncEpoch (syncFmt c { s with partner := { s.partner with syncing := true } })
  let s :=
    if partnerState s = 2 then
      let s := syncBanks c { s with ta := { s.ta with recs := [], waiting := [], woff := 0, mrecs := [], mheld := [], ptuns := [] } }
      let regs : List RegName := [.PLC_GEOM, .PLC_SPARE, .PLC_MEM, .PLC_BAND, .PLC_RKGEOM]
      let s := (c.words.filter fun w => match regAt w.1 with | some (r, _) => regs.contains r | none => false).foldl
        (fun t w => { t with csr := kput t.csr w.1 w.2 }) s
      let s := (List.range 1024).foldl (fun t g => wr .SYS_GRP (setBits (copyWord c .SYS_GRP g) 4 2 1) t g) s
      let s := wipe (snapAddr s 0) (snapAddr s 0 + 2 ^ 30 - 1) (wipe volTableBase 0x20FF_FFFF s)
      let s := c.mem.foldl (fun t m => wrB m.1 m.2 t) { s with plc := { s.plc with place := c.place, reloc := [] } }
      c.acts.foldl (fun t a => applyAct false 0 a t) s
    else (List.range 1024).foldl (fun t g => coldOwner c g t) s
  let s := c.ring.foldl (fun t r => acceptRecord r t) { s with ta := { s.ta with mstop := false } }
  applyBacklog s.ta.mrecs s

/-- SYNC_START (R435): the survivor's part once the partner's heartbeats report BOOT or SYNC, and the part of a head in SYNC, which hears the
partner, with what its partner sent. A heartbeat of equal identity is none of the partner's, so both heads stay in SYNC (R416). -/
def execSyncStart (copy : Option SyncCopy) (s : State) : Res :=
  ok (if s.partner.dead then
      if partnerState s ≤ 1 && s.partner.hb && !isF s F.SYS_PTR_STAT_TAKE then syncSurvivor copy s else s
    else
      match copy with
      | some c => if headState s = 1 && s.partner.hb && !s.partner.race then syncReturn c s else s
      | none => s)

/-- SYNC_COMPLETE (R435 step 5, R427): with the lag within LAGMAX the survivor leaves solo mode and releases the arbiter, and a head in SYNC
becomes ACTIVE with every group SETTLED. -/
def execSyncComplete (s : State) : Res :=
  ok (if !s.partner.syncing || decide (lagMax s < applyLag s) then s
    else
      let done (t : State) : State := setF F.SYS_PTR_STAT_SYNCD 1 { t with partner := { t.partner with syncing := false } }
      if s.partner.dead then
        done (toArbiter 2 (setF F.TA_CTL_SOLO 0 { s with partner := { s.partner with dead := false, arb := false } }))
      else if headState s = 1 then
        let all := groups fun _ => true
        let t := setHead 2 (setPos 0 all s)
        all.foldl (fun t g => anaChange g t) (done (becomeOwner (ownedGroups t) t))
      else s)

/-- SYNC_PARTNER_TIMEOUT (R435). -/
def execSyncPartnerTimeout (s : State) : Res :=
  ok (if headState s = 1 && !s.partner.race && !s.partner.dead then startRace s else s)

/-! ### Handover and failback (R435 to R438) -/

/-- A handover of a group from this head begins (R437 step 1). (log 70, DEDUCED, unsafe) -/
def startGiving (g : Nat) (s : State) : State := toPartner (.handover g) (anaChange g (setF F.SYS_GRP_POS 3 s g))

/-- The next group that failback hands over: the lowest of those whose HOME is the partner (R436). -/
def nextFailback (s : State) : State :=
  if !s.partner.failback || (groups fun g => grpPos s g = 3) ≠ [] then s
  else if !partnerActive s then { s with partner := { s.partner with failback := false } }
  else
    match (ownedGroups s).find? fun g => getF s F.SYS_GRP_HOME g ≠ headNo s with
    | some g => startGiving g s
    | none => { s with partner := { s.partner with failback := false } }

/-- Hands over the groups that this head owns, at most 64 at once, where the partner's last heartbeat reports ACTIVE (R438, R457, R472, R490). -/
def handOver (s : State) : State :=
  if !partnerActive s then s
  else (((ownedGroups s).filter fun g => grpPos s g = 0).take (64 - (groups fun k => grpPos s k = 3).length)).foldl (fun t g => startGiving g t) s

/-- Whether the head hands over every group it owns: in step 3 of a power fail, for an orderly stop or a request of STANDBY or PARK, and in the DRAIN
of an activation. -/
def handing (s : State) : Bool :=
  if getF s F.PWR_PF_STEP ≠ 0 then decide (getF s F.PWR_PF_STEP = 3) && decide (getF s F.PWR_PF_HOMS ≠ 0)
  else decide (s.pwr.want = some 1) || decide (s.pwr.want = some 2) || s.upd.draining

/-- The handovers that follow those that have ended: of a head that hands over every group, or of failback (R436, R438). (log 113, DEDUCED, unsafe) -/
def nextHandover (s : State) : State := if handing s then handOver s else nextFailback s

/-- FAILBACK_SETTLE (R436). -/
def execFailbackSettle (s : State) : Res :=
  ok (if headState s = 2 && isF s F.SYS_PTR_CTL_FBEN && partnerActive s then
      nextFailback { s with partner := { s.partner with failback := true } }
    else s)

/-- HANDOVER_START (R437 step 1, R438, R457): this head gives a group it owns, at most 64 at once; or the partner's message makes it the
receiver, which a head in the power-fail sequence refuses. -/
def execHandoverStart (g : BitVec 10) (theirs : Bool) (s : State) : Res :=
  let n := g.toNat
  ok (if theirs then
      if getF s F.PWR_PF_STEP = 0 && decide (grpPos s n = 0) && decide (grpOwner s n ≠ headNo s) then
        anaChange n (setF F.SYS_GRP_POS 4 s n)
      else s
    else if partnerActive s && decide (grpPos s n = 0) && decide (grpOwner s n = headNo s) && decide ((groups fun k => grpPos s k = 3).length < 64) then
      startGiving n s
    else s)

/-- HANDOVER_WAIT_EXPIRY (R437 steps 2 and 3): the OWNER change is journalled. (log 108, DESIGN CHOICE, safe) -/
def execHandoverWaitExpiry (g : BitVec 10) (s : State) : Res :=
  let n := g.toNat
  ok (if grpPos s n = 3 && !s.partner.expired.contains n then
      journalRoot [.owner n (1 - headNo s) (getF s F.SYS_GRP_OEPOCH n + 1)] { s with partner := { s.partner with expired := n :: s.partner.expired } }
    else s)

/-- The OWNER change of a group that this head gives is in place in both heads (R437 step 5). -/
def giveGroup (a : Act) (s : State) : State :=
  match a with
  | .owner g head e =>
    if grpPos s g = 3 ∧ head ≠ headNo s then
      let s := skipReset [g] (setF F.SYS_GRP_POS 0 (putOwner g head e s) g)
      let s := { s with partner := { s.partner with expired := s.partner.expired.erase g } }
      anaChange g (if s.partner.failback then bump .SYS_FAILBACK_CNT s else s)
    else s
  | _ => s

/-- JRNL_RECORD_DONE (R253, R437): the writes of the lowest record not yet DONE are complete in both places; the groups whose OWNER change
it carries are given, and the next handovers begin. -/
def execJrnlRecordDone (s : State) : Res :=
  ok (match s.ta.recs.find? fun r => !r.done with
    | none => s
    | some r => nextHandover (r.acts.foldl (fun t a => giveGroup a t) (journalDone r s)))

/-- The OWNER change of a group that this head receives has been applied (R437 steps 4 and 5): its skip windows start afresh, its domains
are to be built, its streams get a new epoch, and its held commands are released (R169, R206, R316). -/
def settleReceived (g : Nat) (s : State) : State :=
  if grpPos s g = 4 ∧ grpOwner s g = headNo s then
    let s := becomeOwner [g] (setF F.SYS_GRP_POS 0 s g)
    let s := ((sentStreams s fun _ => true).filter fun n => volGroup s (strVol s n) = g).foldl (fun t n => raiseEpoch n t) s
    anaChange g s
  else s

/-- The groups whose OWNER change a record carries. -/
def ownerGroups (r : JRec) : List Nat := r.acts.filterMap fun a => match a with | .owner g _ _ => some g | _ => none

/-- The accepted records of the mirror are applied as far as their pages are resident, and the groups that this head has thereby received
are settled (R424, R437). -/
def runMirror (s : State) : State :=
  let t := applyBacklog s.ta.mrecs s
  (t.ta.mrecs.flatMap ownerGroups).foldl (fun u g => settleReceived g u) t

/-- PAGE_INSTALLED (R130, R141): `ans` are what the positions of the home's frame answer for its block. The page's forwarded words are
rewritten (R261), and the mirror's backlog may go on. -/
def execPageInstalled (page : Nat) (ans : List DriveAns) (s : State) : Res := ok (runMirror (rewritePage page (pageInstalled page ans s)))

/-- MIRROR_RECORD_RECEIVED (R223, R254, R424 to R426, R437): a record of the partner is discarded, held behind a gap, or accepted and
applied; `good` says whether its tag verified. -/
def execMirrorRecordReceived (r : Rec) (good : Bool) (s : State) : Res :=
  let seq := (recordOf r).seq
  ok (if !good then celOpen 0x10 seq 0 0 (bump .XE_AUTHFAIL_CNT s)
    else if s.ta.mstop || decide (seq ≤ getF s F.SYS_PTR_SEQ_MACC) || decide (lagMax s < applyLag s) then s
    else if seq = getF s F.SYS_PTR_SEQ_MACC + 1 then
      runMirror (acceptHeld (s.ta.mheld.length + 1) (acceptRecord r s))
    else { s with ta := { s.ta with mheld := s.ta.mheld ++ [r] } })

/-! ### The link rekey (R422) -/

/-- A GO of head A is refused. -/
def rekeyRefused (v : Word) (s : State) : State := celRefused .XE_PLINK_NEXT v (setF F.XE_PLINK_NEXT_REFUSED 1 s)

/-- A write of XE_PLINK_NEXT; on head A GO starts the rekey. (log 116, DEDUCED, unsafe) -/
def wrPlinkNext (v : Word) (s : State) : State :=
  let s := wr .XE_PLINK_NEXT (writeFields (rd s .XE_PLINK_NEXT) v (RegName.info .XE_PLINK_NEXT).fields) s
  if !bit v 0 || headB s then s
  else if !isF s F.XE_PLINK_NEXT_STAGED || !linkUp s || isF s F.XE_PLINK_NEXT_BUSY then rekeyRefused v s
  else toPartner (.rekey (getF s F.XE_PLINK_NEXT_EPOCH) (isF s F.XE_PLINK_NEXT_EN)) (setF F.XE_PLINK_NEXT_BUSY 1 s)

/-- REKEY_GO (R422 steps 1 to 3). -/
def execRekeyGo (v : Word) (s : State) : Res := ok (wrPlinkNext v s)

/-- ACK has been sent or received: no new record is sent until SWITCH has gone out on every PARTNER queue pair (R422 step 5). -/
def rekeyDrain (s : State) : State :=
  setF F.XE_PLINK_NEXT_BUSY 1 { s with rekey := { draining := true, qps := partnerQps s } }

/-- REKEY (R422 step 4). -/
def execRekey (epoch : BitVec 32) (en : Bool) (s : State) : Res :=
  ok (if isF s F.XE_PLINK_NEXT_STAGED && decide (getF s F.XE_PLINK_NEXT_EPOCH = epoch.toNat) && decide (isF s F.XE_PLINK_NEXT_EN = en) then
      toPartner .rekeyAck (rekeyDrain s)
    else toPartner .rekeyNak s)

/-- REKEY_ACK (R422 step 5). -/
def execRekeyAck (s : State) : Res :=
  ok (if isF s F.XE_PLINK_NEXT_BUSY && !s.rekey.draining && !s.rekey.switched then rekeyDrain s else s)

/-- REKEY_NAK (R422 step 4). -/
def execRekeyNak (s : State) : Res :=
  ok (if isF s F.XE_PLINK_NEXT_BUSY && !s.rekey.draining && !s.rekey.switched then setF F.XE_PLINK_NEXT_REFUSED 1 (setF F.XE_PLINK_NEXT_BUSY 0 s) else s)

/-- REKEY_SWITCH (R422 steps 5 to 7). -/
def execRekeySwitch (qp : Option (BitVec 17)) (s : State) : Res :=
  ok (match qp with
    | some q => rekeyFinish { s with rekey := { s.rekey with got := q.toNat :: s.rekey.got } }
    | none =>
      if s.rekey.draining then
        rekeyFinish (s.rekey.qps.foldl (fun t q => toPartner (.rekeySwitch q) t) { s with rekey := { s.rekey with draining := false, switched := true } })
      else s)

/-! ### The partner window and PTP (R26, R443) -/

/-- PARTNER_READ_TIMEOUT (R26): the load completes with an access fault. -/
def execPartnerReadTimeout (k : BitVec 4) (addr : Word) (s : State) : Res :=
  ok (if regionOf s addr.toNat = .partner && ((kget s.stews k.toNat).any Stew.run) then raiseFault (.stew k.toNat) 0 fAccess addr.toNat s else s)

/-- PTP_MESSAGE (R443): DTIME takes the time of the source. (log 117, DEDUCED, unsafe) -/
def execPtpMessage (time : Word) (locks : Bool) (s : State) : Res :=
  ok { s with dtime := time, partner := { s.partner with locked := locks } }

end Sys2Proof.Machine
end

