-- ==== Sys2Proof/Machine/Accept.lean ====
section
/-! DEFINITION. The acceptance of engine jobs, chained jobs, deadlines and completion, over every engine class (R91 to R102). -/

namespace Sys2Proof.Machine

/-- The acceptance checks of a job by its class (R98, R102). -/
def checkJob (j : Job) (s : State) : Option JobResult :=
  if j.cls = cGrist then checkGrist j s
  else if j.cls = cLauter then checkLauter j s
  else if j.cls = cFpx then checkFpx j s
  else if j.cls = cComp then checkComp j s
  else if j.cls = cDecomp then checkDecomp j s
  else if j.cls = cCipher then checkCipher j s
  else if j.cls = cParity then checkParity j s
  else if j.cls = cDrvio then checkDrvio j s
  else if j.cls = cRdma then checkRdma j s
  else if j.cls = cMap then (if j.op = 7 then checkSnap j s else if j.op = 8 then checkDiff j s else checkMap j s)
  else if j.cls = cAlloc then checkAlloc j s
  else if j.cls = cJrnl then
    -- R453: from step 1 of the power-fail sequence on, an APPEND of a flow that is not yet accepted is refused.
    if j.op = 1 ∧ !j.fromStew ∧ getF s F.PWR_PF_STEP ≠ 0 then some (JobResult.of rFenced) else checkJrnl j s
  else if j.cls = cDmov then checkDmov j s
  else checkHost j s

/-- Whether the engine of a class accepts jobs now (R156, R184, R263, R385). (log 10, DESIGN CHOICE, unsafe) -/
def enabledNow (j : Job) (s : State) : Bool :=
  if j.cls = cLauter then isF s F.GL_CTL_EN
  else if j.cls = cMap ∨ j.cls = cFpx then isF s F.ME_CTL_EN
  else if j.cls = cAlloc ∨ j.cls = cJrnl then isF s F.TA_CTL_EN
  else if j.cls = cRdma then isF s F.RXE_CTL_EN
  else true

/-- The instance that serves a job: the bank of its bucket for a LAUTER job (R164), the root port for drive I/O (R100), else the one that R19 picks. Banks 0 to 3 are those of
L0. (log 9, DEDUCED, unsafe) -/
def jobInst (s : State) (j : Job) : Nat :=
  if j.cls = cLauter then
    let b := bucketOf s (volGroup s (jobVol s j 16)) (jobFp s j) % 8
    b / 4 * 0x8000 + b % 4
  else if j.cls = cDrvio then 0x4000 + dvPort s j
  else pickInst s j.cls j.inst

/-- Whether a job is taken now: its engine is enabled and a queue has room (R19). (log 10, DESIGN CHOICE, unsafe) -/
def acceptsNow (j : Job) (s : State) : Bool :=
  enabledNow j s && if j.cls = cLauter ∨ j.cls = cDrvio then !queueFull s j.cls (jobInst s j) else hasRoom s j.cls

/-- A class accepts a job: the first check that fails ends it, or it runs on the instance that takes it (R98, R100, R102). -/
def acceptJob (id : Nat) (j : Job) (s : State) : State :=
  let i := jobInst s j
  let s := modJob id (fun k => { k with inst := i }) s
  match checkJob j s with
  | some r =>
    let s := if j.cls ≠ cCipher then s
      else if r.code = rKeyempty then bump .XE_KEYEMPTY_CNT s
      else if r.code = rKeydenied then bump .XE_KEYDENIED_CNT s
      else s
    finish id r s
  | none =>
    let s := modJob id (fun k => { k with phase := .accepted, ord := some s.nextOrd, cap := decodeCap s j }) { s with nextOrd := s.nextOrd + 1 }
    let s := sendDesc id { j with inst := i } s
    if j.cls = cCipher then acceptCipher id j s
    else if j.cls = cDrvio ∧ j.op = 1 then noteRead id j s
    else s

/-- A SUBMIT leaves the store buffer of its context (R93). -/
def freeSubmit (id : Nat) (j : Job) (s : State) : State :=
  match j.owner with
  | .ctx n => wakeBuffer n (modCtx n (fun c => { c with sbuf := c.sbuf.filter fun e => e ≠ .submit id }) s)
  | .stew _ => s

/-- Whether a store that its context issued before a SUBMIT has still to be performed (R62). (log 13, DEDUCED, unsafe) -/
def storesBefore (id : Nat) (j : Job) (s : State) : Bool :=
  match j.owner with
  | .ctx n =>
    match kget s.ctxs n with
    | some c => (c.sbuf.takeWhile fun e => e ≠ .submit id).any fun e => match e with | .store .. => true | .submit _ => false
    | none => false
  | .stew _ => false

/-- JOB_ACCEPTED (R62, R91, R93, R98, R102): once every earlier store of its agent is performed, the class accepts a job, or queues it held
where it is chained. (log 13, DEDUCED, unsafe) -/
def execJobAccepted (job : Nat) (s : State) : Res :=
  ok (match kget s.jobs job with
    | some j =>
      match j.phase with
      | .issued none =>
        if storesBefore job j s || !acceptsNow j s then s else acceptJob job j (freeSubmit job j s)
      | .issued (some (p, any)) =>
        if storesBefore job j s then s else freeSubmit job j (modJob job (fun k => { k with phase := .held p any }) s)
      | .held .. | .accepted | .done _ => s
    | none => s)

/-- HELD_JOB_RELEASE (R91): the predecessor has completed; the held job is accepted, or skipped with the predecessor's code. -/
def execHeldJobRelease (job : Nat) (s : State) : Res :=
  ok (match kget s.jobs job with
    | some j =>
      match j.phase, j.predCode with
      | .held _ any, some code =>
        if code = 0 ∨ any then (if acceptsNow j s then acceptJob job j s else s)
        else finish job ⟨code, 1, 0, 0⟩ (modJob job (fun k => { k with inst := 0 }) s)
      | _, _ => s
    | none => s)

/-- What a job leaves at its deadline with a number of its units done (R99). -/
def timeoutJob (id : Nat) (j : Job) (n : Nat) (s : State) : State × JobResult :=
  if j.cls = cGrist then timeoutGrist j n s
  else if j.cls = cLauter then timeoutLauter s
  else if j.cls = cFpx then timeoutFpx j s
  else if j.cls = cComp then timeoutComp id j n s
  else if j.cls = cDecomp then timeoutDecomp j n s
  else if j.cls = cCipher then timeoutCipher id j s
  else if j.cls = cParity then timeoutParity j n s
  else if j.cls = cDrvio then timeoutDrvio id j s
  else if j.cls = cRdma then timeoutRdma id j n s
  else if j.cls = cMap then timeoutMap j n s
  else if j.cls = cAlloc then timeoutAlloc id j s
  else if j.cls = cJrnl then timeoutJrnl id s
  else if j.cls = cDmov then timeoutDmov j n s
  else timeoutHost j n s

/-- DEADLINE_EXPIRED (R99). -/
def execDeadlineExpired (job units : Nat) (s : State) : Res :=
  ok (match kget s.jobs job with
    | some j =>
      match j.phase with
      | .accepted =>
        if j.deadline = 0 then s
        else
          let (t, r) := timeoutJob job j units s
          finish job r t
      | .issued _ | .held .. | .done _ => s
    | none => s)

/-- JOB_COMPLETE (R62, R91, R93, R95, R100): a finished job completes once those that its instance started before it have, and the governor counts its outcomes (R204). -/
def execJobComplete (job : Nat) (s : State) : Res :=
  ok (match kget s.jobs job with
    | some j =>
      match j.phase with
      | .done _ => if mayComplete s j then countOutcomes job (jobCompletes job s) else s
      | .issued _ | .held .. | .accepted => s
    | none => s)

end Sys2Proof.Machine
end

