-- ==== Sys2Proof/Machine/ResetOps.lean ====
section
/-! DEFINITION. The operations of a hardware reset: what it keeps of registers, memory and the rest of the state, its hold and its release
(R15, R483 to R488, R502). -/

namespace Sys2Proof.Machine

/-- The registers after a reset that keeps the bits of some classes: every other bit takes its reset value (R15, R486). (log 30, DEDUCED, unsafe) -/
def resetCsr (ks : List Keep) (m : KMap Word) : KMap Word :=
  m.map fun kv =>
    match regAt kv.1 with
    | some (r, i, _) => (kv.1, (kv.2 &&& r.keepMask ks) ||| (r.resetVal i &&& ~~~(r.keepMask ks)))
    | none => kv

/-- The memory that a head reset, a PARK or the loss of VDD_AON leaves (R487): the cellar buffer, and HBM and DDR5 where they are kept, but for the
summaries of the filter, which is empty after each of them (R169). (log 127, DESIGN CHOICE, unsafe) -/
def keptMem (s : State) (cellar dram : Bool) : List Host.Cell :=
  s.mem.filter fun c =>
    match regionOf s c.1 with
    | .cellarBuf => cellar
    | .hbm | .ddr => dram && !(decide (0x38_0000_0000 ≤ c.1) && decide (c.1 < 0x48_0000_0000))
    | _ => false

/-- A metadata page after a reset: it is not in a frame, and what it holds is what its home copy and the replay of the rings give
(R256, R487). (log 127, DESIGN CHOICE, unsafe) -/
def restPage (p : Page) : Page :=
  { p with hent := p.ents, hkid := p.kids, ent := [], kid := [], cent := [], ckid := [], st := .flash, ddr := false, frame := 0
           ck := none, pck := none, dest := 0, waiters := [], held := [], move := false, pre := false }

/-- Everything but registers and memory, as step 4 of R486 leaves it: what lies in AON, in retention cells or on flash stays. (log 112, DEDUCED, unsafe; 127, DESIGN CHOICE, unsafe) -/
def restState (s : State) : State := {
  pending := s.pending, mem := s.mem, csr := s.csr, dtime := s.dtime, free := s.free, out := s.out, ddrcSize := 0, nextJob := s.nextJob
  cel := { total := s.cel.total, bmcUnread := s.cel.bmcUnread, bmcLost := s.cel.bmcLost, alerts := s.cel.alerts }
  partner := { fenceIn := s.partner.fenceIn, fenceOut := s.partner.fenceOut, locked := s.partner.locked, lastState := s.partner.lastState }
  me := { pages := kmapV s.me.pages fun _ p => restPage p, nextPage := s.me.nextPage, root := s.me.root, snapRoot := s.me.snapRoot, srt := s.me.srt, srtPage := s.me.srtPage }
  xe := { minSerial := s.xe.minSerial }
  gl := { dom := s.gl.dom, ixPage := s.gl.ixPage }
  plc := { place := s.plc.place, target := s.plc.target, frames := s.plc.frames, reloc := s.plc.reloc, fwd := s.plc.fwd }
  snap := { cutting := s.snap.cutting, walks := s.snap.walks }
  host := { attached := s.host.attached }
  sw := { min := getF s F.SWC_BUF_MIN, alpha := getF s F.SWC_BUF_ALPHA }
  rst := { s.rst with asserted := none, first := false, health := false, idle := true, dports := 2, selfRef := true }
  pwr := { gen := s.pwr.gen, converting := s.pwr.converting, degraded := s.pwr.degraded }
  boot := { s.boot with step := 0, stopped := false, cold := false, waits := false, cfg := [] }
  upd := { banks := s.upd.banks, maker := s.upd.maker }
  board := s.board }

/-- Records that wait in the input queue of the log at a reset: written, or lost and counted where the CORE clock may not run (R486). (log 41, DESIGN CHOICE, unsafe; 43, DESIGN CHOICE, unsafe; 138, DEDUCED, unsafe) -/
def restLog (code : Nat) (s : State) : State :=
  if code = 0x0D ∨ code = 0x0E then
    setF F.CEL_LOST_DROP (min 0xFFFF (getF s F.CEL_LOST_DROP + s.cel.inq.length)) { s with cel := { s.cel with inq := [] } }
  else drainLog s

/-- A write of PWR_PSU that waited takes effect, and the status of a power-fail sequence, of STANDBY and of PARK ends (R454, R456, R479,
R489). -/
def restPower (psu : Option Word) (s : State) : State :=
  let s := match psu with
    | some v => setF F.PWR_PSU_PRESA (bits v 0 0) (setF F.PWR_PSU_PRESB (bits v 1 1) s)
    | none => s
  setF F.PWR_PSTATE_CUR 0 (setF F.PWR_PF_STEP 0 (setF F.PWR_PF_VDONE 0 (setF F.CEL_STAT_FBUSY 0 s)))

/-- CEL_RPOS goes to the oldest record: every record of the buffer is unread (R535). -/
def restCursor (s : State) : State := setF F.CEL_STAT_UNREAD s.cel.total s

/-- Steps 1 to 4 of R486 for a source. (log 126, DEDUCED, unsafe) -/
def resetHead (code : Nat) (s : State) : State :=
  let s := restLog code s
  let psu := s.pwr.psuLater
  let t := restState s
  let t := { t with mem := keptMem s true true, csr := resetCsr [.F, .V, .A] s.csr }
  setF F.THM_STAT_TRIPPED (b2n (decide (code = 0x0A))) (restPower psu (restCursor t))

/-- The reading of a sensor in 1/16 °C, as TEMP holds it. -/
def readingOf (v : Nat) : Int := if v < 0x8000 then v else (v : Int) - 0x10000

/-- Whether a sensor reads validly. -/
def sensorValid (s : State) (n : Nat) : Bool := isF s F.THM_SEN_VALID n && !isF s F.THM_SEN_BROKEN n

/-- Whether a thermal trip holds the head in reset: some sensor that reads validly reads TRIPCLR or more, or none reads validly (R474). -/
def tripHolds (s : State) : Bool :=
  (decide (getF s F.SYS_RSTSRC_CODE = 0x0A) || (getF s F.SYS_RSTSRC_ALSO).testBit 0x0A) &&
    (!((List.range 32).any fun n => sensorValid s n) ||
      (List.range 32).any fun n => sensorValid s n && decide (16 * (getF s F.THM_LIM_TRIPCLR : Int) ≤ readingOf (getF s F.THM_SEN_TEMP n)))

/-- What holds a reset (R474, R484, R559): RST_N, a thermal trip, and PWRGOOD after a cold power-on. -/
def resetHeld (s : State) : Bool := s.rst.rstn || tripHolds s || (s.boot.cold && !s.boot.pwrgood)

/-- Step 5 of R486: once nothing holds it, the reset is released and steward core 0 fetches from the boot ROM (R80). -/
def tryRelease (s : State) : State :=
  if resetHeld s then { s with rst := { s.rst with held := true } }
  else { s with stews := [(0, startCore 0)], rst := { s.rst with held := false, idle := false, dports := 0 } }

/-- A hold may have ended. -/
def holdEnds (s : State) : State := if s.rst.held then tryRelease s else s

/-- HEAD_RESET (R486): the reset whose source has been asserted runs its steps; the vault ports of a double fault or a fence have waited for
the flush that the source began. -/
def execHeadReset (s : State) : Res :=
  ok (match s.rst.asserted with
    | none => s
    | some code => tryRelease (resetHead code s))

end Sys2Proof.Machine
end

