-- ==== Sys2Proof/Machine/Board.lean ====
section
/-! DEFINITION. The PPS pins and the TAP (R563, R564). -/

namespace Sys2Proof.Machine

/-- PPS_IN_EDGE (R564): MGT_PPSIN takes DTIME, to 4 ns. (log 145, DEDUCED, safe) -/
def execPpsInEdge (s : State) : Res :=
  ok (nextFree (wr .MGT_PPSIN (setBits s.dtime 1 0 (bits (Config.freeWord s.free) 1 0)) s))

/-- PPS_OUT_SECOND (R564): PPS_OUT rises and stays high for 100 ms. -/
def execPpsOutSecond (s : State) : Res :=
  ok (emit .pps { s with board := { s.board with ppsUntil := s.dtime.toNat + 100_000_000 } })

/-- The TAP takes an instruction. -/
def tapTakes (n : Nat) (s : State) : State := { s with board := { s.board with tap := n } }

/-- An instruction that takes effect only while RST_N is asserted, and acts as BYPASS at other times (R563). -/
def tapInReset (n : Nat) (s : State) : State := tapTakes (if s.rst.rstn then n else 0) s

/-- BYPASS (R563). -/
def execTapBypass (s : State) : Res := ok (tapTakes 0 s)

/-- IDCODE (R563): 0x1902_4A1F, shifted out from its lowest bit. -/
def execTapIdcode (s : State) : Res :=
  ok (emit (.tap ((List.range 32).map fun i => Nat.testBit 0x1902_4A1F i)) (tapTakes 1 s))

/-- SAMPLE/PRELOAD (R563): the pins are shifted out, and the boundary register is loaded. (log 146, DESIGN CHOICE, safe) -/
def execTapSample (pins pre : List Bool) (s : State) : Res :=
  ok (emit (.tap pins) (tapTakes 2 { s with board := { s.board with boundary := pre } }))

/-- EXTEST (R563). (log 146, DESIGN CHOICE, safe) -/
def execTapExtest (s : State) : Res := ok (tapInReset 3 s)

/-- CLAMP (R563). -/
def execTapClamp (s : State) : Res := ok (tapInReset 4 s)

/-- HIGHZ (R563). -/
def execTapHighz (s : State) : Res := ok (tapInReset 5 s)

end Sys2Proof.Machine
end

