-- ==== Sys2Proof/Machine/ProgSet.lean ====
section
/-! DEFINITION. The flow program set as the ground firmware loads it: its header, its entry table, its binding bank images and its code
(R108 to R110, R112). -/

namespace Sys2Proof.Machine

/-- The header fields of a flow program set (R109). -/
def psCode (p : List Byte) : Nat := fieldN p 8 4
@[inherit_doc psCode] def psEntries (p : List Byte) : Nat := fieldN p 12 2
@[inherit_doc psCode] def psSel (p : List Byte) : Nat := fieldN p 14 1
@[inherit_doc psCode] def psOffEntry (p : List Byte) : Nat := fieldN p 16 4
@[inherit_doc psCode] def psOffBank (p : List Byte) (b : Nat) : Nat := fieldN p (20 + 4 * b) 4
@[inherit_doc psCode] def psOffCode (p : List Byte) : Nat := fieldN p 28 4

/-- Bytes cut into little-endian numbers of `n` bytes; `fuel` bounds how many. -/
def cutN (n : Nat) : Nat → List Byte → List Nat
  | 0, _ => []
  | _, [] => []
  | fuel + 1, b :: l => leNat ((b :: l).take n) :: cutN n fuel ((b :: l).drop n)

/-- The entry point offsets of a set (R109). -/
def psOffsets (p : List Byte) : List Nat := cutN 4 (psEntries p) (p.drop (psOffEntry p))

/-- The image of a binding bank, as its 16,384 entries (R108, R109). -/
def bankEntries (l : List Byte) : List Nat := cutN 2 16384 (l.take 32768)

/-- The bytes of a binding bank image (R109). -/
def psBank (p : List Byte) (b : Nat) : List Byte := (p.drop (psOffBank p b)).take 32768

/-- The code of a set (R109). -/
def psBytes (p : List Byte) : List Byte := (p.drop (psOffCode p)).take (psCode p)

/-- Step 2 of R110: MAGIC, VERSION, the ranges of the fields with every part inside the set, the reserved bytes, the entry offsets, and the ENTRY of
every VALID binding entry. -/
def setChecks (s : State) (p : List Byte) : Bool :=
  let n := p.length
  decide (64 ≤ n) && decide (fieldN p 0 4 = 0x5350_4647) && decide (fieldN p 4 2 = 1) &&
    decide (fieldN p 6 2 = 0) && decide (fieldN p 15 1 = 0) && decide (fieldN p 32 32 = 0) &&
    decide (psCode p % 4 = 0) && decide (psCode p ≤ getF s F.SYS_CAP2_FSTORE_MIB * 2 ^ 20) &&
    decide (1 ≤ psEntries p) && decide (psEntries p ≤ 4096) && decide (psSel p ≤ 1) &&
    decide (psOffEntry p + 4 * psEntries p ≤ n) && decide (psOffBank p 0 + 32768 ≤ n) && decide (psOffBank p 1 + 32768 ≤ n) &&
    decide (psOffCode p + psCode p ≤ n) &&
    (psOffsets p).all (fun o => decide (o % 4 = 0) && decide (o < psCode p)) &&
    [0, 1].all fun b => (bankEntries (psBank p b)).all fun e => !decide (0x8000 ≤ e) || decide (e % 4096 < psEntries p)

/-- The check of step 3 of R110 where the binding is kept: ENTRIES, and every kept entry offset. -/
def keptChecks (s : State) (p : List Byte) : Bool :=
  decide (getF s F.FSQ_PSET_CTL_ENTRIES = psEntries p) &&
    (List.range (psEntries p)).all fun e => decide (entryOffset s e % 4 = 0) && decide (entryOffset s e < psCode p)

/-- A device write of registers of an array, ascending from element 0; a value that a register holds already is not listed again. -/
def putRow (r : RegName) (j : Nat → Nat × Nat) : Nat → List Nat → State → State
  | _, [], s => s
  | k, v :: l, s =>
    let w := BitVec.ofNat 64 v
    putRow r j (k + 1) l (if rd s r (j k).1 (j k).2 = w then s else wr r w s (j k).1 (j k).2)

/-- Binding bank `b` takes an image (R110). -/
def putBank (b : Nat) (l : List Byte) (s : State) : State :=
  putRow .FSQ_BIND (fun k => (b, k)) 0 ((cutN 8 4096 (l.take 32768)).map fun w => w &&& 0x8FFF8FFF8FFF8FFF) s

/-- FSQ_ENTRY takes the entry offsets of a set, two to a register (R110, R118). -/
def putEntries (p : List Byte) (s : State) : State :=
  putRow .FSQ_ENTRY (fun k => (k, 0)) 0 (cutN 8 2048 ((psOffsets p).flatMap (leBytes 4))) s

/-- The binding is written from the images, or from the banks that the vault configuration has recorded for the same set (R110 step 3, R112). -/
def writeBinding (p hash : List Byte) (rec' : Option BindRec) (s : State) : State :=
  let s := setF F.FSQ_PSET_CTL_ENTRIES (psEntries p) (putEntries p s)
  match rec' with
  | some x =>
    if x.hash = hash then setF F.FSQ_PSET_CTL_BANKSEL x.sel (putBank 1 x.bank1 (putBank 0 x.bank0 s))
    else setF F.FSQ_PSET_CTL_BANKSEL (psSel p) (putBank 1 (psBank p 1) (putBank 0 (psBank p 0) s))
  | none => setF F.FSQ_PSET_CTL_BANKSEL (psSel p) (putBank 1 (psBank p 1) (putBank 0 (psBank p 0) s))

/-- Steps 2 to 4 of R110: the set with its SHA-512 is loaded, its binding written where `fresh` says so and checked where it is kept; none where a check fails. (log 161, DEDUCED, unsafe) -/
def loadSet (fresh : Bool) (p hash : List Byte) (rec' : Option BindRec) (s : State) : Option State :=
  if !setChecks s p || !(fresh || keptChecks s p) then none
  else
    let s := wrB flowStoreBase (psBytes p) s
    let s := if fresh then writeBinding p hash rec' s else s
    some (setF F.FSQ_PSET_CTL_ACTIVE 1 { s with bung := { s.bung with setHash := hash } })

end Sys2Proof.Machine
end

