-- ==== Sys2Proof/Machine/Ed25519.lean ====
section
/-! DEFINITION. Ed25519 of RFC 8032, over the prime field of 2^255 − 19, with points in extended coordinates (R507, R510, R513, R526). -/

namespace Sys2Proof.Machine

/-- The prime of the field, and the order of the base point. -/
def edP : Nat := 2 ^ 255 - 19
@[inherit_doc edP] def edL : Nat := 2 ^ 252 + 27742317777372353535851937790883648493

/-- `b ^ e` modulo `m`, over the low `n` bits of `e`. -/
def powMod (m : Nat) : Nat → Nat → Nat → Nat
  | 0, _, _ => 1
  | n + 1, b, e => (if e % 2 = 1 then b else 1) * powMod m n (b * b % m) (e / 2) % m

/-- The inverse and the difference in the field. -/
def edInv (x : Nat) : Nat := powMod edP 256 x (edP - 2)
@[inherit_doc edInv] def edSub (x y : Nat) : Nat := (x + (edP - y % edP)) % edP

/-- The constant of the curve, and the square root of −1. -/
def edD : Nat := edSub 0 (121665 * edInv 121666 % edP)
@[inherit_doc edD] def edI : Nat := powMod edP 256 2 ((edP - 1) / 4)

/-- A point in extended coordinates. -/
structure EdPoint where
  x : Nat
  y : Nat
  z : Nat
  t : Nat
  deriving DecidableEq, Repr

/-- The neutral point. -/
def edZero : EdPoint := ⟨0, 1, 1, 0⟩

/-- The sum of two points (RFC 8032, 5.1.4). -/
def edAdd (p q : EdPoint) : EdPoint :=
  let a := edSub p.y p.x * edSub q.y q.x % edP
  let b := (p.y + p.x) * (q.y + q.x) % edP
  let c := 2 * p.t * q.t * edD % edP
  let d := 2 * p.z * q.z % edP
  let e := edSub b a
  let f := edSub d c
  let g := (d + c) % edP
  let h := (b + a) % edP
  ⟨e * f % edP, g * h % edP, f * g % edP, e * h % edP⟩

/-- A multiple of a point, over the low `n` bits of the number. -/
def edMul : Nat → Nat → EdPoint → EdPoint
  | 0, _, _ => edZero
  | n + 1, k, p =>
    let r := edMul n (k / 2) (edAdd p p)
    if k % 2 = 1 then edAdd r p else r

/-- The x coordinate for a y coordinate and the low bit of x (RFC 8032, 5.1.3). -/
def edX (y sign : Nat) : Option Nat :=
  let x2 := edSub (y * y % edP) 1 * edInv ((edD * (y * y % edP) + 1) % edP) % edP
  let r := powMod edP 256 x2 ((edP + 3) / 8)
  let r := if r * r % edP = x2 then r else r * edI % edP
  if r * r % edP ≠ x2 then none
  else if r = 0 ∧ sign = 1 then none
  else some (if r % 2 = sign then r else edP - r)

/-- The point that 32 bytes encode, and the bytes that encode a point. -/
def edDecode (l : List Byte) : Option EdPoint :=
  let v := leNat (l.take 32)
  let y := v % 2 ^ 255
  if l.length < 32 ∨ edP ≤ y then none else (edX y (v / 2 ^ 255)).map fun x => ⟨x, y, 1, x * y % edP⟩
@[inherit_doc edDecode] def edEncode (p : EdPoint) : List Byte :=
  let i := edInv p.z
  leBytes 32 (p.y * i % edP + (p.x * i % edP) % 2 * 2 ^ 255)

/-- The base point. -/
def edBase : EdPoint :=
  let y := 4 * edInv 5 % edP
  let x := (edX y 0).getD 0
  ⟨x, y, 1, x * y % edP⟩

/-- The secret scalar of a private key. -/
def edScalar (sk : List Byte) : Nat :=
  let a := leNat ((sha512 sk).take 32)
  a / 8 % 2 ^ 251 * 8 + 2 ^ 254

/-- The public key of a private key. -/
def edPublic (sk : List Byte) : List Byte := edEncode (edMul 255 (edScalar sk) edBase)

/-- The signature of a message. (log 67, DESIGN CHOICE, unsafe) -/
def edSign (sk m : List Byte) : List Byte :=
  let r := leNat (sha512 ((sha512 sk).drop 32 ++ m)) % edL
  let rb := edEncode (edMul 255 r edBase)
  let k := leNat (sha512 (rb ++ edPublic sk ++ m)) % edL
  rb ++ leBytes 32 ((r + k * edScalar sk) % edL)

/-- Whether a signature over a message verifies under a public key: the equation of RFC 8032, 5.1.7, with its cofactor. (log 67, DESIGN CHOICE, unsafe) -/
def edVerify (pk m sig : List Byte) : Bool :=
  match edDecode pk, edDecode (sig.take 32) with
  | some a, some r =>
    let v := leNat ((sig.drop 32).take 32)
    let k := leNat (sha512 (sig.take 32 ++ pk ++ m)) % edL
    let p := edMul 258 (8 * v) edBase
    let q := edAdd (edMul 4 8 r) (edMul 259 (8 * k) a)
    sig.length = 64 && decide (v < edL) && decide (p.x * q.z % edP = q.x * p.z % edP) && decide (p.y * q.z % edP = q.y * p.z % edP)
  | _, _ => false

end Sys2Proof.Machine
end

