-- ==== Sys2Proof/Machine/Power.lean ====
section
/-! DEFINITION. Power and temperature: supplies, the power-fail sequence, adaptive voltage, droop, sensors, throttling, the orderly stop and
the trip, STANDBY and PARK (R448 to R482, R489 to R494), and the governor's decisions (R42). -/

namespace Sys2Proof.Machine

/-! ### Supplies (R451, R479, R480) -/

/-- Whether a supply is present, and whether its PFAIL input is asserted. -/
def psuPresent (s : State) (b : Bool) : Bool := if b then isF s F.PWR_PSU_PRESB else isF s F.PWR_PSU_PRESA
@[inherit_doc psuPresent] def psuFails (s : State) (b : Bool) : Bool := if b then isF s F.PWR_PSU_PFB else isF s F.PWR_PSU_PFA

/-- PFAIL as records and events give it: bit 0 for A, bit 1 for B. -/
def pfailState (s : State) : Nat := b2n (psuFails s false) + 2 * b2n (psuFails s true)

/-- One present supply is lost while another present one is not (R451). -/
def supplyLost (s : State) : State :=
  raise 0x0210 2 (celOpen 2 (pfailState s) 0 0 (alert 5 (bump .PWR_PSULOSS_CNT (setF F.PWR_PSU_LOSTONE 1 s))))

/-- PFAIL_INPUT (R451). (log 120, DEDUCED, unsafe) -/
def execPfailInput (a b : Bool) (s : State) : Res :=
  let news := (a && !psuFails s false && psuPresent s false && psuPresent s true && !b) ||
    (b && !psuFails s true && psuPresent s true && psuPresent s false && !a)
  let t := setF F.PWR_PSU_PFA (b2n a) (setF F.PWR_PSU_PFB (b2n b) s)
  ok (if news then supplyLost t else t)

/-- A write of PWR_PSU (R479, R480): a write without a supply is ignored with a record; during the sequence it takes effect after the next
head reset. -/
def wrPwrPsu (v : Word) (s : State) : State :=
  if bits v 1 0 = 0 then celRefused .PWR_PSU v s
  else
    let t := wr .PWR_PSU (writeFields (rd s .PWR_PSU) v (RegName.info .PWR_PSU).fields) s
    if getF s F.PWR_PF_STEP = 0 then t
    else
      setF F.PWR_PSU_PRESA (getF s F.PWR_PSU_PRESA) (setF F.PWR_PSU_PRESB (getF s F.PWR_PSU_PRESB)
        { t with pwr := { t.pwr with psuLater := some v } })

/-- A write of PWR_VAULT while EN is 1 is ignored with a record, unless it changes only EN (R480). -/
def wrPwrVault (v : Word) (s : State) : State :=
  let new := writeFields (rd s .PWR_VAULT) v (RegName.info .PWR_VAULT).fields
  if isF s F.PWR_VAULT_EN && setBits new 48 48 1 ≠ rd s .PWR_VAULT then celRefused .PWR_VAULT v s else wr .PWR_VAULT new s

/-- A write of THM_LIM that breaks the order of its limits is ignored with a record (R481). -/
def wrThmLim (v : Word) (s : State) : State :=
  let w := bits v 7 0
  let th := bits v 15 8
  let h := bits v 23 16
  if w ≤ th ∧ th ≤ h ∧ h ≤ 104 ∧ bits v 47 40 ≤ th then wr .THM_LIM (writeFields (rd s .THM_LIM) v (RegName.info .THM_LIM).fields) s
  else celRefused .THM_LIM v s

/-! ### Entering DRAIN (R244, R417, R523) -/

/-- The head enters DRAIN, where every open tun starts sealing (R244, R417). -/
def enterDrain (s : State) : State := sealTuns (fun _ _ => true) (setHead 4 s)

/-- An activation that is armed or that drains is abandoned (R522, R523). -/
def abandonActivation (err : Nat) (s : State) : State :=
  if isF s F.UPD_STAT_ARMED || s.upd.draining then
    setF F.UPD_STAT_ERR err (setF F.UPD_STAT_REFUSED 1 (setF F.UPD_STAT_ARMED 0 { s with
      upd := { s.upd with due := false, announced := false, draining := false }, pwr := { s.pwr with parkNext := false } }))
  else s

/-! ### The divisor of a region (R470 to R473) -/

/-- Whether every region is held at a divisor of 4 (R472, R473). -/
def heldAt4 (s : State) : Bool := isF s F.THM_STAT_STOPPING || isF s F.THM_STAT_NOSTOP

/-- MODE of a region: the slower of the floor and the governor's choice (R471). -/
def setMode (n : Nat) (s : State) : State :=
  let f := getF s F.THM_LVL_FLOOR n
  setF F.THM_LVL_MODE (if heldAt4 s then 3 else if f ≠ 0 then f else b2n (decide (getF s F.THM_LVL_SKIPM n ≠ 0))) s n

/-- Every region is held at a divisor of 4. (log 123, DEDUCED, unsafe) -/
def holdAll (s : State) : State := (List.range 32).foldl (fun t n => setMode n t) s

/-! ### The power-fail sequence (R452 to R458) -/

/-- Every present supply has its PFAIL input asserted (R452). -/
def allFail (s : State) : Bool :=
  (!psuPresent s false || psuFails s false) && (!psuPresent s true || psuFails s true)

/-- Whether HBM holds the journal regions: not before the own ring has been replayed after a cold power-on (R559). -/
def journalHere (s : State) : Bool := !s.boot.cold || decide (7 ≤ s.boot.step)

/-- Step 1 of R453: DRAIN, with the event and the record; RETURN, which keeps its value through resets, tells of this sequence from now on
(R454). A handover that this head was to receive is given up, an activation is abandoned,
and an orderly stop or a request of a power state is taken over (R457, R475, R523). -/
def pfStart (s : State) : State :=
  let s := setF F.PWR_PF_RETURN 0 (setF F.PWR_PF_STEP 1 (alert 2 (bump .PWR_PF_CNT s)))
  let s := cel 0x0210 0 4 (pfailState s) 0 0 (raise 0x0211 (pfailState s) s)
  let recv := groups fun g => grpPos s g = 4
  let s := abandonActivation 14 (setPos 0 recv s)
  let s := { s with pwr := { s.pwr with want := none, orderly := false, parkNext := false, images := 0, later := none } }
  let s := if isF s F.THM_STAT_STOPPING then holdAll (setF F.THM_STAT_STOPPING 0 s) else s
  if headState s = 2 ∨ headState s = 3 then enterDrain s else s

/-- Step 4 of R453: the handovers not yet journalled end, FLOW and STEW stop, and the own-journal image is written; in solo mode it is
current and only its header is written (R463). (log 113, DEDUCED, unsafe; 121, DEDUCED, unsafe) -/
def pfOwnImage (s : State) : State :=
  let s := setPos 0 (unjournalled s) s
  let s := { s with stews := kmapV s.stews fun _ c => { c with run := false } }
  if journalHere s then writeImage false (if soloMode s then 3 else 1) (!soloMode s) s
  else { s with pwr := { s.pwr with images := 3 } }

/-- Step 7 of R453: VAULT_DONE where both images are written, and the head reset that has waited for the end of the sequence (R454, R456,
R488). (log 121, DEDUCED, unsafe) -/
def pfDone (s : State) : State :=
  let s := setF F.PWR_PF_STEP 7 s
  let s := if s.pwr.images = 3 then setF F.PWR_PF_VDONE 1 s else s
  let later := s.pwr.later
  let s := { s with pwr := { s.pwr with later := none } }
  let s := match later with | some c => assertReset c s | none => s
  if isF s F.PWR_PF_RETURN then assertReset 0x09 s else s

/-- Step 2 of R453 has ended: an APPEND that has not reached the partner stays in the own ring and is never DONE. (log 121, DEDUCED, unsafe) -/
def neverDone (s : State) : State :=
  { s with ta := { s.ta with recs := s.ta.recs.map fun r => if r.done then r else { r with job := none } } }

/-- POWER_FAIL_START (R452, R453): the sequence starts with step 1 once every present supply fails, and reaches the steps in order. -/
def execPowerFailStart (step : BitVec 3) (s : State) : Res :=
  let n := step.toNat
  ok (if n ≠ getF s F.PWR_PF_STEP + 1 then s
    else
      match n with
      | 1 => if allFail s then pfStart s else s
      | 3 => let s := setF F.PWR_PF_STEP 3 (neverDone s); if getF s F.PWR_PF_HOMS = 0 then s else handOver s
      | 4 => pfOwnImage (setF F.PWR_PF_STEP 4 s)
      | 5 => let s := setF F.PWR_PF_STEP 5 s; if journalHere s then writeImage true 2 true s else s
      | 6 => requestFlush 6 (setF F.PWR_PF_STEP 6 s)
      | 7 => pfDone s
      | _ => setF F.PWR_PF_STEP n s)

/-- POWER_RETURN (R454): RETURN sets during or after the sequence, and at step 7 the head resets. -/
def execPowerReturn (s : State) : Res :=
  ok (if getF s F.PWR_PF_STEP = 0 || !((psuPresent s false && !psuFails s false) || (psuPresent s true && !psuFails s true)) then s
    else
      let t := setF F.PWR_PF_RETURN 1 s
      if getF s F.PWR_PF_STEP = 7 then assertReset 0x09 t else t)

/-! ### Adaptive voltage (R450) and droop (R465) -/

/-- A value between bounds. -/
def clampI (lo hi v : Int) : Int := max lo (min hi v)

/-- The hottest valid reading of the logic dies, regions 0 to 23 (R466). -/
def hottestLogic (s : State) : Int :=
  ((List.range 24).filter fun n => sensorValid s n).foldl (fun t n => max t (readingOf (getF s F.THM_SEN_TEMP n))) (-0x8000)

/-- The target that R450 forms. (log 122, DESIGN CHOICE, safe) -/
def avsGoal (s : State) : Int :=
  clampI 650 850 (Config.avsFused + Config.avsCorrection (hottestLogic s) +
    clampI (-50) 50 (let v := getF s F.PWR_AVS_OFFSET; if v < 128 then v else (v : Int) - 256))

/-- AVS_STEP (R450): the regulator acknowledges the step sent, or the next step of at most 5 mV is sent. -/
def execAvsStep (acked : Bool) (s : State) : Res :=
  ok (if !isF s F.PWR_AVS_EN then s
    else
      match s.pwr.avsSent with
      | some v => if acked then setF F.PWR_AVS_TARGET v { s with pwr := { s.pwr with avsSent := none } } else s
      | none =>
        let cur : Int := getF s F.PWR_AVS_TARGET
        let v := (clampI (cur - 5) (cur + 5) (avsGoal s)).toNat
        if acked || decide (v = cur.toNat) then s else emit (.avs v) { s with pwr := { s.pwr with avsSent := some v } })

/-- AVS_ACK_TIMEOUT (R450): the step is sent again, with NACK, the event and a record. -/
def execAvsAckTimeout (s : State) : Res :=
  ok (match s.pwr.avsSent with
    | some v =>
      if isF s F.PWR_AVS_EN then raise 0x0210 1 (celOpen 2 v 0 0 (setF F.PWR_AVS_NACK 1 (emit (.avs v) s))) else s
    | none => s)

/-- DROOP_TRIP (R465). -/
def execDroopTrip (n : BitVec 5) (s : State) : Res :=
  let k := n.toNat
  ok (if !isF s F.PWR_DROOP_EN || (getF s F.PWR_DROOPSTAT_ACTIVE).testBit k then s
    else bump .PWR_DROOP_CNT (setF F.THM_LVL_DROOP 1 (setF F.PWR_DROOPSTAT_ACTIVE (getF s F.PWR_DROOPSTAT_ACTIVE ||| 2 ^ k) s) k))

/-- DROOP_RELEASE (R465). -/
def execDroopRelease (n : BitVec 5) (s : State) : Res :=
  let k := n.toNat
  ok (setF F.THM_LVL_DROOP 0 (setF F.PWR_DROOPSTAT_ACTIVE (bits (rd s .PWR_DROOPSTAT &&& ~~~(BitVec.ofNat 64 (2 ^ k))) 31 0) s) k)

/-! ### Sensors and throttling (R466 to R471) -/

/-- SENSOR_CONVERSION (R467): a conversion of every sensor is requested. (log 125, DESIGN CHOICE, safe) -/
def execSensorConversion (s : State) : Res := ok { s with pwr := { s.pwr with converting := List.range 32 } }

/-- The first region of a die and how many it has, and the neighbours of a region (R466). -/
def regionsOf (n : Nat) : Nat × Nat := if n < 12 then (0, 12) else if n < 24 then (12, 12) else (24, 8)
@[inherit_doc regionsOf] def neighbours (n : Nat) : List Nat :=
  let d := regionsOf n
  let i := n - d.1
  ((List.range d.2).filter fun j =>
    (decide (j / 4 = i / 4) && (decide (j + 1 = i) || decide (i + 1 = j))) || decide (j + 4 = i) || decide (i + 4 = j)).map fun j => d.1 + j

/-- A threshold of THM_LIM in 1/16 °C. -/
def limit (s : State) (f : Fld) : Int := 16 * (getF s f : Int)

/-- The reading that counts for a region: its sensor's, a neighbour's, or THROT while it is broken (R468, R469). -/
def regionReading (s : State) (n : Nat) : Option Int :=
  if isF s F.THM_SEN_BROKEN n && !isF s F.THM_SEN_SUBST n then some (limit s F.THM_LIM_THROT)
  else if isF s F.THM_SEN_VALID n || isF s F.THM_SEN_SUBST n then some (readingOf (getF s F.THM_SEN_TEMP n))
  else none

/-- A reading of 16 bits in two's complement. -/
def tempBits (t : Int) : Nat := (t % 0x10000).toNat

/-- A sensor is broken (R468, R469): noted once, and replaced by the hottest valid neighbour in the cross-check mode. -/
def sensorBreaks (n raw : Nat) (s : State) : State :=
  let s := if isF s F.THM_SEN_BROKEN n then s
    else
      let s := setF F.THM_SEN_BROKEN 1 (setF F.THM_STAT_BROKEN (getF s F.THM_STAT_BROKEN ||| 2 ^ n) s) n
      cel 0x0310 n 2 raw 0 0 (alert 6 (bump .THM_BROKEN_CNT s))
  let near := ((neighbours n).filter fun k => sensorValid s k).map fun k => readingOf (getF s F.THM_SEN_TEMP k)
  match (if isF s F.THM_CTL_XCHK then near else []) with
  | t :: l => setF F.THM_SEN_SUBST 1 (setF F.THM_SEN_TEMP (tempBits (l.foldl max t)) s n) n
  | [] => setF F.THM_SEN_SUBST 0 s n

/-- A sensor reads validly (R468). -/
def sensorReads (n raw : Nat) (s : State) : State :=
  let s := setF F.THM_SEN_TEMP raw (setF F.THM_SEN_VALID 1 (setF F.THM_SEN_BROKEN 0 (setF F.THM_SEN_SUBST 0 s n) n) n) n
  setF F.THM_STAT_BROKEN (bits (BitVec.ofNat 64 (getF s F.THM_STAT_BROKEN) &&& ~~~(BitVec.ofNat 64 (2 ^ n))) 31 0) s

/-- The floor of a region for a reading: it rises at THROT and HOT, and falls only 3 °C below the threshold that raised it (R470). -/
def floorFor (s : State) (cur : Nat) (t : Int) : Nat :=
  let hot := limit s F.THM_LIM_HOT
  let throt := limit s F.THM_LIM_THROT
  if hot ≤ t ∨ (cur = 3 ∧ hot - 48 < t) then 3
  else if throt ≤ t ∨ (2 ≤ cur ∧ throt - 48 < t) then 2
  else 0

/-- The floor of a region follows its reading; a rise is counted, and the governor's skipping ends where a floor applies. -/
def setFloor (n : Nat) (t : Int) (s : State) : State :=
  let cur := getF s F.THM_LVL_FLOOR n
  let new := floorFor s cur t
  let s := if cur < new then bump .THM_THROT_CNT s else s
  let s := setF F.THM_LVL_FLOOR new s n
  setMode n (if new = 0 then s else setF F.THM_LVL_SKIPM 0 s n)

/-- The hottest reading and its region (R481). -/
def setHottest (s : State) : State :=
  match ((List.range 32).filterMap fun n => (regionReading s n).map fun t => (n, t)) with
  | [] => s
  | x :: l =>
    let m := l.foldl (fun b y => if b.2 < y.2 then y else b) x
    setF F.THM_STAT_HOTREG m.1 (setF F.THM_STAT_HOTTEST (tempBits m.2) s)

/-- An orderly stop starts (R472). (log 123, DEDUCED, unsafe) -/
def startStop (n : Nat) (t : Int) (s : State) : State :=
  let s := holdAll (setF F.THM_STAT_STOPPING 1 (bump .THM_STOP_CNT (alert 4 s)))
  let s := cel 0x0311 n 4 (tempBits t) 0 0 s
  handOver (enterDrain { s with pwr := { s.pwr with orderly := true, want := some 2 } })

/-- A reading of STOP or more (R472, R473, R475). (log 123, DEDUCED, unsafe) -/
def atStop (n : Nat) (t : Int) (s : State) : State :=
  if getF s F.PWR_PF_STEP ≠ 0 || isF s F.THM_STAT_STOPPING || decide (getF s F.PWR_PSTATE_CUR = 2) || s.rst.held then s
  else if partnerActive s then startStop n t s
  else if isF s F.THM_STAT_NOSTOP then s
  else raise 0x0310 n (holdAll (setF F.THM_STAT_NOSTOP 1 (alert 4 s)))

/-- A reading of TRIP or more (R474). -/
def atTrip (n : Nat) (t : Int) (s : State) : State :=
  assertReset 0x0A (cel 0x0311 n 4 (tempBits t) 0 0 (setF F.THM_STAT_TRIPPED 1 (bump .THM_TRIP_CNT (alert 1 s))))

/-- SENSOR_RESULT (R467 to R474): a sensor converts, or has not within 100 µs; the reading moves the floor, may start a stop or a trip, and
may end the hold of a trip. -/
def execSensorResult (n : BitVec 5) (raw : Option (BitVec 16)) (s : State) : Res :=
  let k := n.toNat
  ok (if !s.pwr.converting.contains k then s
    else
      let s := { s with pwr := { s.pwr with converting := s.pwr.converting.erase k } }
      let v := match raw with | some r => r.toNat | none => 0
      let good := raw.isSome && decide (-640 ≤ readingOf v) && decide (readingOf v ≤ 2400)
      let s := setHottest (if good then sensorReads k v s else sensorBreaks k v s)
      match regionReading s k with
      | none => s
      | some t =>
        let s := setFloor k t s
        let s := if limit s F.THM_LIM_STOP ≤ t then atStop k t s else s
        holdEnds (if limit s F.THM_LIM_TRIP ≤ t ∧ !s.rst.held then atTrip k t s else s))

/-! ### STANDBY and PARK (R489 to R494, R506) -/

/-- A request of a power state is refused. -/
def pstateRefuse (err : Nat) (s : State) : State := setF F.PWR_PSTATE_ERR err (setF F.PWR_PSTATE_REFUSED 1 s)

/-- Steps 1 and 2 of R490 for STANDBY (1) and PARK (2). (log 123, DEDUCED, unsafe) -/
def askState (want : Nat) (s : State) : State :=
  if headState s ≠ 2 || s.pwr.want.isSome then pstateRefuse 1 s
  else if !partnerActive s then pstateRefuse 2 s
  else
    let s := (sentStreams s fun _ => true).foldl (fun t n => raiseEpoch n t) s
    handOver { s with pwr := { s.pwr with want := some want } }

/-- A write of PWR_PSTATE (R490 to R493, R506). -/
def wrPstate (v : Word) (s : State) : State :=
  let s := wr .PWR_PSTATE (writeFields (rd s .PWR_PSTATE) v (RegName.info .PWR_PSTATE).fields) s
  match bits v 1 0 with
  | 0 => if getF s F.PWR_PSTATE_CUR = 1 then leaveStandby s else s
  | 1 => askState 1 s
  | 2 => askState 2 s
  | _ => pstateRefuse 1 s

/-- Whether the handovers of a request have ended and no context is left (R490 steps 2 and 3). -/
def drained (s : State) : Bool := decide (ownedGroups s = []) && decide (s.ctxs = [])

/-- Steps 4 and 5 of R490: the metadata cache is disabled (R147) and loses its power, the S fields their values, and FLOW and cores 1 to 15 stop. -/
def enterStandby (s : State) : State :=
  let s := mcDisableEnd s
  let s := { s with
    mc := {}
    csr := resetCsr [.F, .V, .A, .H] s.csr
    mem := s.mem.filter fun c => regionOf s c.1 ≠ .mcArray
    stews := kmapV s.stews fun k c => if k = 0 then c else { c with run := false }
    pwr := { s.pwr with want := none } }
  setHead 3 (setF F.PWR_PSTATE_CUR 1 s)

/-- STANDBY_REQUEST (R490): the request, and its end. -/
def execStandbyRequest (v : Option Word) (s : State) : Res :=
  ok (match v with
    | some w => if bits w 1 0 = 1 then wrPstate w s else s
    | none => if s.pwr.want = some 1 && drained s then enterStandby s else s)

/-- STANDBY_DRAIN_TIMEOUT (R490): the request ends with ERR 3, and the head returns to RUN. (log 124, DEDUCED, unsafe) -/
def execStandbyDrainTimeout (s : State) : Res :=
  ok (if s.pwr.want = some 1 || (s.pwr.want = some 2 && !s.pwr.orderly) then
      pstateRefuse 3 { s with pwr := { s.pwr with want := none } }
    else s)

/-- STANDBY_EXIT (R491). -/
def execStandbyExit (v : Word) (s : State) : Res := ok (if bits v 1 0 = 0 then wrPstate v s else s)

/-- The rest of R492: the cellar log is flushed, HEALTH_OUT stops, the D root ports but the vault's enter hot reset and the rails go off;
what lay in SRAM and DRAM is lost (R487). (log 124, DEDUCED, unsafe) -/
def enterPark (s : State) : State :=
  let s := emit (.rails false) (requestFlush 1 (drainLog s))
  let s := { s with
    mem := keptMem s true false
    ctxs := [], jobs := []
    stews := kmapV s.stews fun _ c => { c with run := false }
    pwr := { s.pwr with want := none, parkNext := false, rails := false }
    rst := { s.rst with idle := true, dports := 1 } }
  setF F.THM_STAT_STOPPING 0 (setHead 6 (setF F.PWR_PSTATE_CUR 2 s))

/-- PARK_REQUEST (R472, R492): the request, and its end; an orderly stop enters PARK when its handovers end or its 50 ms have passed. -/
def execParkRequest (v : Option Word) (s : State) : Res :=
  ok (match v with
    | some w => if bits w 1 0 = 2 then wrPstate w s else s
    | none => if s.pwr.want = some 2 && (s.pwr.orderly || drained s) then enterPark s else s)

/-- The rails return, and once PWRGOOD is up the head resets with the source "PARK exit" (R494, R559). (log 130, DEDUCED, unsafe) -/
def leavePark (s : State) : State :=
  let s := emit (.rails true) { s with pwr := { s.pwr with rails := true } }
  if s.boot.pwrgood then assertReset 0x0C s else { s with pwr := { s.pwr with want := some 3 } }

/-- A wake command is refused while a region reads THROT or more (R493). -/
def wake (s : State) : State :=
  if getF s F.PWR_PSTATE_CUR ≠ 2 || s.pwr.want.isSome then s
  else if (List.range 32).any fun n => (regionReading s n).any fun t => decide (limit s F.THM_LIM_THROT ≤ t) then pstateRefuse 4 s
  else leavePark s

/-- PARK_WAKE_REQUEST (R493, R494). -/
def execParkWakeRequest (s : State) : Res := ok (wake s)

/-- SMB_WAKE (R493, R544). -/
def execSmbWake (s : State) : Res := ok (wake s)

/-- AUTOWAKE_TIMER (R493): after an orderly stop, every valid reading has been below THROT for 10 s. (log 125, DESIGN CHOICE, safe) -/
def execAutowakeTimer (s : State) : Res :=
  ok (if getF s F.PWR_PSTATE_CUR = 2 && s.pwr.orderly && isF s F.PWR_PSTATE_AUTOWAKE && s.pwr.want.isNone &&
      !((List.range 32).any fun n => sensorValid s n && decide (limit s F.THM_LIM_THROT ≤ readingOf (getF s F.THM_SEN_TEMP n))) then leavePark s
    else s)

/-! ### The governor (R42, R471, R537) -/

/-- What a decision was before, and the state with the decision in its table; none for a decision that the governor may not make: a skip window
opens only at the end of a trial (R204, R206), and a lees rate goes up to MAXSEG (R259). (log 14, DESIGN CHOICE, unsafe) -/
def govDecide (kind obj new : Nat) (s : State) : Option (Nat × State) :=
  match kind with
  | 1 => some (kgetD s.weight obj 1, { s with weight := kputD 1 s.weight obj (max 1 (min 255 new)) })
  | 2 => if trialFull s obj && trialOpens s obj && ownsVol s obj && decide (windowSize s obj = new) then some (skipSize s obj, openWindow obj s) else none
  | 3 => some (leesRateOf s obj, { s with plc := { s.plc with leesRate := kput s.plc.leesRate obj (min new (getF s F.TA_LEES_MAXSEG)) } })
  | 4 => some (placement s obj, { s with plc := { s.plc with govPlace := kput s.plc.govPlace obj new } })
  | 5 => some (b2n (s.plc.slow.contains obj), { s with plc := { s.plc with
      slow := if new = 0 then s.plc.slow.erase obj else if s.plc.slow.contains obj then s.plc.slow else s.plc.slow ++ [obj] } })
  | 6 =>
    let a := kgetD s.gl.admission obj {}
    some (b2n a.bit, { s with gl := { s.gl with admission := kput s.gl.admission obj { a with bit := decide (new ≠ 0) } } })
  | 7 =>
    let band := (regionReading s obj).any fun t => decide (limit s F.THM_LIM_WARN ≤ t) && decide (t < limit s F.THM_LIM_THROT)
    if isF s F.THM_CTL_GOVEN && decide (obj < 32) && decide (getF s F.THM_LVL_FLOOR obj = 0) && (decide (new = 0) || band) &&
        decide (new ≤ getF s F.THM_CTL_GOVMAXM) then
      some (getF s F.THM_LVL_SKIPM obj, setMode obj (setF F.THM_LVL_SKIPM new s obj))
    else none
  | _ => none

/-- GOVERNOR_DECISION (R42): the decision stands in its table, is counted and recorded. (log 14, DESIGN CHOICE, unsafe) -/
def execGovernorDecision (kind : BitVec 8) (object new : BitVec 32) (s : State) : Res :=
  ok (match govDecide kind.toNat object.toNat new.toNat s with
    | some (old, t) => govRecord kind.toNat object.toNat new.toNat old t
    | none => s)

end Sys2Proof.Machine
end

