-- ==== Sys2Proof/Machine/Update.lean ====
section
/-! DEFINITION. Firmware update, the banks, scheduled activation, identity and attestation (R507 to R528). -/

namespace Sys2Proof.Machine

/-! ### Banks (R516, R517) -/

/-- A bank: its record and its manifest. What nothing has staged is what the maker placed: bank A GOOD, bank B EMPTY. (log 139, DESIGN CHOICE, safe) -/
def bankOf (s : State) (b : Nat) : Bank :=
  kgetD s.upd.banks b (if b = 0 then { gen := 1, state := 3, manifest := Config.makerManifest } else {})

/-- The booted bank, and the other one. -/
def activeBank (s : State) : Nat := getF s F.UPD_BANK_ACTIVE
@[inherit_doc activeBank] def otherBank (s : State) : Nat := 1 - activeBank s

/-- The bytes of a bank record (R517). -/
def bankRecord (k : Bank) : List Byte :=
  let h := leBytes 4 0x4B4E_4142 ++ zeros 4 ++ leBytes 8 k.gen ++ leBytes 1 k.state ++ leBytes 1 k.tries ++ zeros 2 ++ leBytes 4 k.ulabel ++ zeros 32
  h ++ leBytes 8 (crc64 h)

/-- UPD_BANK mirrors both records. -/
def mirrorBanks (s : State) : State :=
  setF F.UPD_BANK_ASTATE (bankOf s 0).state (setF F.UPD_BANK_BSTATE (bankOf s 1).state
    (setF F.UPD_BANK_TRIES (bankOf s (activeBank s)).tries s))

/-- Writes a bank record. -/
def setBank (b : Nat) (k : Bank) (s : State) : State :=
  mirrorBanks (emit (.xspi b 0 (bankRecord k)) { s with upd := { s.upd with banks := kput s.upd.banks b k } })

/-! ### Manifests (R510, R511) -/

/-- Fields of a manifest. -/
def mNparts (m : List Byte) : Nat := fieldN m 6 1
@[inherit_doc mNparts] def mNonrev (m : List Byte) : Bool := (fieldN m 7 1).testBit 0
@[inherit_doc mNparts] def mEnroll (m : List Byte) : Bool := (fieldN m 7 1).testBit 1
@[inherit_doc mNparts] def mRevoke (m : List Byte) : Bool := (fieldN m 7 1).testBit 2
@[inherit_doc mNparts] def mRollback (m : List Byte) : Nat := fieldN m 16 4
@[inherit_doc mNparts] def mUlabel (m : List Byte) : Nat := fieldN m 20 4
@[inherit_doc mNparts] def mKeyidx (m : List Byte) : Nat := fieldN m 24 1
@[inherit_doc mNparts] def mArg (m : List Byte) : Nat := fieldN m 25 1
@[inherit_doc mNparts] def mFmt (m : List Byte) (i : Nat) : Nat := fieldN m (28 + i) 1
@[inherit_doc mNparts] def mSigner (m : List Byte) : List Byte := (m.drop 40).take 32
@[inherit_doc mNparts] def mArgkey (m : List Byte) : List Byte := (m.drop 72).take 32
@[inherit_doc mNparts] def mBody (m : List Byte) : List Byte := m.take (128 + 128 * mNparts m)
@[inherit_doc mNparts] def mSig (m : List Byte) : List Byte := (m.drop (128 + 128 * mNparts m)).take 64
@[inherit_doc mNparts] def mLength (m : List Byte) : Nat := 192 + 128 * mNparts m

/-- The part entries of a manifest, and the fields of one. -/
def mParts (m : List Byte) : List (List Byte) := (List.range (mNparts m)).map fun i => (m.drop (128 + 128 * i)).take 128
@[inherit_doc mParts] def pType (e : List Byte) : Nat := fieldN e 0 1
@[inherit_doc mParts] def pLength (e : List Byte) : Nat := fieldN e 8 8
@[inherit_doc mParts] def pHash (e : List Byte) : List Byte := (e.drop 16).take 64
@[inherit_doc mParts] def pBlocks (e : List Byte) : Nat := fieldN e 80 4

/-- Whether a range of bytes is zero. -/
def zeroAt (l : List Byte) (lo n : Nat) : Bool := ((l.drop lo).take n).all fun b => decide (b = 0)

/-- Whether a part entry keeps R511. -/
def partOk (e : List Byte) : Bool :=
  decide (1 ≤ pType e) && decide (pType e ≤ 7) && zeroAt e 1 3 && zeroAt e 84 44 && decide (1 ≤ pLength e) && decide (pLength e ≤ 2 ^ 32) &&
    (decide (pType e ≠ 7) || decide (pLength e ≤ 65536)) && (decide (pType e ≠ 1) || decide (pLength e ≤ 2 ^ 25)) &&
    decide (pBlocks e = (pLength e + 65535) / 65536)

/-- Whether a manifest keeps the layout of R510 and R511 for a package of `len` bytes (check 2 of R514). (log 140, DEDUCED, unsafe) -/
def layoutOk (m : List Byte) (len : Nat) : Bool :=
  let ps := mParts m
  decide (fieldN m 0 4 = 0x544E_464D) && decide (fieldN m 4 2 = 1) && decide (mNparts m = 6 ∨ mNparts m = 7) &&
    decide (fieldN m 7 1 < 8) && zeroAt m 26 2 && zeroAt m 33 7 && zeroAt m 104 24 && decide (mUlabel m ≠ 0) && decide (mRollback m ≤ 64) &&
    (mEnroll m || mRevoke m || decide (mArg m = 0)) && (mEnroll m || zeroAt m 72 32) && ps.all partOk &&
    ((List.range 6).all fun t => decide ((ps.filter fun e => pType e = t + 1).length = 1)) &&
    decide ((ps.filter fun e => pType e = 7).length ≤ 1) &&
    decide (mLength m + (ps.map fun e => pLength e + 24 * pBlocks e).sum = len)

/-! ### Keys (R507 to R509) -/

/-- The fused rollback counter, and whether a maker slot is enrolled and not revoked. -/
def rbCount (s : State) : Nat := getF s F.UPD_FUSE_RBCNT
@[inherit_doc rbCount] def slotLive (s : State) (k : Nat) : Bool := (getF s F.UPD_FUSE_ENROLLED).testBit k && !(getF s F.UPD_FUSE_REVOKED).testBit k

/-- The update key of a label, and the identity key. (log 63, DESIGN CHOICE, safe) -/
def updKey (ulabel : Nat) : List Byte := kdf rootKey "NZ-UPD" 5 ulabel 0 256
@[inherit_doc updKey] def idKey : List Byte := kdf rootKey "NZ-IDK" 6 0 0 256

/-- Enrols a public key in a maker slot (R508). -/
def enrolKey (slot : Nat) (key : List Byte) (s : State) : State :=
  setF F.UPD_FUSE_ENROLLED (getF s F.UPD_FUSE_ENROLLED ||| 2 ^ slot)
    { s with upd := { s.upd with maker := kput s.upd.maker slot ((sha512 key).take 32) } }

/-- Whether a key is the one of a maker slot that is enrolled and not revoked. -/
def signerOk (s : State) (slot : Nat) (key : List Byte) : Bool :=
  decide (slot < 4) && slotLive s slot && decide (kgetD s.upd.maker slot [] = (sha512 key).take 32)

/-! ### Blocks and parts (R512, R513) -/

/-- The block records of the parts of a package, each part with its entry, from the bytes after its manifest. -/
def packParts : List (List Byte) → List Byte → List (List Byte × List Byte)
  | [], _ => []
  | e :: es, l =>
    let n := pLength e + 24 * pBlocks e
    (e, l.take n) :: packParts es (l.drop n)

/-- The plaintext of block `k` of a part, from its record; none where its CRC or its tag fails. -/
def openBlock (m e : List Byte) (k : Nat) (r : List Byte) : Option (List Byte) :=
  let n := r.length - 24
  let c := r.take n
  let tag := (r.drop n).take 16
  let ks := aesKeys (updKey (mUlabel m))
  let nonce := leBytes 4 k ++ leBytes 1 (pType e) ++ [0x55] ++ leBytes 6 (fieldN m 8 8)
  if fieldN r (n + 16) 8 ≠ crc64 (r.take (n + 16)) ∨ gcmTag ks nonce e c ≠ tag then none else some (gcmText ks nonce c)

/-- The plaintext of a part, from its records. -/
def openPart (m : List Byte) (e rs : List Byte) : Option (List Byte) :=
  (((List.range (pBlocks e)).map fun k => openBlock m e k ((rs.drop (65560 * k)).take 65560)).mapM id).map List.flatten

/-- Whether Ovfin's key and signature of a ground header verify (R513). -/
def groundOk (p : List Byte) : Bool :=
  let key := (p.drop 80).take 32
  decide (sha512 key = (List.range 64).map Config.ovfinHashByte) && edVerify key (sha512 (p.take 192)) ((p.drop 192).take 64)

/-! ### STAGE (R514, R515, R519) -/

/-- A command is refused, with the code of its cause or one that the spec does not give. -/
def updRefuse (err : Nat) (s : State) : State := setF F.UPD_STAT_ERR err (setF F.UPD_STAT_REFUSED 1 s)
@[inherit_doc updRefuse] def updRefuseFree (s : State) : State := nextFree (updRefuse (bits (Config.freeWord s.free) 7 0) s)
@[inherit_doc updRefuse] def updDone (s : State) : State := setF F.UPD_STAT_DONE 1 s

/-- R519 for a manifest beside that of the active bank. -/
def fmtOk (s : State) (m : List Byte) : Bool :=
  let a := (bankOf s (activeBank s)).manifest
  if mNonrev m then decide (rbCount s < mRollback m) && (List.range 5).all fun i => decide (mFmt a i ≤ mFmt m i)
  else (List.range 5).all fun i => decide (mFmt m i = mFmt a i)

/-- R515. -/
def slotsOk (s : State) (m : List Byte) : Bool :=
  let a := mArg m
  !(mEnroll m && mRevoke m) &&
    (!mEnroll m || (decide (a < 4) && !(getF s F.UPD_FUSE_ENROLLED).testBit a)) &&
    (!mRevoke m || (decide (a < 4) && decide (a ≠ mKeyidx m) && !(getF s F.UPD_FUSE_REVOKED).testBit a &&
      (List.range 4).any fun k => decide (k ≠ a) && slotLive s k))

/-- What the parts of a package fail: 6, 7 or the ground header's 3. (log 140, DEDUCED, unsafe) -/
def partsFail (m : List Byte) (ps : List (List Byte × List Byte)) : Option Nat :=
  match ps.mapM fun p => (openPart m p.1 p.2).map fun t => (p.1, t) with
  | none => some 6
  | some ts =>
    if ts.any fun t => decide (sha512 t.2 ≠ pHash t.1) then some 7
    else if ts.any fun t => decide (pType t.1 = 1) && !groundOk t.2 then some 3
    else none

/-- The checks of R514 that come before the write, in their order. (log 140, DEDUCED, unsafe) -/
def stageFail (s : State) (m : List Byte) (len : Nat) (ps : List (List Byte × List Byte)) : Option Nat :=
  if isF s F.UPD_STAT_BUSY ∨ (bankOf s (otherBank s)).state = 2 ∨ isF s F.UPD_STAT_ARMED then some 1
  else if !layoutOk m len then some 2
  else if !signerOk s (mKeyidx m) (mSigner m) then some 3
  else if !edVerify (mSigner m) (sha512 (mBody m)) (mSig m) then some 4
  else if mRollback m < rbCount s then some 5
  else
    match partsFail m ps with
    | some e => some e
    | none => if !fmtOk s m then some 8 else if !slotsOk s m then some 11 else none

/-- The four units of row `r` for the bytes from its start on, zero beyond their end (R461). -/
def listUnits (row : List Byte) (r : Nat) : List (Nat × List Byte) :=
  let unit (u : Nat) : List Byte := let l := (row.drop (262144 * u)).take 262144; l ++ zeros (262144 - l.length)
  let us := (List.range 3).map fun u => ((r % 4 + 1 + u) % 4, unit u)
  us ++ [(r % 4, us.foldl (fun l x => List.zipWith (· ^^^ ·) l x.2) (zeros 262144))]

/-- The rows of the vault area of a bank: a copy of the manifest in its first 4 KiB and the records of types 2 to 6 after it, striped 3+1
(R461, R516). (log 141, DESIGN CHOICE, unsafe) -/
def bankBlocks (ds : List Nat) (b : Nat) (img : List Byte) : List (Nat × Nat × List Byte × List Byte) :=
  (List.range ((img.length + rowBytes - 1) / rowBytes)).flatMap fun r =>
    (rowBlocks ds (listUnits (img.drop (rowBytes * r)) r) (64 * r) (zeros 64)).map fun w => (w.1, Config.vaultNsze w.1 - 0x8_0000 + b * 0x4_0000 + w.2.1, w.2.2)

/-- The verified records are written to a bank, its record last. (log 141, DESIGN CHOICE, unsafe) -/
def writeBank (b : Nat) (m : List Byte) (ps : List (List Byte × List Byte)) (s : State) : State :=
  let of (p : Nat → Bool) : List Byte := (ps.filter fun x => p (pType x.1)).flatMap Prod.snd
  let s := emit (.xspi b 0x1000 m) s
  let s := if ps.any fun x => pType x.1 = 7 then emit (.xspi b 0x1_0000 (of fun t => t = 7)) s else s
  let s := emit (.xspi b 0x4_0000 (of fun t => t = 1)) s
  let img := m ++ zeros (4096 - m.length) ++ of fun t => decide (2 ≤ t ∧ t ≤ 6)
  let s := emit (.vaultWrite (bankBlocks (vaultDrives s) b img)) s
  setBank b { gen := (bankOf s b).gen, state := 1, tries := 0, ulabel := mUlabel m, manifest := m, blocks := ps.flatMap Prod.snd } s

/-- STAGE (R514): a refusal before the write leaves the bank as it was; a failed write makes it BAD. (log 140, DEDUCED, unsafe) -/
def stage (writes : Bool) (s : State) : State :=
  let base := getF s F.UPD_STG_BASE * 4096
  let len := getF s F.UPD_STGLEN_LEN
  let m := let h := rdB s base 128; rdB s base (mLength h)
  let ps := packParts (mParts m) (rdB s (base + mLength m) (len - mLength m))
  let b := otherBank s
  match stageFail s m len ps with
  | some e => updRefuse e s
  | none =>
    if !writes || decide ((vaultDrives s).length < 3) then updRefuse 10 (setBank b { bankOf s b with state := 4 } s)
    else updDone (writeBank b m ps s)

/-! ### The other commands (R509, R518, R523) -/

/-- A bank becomes GOOD (R518): its rollback, enrolment and revocation fuses blow, and the other bank becomes STAGED. (log 143, DEDUCED, unsafe) -/
def makeGood (s : State) : State :=
  let b := activeBank s
  let m := (bankOf s b).manifest
  let s := setF F.UPD_FUSE_RBCNT (min 64 (max (rbCount s) (mRollback m))) s
  let s := if mEnroll m then enrolKey (mArg m % 4) (mArgkey m) s else s
  let s := if mRevoke m then setF F.UPD_FUSE_REVOKED (getF s F.UPD_FUSE_REVOKED ||| 2 ^ (mArg m % 4)) s else s
  setBank (1 - b) { bankOf s (1 - b) with state := 1 } (setBank b { bankOf s b with state := 3 } s)

/-- ARM and DISARM (R523). -/
def arm (s : State) : State :=
  if (bankOf s (otherBank s)).state ≠ 1 ∨ getF s F.UPD_ACT_TIME = 0 then updRefuse 1 s else updDone (setF F.UPD_STAT_ARMED 1 s)
@[inherit_doc arm] def disarm (s : State) : State :=
  updDone (setF F.UPD_STAT_ARMED 0 { s with upd := { s.upd with due := false, announced := false } })

/-- COMMIT (R518): the booted bank is TRIAL and its manifest has no NONREV; otherwise the command has nothing to make GOOD. (log 136, DESIGN CHOICE, safe) -/
def commit (s : State) : State :=
  let k := bankOf s (activeBank s)
  if k.state ≠ 2 ∨ mNonrev k.manifest then updRefuseFree s else updDone (makeGood s)

/-- ENROLL, SEAL and UKEXP (R509). (log 136, DESIGN CHOICE, safe) -/
def enrol (s : State) : State :=
  let slot := getF s F.UPD_CMD_ARG
  if isF s F.UPD_FUSE_SEALED then updRefuse 9 s
  else if 4 ≤ slot then updRefuseFree s
  else updDone (enrolKey slot ((List.range 4).flatMap fun i => leBytes 8 (rd s .UPD_KEYIN i).toNat) s)
@[inherit_doc enrol] def blowSeal (s : State) : State :=
  if (List.range 4).any fun k => slotLive s k then updDone (setF F.UPD_FUSE_SEALED 1 s) else updRefuseFree s
@[inherit_doc enrol] def exportKey (s : State) : State :=
  if isF s F.UPD_FUSE_SEALED then updRefuse 9 s
  else
    let k := updKey (getF s F.UPD_CMD_ULABEL)
    updDone ((List.range 4).foldl (fun t i => wr .UPD_UKOUT (BitVec.ofNat 64 (fieldN k (8 * i) 8)) t i) s)

/-- A write of UPD_CMD; GO starts the command that OP names (R527). (log 141, DESIGN CHOICE, unsafe) -/
def wrUpdCmd (writes : Bool) (v : Word) (s : State) : State :=
  let s := wr .UPD_CMD (writeFields (rd s .UPD_CMD) v (RegName.info .UPD_CMD).fields) s
  if !bit v 0 then s
  else
    match bits v 3 1 with
    | 1 => stage writes s
    | 2 => arm s
    | 3 => disarm s
    | 4 => commit s
    | 5 => enrol s
    | 6 => blowSeal s
    | 7 => exportKey s
    | _ => s

/-- A write of UPD_CMD whose OP is the one that the command names. -/
def updGo (op : Nat) (writes : Bool) (v : Word) (s : State) : Res := ok (if bits v 3 1 = op then wrUpdCmd writes v s else s)

/-- STAGE (R514). -/
def execStage (v : Word) (writes : Bool) (s : State) : Res := updGo 1 writes v s

/-- ARM (R523). -/
def execArm (v : Word) (s : State) : Res := updGo 2 true v s

/-- DISARM (R523). -/
def execDisarm (v : Word) (s : State) : Res := updGo 3 true v s

/-- COMMIT (R518). -/
def execCommit (v : Word) (s : State) : Res := updGo 4 true v s

/-- ENROLL (R509). -/
def execEnroll (v : Word) (s : State) : Res := updGo 5 true v s

/-- SEAL (R509). -/
def execSeal (v : Word) (s : State) : Res := updGo 6 true v s

/-- UKEXP (R509). -/
def execUkexp (v : Word) (s : State) : Res := updGo 7 true v s

/-! ### Scheduled activation (R522, R523) -/

/-- The conditions under which a head starts its activation: ACTIVE, the partner's last heartbeat ACTIVE with the link up, and every group
SETTLED. -/
def mayStart (s : State) : Bool :=
  decide (headState s = 2) && partnerActive s && (groups fun g => grpPos s g ≠ 0).isEmpty

/-- The head enters DRAIN for its activation (R438, R492): PARK follows where it had been requested. (log 142, DEDUCED, unsafe) -/
def startDrain (s : State) : State :=
  let park := decide (s.pwr.want = some 2)
  handOver (enterDrain (setF F.UPD_STAT_ARMED 0 { s with
    upd := { s.upd with draining := true, due := false, announced := false }
    pwr := { s.pwr with parkNext := park, want := none } }))

/-- ACTIVATION_TIME (R523): at TIME, and at each heartbeat after it, the conditions are checked; the head announces its start, and starts
unless the partner's announcement takes precedence. (log 142, DEDUCED, unsafe) -/
def execActivationTime (s : State) : Res :=
  ok (if !isF s F.UPD_STAT_ARMED || decide (s.dtime.toNat < getF s F.UPD_ACT_TIME) then s
    else if decide (headState s = 3) || decide (getF s F.PWR_PF_STEP ≠ 0) then abandonActivation 14 s
    else if !mayStart s || (s.upd.theirs && !(s.upd.announced && !headB s)) then
      { s with upd := { s.upd with due := true, announced := false } }
    else if s.upd.announced then startDrain s
    else toPartner (.activation (rd s .UPD_ACT)) { s with upd := { s.upd with due := true, announced := true } })

/-- ACTIVATION_WAIT_EXPIRY (R523). -/
def execActivationWaitExpiry (s : State) : Res := ok (if s.upd.due && isF s F.UPD_STAT_ARMED then abandonActivation 12 s else s)

/-- ACTIVATION_ANNOUNCE (R523): the partner starts; a head that has not entered DRAIN waits. (log 142, DEDUCED, unsafe) -/
def execActivationAnnounce (_time : Word) (s : State) : Res :=
  ok (if s.upd.draining then s else { s with upd := { s.upd with theirs := true } })

/-- RING_DRAINED (R337, R522): the host connections are closed, the staged bank becomes TRIAL, and the head resets, or enters PARK. -/
def execRingDrained (s : State) : Res :=
  ok (if !s.upd.draining || decide (ownedGroups s ≠ []) || decide (s.ta.recs ≠ []) then s
    else
      let b := otherBank s
      let s := closeHosts s
      let t := setBank b { bankOf s b with state := 2, gen := (bankOf s (1 - b)).gen + 1, tries := 0 } s
      let t := { t with upd := { t.upd with draining := false } }
      if t.pwr.parkNext then enterPark t else assertReset 0x0B t)

/-- RING_DRAIN_TIMEOUT (R337, R522): the host connections have been closed, the activation is abandoned, and the head is ACTIVE as PEER of every group. -/
def execRingDrainTimeout (s : State) : Res := ok (if s.upd.draining then setHead 2 (abandonActivation 13 (closeHosts s)) else s)

/-! ### Attestation (R525, R526) -/

/-- An entry of the measurement log (R525). -/
def measure (ty bank version : Nat) (hash : List Byte) : List Byte :=
  leBytes 1 ty ++ leBytes 1 bank ++ zeros 2 ++ leBytes 4 version ++ zeros 8 ++ hash

/-- The quote (R526). -/
def quote (s : State) : List Byte :=
  leBytes 4 0x544F_5551 ++ zeros 4 ++ leBytes 8 (rd s .SYS_ID).toNat ++ leBytes 8 s.dtime.toNat ++ leBytes 8 (rd s .UPD_FUSE).toNat ++
    leBytes 1 s.upd.log.length ++ zeros 31 ++ ((List.range 4).flatMap fun i => leBytes 8 (rd s .SEC_ATTNONCE i).toNat) ++ zeros 32 ++ s.upd.log.flatten

/-- A write of SEC_ATTCMD; GO builds and signs a quote. A buffer outside HBM and DDR5 is refused. (log 144, DEDUCED, unsafe) -/
def wrAttCmd (v : Word) (s : State) : State :=
  let s := wr .SEC_ATTCMD (writeFields (rd s .SEC_ATTCMD) v (RegName.info .SEC_ATTCMD).fields) s
  let base := getF s F.SEC_ATTBUF_BASE * 4096
  if !bit v 0 then s
  else if isF s F.SEC_ATTCMD_BUSY || !inHbmDdr s base 1408 then setF F.SEC_ATTCMD_REFUSED 1 s
  else
    let q := quote s
    let sig := edSign idKey (sha512 q)
    let s := (List.range 8).foldl (fun t i => wr .SEC_ATTSIG (BitVec.ofNat 64 (fieldN sig (8 * i) 8)) t i) (wrB base q s)
    setF F.SEC_ATTCMD_DONE 1 (setF F.SEC_ATTCMD_LEN q.length s)

/-- ATTEST_QUOTE (R526). -/
def execAttestQuote (v : Word) (s : State) : Res := ok (wrAttCmd v s)

end Sys2Proof.Machine
end

