-- ==== Sys2Proof/Machine/Resets.lean ====
section
/-! DEFINITION. The sources of a hardware reset, power-on, the reference clocks, the boot, the steward watchdog and the vault checkpoints
(R483 to R506, R559, R561). -/

namespace Sys2Proof.Machine

/-! ### Power-on (R483, R487, R559) -/

/-- What the loss of VDD_AON leaves: the fuses, and what lies on flash, on the vault drives and in xSPI; pins keep their level. (log 128, DEDUCED, unsafe; 129, DEDUCED, unsafe) -/
def coldState (s : State) : State :=
  let t := restState s
  { t with
    mem := [], csr := resetCsr [.F] s.csr, dtime := 0, cel := {}, partner := { fenceIn := s.partner.fenceIn }, xe := {}, sw := {}
    rst := { rstn := s.rst.rstn, held := true, idle := true, dports := 2 }
    pwr := { gen := s.pwr.gen }
    boot := { aon := false, pwrgood := s.boot.pwrgood, copies := s.boot.copies, tgen := s.boot.tgen }
    board := {} }

/-- VDD_AON_LOSS (R428, R456, R559). -/
def execVddAonLoss (s : State) : Res := ok (coldState s)

/-- COLD_POWER_ON (R483, R559): a release from the cold reset; step 5 of R486 waits for PWRGOOD. -/
def execColdPowerOn (s : State) : Res :=
  ok (if s.boot.aon then s else tryRelease { s with boot := { s.boot with aon := true } })

/-- PWRGOOD_CHANGE (R559). -/
def execPwrgoodChange (up : Bool) (s : State) : Res :=
  let t := { s with boot := { s.boot with pwrgood := up } }
  ok (if s.boot.pwrgood = up ∨ !s.boot.aon then t
    else if s.rst.held && s.boot.cold && up then tryRelease t
    else if up && decide (s.pwr.want = some 3) then assertReset 0x0C { t with pwr := { t.pwr with want := none } }
    else if getF s F.PWR_PSTATE_CUR = 2 then t
    else cel 0x0211 0 2 (b2n up) 0 0 t)

/-! ### Sources of a head reset (R484) -/

/-- RST_N (R484, R493): it leads out of PARK, extends the hold of a reset in progress, or resets the head. (log 130, DEDUCED, unsafe) -/
def execRstN (s : State) : Res :=
  let t := { s with rst := { s.rst with rstn := true } }
  ok (if s.rst.rstn || !s.boot.aon then t
    else if getF s F.PWR_PSTATE_CUR = 2 && s.pwr.want.isNone && !s.rst.held then leavePark t
    else assertReset 0x01 t)

/-- RST_N_RELEASE (R484). -/
def execRstNRelease (s : State) : Res := ok (holdEnds { s with rst := { s.rst with rstn := false } })

/-- CORE_BROWN_OUT (R484); in PARK the rail is off by design. (log 130, DEDUCED, unsafe) -/
def execCoreBrownOut (s : State) : Res := ok (if getF s F.PWR_PSTATE_CUR = 2 then s else assertReset 0x0D s)

/-- MEMORY_ECC (R484). -/
def execMemoryEcc (s : State) : Res := ok (assertReset 0x0F s)

/-! ### Reference clocks (R561) -/

/-- Whether a reference is absent, and the mark of its absence. -/
def refLost (s : State) (b : Nat) : Bool := if b = 0 then isF s F.CLK_REF_ALOS else isF s F.CLK_REF_BLOS
@[inherit_doc refLost] def markRef (b v : Nat) (s : State) : State := setF (if b = 0 then F.CLK_REF_ALOS else F.CLK_REF_BLOS) v s

/-- The device switches to a reference, with SWITCHED and the record. (log 131, DEDUCED, unsafe) -/
def failover (b : Nat) (s : State) : State :=
  let s := setF F.CLK_REF_SWITCHED 1 (setF F.CLK_REF_ACTIVE b { s with boot := { s.boot with holdover := false } })
  cel 0x0110 0 2 b (b2n (refLost s 0) + 2 * b2n (refLost s 1)) 0 s

/-- REFCLK_LOSS (R561): the other reference is taken if it is present, or the PLLs hold over. -/
def execRefclkLoss (b : Bool) (s : State) : Res :=
  let n := b2n b
  let t := markRef n 1 s
  ok (if refLost s n || decide (getF s F.CLK_REF_ACTIVE ≠ n) then t
    else if refLost t (1 - n) then { t with boot := { t.boot with holdover := true } }
    else failover (1 - n) t)

/-- REFCLK_RETURN (R561): a reference that returns during the holdover is taken. -/
def execRefclkReturn (b : Bool) (s : State) : Res :=
  let n := b2n b
  let t := markRef n 0 s
  ok (if !s.boot.holdover then t
    else if getF s F.CLK_REF_ACTIVE = n then { t with boot := { t.boot with holdover := false } }
    else failover n t)

/-- CLOCK_LOSS (R484, R561): the holdover ends without a reference. -/
def execClockLoss (s : State) : Res :=
  ok (if s.boot.holdover then assertReset 0x0E { s with boot := { s.boot with holdover := false } } else s)

/-- The device takes the preferred reference if it is present. (log 131, DEDUCED, unsafe) -/
def prefer (s : State) : State :=
  let p := getF s F.CLK_REF_PREF
  if refLost s p then s else setF F.CLK_REF_ACTIVE p s

/-- A write of CLK_REF (R561, R565). (log 131, DEDUCED, unsafe) -/
def wrClkRef (v : Word) (s : State) : State :=
  prefer (wr .CLK_REF (writeFields (rd s .CLK_REF) v (RegName.info .CLK_REF).fields) s)

/-! ### Boot (R495) -/

/-- The boot stops in BOOT (R495, R537). -/
def bootStops (step cause param : Nat) (s : State) : State :=
  cel 0x0012 step 4 cause param 0 (alert 3 { s with boot := { s.boot with stopped := true } })

/-- The measurement log takes an entry (R525): none beyond 16, and none once a core above 0 runs. -/
def logPart (l : List Byte) (s : State) : State :=
  if s.upd.log.length < 16 ∧ getF s F.SYS_CORE_RUN < 2 then { s with upd := { s.upd with log := s.upd.log ++ [l] } } else s

/-- A check of a TRIAL bank has failed (R518): the bank becomes BAD, and the head resets into the other. (log 132, DEDUCED, unsafe) -/
def trialFails (part check : Nat) (s : State) : State :=
  let b := activeBank s
  assertReset 0x0B (celOpen 7 part check b (setBank b { bankOf s b with state := 4 } s))

/-- The entry of a part in a manifest. -/
def partEntry (m : List Byte) (ty : Nat) : Option (List Byte) := (mParts m).find? fun e => pType e = ty

/-- The boot ROM boots a bank whose ground firmware it has verified (R495 step 1, R518, R524). (log 132, DEDUCED, unsafe) -/
def bootBank (b : Nat) (s : State) : State :=
  let s := mirrorBanks (setF F.UPD_BANK_ACTIVE b s)
  let key := edPublic idKey
  let s := (List.range 4).foldl (fun t i => wr .SEC_IDPUB (BitVec.ofNat 64 (fieldN key (8 * i) 8)) t i) s
  let s := match partEntry (bankOf s b).manifest 1 with
    | some e => logPart (measure 1 b (fieldN e 4 4) (pHash e)) s
    | none => s
  let s := cel 0x0010 0 4 (bits (rd s .SYS_RSTSRC) 31 0) (getF s F.SYS_RSTSRC_COUNT) 0 s
  { s with boot := { s.boot with step := 1 } }

/-- The banks in the order in which the boot ROM tries them (R517): in state TRIAL or GOOD, the higher GEN first. (log 132, DEDUCED, unsafe) -/
def bootOrder (s : State) : List Nat :=
  (if (bankOf s 0).gen < (bankOf s 1).gen then [1, 0] else [0, 1]).filter fun b => (bankOf s b).state = 2 || (bankOf s b).state = 3

/-- Step 1 of R495 over the banks still to be tried (R517, R518). (log 132, DEDUCED, unsafe) -/
def bootRom (good : Nat → Bool) : List Nat → State → State
  | [], s => bootStops 1 1 0 s
  | b :: l, s =>
    let k := bankOf s b
    if k.state = 2 then
      if 2 < k.tries + 1 then bootRom good l (setBank b { k with tries := k.tries + 1, state := 4 } s)
      else
        let s := setBank b { k with tries := k.tries + 1 } s
        if good b then bootBank b s else trialFails 1 0 (setF F.UPD_BANK_ACTIVE b s)
    else if good b then bootBank b s
    else bootRom good l s

/-- Step 2: DDR5 is mapped at twelve times the smallest DIMM, with a record for each larger one (R23), HBM and DDR5 are in use, and the
cellar buffer that survived a head reset is flushed (R536). (log 128, DEDUCED, unsafe) -/
def bootMemory (dimms : List Nat) (s : State) : State :=
  let ds := (List.range 12).map fun c => dimms.getD c 0
  match (List.range 12).find? fun c => ds.getD c 0 = 0 with
  | some c => bootStops 2 3 c s
  | none =>
    let least := ds.foldl min (ds.getD 0 0)
    let s := (ds.zipIdx.filter fun d => least < d.1).foldl (fun t d => cel 0x1610 d.2 1 (d.1 - least) d.1 least t) s
    let size := 12 * least * 2 ^ 30
    let s := { s with ddrcSize := size, rst := { s.rst with selfRef := false }, boot := { s.boot with step := 2 } }
    if s.boot.cold then s else requestFlush 5 s

/-- A register takes the bits of a class from a word. -/
def putKept (ks : List Keep) (w : Nat × Word) (s : State) : State :=
  match regAt w.1 with
  | some (r, i, _) =>
    let m := r.keepMask ks
    { s with csr := kput s.csr w.1 ((kgetD s.csr w.1 (r.resetVal i) &&& ~~~m) ||| (w.2 &&& m)) }
  | none => s

/-! ### The copies of a checkpoint (R497 to R501) -/

/-- The sections of a staged copy: offset in blocks and length. -/
def ckptSections (h : List Byte) : List (Nat × Nat) :=
  (List.range (fieldN h 7 1)).map fun i => (fieldN h (64 + 24 * i + 4) 4, fieldN h (64 + 24 * i + 8) 8)

/-- The bytes that a staged copy takes. -/
def ckptBytes (h : List Byte) : Nat := (ckptSections h).foldl (fun n x => max n (4096 * x.1 + x.2)) 4096

/-- The GEN of copy `c` of an area, and the older copy of an area. -/
def copyGen (s : State) (area c : Nat) : Nat := kgetD s.boot.copies (2 * area + c) 0
@[inherit_doc copyGen] def olderCopy (s : State) (area : Nat) : Nat := if copyGen s area 1 < copyGen s area 0 then 1 else 0

/-- Whether a copy's header and every section check, for a kind (R497, R498). -/
def copyGood (kind : Nat) (l : List Byte) : Bool :=
  decide (4096 ≤ l.length) && decide (fieldN l 0 4 = 0x4746_4356) && decide (1 ≤ fieldN l 4 1) && decide (fieldN l 5 1 = kind) &&
    decide (1 ≤ fieldN l 7 1) && decide (fieldN l 7 1 ≤ 160) && decide (fieldN l 56 8 = crc64 (l.take 56 ++ (l.drop 64).take 4032)) &&
    (ckptSections l).zipIdx.all fun x =>
      decide (4096 * x.1.1 + x.1.2 ≤ l.length) && decide (fieldN l (64 + 24 * x.2 + 16) 8 = crc64 ((l.drop (4096 * x.1.1)).take x.1.2))

/-- The GEN of a copy, and the first section of a TYPE that it holds (R498, R499). -/
def copyGenOf (l : List Byte) : Nat := fieldN l 8 8
@[inherit_doc copyGenOf] def copySection (l : List Byte) (ty : Nat) : Option (List Byte) :=
  ((ckptSections l).zipIdx.find? fun x => decide (fieldN l (64 + 24 * x.2) 2 = ty)).map fun x => (l.drop (4096 * x.1.1)).take x.1.2

/-- The configuration that the boot uses: of the copies that check the one with the highest GEN, from the first drive that yields it (R497). -/
def newestCopy (cs : List (Nat × List Byte)) : Option (List Byte) :=
  (cs.filter fun c => copyGood 1 c.2).foldl (fun m c =>
    match m with
    | some x => if copyGenOf x < copyGenOf c.2 then some c.2 else m
    | none => some c.2) none

/-- The GENs that the copies of an area carry. -/
def noteCopies (area kind : Nat) (cs : List (Nat × List Byte)) (s : State) : State :=
  { s with boot := { s.boot with copies :=
    (cs.filter fun c => copyGood kind c.2).foldl (fun m c => kput m (2 * area + c.1 % 2) (copyGenOf c.2)) s.boot.copies } }

/-- The vault configuration is read (R497, R500): the boot stops where no copy of it checks, or where the table checkpoint that it names does not.
TGEN 0 names none. (log 189, DEDUCED, unsafe) -/
def readVault (cfg tbl : List (Nat × List Byte)) (s : State) : State :=
  if !isF s F.PWR_VAULT_EN then s
  else
    match newestCopy cfg with
    | none => bootStops 3 5 0 s
    | some l =>
      let t := fieldN l 24 8
      if t ≠ 0 ∧ !(tbl.any fun c => copyGood 2 c.2 && decide (copyGenOf c.2 = t)) then bootStops 3 6 0 s
      else
        let s := noteCopies 1 2 tbl (noteCopies 0 1 cfg s)
        { s with boot := { s.boot with cfg := l, tgen := t } }

/-- The V fields of a configuration: pairs of a CSR address and a value (R499). -/
def cfgWords (l : List Byte) : List (Nat × Word) :=
  match copySection l 1 with
  | some x => (List.range (x.length / 16)).map fun i => (fieldN x (16 * i) 8, BitVec.ofNat 64 (fieldN x (16 * i + 8) 8))
  | none => []

/-- MINSERIAL of each key slot, after the blobs of a configuration (R209, R499). (log 189, DEDUCED, unsafe) -/
def cfgSerials (l : List Byte) : List (Nat × Nat) :=
  match copySection l 4 with
  | some x => (cutN 4 65536 (x.drop (56 * 65536))).zipIdx.filterMap fun p => if p.1 = 0 then none else some (p.2, p.1)
  | none => []

/-- The binding that a configuration records: the SHA-512 of its set, both banks and BANKSEL (R112, R499). (log 189, DEDUCED, unsafe) -/
def cfgBinding (l : List Byte) : Option BindRec :=
  (copySection l 2).map fun x => ⟨x.take 64, (x.drop 64).take 32768, (x.drop (64 + 32768)).take 32768, fieldN x (64 + 65536) 1⟩

/-- The blocks that the vault spare takes over from a failed drive: each unit is the XOR of the other three (R461, R464). -/
def spareBlocks (d : Nat) (l : List (Nat × List (List Byte × List Byte))) : List (Nat × Nat × List Byte × List Byte) :=
  l.map fun x => (d, x.1, (x.2.map Prod.fst).foldl xorB (zeros 4096), (x.2.map Prod.snd).headD (zeros 64))

/-- The vault comes up (R464): a failed drive is replaced by the vault spare, which takes over its units, or the head runs with its vault
degraded. (log 134, DEDUCED, unsafe) -/
def bootVault (spare : List (Nat × List (List Byte × List Byte))) (s : State) : State :=
  let failed := bitsSet 4 (getF s F.PWR_VSTAT_FAILED)
  match (if isF s F.PWR_VAULT_EN then failed else []) with
  | [] => setF F.PWR_VSTAT_FAILED 0 { s with pwr := { s.pwr with degraded := false } }
  | d :: _ =>
    let s :=
      if isF s F.PWR_VAULT_SPAREEN then
        let p := getF s F.PWR_VAULT_SPARE
        let v := setBits (setBits (rd s .PWR_VAULT) 40 40 0) (8 * d + 7) (8 * d) p
        celOpen 2 d p 0 (setF F.PWR_VSTAT_FAILED ((getF s F.PWR_VSTAT_FAILED) ^^^ 2 ^ d)
          (emit (.vaultWrite (spareBlocks d spare)) (wr .PWR_VAULT v s)))
      else s
    if getF s F.PWR_VSTAT_FAILED = 0 then { s with pwr := { s.pwr with degraded := false } }
    else raise 0x0210 3 { s with pwr := { s.pwr with degraded := true } }

/-- Step 3: the vault comes up and its configuration is read; after a cold power-on the V fields are restored from the board record and the
configuration, with MINSERIAL (R488, R496, R497, R499). (log 129, DEDUCED, unsafe) -/
def bootRestore (board : List (Nat × Word)) (cfg tbl : List (Nat × List Byte)) (spare : List (Nat × List (List Byte × List Byte))) (s : State) : State :=
  let fields (ws : List (Nat × Word)) (t : State) : State := if s.boot.cold then ws.foldl (fun u w => putKept [.V] w u) t else t
  let t := readVault cfg tbl (bootVault spare (fields board s))
  if t.boot.stopped then t
  else
    let t := fields (cfgWords t.boot.cfg) t
    let t := if s.boot.cold then { prefer t with xe := { t.xe with
      minSerial := (cfgSerials t.boot.cfg).foldl (fun m x => kput m x.1 x.2) t.xe.minSerial } } else t
    { t with boot := { t.boot with step := 3 } }

/-- A check of a part fails in steps 1 to 5 (R110, R495, R518): a TRIAL bank becomes BAD and the head resets into the other, else the boot stops. (log 161, DEDUCED, unsafe) -/
def bootFails (step part cause : Nat) (s : State) : State :=
  if (bankOf s (activeBank s)).state = 2 ∧ cause = 7 then trialFails part cause s else bootStops step cause 0 s

/-- The root pages of the volumes follow the ROOT of the rebuilt volume table (R122, R124). -/
def rootsFollow (s : State) : State :=
  let vs := (s.me.root.map Prod.fst ++ (listedVols s).filter (volValid s)).eraseDups
  vs.foldl (fun t v => if (kget t.me.root v).isSome ∧ volRoot t v ≠ 0 then t else setRoot v t) s

/-- Step 4: the tables are rebuilt, the volume table from the configuration (R124, R499), and the flow program set is loaded (R110): its binding is written after a cold power-on and after a
reset with code 0x0B, and kept otherwise. A set that breaks a check is a verification failure of its part. (log 161, DEDUCED, unsafe) -/
def bootTables (mem : List (Nat × List Byte)) (set : List Byte) (s : State) : State :=
  let fresh := s.boot.cold || decide (getF s F.SYS_RSTSRC_CODE = 0x0B) || (getF s F.SYS_RSTSRC_ALSO).testBit 0x0B
  let hash := match partEntry (bankOf s (activeBank s)).manifest 3 with
    | some e => pHash e
    | none => []
  let s := match copySection s.boot.cfg 3 with
    | some l => wrB volTableBase (l.take 0x100_0000) s
    | none => s
  match loadSet fresh set hash (cfgBinding s.boot.cfg) (mem.foldl (fun t m => wrB m.1 m.2 t) s) with
  | some t => rootsFollow { t with boot := { t.boot with step := 4, cfg := [] } }
  | none => bootFails 4 3 7 s

/-- The parts of a manifest other than the ground firmware, the manifest and its signer enter the measurement log (R525). -/
def logBank (s : State) : State :=
  let b := activeBank s
  let m := (bankOf s b).manifest
  let s := ((List.range 6).filterMap fun t => partEntry m (t + 2)).foldl (fun t e => logPart (measure (pType e) b (fieldN e 4 4) (pHash e)) t) s
  logPart (measure 0x11 b 0 (sha512 (mSigner m))) (logPart (measure 0x10 b 0 (sha512 (m.take (mLength m)))) s)

/-- Releases steward cores at an address, each in the state of R80. -/
def releaseCores (ks : List Nat) (pc : Word) (s : State) : State :=
  { s with stews := ks.foldl (fun m k => kput m k (startCore pc)) s.stews }

/-! ### Writing a copy (R497 to R501, R520) -/

/-- The header that is written: GEN, the CRC of each section, and its own CRC (R498). -/
def ckptHeader (h img : List Byte) (gen : Nat) : List Byte :=
  let h := putBytes h 8 (leBytes 8 gen)
  let h := ((ckptSections h).zipIdx).foldl (fun l x =>
    putBytes l (64 + 24 * x.2 + 16) (leBytes 8 (crc64 ((img.drop (4096 * x.1.1)).take x.1.2)))) h
  putBytes h 56 (leBytes 8 (crc64 (h.take 56 ++ h.drop 64)))

/-- The blocks of a copy: the same on every drive for a configuration (R497), striped for a table checkpoint (R500). (log 141, DESIGN CHOICE, unsafe) -/
def ckptBlocks (ds : List Nat) (area c tblk : Nat) (img : List Byte) : List (Nat × Nat × List Byte × List Byte) :=
  if area = 0 then
    ds.flatMap fun d => (List.range ((img.length + 4095) / 4096)).map fun i =>
      (d, 0x2_0000 * c + i, ((img.drop (4096 * i)).take 4096), zeros 64)
  else
    (List.range ((img.length + rowBytes - 1) / rowBytes)).flatMap fun r =>
      (rowBlocks ds (listUnits (img.drop (rowBytes * r)) r) (0x40_0000 + c * tblk + 64 * r) (zeros 64))

/-- The older copy of an area is written with its GEN and CRCs, sections first and the header last (R497 to R501); a configuration names the table
checkpoint that goes with it, and the POOL, ROOT and STEW records up to its CKSEQ may retire (R255). (log 137, DEDUCED, unsafe) -/
def putCopy (area : Nat) (copy : List Byte) (ds : List Nat) (s : State) : State :=
  let c := olderCopy s area
  let gen := copyGen s area (1 - c) + 1
  let h := copy.take 4096
  let h' := ckptHeader h copy gen
  let bs := ckptBlocks ds area c (fieldN h 40 8) (h' ++ copy.drop 4096)
  let head (x : Nat × Nat × List Byte × List Byte) : Bool := decide (x.2.1 % 64 = 0) && decide (x.2.2.1 = h')
  let s := emit (.vaultWrite (bs.filter head)) (emit (.vaultWrite (bs.filter fun x => !(head x))) s)
  let s := { s with boot := { s.boot with
    copies := kput s.boot.copies (2 * area + c) gen, tgen := if area = 0 then fieldN h 24 8 else s.boot.tgen } }
  let mark (r : JRec) : JRec :=
    if r.seq ≤ fieldN h 16 8 ∧ (r.ty = tyPool ∨ r.ty = tyRoot ∨ r.ty = tyStew) then { r with ckpt := true } else r
  if area = 0 then { s with ta := { s.ta with recs := s.ta.recs.map mark } } else s

/-- Whether a converted copy is of a kind and has the FMTVER of family CFG that the booting bank writes (R498, R519, R520). (log 162, DESIGN CHOICE, unsafe) -/
def convGood (s : State) (kind : Nat) (copy : List Byte) : Bool :=
  decide (fieldN copy 0 4 = 0x4746_4356) && decide (fieldN copy 4 1 = mFmt (bankOf s (activeBank s)).manifest 0) && decide (fieldN copy 5 1 = kind)

/-- R520: the table checkpoint and the configuration are written as the ground firmware has converted them, the configuration last, which names the
table checkpoint just written. The layouts of older formats are not given, so what the conversion makes is an operand. (log 162, DESIGN CHOICE, unsafe) -/
def migrate (tbl cfg : List Byte) (s : State) : State :=
  let s := putCopy 1 tbl (vaultDrives s) s
  putCopy 0 (putBytes cfg 24 (leBytes 8 (copyGen s 1 (1 - olderCopy s 1)))) (vaultDrives s) s

/-- Step 5: the steward image is loaded (R80). At the first start of a NONREV bank it becomes GOOD, and the boot goes on only once the configuration and
the table checkpoint have been converted and written (R518, R520). (log 162, DESIGN CHOICE, unsafe) -/
def bootImage (entry : Word) (conv : Option (List Byte × List Byte)) (s : State) : State :=
  let k := bankOf s (activeBank s)
  let go (s : State) : State :=
    let s := logBank s
    let s := setF F.UPD_FMT_FMT ((List.range 5).map fun i => mFmt k.manifest i * 256 ^ i).sum s
    let pc := entry &&& 0x0000FFFFFFFFFFFC
    let s := setF F.SYS_CORE_RUN 0xFFFF (wr .SYS_CORE_ENTRY pc s)
    releaseCores (List.range 16) pc { s with boot := { s.boot with step := 5 } }
  if k.state = 2 && mNonrev k.manifest then
    match conv with
    | some (tbl, cfg) => if convGood s 2 tbl && convGood s 1 cfg then go (migrate tbl cfg (makeGood s)) else s
    | none => s
  else go s

/-- Step 7: SYNC with a living partner, or the replay of the own ring (R256, R495). (log 134, DEDUCED, unsafe) -/
def bootFinish (ring : List Rec) (s : State) : State :=
  let s := if s.partner.hb || isF s F.SYS_PTR_STAT_HLTH then s else replay false ring s
  leaveBoot { s with boot := { s.boot with step := 7 } }

/-- BOOT (R495): the steps, each after the one before it, while the head is in BOOT. (log 133, DESIGN CHOICE, safe) -/
def execBoot (b : BootStep) (s : State) : Res :=
  let n := s.boot.step
  ok (if headState s ≠ 0 || s.boot.stopped || s.rst.held || s.rst.asserted.isSome || !s.boot.aon then s
    else
      match b with
      | .rom okA okB => if n = 0 then bootRom (fun k => if k = 0 then okA else okB) (bootOrder s) s else s
      | .memory dimms => if n = 1 then bootMemory dimms s else s
      | .restore board cfg tbl spare => if n = 2 then bootRestore board cfg tbl spare s else s
      | .tables mem set => if n = 3 then bootTables mem set s else s
      | .image entry conv => if n = 4 then bootImage entry conv s else s
      | .steward => if n = 5 then { s with boot := { s.boot with step := 6 } } else s
      | .finish ring => if n = 6 then bootFinish ring s else s
      | .fail step cause => if n + 1 = step ∧ step ≤ 5 then bootFails step 2 cause s else s)

/-! ### Cores, watchdog, requested reset (R80, R503, R504) -/

/-- A write of SYS_CORE (R80, R505): the cores that it sets start at SYS_CORE_ENTRY. -/
def wrSysCore (v : Word) (s : State) : State :=
  let old := getF s F.SYS_CORE_RUN
  let new := (List.range 16).filter fun k => bit v k && !old.testBit k
  releaseCores new (rd s .SYS_CORE_ENTRY) (setF F.SYS_CORE_RUN (old ||| bits v 15 0) s)

/-- CORE_RELEASE (R80). -/
def execCoreRelease (v : Word) (s : State) : Res := ok (wrSysCore v s)

/-- A write of SYS_SWDT (R503): PERIOD 0 is ignored with a record while the watchdog is armed. (log 135, DESIGN CHOICE, safe) -/
def wrSwdt (v : Word) (s : State) : State :=
  if bits v 47 32 = 0 ∧ getF s F.SYS_SWDT_PERIOD ≠ 0 then celRefused .SYS_SWDT v s else setF F.SYS_SWDT_PERIOD (bits v 47 32) s

/-- SWDT_WRITE (R503). -/
def execSwdtWrite (v : Word) (s : State) : Res := ok (wrSwdt v s)

/-- SWDT_EXPIRY (R503). (log 135, DESIGN CHOICE, safe) -/
def execSwdtExpiry (s : State) : Res := ok (if getF s F.SYS_SWDT_PERIOD ≠ 0 then assertReset 0x03 s else s)

/-- A write of SYS_RSTCMD (R504). -/
def wrRstCmd (v : Word) (s : State) : State :=
  if bits v 63 32 ≠ 0x4845_4144 then celRefused .SYS_RSTCMD v s else if bit v 0 then assertReset 0x02 s else s

/-- RESET_REQUEST (R504). -/
def execResetRequest (v : Word) (s : State) : Res := ok (wrRstCmd v s)

/-! ### Vault checkpoints (R497 to R501) -/

/-- The size in bytes of a copy of an area (R497, R500). -/
def areaBytes (h : List Byte) (area : Nat) : Nat := if area = 0 then 0x2_0000 * 4096 else 3 * 4096 * fieldN h 40 8

/-- A GO of SYS_CKPT is refused. -/
def ckptRefuse (err : Nat) (s : State) : State := setF F.SYS_CKPTSTAT_ERR err (setF F.SYS_CKPTSTAT_REFUSED 1 s)

/-- A write of SYS_CKPT (R501, R505). (log 136, DESIGN CHOICE, safe) -/
def wrCkpt (v : Word) (s : State) : State :=
  let s := wr .SYS_CKPT (writeFields (rd s .SYS_CKPT) v (RegName.info .SYS_CKPT).fields) s
  let area := getF s F.SYS_CKPT_AREA
  let h := rdB s (getF s F.SYS_CKPT_BASE * 4096) 4096
  if !bit v 0 then s
  else if isF s F.SYS_CKPTSTAT_BUSY then ckptRefuse 1 s
  else if 2 ≤ area then nextFree (ckptRefuse (bits (Config.freeWord s.free) 3 0) s)
  else if areaBytes h area < ckptBytes h then ckptRefuse 2 s
  else if area = 1 ∧ copyGen s 1 (olderCopy s 1) = s.boot.tgen ∧ s.boot.tgen ≠ 0 then ckptRefuse 3 s
  else setF F.SYS_CKPTSTAT_BUSY 1 { s with boot := { s.boot with ckpt := (area, getF s F.SYS_CKPT_BASE * 4096) } }

/-- A checkpoint write completes (R501): with two drives left out it fails; after a configuration the POOL, ROOT and STEW records up to
CKSEQ may retire (R255). (log 137, DEDUCED, unsafe) -/
def ckptEnds (failed : Nat) (s : State) : State :=
  let ds := (vaultDrives s).filter fun d => !failed.testBit d
  let out := (List.range 4).foldl (fun n d => if ds.contains d then n else n + 2 ^ d) 0
  let s := setF F.SYS_CKPTSTAT_DEGR out (setF F.SYS_CKPTSTAT_BUSY 0 s)
  if ds.length ≤ 2 then setF F.SYS_CKPTSTAT_ERR 4 s
  else
    let (area, base) := s.boot.ckpt
    let gen := copyGen s area (1 - olderCopy s area) + 1
    let s := putCopy area (rdB s base (ckptBytes (rdB s base 4096))) ds s
    setF F.SYS_CKPTSTAT_GEN (gen % 2 ^ 32) (setF F.SYS_CKPTSTAT_DONE 1 s)

/-- CHECKPOINT_GO (R501): a write of SYS_CKPT, or the end of the write in progress with the drives that failed. -/
def execCheckpointGo (v : Option Word) (failed : BitVec 4) (s : State) : Res :=
  ok (match v with
    | some w => wrCkpt w s
    | none => if isF s F.SYS_CKPTSTAT_BUSY then ckptEnds failed.toNat s else s)

end Sys2Proof.Machine
end

