-- ==== Sys2Proof/Machine/CsrBus.lean ====
section
/-! DEFINITION. Accesses of steward cores to the registers: what a read returns and clears, and what a write of each register does (R9 to R14,
R27). -/

namespace Sys2Proof.Machine

/-! ### Reading -/

/-- The value of a register whose fields follow the state (R86, R156, R184, R207, R228, R263, R264, R318, R385, R413, R426, R545). (log 34, DESIGN CHOICE, unsafe) -/
def liveValue (r : RegName) (i : Nat) (s : State) (w : Word) : Word :=
  let tuns (p : TunPhase → Bool) : Nat := kcount s.ta.tuns fun _ t => p t.phase
  match r with
  | .FSQ_STAT => setBits (setBits w 48 32 (kcount s.ctxs fun _ c => c.resident)) 22 0 (kcount s.ctxs fun _ c => !c.resident)
  | .FSQ_BUNG_STAT => setBits (setBits w 54 32 (oldCtx s)) 24 16 (pendSeq s)
  | .ME_FRAMES => setBits w 63 32 (ddrFrames s)
  | .ME_FREE =>
    setBits (setBits w 63 32 (kcount s.me.pages fun _ p => match p.st with | .dirty | .writing _ => true | _ => false)) 31 0
      (if isF s F.ME_CTL_EN then freeFrames s + (ddrFrames s - (usedFrames s true).length) else 0)
  | .ME_FAULT => setBits w 19 0 (kcount s.me.pages fun _ p => decide (p.st = .reading) && !p.move)
  | .ME_CKPT_SEQ => BitVec.ofNat 64 (ckptSeq s false)
  | .ME_SNAPSTAT => setBits (setBits w 56 32 (snapCount s fun x => decide (x = 3))) 24 0 (snapCount s fun x => decide (x = 1 ∨ x = 2))
  | .GL_FSTAT => setBits w F.GL_FSTAT_HELD.hi F.GL_FSTAT_HELD.lo (filterHeld s)
  | .GL_BUILD =>
    let d := match s.gl.building with | some (d, _) => d | none => 0
    setBits (setBits (setBits (setBits w 47 32 s.gl.builds.length) 16 16 (b2n s.gl.building.isSome)) 12 10 (d / 1024)) 9 0 (d % 1024)
  | .CE_WIN => setBits w 18 0 ((listedVols s).countP fun v => volValid s v && decide (volSkip s v ≠ 0))
  | .SEC_KEYSTAT => setBits w F.SEC_KEYSTAT_MINSERIAL.hi F.SEC_KEYSTAT_MINSERIAL.lo (minSerial s (getF s F.SEC_KEYCMD_SLOT))
  | .SEC_KEYCNT => setBits w 16 0 s.xe.keys.length
  | .TA_JTAIL => BitVec.ofNat 64 (oldestSeq s)
  | .TA_JFILL => setBits w F.TA_JFILL_BYTES.hi F.TA_JFILL_BYTES.lo (ringUsed s)
  | .TA_STAT =>
    setBits (setBits (setBits w 40 32 (getF s F.TA_JCFG_TUNS - s.ta.tuns.length)) 24 16 (tuns fun p => p = .sealing || p = .parity || p = .writing)) 8 0
      (tuns fun p => p = .opened)
  | .PLC_FRAMES => setBits (setBits w 63 32 (totalFrames s i)) 31 0 (freePoolFrames s i)
  | .RXE_STAT => setBits (setBits w F.RXE_STAT_QPS.hi F.RXE_STAT_QPS.lo (kcount s.rx.qps fun q _ => decide (qpState s q ≠ 0))) F.RXE_STAT_IOQPS.hi F.RXE_STAT_IOQPS.lo
      (kcount s.rx.qps fun q x => decide (x.kind = 0) && x.ioq && decide (qpState s q ≠ 0))
  | .RXE_WINKEY => setBits w 48 32 s.rx.wins.length
  | .SWC_STAT => setBits w 48 32 (poolCells s 2)
  | .SYS_PTR_LAG => setBits w 31 0 (applyLag s)
  | .CEL_RPOS => setBits w 13 0 (rpos s)
  | .CEL_EVQ_CTL => setBits w 45 32 (kgetD s.cel.evq i []).length
  | .CEL_EVRT => setBits w 6 6 (b2n (kget s.cel.pend i).isSome)
  | _ => w

/-- What a read of a register returns, and the state after it: RC fields are cleared, the window of the log and the event queues move on
(R9, R14, R531, R535). (log 34, DESIGN CHOICE, unsafe) -/
def readReg (r : RegName) (i j : Nat) (s : State) : Word × State :=
  match r, i with
  | .CEL_WIN, 0 => rdCelWin0 s
  | .CEL_WIN, 3 => rdCelWin3 s
  | .CEL_WIN, i => (rdCelWin i s, s)
  | .CEL_EVQ_POP, q => rdEventPop q s
  | r, i =>
    let w := rd s r i j
    let c := clearRc w r.info.fields
    (readFields (liveValue r i s w) r.info.fields, if c = w then s else wr r c s i j)

/-- A read of an address in CSR space (R12). (log 31, DESIGN CHOICE, unsafe) -/
def csrRead (a : Nat) (s : State) : Word × State :=
  match regAt a with
  | some (r, i, j) => readReg r i j s
  | none => (0, celAddress (unitOf a) a false s)

/-! ### Writing -/

/-- A write of the plain fields of a register. (log 35, DESIGN CHOICE, unsafe; 147, DEDUCED, safe) -/
def wrPlain (r : RegName) (v : Word) (i j : Nat) (s : State) : State := wr r (writeFields (rd s r i j) v r.info.fields) s i j

/-- A write that is ignored with a record while a condition holds. (log 37, DEDUCED, unsafe) -/
def wrUnless (c : Bool) (r : RegName) (v : Word) (i j : Nat) (s : State) : State :=
  if c then celRefused r v s i j else wrPlain r v i j s

/-- A write of a lane mode (R566): ignored with a record where it would change a lane whose port or MAC is up, which a free value says
while the lanes are not idle. (log 36, DESIGN CHOICE, safe; 147, DEDUCED, safe) -/
def wrLane (r : RegName) (v : Word) (i : Nat) (s : State) : State :=
  let new := writeFields (rd s r i) v r.info.fields
  if new = rd s r i ∨ s.rst.idle then wr r new s i
  else if bit (Config.freeWord s.free) 0 then celRefused r v (nextFree s) i
  else wr r new (nextFree s) i

/-- What a write of a register does; its reserved bits are ignored, with a record where one is not zero (R11). (log 35, DESIGN CHOICE, unsafe) -/
def writeReg (r : RegName) (v : Word) (i j : Nat) (s : State) : State :=
  match r with
  | .FSQ_CTL => wrFsqCtl v s
  | .FSQ_PSET_CTL => wrFsqPsetCtl v s
  | .FSQ_ENTRY => wrFsqEntry i v s
  | .FSQ_BIND => wrFsqBind i j v s
  | .FSQ_BUNG_CTL => wrBungCtl v s
  | .ME_DDRPG => wrUnless (isF s F.ME_CTL_EN) r v i j s
  | .MC_CTL => wrMcCtl v s
  | .MC_MAINT => wrMcMaint v s
  | .GL_CTL => wrGlCtl v s
  | .CE_SKIP => wrCeSkip v s
  | .SEC_KEYCMD => wrKeyCmd v s
  | .SEC_KEYIN | .UPD_KEYIN | .SEC_ATTNONCE => wr r v s i
  | .SEC_ATTCMD => wrAttCmd v s
  | .XE_PLINK => wrPlink v s
  | .XE_PLINK_NEXT => wrPlinkNext v s
  | .TA_JCFG | .TA_JSEQ => wrUnless (isF s F.TA_CTL_EN) r v i j s
  | .TA_STRCMD => wrStrCmd v s
  | .PLC_GEOM | .PLC_SPARE | .PLC_SST | .PLC_FWD => wrUnless (isF s F.PLC_GEOM_EN i) r v i j s
  | .PLC_PTCMD => wrPtCmd v s
  | .PLC_MEM => wrPlcMem i j v s
  | .PLC_RKCTL => wrRkCtl v s
  | .HFE_CTL => wrHfeCtl v s
  | .HFE_NSTAB | .HFE_ATTACH | .HFE_RESVTAB | .HFE_PASSTAB | .HFE_IMG | .HFE_SVC | .HFE_RXPOOL => wrHfeBase r v s
  | .HFE_SVCCMP => wrSvcCmp v s
  | .HFE_DISC => wrDisc v s
  | .RXE_CTL => wrRxeCtl v s
  | .RXE_QPCMD => wrQpCmd v s
  | .RXE_WINCMD => wrWinCmd v s
  | .SWC_TAP_BASE | .SWC_TAP_LEN => wrTapRing r v s
  | .GANG_LNK_CTL => wrLinkCtl i v s
  | .GANG_CFG => wrGangCfg v s
  | .SYS_GRP => wrSysGrp i v s
  | .SYS_RSTCMD => wrRstCmd v s
  | .SYS_SWDT => wrSwdt v s
  | .SYS_CKPT => wrCkpt v s
  | .SYS_CORE => wrSysCore v s
  | .PWR_PSU => wrPwrPsu v s
  | .PWR_VAULT => wrPwrVault v s
  | .PWR_PSTATE => wrPstate v s
  | .THM_LIM => wrThmLim v s
  | .UPD_CMD => wrUpdCmd true v s
  | .CEL_CTL => wrCelCtl v s
  | .CEL_SWREC => wrCelSwrec i v s
  | .CEL_EVRAISE => wrCelEvraise v s
  | .PMC_FREEZE => wrPmcFreeze v false s
  | .PMC_SNAP => wrPmcSnap v false s
  | .CLK_REF => wrClkRef v s
  | .LANE_HCFG | .LANE_GCFG | .LANE_DCFG => wrLane r v i s
  | r => wrPlain r v i j s

/-- A write of an address in CSR space (R11, R12). (log 31, DESIGN CHOICE, unsafe) -/
def csrWrite (a : Nat) (v : Word) (s : State) : State :=
  match regAt a with
  | some (r, i, j) =>
    let s := writeReg r (v &&& r.implemented) i j s
    if v &&& ~~~r.implemented = 0 then s else celIgnored a v s
  | none => celAddress (unitOf a) a true s

/-- A CSR write of steward core `k` (R213: the device tells two cores' GO apart). -/
def csrWriteBy (k a : Nat) (v : Word) (s : State) : State :=
  match regAt a with
  | some (.SEC_KEYCMD, _, _) =>
    let r := RegName.SEC_KEYCMD.implemented
    let s := wrKeyCmdBy k (v &&& r) s
    if v &&& ~~~r = 0 then s else celIgnored a v s
  | _ => csrWrite a v s

/-! ### The commands -/

/-- A CSR access of a steward core: in P mode only, 64 bits wide and aligned (R10, R79). (log 19, DEDUCED, unsafe; 32, DESIGN CHOICE, unsafe) -/
def csrAccess (k addr : Nat) (f : State → State) (s : State) : State :=
  match kget s.stews k with
  | some c =>
    if !c.run || decide (regionOf s addr ≠ .csr) then s
    else if !c.p then raiseFault (.stew k) 0 fPriv addr s
    else if addr % 8 ≠ 0 then raiseFault (.stew k) 0 fAlign addr s
    else f s
  | none => s

/-- CSR_WRITE (R9 to R12). (log 32, DESIGN CHOICE, unsafe) -/
def execCsrWrite (k : BitVec 4) (addr v : Word) (s : State) : Res := ok (csrAccess k.toNat addr.toNat (csrWriteBy k.toNat addr.toNat v) s)

/-- RC_READ (R9, R14): the value is returned, and then cleared where the field is of type RC. (log 32, DESIGN CHOICE, unsafe) -/
def execRcRead (k : BitVec 4) (addr : Word) (s : State) : Res :=
  ok (csrAccess k.toNat addr.toNat (fun s => let (w, t) := csrRead addr.toNat s; emit (.csrRead addr.toNat w) t) s)

/-- CSR_UNMAPPED_ACCESS (R10, R12, R27): a read returns zero, a write is ignored, and either is recorded. A misaligned access is an alignment
fault, and one outside P mode a PRIV fault, as of every CSR. (log 32, DESIGN CHOICE, unsafe) -/
def execCsrUnmappedAccess (addr : Word) (acc : CsrAccess) (s : State) : Res :=
  let a := addr.toNat
  ok (if (regAt a).isSome then s
    else csrAccess acc.core.toNat a (fun s =>
      match acc.write with
      | some w => csrWrite a w s
      | none => let (w, t) := csrRead a s; emit (.csrRead a w) t) s)

end Sys2Proof.Machine
end

