-- ==== Sys2Proof/Machine/GfiAlu.lean ====
section
/-! DEFINITION. The integer register operations (R68) and the integer immediate operations (R69). -/

namespace Sys2Proof.Machine

/-- ADD (R68). -/
def execAdd (core : Core) (rd ra rb : RegNo) (s : State) : Res :=
  ok (regOp core (insnA 0x00 rd ra rb 0x0) false rd (fun rf => rf.get ra.toNat + rf.get rb.toNat) s)

/-- SUB (R68). -/
def execSub (core : Core) (rd ra rb : RegNo) (s : State) : Res :=
  ok (regOp core (insnA 0x00 rd ra rb 0x1) false rd (fun rf => rf.get ra.toNat - rf.get rb.toNat) s)

/-- AND (R68). -/
def execAnd (core : Core) (rd ra rb : RegNo) (s : State) : Res :=
  ok (regOp core (insnA 0x00 rd ra rb 0x2) false rd (fun rf => rf.get ra.toNat &&& rf.get rb.toNat) s)

/-- OR (R68). -/
def execOr (core : Core) (rd ra rb : RegNo) (s : State) : Res :=
  ok (regOp core (insnA 0x00 rd ra rb 0x3) false rd (fun rf => rf.get ra.toNat ||| rf.get rb.toNat) s)

/-- XOR (R68). -/
def execXor (core : Core) (rd ra rb : RegNo) (s : State) : Res :=
  ok (regOp core (insnA 0x00 rd ra rb 0x4) false rd (fun rf => rf.get ra.toNat ^^^ rf.get rb.toNat) s)

/-- ANDN (R68). -/
def execAndn (core : Core) (rd ra rb : RegNo) (s : State) : Res :=
  ok (regOp core (insnA 0x00 rd ra rb 0x5) false rd (fun rf => rf.get ra.toNat &&& ~~~(rf.get rb.toNat)) s)

/-- SLL (R68). -/
def execSll (core : Core) (rd ra rb : RegNo) (s : State) : Res :=
  ok (regOp core (insnA 0x00 rd ra rb 0x6) false rd (fun rf => rf.get ra.toNat <<< shamt (rf.get rb.toNat)) s)

/-- SRL (R68). -/
def execSrl (core : Core) (rd ra rb : RegNo) (s : State) : Res :=
  ok (regOp core (insnA 0x00 rd ra rb 0x7) false rd (fun rf => rf.get ra.toNat >>> shamt (rf.get rb.toNat)) s)

/-- SRA (R68). -/
def execSra (core : Core) (rd ra rb : RegNo) (s : State) : Res :=
  ok (regOp core (insnA 0x00 rd ra rb 0x8) false rd (fun rf => (rf.get ra.toNat).sshiftRight (shamt (rf.get rb.toNat))) s)

/-- SLT (R68). -/
def execSlt (core : Core) (rd ra rb : RegNo) (s : State) : Res :=
  ok (regOp core (insnA 0x00 rd ra rb 0x9) false rd (fun rf => flag ((rf.get ra.toNat).slt (rf.get rb.toNat))) s)

/-- SLTU (R68). -/
def execSltu (core : Core) (rd ra rb : RegNo) (s : State) : Res :=
  ok (regOp core (insnA 0x00 rd ra rb 0xa) false rd (fun rf => flag ((rf.get ra.toNat).ult (rf.get rb.toNat))) s)

/-- MIN (R68). -/
def execMin (core : Core) (rd ra rb : RegNo) (s : State) : Res :=
  ok (regOp core (insnA 0x00 rd ra rb 0xb) false rd (fun rf => if (rf.get ra.toNat).slt (rf.get rb.toNat) then rf.get ra.toNat else rf.get rb.toNat) s)

/-- MAX (R68). -/
def execMax (core : Core) (rd ra rb : RegNo) (s : State) : Res :=
  ok (regOp core (insnA 0x00 rd ra rb 0xc) false rd (fun rf => if (rf.get ra.toNat).slt (rf.get rb.toNat) then rf.get rb.toNat else rf.get ra.toNat) s)

/-- MINU (R68). -/
def execMinu (core : Core) (rd ra rb : RegNo) (s : State) : Res :=
  ok (regOp core (insnA 0x00 rd ra rb 0xd) false rd (fun rf => if (rf.get ra.toNat).ult (rf.get rb.toNat) then rf.get ra.toNat else rf.get rb.toNat) s)

/-- MAXU (R68). -/
def execMaxu (core : Core) (rd ra rb : RegNo) (s : State) : Res :=
  ok (regOp core (insnA 0x00 rd ra rb 0xe) false rd (fun rf => if (rf.get ra.toNat).ult (rf.get rb.toNat) then rf.get rb.toNat else rf.get ra.toNat) s)

/-- MUL (R68). -/
def execMul (core : Core) (rd ra rb : RegNo) (s : State) : Res :=
  ok (regOp core (insnA 0x00 rd ra rb 0x10) false rd (fun rf => rf.get ra.toNat * rf.get rb.toNat) s)

/-- MULHU (R68). -/
def execMulhu (core : Core) (rd ra rb : RegNo) (s : State) : Res :=
  ok (regOp core (insnA 0x00 rd ra rb 0x11) false rd (fun rf => mulHigh (rf.get ra.toNat) (rf.get rb.toNat)) s)

/-- DIVU (R68). -/
def execDivu (core : Core) (rd ra rb : RegNo) (s : State) : Res :=
  ok (regOp core (insnA 0x00 rd ra rb 0x12) false rd (fun rf => divu (rf.get ra.toNat) (rf.get rb.toNat)) s)

/-- REMU (R68). -/
def execRemu (core : Core) (rd ra rb : RegNo) (s : State) : Res :=
  ok (regOp core (insnA 0x00 rd ra rb 0x13) false rd (fun rf => remu (rf.get ra.toNat) (rf.get rb.toNat)) s)

/-- CLZ (R68). A nonzero rb is ILLEGAL. -/
def execClz (core : Core) (rd ra rb : RegNo) (s : State) : Res :=
  ok (regOp core (insnA 0x00 rd ra rb 0x18) (decide (rb ≠ 0)) rd (fun rf => clz64 (rf.get ra.toNat)) s)

/-- CTZ (R68). A nonzero rb is ILLEGAL. -/
def execCtz (core : Core) (rd ra rb : RegNo) (s : State) : Res :=
  ok (regOp core (insnA 0x00 rd ra rb 0x19) (decide (rb ≠ 0)) rd (fun rf => ctz64 (rf.get ra.toNat)) s)

/-- POPC (R68). A nonzero rb is ILLEGAL. -/
def execPopc (core : Core) (rd ra rb : RegNo) (s : State) : Res :=
  ok (regOp core (insnA 0x00 rd ra rb 0x1a) (decide (rb ≠ 0)) rd (fun rf => popc64 (rf.get ra.toNat)) s)

/-- BSWAP (R68). A nonzero rb is ILLEGAL. -/
def execBswap (core : Core) (rd ra rb : RegNo) (s : State) : Res :=
  ok (regOp core (insnA 0x00 rd ra rb 0x1b) (decide (rb ≠ 0)) rd (fun rf => bswap64 (rf.get ra.toNat)) s)

/-- ADDI (R69). -/
def execAddi (core : Core) (rd ra : RegNo) (imm : Imm) (s : State) : Res :=
  ok (regOp core (insnI 0x1 rd ra imm) false rd (fun rf => rf.get ra.toNat + immS imm) s)

/-- ANDI (R69). -/
def execAndi (core : Core) (rd ra : RegNo) (imm : Imm) (s : State) : Res :=
  ok (regOp core (insnI 0x2 rd ra imm) false rd (fun rf => rf.get ra.toNat &&& immZ imm) s)

/-- ORI (R69). -/
def execOri (core : Core) (rd ra : RegNo) (imm : Imm) (s : State) : Res :=
  ok (regOp core (insnI 0x3 rd ra imm) false rd (fun rf => rf.get ra.toNat ||| immZ imm) s)

/-- XORI (R69). -/
def execXori (core : Core) (rd ra : RegNo) (imm : Imm) (s : State) : Res :=
  ok (regOp core (insnI 0x4 rd ra imm) false rd (fun rf => rf.get ra.toNat ^^^ immZ imm) s)

/-- SLTI (R69). -/
def execSlti (core : Core) (rd ra : RegNo) (imm : Imm) (s : State) : Res :=
  ok (regOp core (insnI 0x5 rd ra imm) false rd (fun rf => flag ((rf.get ra.toNat).slt (immS imm))) s)

/-- SLTIU (R69). -/
def execSltiu (core : Core) (rd ra : RegNo) (imm : Imm) (s : State) : Res :=
  ok (regOp core (insnI 0x6 rd ra imm) false rd (fun rf => flag ((rf.get ra.toNat).ult (immS imm))) s)

/-- SLLI (R69). A nonzero imm16[15:6] is ILLEGAL. -/
def execSlli (core : Core) (rd ra : RegNo) (imm : BitVec 16) (s : State) : Res :=
  ok (regOp core (insnI 0x7 rd ra (.short imm)) (decide (64 ≤ imm.toNat)) rd (fun rf => rf.get ra.toNat <<< (imm.toNat % 64)) s)

/-- SRLI (R69). A nonzero imm16[15:6] is ILLEGAL. -/
def execSrli (core : Core) (rd ra : RegNo) (imm : BitVec 16) (s : State) : Res :=
  ok (regOp core (insnI 0x8 rd ra (.short imm)) (decide (64 ≤ imm.toNat)) rd (fun rf => rf.get ra.toNat >>> (imm.toNat % 64)) s)

/-- SRAI (R69). A nonzero imm16[15:6] is ILLEGAL. -/
def execSrai (core : Core) (rd ra : RegNo) (imm : BitVec 16) (s : State) : Res :=
  ok (regOp core (insnI 0x9 rd ra (.short imm)) (decide (64 ≤ imm.toNat)) rd (fun rf => (rf.get ra.toNat).sshiftRight (imm.toNat % 64)) s)

/-- The result of LUI: the plain immediate shifted by 16, the word of a group by 32 (R66, R69). -/
def luiValue : Imm → Word
  | .short v => v.signExtend 64 <<< 16
  | .long v => v.setWidth 64 <<< 32

/-- LUI (R69). A nonzero ra is ILLEGAL. -/
def execLui (core : Core) (rd ra : RegNo) (imm : Imm) (s : State) : Res :=
  ok (regOp core (insnI 0x0a rd ra imm) (decide (ra ≠ 0)) rd (fun _ => luiValue imm) s)

end Sys2Proof.Machine
end

