-- ==== Sys2Proof/Machine/GfiCtl.lean ====
section
/-! DEFINITION. The control transfers (R72). -/

namespace Sys2Proof.Machine

/-- Control goes to a target, or the transfer faults with FETCH and reports the target (R72). (log 21, DEDUCED, unsafe) -/
def transfer (a : Agent) (f : RegFile) (target : Word) (s : State) : Eff :=
  if fetchOk s a target 4 then .done (setRf a { f with pc := target } s) else .fault fFetch target.toNat

/-- The target of a B- or J-format instruction: pc + s(offset) × 4. (log 21, DEDUCED, unsafe) -/
def pcTarget (f : RegFile) (off : Word) : Word := f.pc + off * 4

/-- A compare and branch: a branch not taken goes on after the instruction. -/
def branch (c : Core) (major : Nat) (ra rb : RegNo) (off : Imm) (cond : Word → Word → Bool) (s : State) : State :=
  let i := insnB major ra rb off
  issue c i false .any (fun a f t =>
    if cond (f.get ra.toNat) (f.get rb.toNat) then transfer a f (pcTarget f (immS off)) t
    else .done (setRf a (f.adv i) t)) s

/-- BEQ (R72). -/
def execBeq (core : Core) (ra rb : RegNo) (off : Imm) (s : State) : Res :=
  ok (branch core 0x28 ra rb off (fun x y => decide (x = y)) s)

/-- BNE (R72). -/
def execBne (core : Core) (ra rb : RegNo) (off : Imm) (s : State) : Res :=
  ok (branch core 0x29 ra rb off (fun x y => decide (x ≠ y)) s)

/-- BLT (R72). -/
def execBlt (core : Core) (ra rb : RegNo) (off : Imm) (s : State) : Res :=
  ok (branch core 0x2A ra rb off (fun x y => x.slt y) s)

/-- BGE (R72). -/
def execBge (core : Core) (ra rb : RegNo) (off : Imm) (s : State) : Res :=
  ok (branch core 0x2B ra rb off (fun x y => !x.slt y) s)

/-- BLTU (R72). -/
def execBltu (core : Core) (ra rb : RegNo) (off : Imm) (s : State) : Res :=
  ok (branch core 0x2C ra rb off (fun x y => x.ult y) s)

/-- BGEU (R72). -/
def execBgeu (core : Core) (ra rb : RegNo) (off : Imm) (s : State) : Res :=
  ok (branch core 0x2D ra rb off (fun x y => !x.ult y) s)

/-- J (R72). -/
def execJ (core : Core) (off : BitVec 26) (s : State) : Res :=
  ok (issue core (insnJ 0x30 off) false .any (fun a f t => transfer a f (pcTarget f (off.signExtend 64)) t) s)

/-- JAL (R72): g30 takes the return address; in a flow and on a steward core alike. -/
def execJal (core : Core) (off : BitVec 26) (s : State) : Res :=
  ok (issue core (insnJ 0x31 off) false .any
    (fun a f t => transfer a (f.set 30 (f.pc + 4)) (pcTarget f (off.signExtend 64)) t) s)

/-- JR (R72): rd and aux are zero. -/
def execJr (core : Core) (rd ra : RegNo) (aux : Byte) (s : State) : Res :=
  ok (issue core (insnX 0x3B 0x00 rd ra aux) (decide (rd ≠ 0 ∨ aux ≠ 0)) .any
    (fun a f t => transfer a f (f.get ra.toNat) t) s)

/-- JALR (R72): the target is read before rd takes the return address; aux is zero. -/
def execJalr (core : Core) (rd ra : RegNo) (aux : Byte) (s : State) : Res :=
  ok (issue core (insnX 0x3B 0x01 rd ra aux) (decide (aux ≠ 0) || badDest core rd) .any
    (fun a f t => transfer a (f.set rd.toNat (f.pc + 4)) (f.get ra.toNat) t) s)

end Sys2Proof.Machine
end

