-- ==== Sys2Proof/Machine/GfiMem.lean ====
section
/-! DEFINITION. Loads, stores, atomics and descriptor accesses of flows and steward cores (R22 to R26, R47, R54 to R64, R70, R71, R73, R79). -/

namespace Sys2Proof.Machine

/-! ### What a flow may reach (R46, R47, R55) -/

/-- Whether `n` bytes lie in the frame of a context, and in a part of it that a flow may write. -/
def inFrame (c : Ctx) (a n : Nat) : Bool :=
  let f := frameAddr c.seq c.frame
  decide (f ≤ a) && decide (a + n ≤ f + 0x400)
@[inherit_doc inFrame] def frameWrites (c : Ctx) (a n : Nat) : Bool :=
  let o := a - frameAddr c.seq c.frame
  inFrame c a n && ((decide (0x080 ≤ o) && decide (o + n ≤ 0x280)) || decide (0x380 ≤ o))

/-- A flow load of HBM or DDR, and one that never waits. -/
def flowFar (s : State) (a n : Nat) : Bool := inHbmDdr s a n && windowOk s false a n
@[inherit_doc flowFar] def flowNear (s : State) (c : Ctx) (a n : Nat) : Bool :=
  inFrame c a n || spanIn s .flowStore a n || spanIn s .volTable a n

/-! ### What a steward core may reach (R22, R24, R26, R79) -/

/-- Whether a steward core may load from an address: the regions that it may read, and its own region table. (log 23, DESIGN CHOICE, safe) -/
def stewReads (s : State) (c : Stew) (a n : Nat) : Bool :=
  c.mayRegion a n 0 &&
    match regionOf s a with
    | .bootRom | .localStore | .lauterSum | .volTable | .stewStore | .cellarBuf | .hbm | .ddr => true
    | .partner => linkUp s && inHbmDdr s (a - 0x1000_0000_0000) n && decide (a - 0x1000_0000_0000 < 0x70_0000_0000)
    | .mcArray | .switchBuf | .keyStore | .flowStore | .otherSram | .csr | .unmapped => false

/-- Whether a steward core may store to an address. (log 24, DEDUCED, unsafe) -/
def stewWrites (s : State) (c : Stew) (a n : Nat) : Bool :=
  c.mayRegion a n 1 &&
    match regionOf s a with
    | .localStore | .volTable | .stewStore | .flowStore | .hbm | .ddr => true
    | .bootRom | .mcArray | .switchBuf | .lauterSum | .keyStore | .cellarBuf | .otherSram | .csr | .partner | .unmapped => false

/-- The bytes that a steward core loads: the boot ROM, the partner's memory and the lauter summaries hold what the spec does not say. (log 19, DEDUCED, unsafe) -/
def stewLoad (a n : Nat) (s : State) : List Byte × State :=
  match regionOf s a with
  | .bootRom => ((List.range n).map fun i => Config.bootRomByte (a + i), s)
  | .partner | .lauterSum => (freeBytes s n, { s with free := s.free + n })
  | _ => (rdB s a n, s)

/-- A steward store of bytes, of at most one word (R24, R64, R110, R123): what may not be written is discarded with a record that names the
address. The reserved bits of a volume entry stay zero and its map follows ROOT (R122, R124); one that becomes VALID has its admission bit set (R170). (log 15, DEDUCED, unsafe; 19, DEDUCED, unsafe; 24, DEDUCED, unsafe) -/
def stewStore (a : Nat) (l : List Byte) (s : State) : State :=
  match regionOf s a with
  | .localStore => if frameHeld s a then celAddress 0x0C a true s else wrB a l s
  | .flowStore => if isF s F.FSQ_PSET_CTL_ACTIVE then celAddress 0x0C a true s else wrB a l s
  | .volTable =>
    let v := (a - volTableBase) / 64
    let w := (a - volTableBase) % 64 / 8
    if volValid s v ∧ (w = 0 ∨ w = 3 ∨ w = 5) then celAddress 0x0D a true s
    else
      let t := wrB a (l.zipIdx.map fun (b, k) => b &&& volBits ((a - volTableBase + k) % 64)) s
      let t := if w = 0 then setRoot v t else t
      if !volValid s v && volValid t v then admitNew v t else t
  | _ => wrB a l s

/-! ### Loads and stores (R70) -/

/-- Splits bytes into words, each with its address. -/
def wordsAt (a : Nat) (l : List Byte) : List (Nat × List Byte) :=
  (List.range (l.length / 8)).map fun i => (a + 8 * i, (l.drop (8 * i)).take 8)

/-- The checks of an access in the order of R568: PRIV of a steward core outside P mode, ALIGN, of a CSR access also where it is not 64 bits
wide (R10), then ACCESS where `may` does not hold. -/
def accessFault (s : State) (a : Agent) (addr n : Nat) (may : Bool) : Option Nat :=
  let user := match a with | .ctx _ => false | .stew k => !((kget s.stews k).any Stew.p)
  let csr := decide (regionOf s addr = .csr)
  if csr && user then some fPriv
  else if addr % n ≠ 0 ∨ (csr ∧ n < 8) then some fAlign
  else if may then none
  else some fAccess

/-- A load of `n` bytes: its value is written by `take`, at once or, for a flow's load of HBM or DDR, when the data returns. -/
def loadEff (n : Nat) (op : MemOp) (addr : Nat) (i : Insn) (take : Agent → List Byte → State → State) (a : Agent) (f : RegFile) (t : State) : Eff :=
  match a with
  | .ctx c =>
    match kget t.ctxs c with
    | none => .done t
    | some x =>
      match accessFault t a addr n (flowNear t x addr n || flowFar t addr n) with
      | some code => .fault code addr
      | none =>
        let u := setRf a (f.adv i) t
        .done (if flowNear t x addr n then take a (rdB t addr n) u else makeWait c (.memory op) u)
  | .stew k =>
    match kget t.stews k with
    | none => .done t
    | some x =>
      let csr := decide (regionOf t addr = .csr)
      match accessFault t a addr n (csr || stewReads t x addr n) with
      | some code => .fault code addr
      | none =>
        let u := setRf a (f.adv i) t
        let (l, u) :=
          if csr then
            ((List.range (n / 8)).foldl (fun (x : List Byte × State) i =>
              let (w, s) := csrRead (addr + 8 * i) x.2
              (x.1 ++ leBytes 8 w.toNat, s)) ([], u))
          else stewLoad addr n u
        .done (take a l u)

/-- A load into a general register. -/
def loadOp (core : Core) (major n : Nat) (sext : Bool) (rd ra : RegNo) (imm : Imm) (s : State) : State :=
  let i := insnI major rd ra imm
  issue core i (badDest core rd) .any (fun a f t =>
    let addr := (f.get ra.toNat + immS imm).toNat
    loadEff n (.load rd.toNat addr n sext) addr i
      (fun a l u => setRf a ((rfOf u a).set rd.toNat (loadValue n sext (leNat l))) u) a f t) s

/-- LD (R70). (log 23, DESIGN CHOICE, safe) -/
def execLd (core : Core) (rd ra : RegNo) (imm : Imm) (s : State) : Res := ok (loadOp core 0x10 8 false rd ra imm s)

/-- LW (R70). -/
def execLw (core : Core) (rd ra : RegNo) (imm : Imm) (s : State) : Res := ok (loadOp core 0x11 4 false rd ra imm s)

/-- LWS (R70). -/
def execLws (core : Core) (rd ra : RegNo) (imm : Imm) (s : State) : Res := ok (loadOp core 0x12 4 true rd ra imm s)

/-- LH (R70). -/
def execLh (core : Core) (rd ra : RegNo) (imm : Imm) (s : State) : Res := ok (loadOp core 0x13 2 false rd ra imm s)

/-- LB (R70). -/
def execLb (core : Core) (rd ra : RegNo) (imm : Imm) (s : State) : Res := ok (loadOp core 0x14 1 false rd ra imm s)

/-- The entries of the store buffer for a store: one for each word of a DST, numbered by it (R54, R57). (log 15, DEDUCED, unsafe) -/
def sbEntries (x : Ctx) (addr : Nat) (l : List Byte) : List SbEntry :=
  if l.length ≤ 8 then [.store addr l.length (BitVec.ofNat 64 (leNat l)) x.fences 0]
  else (wordsAt addr l).map fun w => .store w.1 8 (BitVec.ofNat 64 (leNat w.2)) x.fences (x.dsts + 1)

/-- A store of bytes: into a flow's own frame at once, to HBM or DDR through its store buffer, and for a steward core at once. (log 15, DEDUCED, unsafe; 156, DEDUCED, unsafe) -/
def storeEff (addr : Nat) (l : List Byte) (i : Insn) (a : Agent) (f : RegFile) (t : State) : Eff :=
  let n := l.length
  match a with
  | .ctx c =>
    match kget t.ctxs c with
    | none => .done t
    | some x =>
      match accessFault t a addr n (frameWrites x addr n || (inHbmDdr t addr n && windowOk t true addr n)) with
      | some code => .fault code addr
      | none =>
        let u := setRf a (f.adv i) t
        let es := sbEntries x addr l
        if frameWrites x addr n then .done (wrB addr l u)
        else if 8 < x.sbuf.length + es.length then .retry (makeWait c (.buffer es.length) t)
        else .done (modCtx c (fun x => { x with sbuf := x.sbuf ++ es, dsts := x.dsts + (if 8 < n then 1 else 0) }) u)
  | .stew k =>
    match kget t.stews k with
    | none => .done t
    | some x =>
      let csr := decide (regionOf t addr = .csr)
      match accessFault t a addr n (csr || stewWrites t x addr n) with
      | some code => .fault code addr
      | none =>
        let u := setRf a (f.adv i) t
        .done (
          if csr then (wordsAt addr l).foldl (fun s w => csrWriteBy k w.1 (BitVec.ofNat 64 (leNat w.2)) s) u
          else if n ≤ 8 then stewStore addr l u
          else (wordsAt addr l).foldl (fun s w => stewStore w.1 w.2 s) u)

/-- A store from a general register. -/
def storeOp (core : Core) (major n : Nat) (rd ra : RegNo) (imm : Imm) (s : State) : State :=
  let i := insnI major rd ra imm
  issue core i false .any (fun a f t =>
    storeEff (f.get ra.toNat + immS imm).toNat (leBytes n (f.get rd.toNat).toNat) i a f t) s

/-- SD (R70). -/
def execSd (core : Core) (rd ra : RegNo) (imm : Imm) (s : State) : Res := ok (storeOp core 0x18 8 rd ra imm s)

/-- SW (R70). -/
def execSw (core : Core) (rd ra : RegNo) (imm : Imm) (s : State) : Res := ok (storeOp core 0x19 4 rd ra imm s)

/-- SH (R70). -/
def execSh (core : Core) (rd ra : RegNo) (imm : Imm) (s : State) : Res := ok (storeOp core 0x1A 2 rd ra imm s)

/-- SB (R70). -/
def execSb (core : Core) (rd ra : RegNo) (imm : Imm) (s : State) : Res := ok (storeOp core 0x1B 1 rd ra imm s)

/-! ### Atomics (R61, R71) -/

/-- An atomic of an agent: a flow waits for its return; a steward core's is performed at once. (log 22, DEDUCED, unsafe) -/
def amoEff (k : AmoKind) (rd addr : Nat) (src cmp : Word) (i : Insn) (a : Agent) (f : RegFile) (t : State) : Eff :=
  match a with
  | .ctx c =>
    match accessFault t a addr 8 (inHbmDdr t addr 8 && windowOk t false addr 8 && windowOk t true addr 8) with
    | some code => .fault code addr
    | none => .done (makeWait c (.memory (.amo k rd addr src cmp)) (setRf a (f.adv i) t))
  | .stew n =>
    match kget t.stews n with
    | none => .done t
    | some x =>
      match accessFault t a addr 8 (inHbmDdr t addr 8 && x.mayRegion addr 8 0 && x.mayRegion addr 8 1) with
      | some code => .fault code addr
      | none =>
        let old : Word := BitVec.ofNat 64 (rdN t addr 8)
        .done (wrN addr 8 (amoValue k old src cmp).toNat (setRf a ((f.set rd old).adv i) t))

/-- An atomic instruction: rd is the compare value of AMOCAS, and takes the old value. (log 22, DEDUCED, unsafe) -/
def amoOp (core : Core) (func : Nat) (k : AmoKind) (rd ra rb : RegNo) (s : State) : State :=
  let i := insnA 0x20 rd ra rb func
  issue core i (badDest core rd) .any (fun a f t =>
    amoEff k rd.toNat (f.get ra.toNat).toNat (f.get rb.toNat) (f.get rd.toNat) i a f t) s

/-- AMOADD (R71). -/
def execAmoadd (core : Core) (rd ra rb : RegNo) (s : State) : Res := ok (amoOp core 0x000 .add rd ra rb s)

/-- AMOSWAP (R71). -/
def execAmoswap (core : Core) (rd ra rb : RegNo) (s : State) : Res := ok (amoOp core 0x001 .swap rd ra rb s)

/-- AMOCAS (R71). -/
def execAmocas (core : Core) (rd ra rb : RegNo) (s : State) : Res := ok (amoOp core 0x002 .cas rd ra rb s)

/-- AMOAND (R71). -/
def execAmoand (core : Core) (rd ra rb : RegNo) (s : State) : Res := ok (amoOp core 0x003 .and rd ra rb s)

/-- AMOOR (R71). -/
def execAmoor (core : Core) (rd ra rb : RegNo) (s : State) : Res := ok (amoOp core 0x004 .or rd ra rb s)

/-- AMOMAXU (R71). -/
def execAmomaxu (core : Core) (rd ra rb : RegNo) (s : State) : Res := ok (amoOp core 0x005 .maxu rd ra rb s)

/-! ### Descriptor accesses (R57, R73) -/

/-- DLD (R73): a descriptor register takes 64 bytes. -/
def execDld (core : Core) (rd ra : RegNo) (aux : Byte) (s : State) : Res :=
  let i := insnX 0x3A 0x00 rd ra aux
  ok (issue core i (decide (rd ≠ 0 ∨ 8 ≤ aux.toNat)) .any (fun a f t =>
    let addr := (f.get ra.toNat).toNat
    loadEff 64 (.block aux.toNat addr) addr i (fun a l u => wrB (descAddr u a aux.toNat) l u) a f t) s)

/-- DST (R73): 64 bytes take a descriptor register. -/
def execDst (core : Core) (rd ra : RegNo) (aux : Byte) (s : State) : Res :=
  let i := insnX 0x3A 0x01 rd ra aux
  ok (issue core i (decide (rd ≠ 0 ∨ 8 ≤ aux.toNat)) .any (fun a f t =>
    storeEff (f.get ra.toNat).toNat (rdB t (descAddr t a aux.toNat) 64) i a f t) s)

end Sys2Proof.Machine
end

