-- ==== Sys2Proof/Machine/Dispatch.lean ====
section
/-! DEFINITION. The dispatch of the commands: one arm for every constructor, each one call of its meaning. -/

namespace Sys2Proof.Machine

def exec (i : Instr) (s : State) : Host.Outcome State Fault Refusal :=
  match i with
  | .csrWrite k addr v => Sys2Proof.Machine.execCsrWrite k addr v s
  | .rcRead k addr => Sys2Proof.Machine.execRcRead k addr s
  | .csrUnmappedAccess addr acc => Sys2Proof.Machine.execCsrUnmappedAccess addr acc s
  | .ioCapsuleReceived hq sqe data digestBad => Sys2Proof.Machine.execIoCapsuleReceived hq sqe data digestBad s
  | .contextAllocation => Sys2Proof.Machine.execContextAllocation s
  | .forwardedCommandReceived hq cid host cmd => Sys2Proof.Machine.execForwardedCommandReceived hq cid host cmd s
  | .forwardedResultReceived hq cid st res => Sys2Proof.Machine.execForwardedResultReceived hq cid st res s
  | .governorDecision kind object new => Sys2Proof.Machine.execGovernorDecision kind object new s
  | .contextAdmission used => Sys2Proof.Machine.execContextAdmission used s
  | .pageInComplete ctx => Sys2Proof.Machine.execPageInComplete ctx s
  | .quantumExpired seq => Sys2Proof.Machine.execQuantumExpired seq s
  | .memoryLoadReturn ctx => Sys2Proof.Machine.execMemoryLoadReturn ctx s
  | .storePerformed ctx idx => Sys2Proof.Machine.execStorePerformed ctx idx s
  | .parkWake ctx => Sys2Proof.Machine.execParkWake ctx s
  | .budgetExhausted seq word => Sys2Proof.Machine.execBudgetExhausted seq word s
  | .faultDrainDone ctx => Sys2Proof.Machine.execFaultDrainDone ctx s
  | .ticketAgeExpiry owner t => Sys2Proof.Machine.execTicketAgeExpiry owner t s
  | .sequencerHang seq => Sys2Proof.Machine.execSequencerHang seq s
  | .add core rd ra rb => Sys2Proof.Machine.execAdd core rd ra rb s
  | .sub core rd ra rb => Sys2Proof.Machine.execSub core rd ra rb s
  | .and core rd ra rb => Sys2Proof.Machine.execAnd core rd ra rb s
  | .or core rd ra rb => Sys2Proof.Machine.execOr core rd ra rb s
  | .xor core rd ra rb => Sys2Proof.Machine.execXor core rd ra rb s
  | .andn core rd ra rb => Sys2Proof.Machine.execAndn core rd ra rb s
  | .sll core rd ra rb => Sys2Proof.Machine.execSll core rd ra rb s
  | .srl core rd ra rb => Sys2Proof.Machine.execSrl core rd ra rb s
  | .sra core rd ra rb => Sys2Proof.Machine.execSra core rd ra rb s
  | .slt core rd ra rb => Sys2Proof.Machine.execSlt core rd ra rb s
  | .sltu core rd ra rb => Sys2Proof.Machine.execSltu core rd ra rb s
  | .min core rd ra rb => Sys2Proof.Machine.execMin core rd ra rb s
  | .max core rd ra rb => Sys2Proof.Machine.execMax core rd ra rb s
  | .minu core rd ra rb => Sys2Proof.Machine.execMinu core rd ra rb s
  | .maxu core rd ra rb => Sys2Proof.Machine.execMaxu core rd ra rb s
  | .mul core rd ra rb => Sys2Proof.Machine.execMul core rd ra rb s
  | .mulhu core rd ra rb => Sys2Proof.Machine.execMulhu core rd ra rb s
  | .divu core rd ra rb => Sys2Proof.Machine.execDivu core rd ra rb s
  | .remu core rd ra rb => Sys2Proof.Machine.execRemu core rd ra rb s
  | .clz core rd ra rb => Sys2Proof.Machine.execClz core rd ra rb s
  | .ctz core rd ra rb => Sys2Proof.Machine.execCtz core rd ra rb s
  | .popc core rd ra rb => Sys2Proof.Machine.execPopc core rd ra rb s
  | .bswap core rd ra rb => Sys2Proof.Machine.execBswap core rd ra rb s
  | .addi core rd ra imm => Sys2Proof.Machine.execAddi core rd ra imm s
  | .andi core rd ra imm => Sys2Proof.Machine.execAndi core rd ra imm s
  | .ori core rd ra imm => Sys2Proof.Machine.execOri core rd ra imm s
  | .xori core rd ra imm => Sys2Proof.Machine.execXori core rd ra imm s
  | .slti core rd ra imm => Sys2Proof.Machine.execSlti core rd ra imm s
  | .sltiu core rd ra imm => Sys2Proof.Machine.execSltiu core rd ra imm s
  | .slli core rd ra imm => Sys2Proof.Machine.execSlli core rd ra imm s
  | .srli core rd ra imm => Sys2Proof.Machine.execSrli core rd ra imm s
  | .srai core rd ra imm => Sys2Proof.Machine.execSrai core rd ra imm s
  | .lui core rd ra imm => Sys2Proof.Machine.execLui core rd ra imm s
  | .ld core rd ra imm => Sys2Proof.Machine.execLd core rd ra imm s
  | .lw core rd ra imm => Sys2Proof.Machine.execLw core rd ra imm s
  | .lws core rd ra imm => Sys2Proof.Machine.execLws core rd ra imm s
  | .lh core rd ra imm => Sys2Proof.Machine.execLh core rd ra imm s
  | .lb core rd ra imm => Sys2Proof.Machine.execLb core rd ra imm s
  | .sd core rd ra imm => Sys2Proof.Machine.execSd core rd ra imm s
  | .sw core rd ra imm => Sys2Proof.Machine.execSw core rd ra imm s
  | .sh core rd ra imm => Sys2Proof.Machine.execSh core rd ra imm s
  | .sb core rd ra imm => Sys2Proof.Machine.execSb core rd ra imm s
  | .amoadd core rd ra rb => Sys2Proof.Machine.execAmoadd core rd ra rb s
  | .amoswap core rd ra rb => Sys2Proof.Machine.execAmoswap core rd ra rb s
  | .amocas core rd ra rb => Sys2Proof.Machine.execAmocas core rd ra rb s
  | .amoand core rd ra rb => Sys2Proof.Machine.execAmoand core rd ra rb s
  | .amoor core rd ra rb => Sys2Proof.Machine.execAmoor core rd ra rb s
  | .amomaxu core rd ra rb => Sys2Proof.Machine.execAmomaxu core rd ra rb s
  | .beq core ra rb off => Sys2Proof.Machine.execBeq core ra rb off s
  | .bne core ra rb off => Sys2Proof.Machine.execBne core ra rb off s
  | .blt core ra rb off => Sys2Proof.Machine.execBlt core ra rb off s
  | .bge core ra rb off => Sys2Proof.Machine.execBge core ra rb off s
  | .bltu core ra rb off => Sys2Proof.Machine.execBltu core ra rb off s
  | .bgeu core ra rb off => Sys2Proof.Machine.execBgeu core ra rb off s
  | .j core off => Sys2Proof.Machine.execJ core off s
  | .jal core off => Sys2Proof.Machine.execJal core off s
  | .jr core rd ra aux => Sys2Proof.Machine.execJr core rd ra aux s
  | .jalr core rd ra aux => Sys2Proof.Machine.execJalr core rd ra aux s
  | .endFlow core rd ra aux => Sys2Proof.Machine.execEndFlow core rd ra aux s
  | .yield core rd ra aux => Sys2Proof.Machine.execYield core rd ra aux s
  | .park core rd ra aux => Sys2Proof.Machine.execPark core rd ra aux s
  | .ctxid core rd ra aux => Sys2Proof.Machine.execCtxid core rd ra aux s
  | .seqid core rd ra aux => Sys2Proof.Machine.execSeqid core rd ra aux s
  | .dtime core rd ra aux => Sys2Proof.Machine.execDtime core rd ra aux s
  | .fence core rd ra aux => Sys2Proof.Machine.execFence core rd ra aux s
  | .fenceL core rd ra aux => Sys2Proof.Machine.execFenceL core rd ra aux s
  | .fenceS core rd ra aux => Sys2Proof.Machine.execFenceS core rd ra aux s
  | .icinv core rd ra aux => Sys2Proof.Machine.execIcinv core rd ra aux s
  | .dld core rd ra aux => Sys2Proof.Machine.execDld core rd ra aux s
  | .dst core rd ra aux => Sys2Proof.Machine.execDst core rd ra aux s
  | .dclr core rd ra aux => Sys2Proof.Machine.execDclr core rd ra aux s
  | .mfs core rd ra aux => Sys2Proof.Machine.execMfs core rd ra aux s
  | .mts core rd ra aux => Sys2Proof.Machine.execMts core rd ra aux s
  | .eret core rd ra aux => Sys2Proof.Machine.execEret core rd ra aux s
  | .trap core rd ra aux => Sys2Proof.Machine.execTrap core rd ra aux s
  | .eventDelivery k => Sys2Proof.Machine.execEventDelivery k s
  | .submit core t d cls flags => Sys2Proof.Machine.execSubmit core t d cls flags s
  | .wait core rd ra aux => Sys2Proof.Machine.execWait core rd ra aux s
  | .poll core rd ra aux => Sys2Proof.Machine.execPoll core rd ra aux s
  | .waitany core rd ra aux => Sys2Proof.Machine.execWaitany core rd ra aux s
  | .drop core rd ra aux => Sys2Proof.Machine.execDrop core rd ra aux s
  | .jobAccepted job => Sys2Proof.Machine.execJobAccepted job s
  | .heldJobRelease job => Sys2Proof.Machine.execHeldJobRelease job s
  | .jobComplete job => Sys2Proof.Machine.execJobComplete job s
  | .deadlineExpired job units => Sys2Proof.Machine.execDeadlineExpired job units s
  | .dmovCopy job => Sys2Proof.Machine.execDmovCopy job s
  | .dmovCompare job => Sys2Proof.Machine.execDmovCompare job s
  | .dmovFill job => Sys2Proof.Machine.execDmovFill job s
  | .fsqCtlWrite v => Sys2Proof.Machine.execFsqCtlWrite v s
  | .fsqPsetCtlWrite v => Sys2Proof.Machine.execFsqPsetCtlWrite v s
  | .bungGo v => Sys2Proof.Machine.execBungGo v s
  | .bungDrainDone => Sys2Proof.Machine.execBungDrainDone s
  | .bungPrepare setId => Sys2Proof.Machine.execBungPrepare setId s
  | .bungAck => Sys2Proof.Machine.execBungAck s
  | .bungNak => Sys2Proof.Machine.execBungNak s
  | .bungCommit => Sys2Proof.Machine.execBungCommit s
  | .bungAbort => Sys2Proof.Machine.execBungAbort s
  | .bungPrepareTimeout => Sys2Proof.Machine.execBungPrepareTimeout s
  | .bungResendTimer => Sys2Proof.Machine.execBungResendTimer s
  | .volumeRecount vol => Sys2Proof.Machine.execVolumeRecount vol s
  | .mapLookup job => Sys2Proof.Machine.execMapLookup job s
  | .mapUpdate job => Sys2Proof.Machine.execMapUpdate job s
  | .srtinc job => Sys2Proof.Machine.execSrtinc job s
  | .srtdec job => Sys2Proof.Machine.execSrtdec job s
  | .genres job => Sys2Proof.Machine.execGenres job s
  | .prefetch job => Sys2Proof.Machine.execPrefetch job s
  | .snapCut job => Sys2Proof.Machine.execSnapCut job s
  | .snapDelete job => Sys2Proof.Machine.execSnapDelete job s
  | .snapClone job => Sys2Proof.Machine.execSnapClone job s
  | .snapRelease job => Sys2Proof.Machine.execSnapRelease job s
  | .diff job => Sys2Proof.Machine.execDiff job s
  | .wbvol job => Sys2Proof.Machine.execWbvol job s
  | .pageInstalled page reads => Sys2Proof.Machine.execPageInstalled page reads s
  | .writebackStart page => Sys2Proof.Machine.execWritebackStart page s
  | .writebackHomed page slot => Sys2Proof.Machine.execWritebackHomed page slot s
  | .frameEvict ddr => Sys2Proof.Machine.execFrameEvict ddr s
  | .mcCtlWrite v => Sys2Proof.Machine.execMcCtlWrite v s
  | .mcDisableDone => Sys2Proof.Machine.execMcDisableDone s
  | .mcClean v => Sys2Proof.Machine.execMcClean v s
  | .mcInvalidate v => Sys2Proof.Machine.execMcInvalidate v s
  | .mcLockfill v => Sys2Proof.Machine.execMcLockfill v s
  | .mcFillLanded line => Sys2Proof.Machine.execMcFillLanded line s
  | .mcMaintDone => Sys2Proof.Machine.execMcMaintDone s
  | .gristFp job => Sys2Proof.Machine.execGristFp job s
  | .secBorrow take => Sys2Proof.Machine.execSecBorrow take s
  | .glEnable v => Sys2Proof.Machine.execGlEnable v s
  | .lauterProbe job => Sys2Proof.Machine.execLauterProbe job s
  | .lauterInsert job => Sys2Proof.Machine.execLauterInsert job s
  | .lauterDelete job => Sys2Proof.Machine.execLauterDelete job s
  | .filterBuild => Sys2Proof.Machine.execFilterBuild s
  | .admissionWindowEnd vol => Sys2Proof.Machine.execAdmissionWindowEnd vol s
  | .fpxLookup job read => Sys2Proof.Machine.execFpxLookup job read s
  | .fpxInsert job => Sys2Proof.Machine.execFpxInsert job s
  | .fpxRemove job => Sys2Proof.Machine.execFpxRemove job s
  | .fpxCensus job => Sys2Proof.Machine.execFpxCensus job s
  | .fpxSweep job => Sys2Proof.Machine.execFpxSweep job s
  | .fpxReset job => Sys2Proof.Machine.execFpxReset job s
  | .fpInsertion => Sys2Proof.Machine.execFpInsertion s
  | .fpRemoval read => Sys2Proof.Machine.execFpRemoval read s
  | .compCode job => Sys2Proof.Machine.execCompCode job s
  | .decompDecode job => Sys2Proof.Machine.execDecompDecode job s
  | .skipTrialEnd vol => Sys2Proof.Machine.execSkipTrialEnd vol s
  | .keyGenerate slot => Sys2Proof.Machine.execKeyGenerate slot s
  | .keyWrap slot => Sys2Proof.Machine.execKeyWrap slot s
  | .keyLoad slot => Sys2Proof.Machine.execKeyLoad slot s
  | .keyClear slot => Sys2Proof.Machine.execKeyClear slot s
  | .keyErase slot => Sys2Proof.Machine.execKeyErase slot s
  | .keyPurgeDone => Sys2Proof.Machine.execKeyPurgeDone s
  | .cipherEnc job => Sys2Proof.Machine.execCipherEnc job s
  | .cipherDec job => Sys2Proof.Machine.execCipherDec job s
  | .cipherSenc job => Sys2Proof.Machine.execCipherSenc job s
  | .cipherSdec job => Sys2Proof.Machine.execCipherSdec job s
  | .allocSlot job => Sys2Proof.Machine.execAllocSlot job s
  | .allocFlush job => Sys2Proof.Machine.execAllocFlush job s
  | .allocMove job => Sys2Proof.Machine.execAllocMove job s
  | .sealTimer img => Sys2Proof.Machine.execSealTimer img s
  | .tunSealingDurable img => Sys2Proof.Machine.execTunSealingDurable img s
  | .tunParityDone img => Sys2Proof.Machine.execTunParityDone img s
  | .tunStripsWritten img => Sys2Proof.Machine.execTunStripsWritten img s
  | .stripWriteFail img pos => Sys2Proof.Machine.execStripWriteFail img pos s
  | .parityGen job => Sys2Proof.Machine.execParityGen job s
  | .parityRec job => Sys2Proof.Machine.execParityRec job s
  | .slotrd job reads => Sys2Proof.Machine.execSlotrd job reads s
  | .blkrd job reads => Sys2Proof.Machine.execBlkrd job reads s
  | .blkwr job ans => Sys2Proof.Machine.execBlkwr job ans s
  | .slotrec job reads => Sys2Proof.Machine.execSlotrec job reads s
  | .drvioPass job ans => Sys2Proof.Machine.execDrvioPass job ans s
  | .jrnlAppend job => Sys2Proof.Machine.execJrnlAppend job s
  | .jrnlMark job => Sys2Proof.Machine.execJrnlMark job s
  | .jrnlRecordDone => Sys2Proof.Machine.execJrnlRecordDone s
  | .appendUnblocked job => Sys2Proof.Machine.execAppendUnblocked job s
  | .mirrorRecordReceived r good => Sys2Proof.Machine.execMirrorRecordReceived r good s
  | .recordRetire mirror => Sys2Proof.Machine.execRecordRetire mirror s
  | .journalReplay mirror recs => Sys2Proof.Machine.execJournalReplay mirror recs s
  | .leesSelect pool => Sys2Proof.Machine.execLeesSelect pool s
  | .segmentMove pool seg reads => Sys2Proof.Machine.execSegmentMove pool seg reads s
  | .placementLoad pool => Sys2Proof.Machine.execPlacementLoad pool s
  | .memberStateWrite pool member v => Sys2Proof.Machine.execMemberStateWrite pool member v s
  | .linkRetrainTimeout port => Sys2Proof.Machine.execLinkRetrainTimeout port s
  | .controllerFatal pool member => Sys2Proof.Machine.execControllerFatal pool member s
  | .memberCommandTimeout pool member => Sys2Proof.Machine.execMemberCommandTimeout pool member s
  | .mediaResult pool member => Sys2Proof.Machine.execMediaResult pool member s
  | .smartPoll pool member warning => Sys2Proof.Machine.execSmartPoll pool member warning s
  | .readAroundStart job => Sys2Proof.Machine.execReadAroundStart job s
  | .slowMark pool member mean => Sys2Proof.Machine.execSlowMark pool member mean s
  | .rebuildScan pool => Sys2Proof.Machine.execRebuildScan pool s
  | .rebuildPosition pool rows => Sys2Proof.Machine.execRebuildPosition pool rows s
  | .copybackStrip pool member rows => Sys2Proof.Machine.execCopybackStrip pool member rows s
  | .lostSlotResolve theirs => Sys2Proof.Machine.execLostSlotResolve theirs s
  | .spargeVisit pool rows deep => Sys2Proof.Machine.execSpargeVisit pool rows deep s
  | .rackingGo pool => Sys2Proof.Machine.execRackingGo pool s
  | .bandDrain pool theirs => Sys2Proof.Machine.execBandDrain pool theirs s
  | .rackingSwitchover pool => Sys2Proof.Machine.execRackingSwitchover pool s
  | .cutApply => Sys2Proof.Machine.execCutApply s
  | .snapshotReady snap => Sys2Proof.Machine.execSnapshotReady snap s
  | .deleteWalk => Sys2Proof.Machine.execDeleteWalk s
  | .pairCutReady cgid ents => Sys2Proof.Machine.execPairCutReady cgid ents s
  | .pairCutGo cgid => Sys2Proof.Machine.execPairCutGo cgid s
  | .pairCutCut cgid => Sys2Proof.Machine.execPairCutCut cgid s
  | .pairCutAbort cgid => Sys2Proof.Machine.execPairCutAbort cgid s
  | .pairCutTimeout => Sys2Proof.Machine.execPairCutTimeout s
  | .streamCycleGo v => Sys2Proof.Machine.execStreamCycleGo v s
  | .streamContextStart stream broken => Sys2Proof.Machine.execStreamContextStart stream broken s
  | .offer h ents => Sys2Proof.Machine.execOffer h ents s
  | .data h ents words => Sys2Proof.Machine.execData h ents words s
  | .mark h => Sys2Proof.Machine.execMark h s
  | .streamHoldTimeout stream seq => Sys2Proof.Machine.execStreamHoldTimeout stream seq s
  | .streamEpochRaise stream => Sys2Proof.Machine.execStreamEpochRaise stream s
  | .streamEpochMessage stream epoch oldlast => Sys2Proof.Machine.execStreamEpochMessage stream epoch oldlast s
  | .connect a => Sys2Proof.Machine.execConnect a s
  | .propertySet hq cid off v => Sys2Proof.Machine.execPropertySet hq cid off v s
  | .propertyGet hq cid off => Sys2Proof.Machine.execPropertyGet hq cid off s
  | .disconnect hq cid => Sys2Proof.Machine.execDisconnect hq cid s
  | .queueFreeze hq => Sys2Proof.Machine.execQueueFreeze hq s
  | .katoExpiry cntlid => Sys2Proof.Machine.execKatoExpiry cntlid s
  | .flush hq sqe => Sys2Proof.Machine.execFlush hq sqe s
  | .getLogPage hq cid lid rae rgo sqe peer => Sys2Proof.Machine.execGetLogPage hq cid lid rae rgo sqe peer s
  | .identify hq cid cns nsid => Sys2Proof.Machine.execIdentify hq cid cns nsid s
  | .abort hq cid => Sys2Proof.Machine.execAbort hq cid s
  | .setFeatures hq cid fid sv dw11 nsid => Sys2Proof.Machine.execSetFeatures hq cid fid sv dw11 nsid s
  | .getFeatures hq cid fid sel dw11 nsid => Sys2Proof.Machine.execGetFeatures hq cid fid sel dw11 nsid s
  | .asyncEventRequest hq cid => Sys2Proof.Machine.execAsyncEventRequest hq cid s
  | .keepAlive hq cid => Sys2Proof.Machine.execKeepAlive hq cid s
  | .namespaceManagement hq sqe => Sys2Proof.Machine.execNamespaceManagement hq sqe s
  | .namespaceAttachment hq sqe serve => Sys2Proof.Machine.execNamespaceAttachment hq sqe serve s
  | .formatNvm hq sqe serve => Sys2Proof.Machine.execFormatNvm hq sqe serve s
  | .sanitize hq sqe step => Sys2Proof.Machine.execSanitize hq sqe step s
  | .reservationCommand hq sqe serve => Sys2Proof.Machine.execReservationCommand hq sqe serve s
  | .serviceCompletion v => Sys2Proof.Machine.execServiceCompletion v s
  | .discoveryGenctrWrite v => Sys2Proof.Machine.execDiscoveryGenctrWrite v s
  | .anaHoldTimeout hq cid => Sys2Proof.Machine.execAnaHoldTimeout hq cid s
  | .anaStateChange g => Sys2Proof.Machine.execAnaStateChange g s
  | .hostOk job => Sys2Proof.Machine.execHostOk job s
  | .hostErr job => Sys2Proof.Machine.execHostErr job s
  | .hostBadlen job => Sys2Proof.Machine.execHostBadlen job s
  | .hostPigen job => Sys2Proof.Machine.execHostPigen job s
  | .hostStatus job => Sys2Proof.Machine.execHostStatus job s
  | .drainTimeout => Sys2Proof.Machine.execDrainTimeout s
  | .cmReq a => Sys2Proof.Machine.execCmReq a s
  | .cmRtu qp => Sys2Proof.Machine.execCmRtu qp s
  | .cmDreq qp => Sys2Proof.Machine.execCmDreq qp s
  | .tcpConnect => Sys2Proof.Machine.execTcpConnect s
  | .tcpPduReceived hq p => Sys2Proof.Machine.execTcpPduReceived hq p s
  | .rdmaSendReceived h data => Sys2Proof.Machine.execRdmaSendReceived h data s
  | .rdmaWriteRequest h va rkey len data => Sys2Proof.Machine.execRdmaWriteRequest h va rkey len data s
  | .rdmaReadRequest h va rkey len => Sys2Proof.Machine.execRdmaReadRequest h va rkey len s
  | .rdmaAckReceived h data => Sys2Proof.Machine.execRdmaAckReceived h data s
  | .rdmaNakReceived h syn => Sys2Proof.Machine.execRdmaNakReceived h syn s
  | .cnpReceived h => Sys2Proof.Machine.execCnpReceived h s
  | .rdmaAckTimeout qp => Sys2Proof.Machine.execRdmaAckTimeout qp s
  | .rnrTimer qp => Sys2Proof.Machine.execRnrTimer qp s
  | .ccTimer qp => Sys2Proof.Machine.execCcTimer qp s
  | .qpQuietExpiry qp => Sys2Proof.Machine.execQpQuietExpiry qp s
  | .qpCreate v => Sys2Proof.Machine.execQpCreate v s
  | .qpModify v => Sys2Proof.Machine.execQpModify v s
  | .qpQuery v => Sys2Proof.Machine.execQpQuery v s
  | .qpDestroy v => Sys2Proof.Machine.execQpDestroy v s
  | .rdmaRead job ttag => Sys2Proof.Machine.execRdmaRead job ttag s
  | .rdmaWrite job => Sys2Proof.Machine.execRdmaWrite job s
  | .rdmaCmd job => Sys2Proof.Machine.execRdmaCmd job s
  | .windowRegister v => Sys2Proof.Machine.execWindowRegister v s
  | .windowRevoke v => Sys2Proof.Machine.execWindowRevoke v s
  | .windowQuery v => Sys2Proof.Machine.execWindowQuery v s
  | .revokeDrainDone win => Sys2Proof.Machine.execRevokeDrainDone win s
  | .ethernetFrameReceived port pfc prio cells => Sys2Proof.Machine.execEthernetFrameReceived port pfc prio cells s
  | .schedulerParityError => Sys2Proof.Machine.execSchedulerParityError s
  | .tapCapture dep inp outp bytes wait queued => Sys2Proof.Machine.execTapCapture dep inp outp bytes wait queued s
  | .cellFrame link f => Sys2Proof.Machine.execCellFrame link f s
  | .retryFrame link f => Sys2Proof.Machine.execRetryFrame link f s
  | .idleFrame link f => Sys2Proof.Machine.execIdleFrame link f s
  | .syncMark link diff => Sys2Proof.Machine.execSyncMark link diff s
  | .replayTimeout link => Sys2Proof.Machine.execReplayTimeout link s
  | .retryResendTimeout link => Sys2Proof.Machine.execRetryResendTimeout link s
  | .cellLinkEnable link v => Sys2Proof.Machine.execCellLinkEnable link v s
  | .cellLinkTrained link => Sys2Proof.Machine.execCellLinkTrained link s
  | .cellLinkDown link reach => Sys2Proof.Machine.execCellLinkDown link reach s
  | .heartbeat port bytes => Sys2Proof.Machine.execHeartbeat port bytes s
  | .heartbeatSend => Sys2Proof.Machine.execHeartbeatSend s
  | .heartbeatPeriodEnd => Sys2Proof.Machine.execHeartbeatPeriodEnd s
  | .healthTimeout => Sys2Proof.Machine.execHealthTimeout s
  | .arbiterAnswer won => Sys2Proof.Machine.execArbiterAnswer won s
  | .arbiterRetry => Sys2Proof.Machine.execArbiterRetry s
  | .fenceIn => Sys2Proof.Machine.execFenceIn s
  | .takeover => Sys2Proof.Machine.execTakeover s
  | .partnerReadTimeout k addr => Sys2Proof.Machine.execPartnerReadTimeout k addr s
  | .slotRefMessage slot entry => Sys2Proof.Machine.execSlotRefMessage slot entry s
  | .syncStart copy => Sys2Proof.Machine.execSyncStart copy s
  | .syncComplete => Sys2Proof.Machine.execSyncComplete s
  | .syncPartnerTimeout => Sys2Proof.Machine.execSyncPartnerTimeout s
  | .failbackSettle => Sys2Proof.Machine.execFailbackSettle s
  | .handoverStart g theirs => Sys2Proof.Machine.execHandoverStart g theirs s
  | .handoverWaitExpiry g => Sys2Proof.Machine.execHandoverWaitExpiry g s
  | .rekeyGo v => Sys2Proof.Machine.execRekeyGo v s
  | .rekey epoch en => Sys2Proof.Machine.execRekey epoch en s
  | .rekeyAck => Sys2Proof.Machine.execRekeyAck s
  | .rekeyNak => Sys2Proof.Machine.execRekeyNak s
  | .rekeySwitch qp => Sys2Proof.Machine.execRekeySwitch qp s
  | .pfailInput a b => Sys2Proof.Machine.execPfailInput a b s
  | .powerFailStart step => Sys2Proof.Machine.execPowerFailStart step s
  | .powerReturn => Sys2Proof.Machine.execPowerReturn s
  | .vaultDriveTimeout d => Sys2Proof.Machine.execVaultDriveTimeout d s
  | .avsStep acked => Sys2Proof.Machine.execAvsStep acked s
  | .avsAckTimeout => Sys2Proof.Machine.execAvsAckTimeout s
  | .droopTrip n => Sys2Proof.Machine.execDroopTrip n s
  | .droopRelease n => Sys2Proof.Machine.execDroopRelease n s
  | .sensorConversion => Sys2Proof.Machine.execSensorConversion s
  | .sensorResult n raw => Sys2Proof.Machine.execSensorResult n raw s
  | .rstN => Sys2Proof.Machine.execRstN s
  | .headReset => Sys2Proof.Machine.execHeadReset s
  | .coldPowerOn => Sys2Proof.Machine.execColdPowerOn s
  | .coreBrownOut => Sys2Proof.Machine.execCoreBrownOut s
  | .memoryEcc => Sys2Proof.Machine.execMemoryEcc s
  | .switchEcc => Sys2Proof.Machine.execSwitchEcc s
  | .refclkLoss b => Sys2Proof.Machine.execRefclkLoss b s
  | .clockLoss => Sys2Proof.Machine.execClockLoss s
  | .pwrgoodChange up => Sys2Proof.Machine.execPwrgoodChange up s
  | .boot b => Sys2Proof.Machine.execBoot b s
  | .coreRelease v => Sys2Proof.Machine.execCoreRelease v s
  | .swdtWrite v => Sys2Proof.Machine.execSwdtWrite v s
  | .swdtExpiry => Sys2Proof.Machine.execSwdtExpiry s
  | .resetRequest v => Sys2Proof.Machine.execResetRequest v s
  | .checkpointGo v failed => Sys2Proof.Machine.execCheckpointGo v failed s
  | .standbyRequest v => Sys2Proof.Machine.execStandbyRequest v s
  | .standbyDrainTimeout => Sys2Proof.Machine.execStandbyDrainTimeout s
  | .standbyExit v => Sys2Proof.Machine.execStandbyExit v s
  | .parkRequest v => Sys2Proof.Machine.execParkRequest v s
  | .parkWakeRequest => Sys2Proof.Machine.execParkWakeRequest s
  | .autowakeTimer => Sys2Proof.Machine.execAutowakeTimer s
  | .stage v writes => Sys2Proof.Machine.execStage v writes s
  | .arm v => Sys2Proof.Machine.execArm v s
  | .disarm v => Sys2Proof.Machine.execDisarm v s
  | .commit v => Sys2Proof.Machine.execCommit v s
  | .enroll v => Sys2Proof.Machine.execEnroll v s
  | .seal v => Sys2Proof.Machine.execSeal v s
  | .ukexp v => Sys2Proof.Machine.execUkexp v s
  | .activationTime => Sys2Proof.Machine.execActivationTime s
  | .activationWaitExpiry => Sys2Proof.Machine.execActivationWaitExpiry s
  | .activationAnnounce time => Sys2Proof.Machine.execActivationAnnounce time s
  | .ringDrained => Sys2Proof.Machine.execRingDrained s
  | .ringDrainTimeout => Sys2Proof.Machine.execRingDrainTimeout s
  | .attestQuote v => Sys2Proof.Machine.execAttestQuote v s
  | .celEvraiseWrite v => Sys2Proof.Machine.execCelEvraiseWrite v s
  | .eventPop q => Sys2Proof.Machine.execEventPop q s
  | .cellarRecord => Sys2Proof.Machine.execCellarRecord s
  | .celWin0Read => Sys2Proof.Machine.execCelWin0Read s
  | .celWin3Read => Sys2Proof.Machine.execCelWin3Read s
  | .stewardRecordSubmit v => Sys2Proof.Machine.execStewardRecordSubmit v s
  | .cellarFlush reason => Sys2Proof.Machine.execCellarFlush reason s
  | .cellarFlushDone failed => Sys2Proof.Machine.execCellarFlushDone failed s
  | .pmcFreeze v gang => Sys2Proof.Machine.execPmcFreeze v gang s
  | .pmcSnap v gang => Sys2Proof.Machine.execPmcSnap v gang s
  | .pmcCounterWrite n v => Sys2Proof.Machine.execPmcCounterWrite n v s
  | .counterOverflow n => Sys2Proof.Machine.execCounterOverflow n s
  | .smbId => Sys2Proof.Machine.execSmbId s
  | .smbState => Sys2Proof.Machine.execSmbState s
  | .smbReset => Sys2Proof.Machine.execSmbReset s
  | .smbAlerts => Sys2Proof.Machine.execSmbAlerts s
  | .smbAlertclr v => Sys2Proof.Machine.execSmbAlertclr v s
  | .smbHottest => Sys2Proof.Machine.execSmbHottest s
  | .smbAvs => Sys2Proof.Machine.execSmbAvs s
  | .smbTemp n => Sys2Proof.Machine.execSmbTemp n s
  | .smbCelcnt => Sys2Proof.Machine.execSmbCelcnt s
  | .smbCelrec => Sys2Proof.Machine.execSmbCelrec s
  | .smbCelrst v => Sys2Proof.Machine.execSmbCelrst v s
  | .smbCellost => Sys2Proof.Machine.execSmbCellost s
  | .smbWake => Sys2Proof.Machine.execSmbWake s
  | .alertResponseAddress => Sys2Proof.Machine.execAlertResponseAddress s
  | .ppsInEdge => Sys2Proof.Machine.execPpsInEdge s
  | .ppsOutSecond => Sys2Proof.Machine.execPpsOutSecond s
  | .tapBypass => Sys2Proof.Machine.execTapBypass s
  | .tapIdcode => Sys2Proof.Machine.execTapIdcode s
  | .tapSample pins pre => Sys2Proof.Machine.execTapSample pins pre s
  | .tapExtest => Sys2Proof.Machine.execTapExtest s
  | .tapClamp => Sys2Proof.Machine.execTapClamp s
  | .tapHighz => Sys2Proof.Machine.execTapHighz s
  | .rstNRelease => Sys2Proof.Machine.execRstNRelease s
  | .fenceInRelease => Sys2Proof.Machine.execFenceInRelease s
  | .vddAonLoss => Sys2Proof.Machine.execVddAonLoss s
  | .refclkReturn b => Sys2Proof.Machine.execRefclkReturn b s
  | .partnerHealthEdge => Sys2Proof.Machine.execPartnerHealthEdge s
  | .rootPortLinkDown port => Sys2Proof.Machine.execRootPortLinkDown port s
  | .rootPortLinkRetrained port => Sys2Proof.Machine.execRootPortLinkRetrained port s
  | .pairCutResendTimer => Sys2Proof.Machine.execPairCutResendTimer s
  | .pairCutConfirm => Sys2Proof.Machine.execPairCutConfirm s
  | .bungConfirm => Sys2Proof.Machine.execBungConfirm s
  | .unassignedEncoding core w0 w1 w2 => Sys2Proof.Machine.execUnassignedEncoding core w0 w1 w2 s
  | .ptpMessage time locks => Sys2Proof.Machine.execPtpMessage time locks s

end Sys2Proof.Machine
end

