-- ==== Sys2Proof/Machine/Tick.lean ====
section
/-! DEFINITION. What the device does in 10 ns when no command waits: the clock and the counters of cycles count, the switch core and the cell links move cells, and the front end sends the
SMART warnings that have come to hold. -/

namespace Sys2Proof.Machine

/-- The FLOW cycles that the region of a sequencer runs in 10 ns, 25 at its nominal frequency (R16, R466). (log 3, DESIGN CHOICE, unsafe) -/
def flowCycles (s : State) (q : Nat) : Nat := if flowStopped s then 0 else 25 * regionRate s (q / 128 * 12 + q % 128 / 16) / 32

/-- The FLOW cycles of 10 ns, summed over the contexts in a state, each on its sequencer; with `inst`, those of one sequencer. -/
def contextCycles (s : State) (inst : Option Nat) (p : CtxState → Bool) : Nat :=
  (s.ctxs.map fun kv => if p kv.2.st && (match inst with | some q => decide (kv.2.seq = q) | none => true) then flowCycles s kv.2.seq else 0).sum

/-- The occurrences in 10 ns of the events that count cycles (R539): 20 CORE cycles, one AON cycle, and the FLOW cycles of RUNNING and of WAITING
contexts. -/
def cycleEvents (s : State) (ev : Nat) (inst : Option Nat) : Nat :=
  match ev with
  | 0x0001 => 20
  | 0x0002 => 1
  | 0x0C02 => contextCycles s inst fun c => match c with | .running => true | _ => false
  | 0x0C04 => contextCycles s inst fun c => match c with | .waiting _ => true | _ => false
  | _ => 0

/-- The counters of cycles count (R538 to R540), unless they are frozen. -/
def pmcCycles (s : State) : State :=
  if isF s F.PMC_FREEZE_FROZEN then s
  else (pmcListed s).foldl (fun t n =>
    let ev := getF s F.PMC_SEL_EVENT n
    let inst := if isF s F.PMC_SEL_INSTEN n then some (getF s F.PMC_SEL_INST n) else none
    let k := cycleEvents s ev inst
    if decide (k ≠ 0) && pmcSelects s ev (inst.getD 0) n then pmcAdd 1024 n k t else t) s

/-- 10 ns pass with no command: DTIME, a nanosecond counter, advances by 10, the counters of cycles count, the switch core moves its cell times (R16, R397), and SMART warnings go out (R343). Nothing moves while VDD_AON is lost. (log 3, DESIGN CHOICE, unsafe) -/
def tick (s : State) : State :=
  if s.boot.aon then smartNotices (switchTick (pmcCycles { s with dtime := s.dtime + 10 })) else s

/-- Takes the command at the front of the queue. -/
def popCommand (s : State) : Option (Instr × State) :=
  match s.pending with
  | [] => none
  | c :: l => some (c, { s with pending := l })

/-- Puts a command at the front of the queue. -/
def pushCommand (c : Instr) (s : State) : State := { s with pending := c :: s.pending }

end Sys2Proof.Machine
end

