-- ==== Sys2Proof/Machine/Step.lean ====
section
/-! DEFINITION. One step of the device: the command at the front of the queue, or 10 ns with no command. -/

namespace Sys2Proof.Machine

/-- One step: the command at the front of the queue runs on the state with the rest of the queue; with no command waiting, time passes
(`tick`). (log 3, DESIGN CHOICE, unsafe) -/
def step (s : State) : Host.Outcome State Fault Refusal :=
  match popCommand s with
  | some (c, t) => exec c t
  | none => .next (tick s)

/-- The state with the command that a word spells at the front of its queue. (log 6, DESIGN CHOICE, safe) -/
def State.withFetchWord (s : State) (nbits w : Nat) : State :=
  match Sys2Proof.decodeTableWord nbits w with
  | some c => pushCommand c s
  | none => s

end Sys2Proof.Machine
end

