-- ==== Sys2Proof/Safety.lean ====
section
/-! DEFINITION. What counts as a safe run of the device, and the words in which statements say what a command needs and what it leaves as it
was. -/

namespace Sys2Proof.Machine

/-- A step is safe when it answers a next state: nothing a command does stops the device. -/
def StepSafe (s : State) : Prop := ∃ t, step s = .next t

/-! ### Frames -/

/-- Two states read the same byte at every address but the `n` bytes from `lo` on. -/
def SameMemBut (lo n : Nat) (s t : State) : Prop := ∀ a, a < lo ∨ lo + n ≤ a → mget t.mem a = mget s.mem a

/-- Two states read the same byte at every address. -/
def SameMem (s t : State) : Prop := ∀ a, mget t.mem a = mget s.mem a

/-- Two states hold the same in every register but those at the addresses of a list. -/
def SameRegsBut (l : List Nat) (s t : State) : Prop := ∀ a, a ∉ l → kget t.csr a = kget s.csr a

/-- The registers that counting an occurrence may change: the counts and overflow bits of the performance counters (R538 to R540). -/
def isPmcReg (a : Nat) : Bool :=
  (decide ((RegName.PMC_CNT).addr 0 0 ≤ a) && decide (a ≤ (RegName.PMC_CNT).addr 1023 0)) ||
  (decide ((RegName.PMC_OVF).addr 0 0 ≤ a) && decide (a ≤ (RegName.PMC_OVF).addr 15 0))

/-- A state with the parts that a count of occurrences may change taken from another state: the registers, the event queues and the
input queue of the log. -/
def withLogOf (t s : State) : State := { s with csr := t.csr, cel := t.cel }

/-- A step sends something out of the device, beside what had been sent before. -/
def Sends (s t : State) (o : Out) : Prop := ∃ l, t.out = s.out ++ l ∧ o ∈ l

/-! ### GFI instructions -/

/-- An agent stands ready to issue an instruction of `len` bytes on a core: a steward core that is not held, or the RUNNING context of a
sequencer whose clock runs, within its budget (R53, R81, R87); its pc lies where it may fetch (R55, R72, R79). -/
def Issues (c : Core) (a : Agent) (len : Nat) (s : State) : Prop :=
  match c, a with
  | .stew k, .stew n => n = k.toNat ∧ ∃ x, kget s.stews n = some x ∧ x.run = true ∧ fetchOk s (.stew n) x.rf.pc len = true
  | .fsq q, .ctx n => flowStopped s = false ∧ (seqOf s q.toNat).running = some n ∧
      ∃ x, kget s.ctxs n = some x ∧ x.used < budget s ∧ fetchOk s (.ctx n) x.rf.pc len = true
  | .stew _, .ctx _ => False
  | .fsq _, .stew _ => False

/-- What an agent reads in a general register. -/
def reg (s : State) (a : Agent) (r : RegNo) : Word := (rfOf s a).get r.toNat

/-- The pc of an agent. -/
def pcOf (s : State) (a : Agent) : Word := (rfOf s a).pc

/-- The register file of an agent with a register written and its pc at an address. -/
def wroteFile (s : State) (a : Agent) (r : Nat) (v pc : Word) : RegFile := { (rfOf s a).set r v with pc := pc }

/-- The state after an instruction of `len` bytes that only writes a register. -/
def wrote (a : Agent) (len : Nat) (rd : RegNo) (v : Word) (s : State) : State :=
  retire a s (setRf a (wroteFile s a rd.toNat v (pcOf s a + BitVec.ofNat 64 len)) s)

/-- The state after an instruction that only moves the pc. -/
def jumped (a : Agent) (pc : Word) (s : State) : State := retire a s (setRf a { rfOf s a with pc := pc } s)

/-- The length of an instruction by its immediate: 4 bytes, or 12 for a group (R66). -/
def immLen : Imm → Nat
  | .short _ => 4
  | .long _ => 12

/-! ### Jobs and pages -/

/-- A job has ended with a result. -/
def JobDone (s : State) (id : Nat) (r : JobResult) : Prop := ∃ j, kget s.jobs id = some j ∧ j.phase = .done r

/-- The path of a block of a volume is four different pages, all resident in HBM and the volume's own to change (R128, R291), and its leaf is a page
with its entries in order, numbered below the next page. -/
def OwnPath (s : State) (v lba a b c l : Nat) (p : Page) : Prop :=
  volPath s v lba = [a, b, c, l] ∧ [a, b, c, l].Nodup ∧ pageOf s l = some p ∧ keysFrom 0 p.ent = true ∧ l < s.me.nextPage ∧
    ∀ i q, i ∈ [a, b, c, l] → pageOf s i = some q → q.resident = true ∧ q.ddr = false ∧ volEpoch s v ≤ q.epoch

/-- A page is none of the slot-reference pages (R131), and numbered below the next page. -/
def NotSrtPage (s : State) (k : Nat) : Prop := k < s.me.nextPage ∧ ∀ e ∈ s.me.srtPage, e.2 ≠ k

/-- A map job is accepted and may run: this head owns its volume, and every page it needs is resident (R141, R153). -/
def MapRuns (s : State) (id op : Nat) (j : Job) (pages : List Nat) : Prop :=
  accepted s id 0x0A op = some j ∧ ownsVol s (mapVol s j) = true ∧ firstAbsent s pages = none

/-! ### Hosts -/

/-- A queue takes its next capsule (R331 step 1, R333, R337): it is live and not frozen, its controller is not shut down, the head serves hosts, and
the command does not fill it. -/
abbrev Takes (s : State) (hq : Nat) (q : HQueue) (c : Ctrl) : Prop :=
  queueOf s hq = some q ∧ q.frozen = false ∧ ctrlOf s q.ctrl = some c ∧ bitsN c.cc 15 14 = 0 ∧ getF s F.SYS_HEAD_STATE < 4 ∧ q.used + 1 < q.size

/-- A step posts a completion on a queue: CID, status field and Dword 0. -/
def Answers (s t : State) (hq cid st dw0 : Nat) : Prop := ∃ head inv, Sends s t (.completion hq cid st dw0 head inv)

/-- A queue is live and not frozen. -/
def Live (s : State) (hq : Nat) : Prop := ∃ q, queueOf s hq = some q ∧ q.frozen = false

end Sys2Proof.Machine
end

