-- ==== Sys2Proof/Certificates/Slice0/Obligations.lean ====
section
/-! DEFINITION. The statements for the provers: what the rules of spec/ say the device does, over every state. -/

open Sys2Proof Sys2Proof.Machine

/-! ### The queue and every step -/

/-- Step takes the command at the front of the queue and runs it on the state with the rest of the queue. -/
def Claim.StepRunsTheFrontCommand : Prop :=
  ∀ (c : Instr) (l : List Instr) (s : State), step { s with pending := c :: l } = exec c { s with pending := l }

/-- No command stops the device: every command has a meaning that answers a next state, in every state. -/
def Claim.EveryCommandAnswersANextState : Prop :=
  ∀ (c : Instr) (s : State), ∃ t, exec c s = .next t

/-- No command changes the queue of the commands that wait: what is queued runs in the order in which it was queued. -/
def Claim.CommandsLeaveTheQueue : Prop :=
  ∀ (c : Instr) (s t : State), exec c s = .next t → t.pending = s.pending

/-- Every step keeps the memory in its canonical form, whatever the state, the command and its operands: addresses strictly rising, and no
listed byte zero. -/
def Claim.EveryStepKeepsMemoryCanonical : Prop :=
  ∀ s t : State, Memory.wf s.mem = true → step s = .next t → Memory.wf t.mem = true

/-- After reset the memory is in its canonical form, and the queue is empty; steward core 0 stands in P mode at the first address of the
boot ROM, runs, and takes no event, and no other core is released (R80). -/
def Claim.ResetStartsStewardCoreZero : Prop :=
  Memory.wf State.reset.mem = true ∧ State.reset.pending = [] ∧
  (∃ c, kget State.reset.stews 0 = some c ∧ c.run = true ∧ c.p = true ∧ c.even = false ∧ c.inev = false ∧ c.rf.pc = 0 ∧
    c.rgnb = [] ∧ ∀ r, c.rf.get r = 0) ∧
  ∀ k, k ≠ 0 → kget State.reset.stews k = none

/-- With no command waiting and the always-on supply present, a step passes 10 ns: DTIME rises by 10, and memory, contexts, steward cores,
jobs and the journal stay as they are. That time passes on an empty queue is the model's choice (log entry 3). -/
def Claim.IdleStepsPassTime : Prop :=
  ∀ s : State, s.pending = [] → s.boot.aon = true → isF s F.SWC_TAP_CTL_EN = false →
    ∃ t, step s = .next t ∧ t.dtime = s.dtime + 10 ∧ t.mem = s.mem ∧ t.ctxs = s.ctxs ∧ t.stews = s.stews ∧ t.jobs = s.jobs ∧
      t.ta = s.ta ∧ t.pending = s.pending

/-! ### GFI instructions -/

/-- The integer register operations of R68 write their result to rd. -/
def Claim.IntegerRegisterResults : Prop :=
  ∀ (c : Core) (a : Agent) (rd ra rb : RegNo) (s : State), Issues c a 4 s → badDest c rd = false →
    let x := reg s a ra
    let y := reg s a rb
    exec (.add c rd ra rb) s = .next (wrote a 4 rd (x + y) s) ∧
    exec (.sub c rd ra rb) s = .next (wrote a 4 rd (x - y) s) ∧
    exec (.and c rd ra rb) s = .next (wrote a 4 rd (x &&& y) s) ∧
    exec (.or c rd ra rb) s = .next (wrote a 4 rd (x ||| y) s) ∧
    exec (.xor c rd ra rb) s = .next (wrote a 4 rd (x ^^^ y) s) ∧
    exec (.andn c rd ra rb) s = .next (wrote a 4 rd (x &&& ~~~y) s) ∧
    exec (.sll c rd ra rb) s = .next (wrote a 4 rd (x <<< (y &&& 63)) s) ∧
    exec (.srl c rd ra rb) s = .next (wrote a 4 rd (x >>> (y &&& 63)) s) ∧
    exec (.sra c rd ra rb) s = .next (wrote a 4 rd (x.sshiftRight (y &&& 63).toNat) s) ∧
    exec (.slt c rd ra rb) s = .next (wrote a 4 rd (if x.toInt < y.toInt then 1 else 0) s) ∧
    exec (.sltu c rd ra rb) s = .next (wrote a 4 rd (if x < y then 1 else 0) s) ∧
    exec (.min c rd ra rb) s = .next (wrote a 4 rd (if x.toInt ≤ y.toInt then x else y) s) ∧
    exec (.max c rd ra rb) s = .next (wrote a 4 rd (if x.toInt ≤ y.toInt then y else x) s) ∧
    exec (.minu c rd ra rb) s = .next (wrote a 4 rd (if x ≤ y then x else y) s) ∧
    exec (.maxu c rd ra rb) s = .next (wrote a 4 rd (if x ≤ y then y else x) s) ∧
    exec (.mul c rd ra rb) s = .next (wrote a 4 rd (x * y) s) ∧
    exec (.mulhu c rd ra rb) s = .next (wrote a 4 rd (BitVec.ofNat 64 (x.toNat * y.toNat / 2 ^ 64)) s) ∧
    exec (.divu c rd ra rb) s = .next (wrote a 4 rd (if y = 0 then BitVec.allOnes 64 else x / y) s) ∧
    exec (.remu c rd ra rb) s = .next (wrote a 4 rd (if y = 0 then x else x % y) s)

/-- CLZ, CTZ, POPC and BSWAP of R68: the numbers of leading and trailing zeros and of one bits, and the bytes reversed. A count of zeros
is given by what it means: the bits it counts are zero and the next one, where there is one, is not. -/
def Claim.BitCountResults : Prop :=
  ∀ (c : Core) (a : Agent) (rd ra : RegNo) (s : State), Issues c a 4 s → badDest c rd = false →
    let x := reg s a ra
    (∃ n, n ≤ 64 ∧ exec (.clz c rd ra 0) s = .next (wrote a 4 rd (BitVec.ofNat 64 n) s) ∧
      (∀ i, 64 - n ≤ i → x.getLsbD i = false) ∧ (n < 64 → x.getLsbD (63 - n) = true)) ∧
    (∃ n, n ≤ 64 ∧ exec (.ctz c rd ra 0) s = .next (wrote a 4 rd (BitVec.ofNat 64 n) s) ∧
      (∀ i, i < n → x.getLsbD i = false) ∧ (n < 64 → x.getLsbD n = true)) ∧
    exec (.popc c rd ra 0) s = .next (wrote a 4 rd (BitVec.ofNat 64 ((List.range 64).countP fun i => x.getLsbD i)) s) ∧
    ∃ v : Word, exec (.bswap c rd ra 0) s = .next (wrote a 4 rd v s) ∧
      ∀ i, i < 8 → v.extractLsb' (8 * i) 8 = x.extractLsb' (8 * (7 - i)) 8

/-- The integer immediate operations of R69 write their result to rd; an instruction with a prefix takes 12 bytes (R66). -/
def Claim.IntegerImmediateResults : Prop :=
  ∀ (c : Core) (a : Agent) (rd ra : RegNo) (imm : Imm) (sh : BitVec 16) (s : State),
    Issues c a (immLen imm) s → Issues c a 4 s → badDest c rd = false → sh.toNat < 64 →
    let x := reg s a ra
    let n := immLen imm
    exec (.addi c rd ra imm) s = .next (wrote a n rd (x + immS imm) s) ∧
    exec (.andi c rd ra imm) s = .next (wrote a n rd (x &&& immZ imm) s) ∧
    exec (.ori c rd ra imm) s = .next (wrote a n rd (x ||| immZ imm) s) ∧
    exec (.xori c rd ra imm) s = .next (wrote a n rd (x ^^^ immZ imm) s) ∧
    exec (.slti c rd ra imm) s = .next (wrote a n rd (if x.toInt < (immS imm).toInt then 1 else 0) s) ∧
    exec (.sltiu c rd ra imm) s = .next (wrote a n rd (if x < immS imm then 1 else 0) s) ∧
    exec (.slli c rd ra sh) s = .next (wrote a 4 rd (x <<< sh.toNat) s) ∧
    exec (.srli c rd ra sh) s = .next (wrote a 4 rd (x >>> sh.toNat) s) ∧
    exec (.srai c rd ra sh) s = .next (wrote a 4 rd (x.sshiftRight sh.toNat) s) ∧
    (∀ v : BitVec 16, exec (.lui c rd 0 (.short v)) s = .next (wrote a 4 rd (v.signExtend 64 <<< 16) s)) ∧
    ∀ w : BitVec 32, Issues c a 12 s → exec (.lui c rd 0 (.long w)) s = .next (wrote a 12 rd (w.setWidth 64 <<< 32) s)

/-- What a register write leaves as it was: every byte of memory, every register but the performance counters, the other general
registers and the tickets of the agent, every other agent, the jobs, and every other part of the device. A write to g0 is discarded,
and the pc moves as otherwise (R44). -/
def Claim.RegisterInstructionFrame : Prop :=
  ∀ (a : Agent) (len : Nat) (rd : RegNo) (v : Word) (s : State),
    let t := wrote a len rd v s
    SameMem s t ∧ (∀ x, isPmcReg x = false → kget t.csr x = kget s.csr x) ∧
    (∀ r : RegNo, r ≠ rd → reg t a r = reg s a r) ∧ reg t a 0 = 0 ∧ (rfOf t a).tk = (rfOf s a).tk ∧
    (∀ b, b ≠ a → rfOf t b = rfOf s b) ∧ t = { withLogOf t s with ctxs := t.ctxs, stews := t.stews } ∧
    (∀ n, a = .ctx n → t.stews = s.stews) ∧ (∀ k, a = .stew k → t.ctxs = s.ctxs ∧ t.csr = s.csr ∧ t.cel = s.cel)

/-- The branches of R72: where the condition holds control goes to pc + s(offset) × 4, else to the next instruction. -/
def Claim.BranchResults : Prop :=
  ∀ (c : Core) (a : Agent) (ra rb : RegNo) (off : Imm) (s : State), Issues c a (immLen off) s →
    fetchOk s a (pcOf s a + immS off * 4) 4 = true →
    let x := reg s a ra
    let y := reg s a rb
    let go (b : Bool) : Res :=
      .next (jumped a (if b then pcOf s a + immS off * 4 else pcOf s a + BitVec.ofNat 64 (immLen off)) s)
    exec (.beq c ra rb off) s = go (decide (x = y)) ∧ exec (.bne c ra rb off) s = go (decide (x ≠ y)) ∧
    exec (.blt c ra rb off) s = go (decide (x.toInt < y.toInt)) ∧ exec (.bge c ra rb off) s = go (decide (y.toInt ≤ x.toInt)) ∧
    exec (.bltu c ra rb off) s = go (decide (x < y)) ∧ exec (.bgeu c ra rb off) s = go (decide (y ≤ x))

/-- The jumps of R72: control goes to pc + s(offset) × 4 or to the address in ra, and g30 or rd takes the return address; JALR reads its
target before it writes rd. -/
def Claim.JumpResults : Prop :=
  ∀ (c : Core) (a : Agent) (rd ra : RegNo) (off : BitVec 26) (s : State), Issues c a 4 s →
    (fetchOk s a (pcOf s a + off.signExtend 64 * 4) 4 = true →
      exec (.j c off) s = .next (jumped a (pcOf s a + off.signExtend 64 * 4) s) ∧
      exec (.jal c off) s = .next (retire a s (setRf a (wroteFile s a 30 (pcOf s a + 4) (pcOf s a + off.signExtend 64 * 4)) s))) ∧
    (fetchOk s a (reg s a ra) 4 = true →
      exec (.jr c 0 ra 0) s = .next (jumped a (reg s a ra) s) ∧
      (badDest c rd = false →
        exec (.jalr c rd ra 0) s = .next (retire a s (setRf a (wroteFile s a rd.toNat (pcOf s a + 4) (reg s a ra)) s))))

/-- A control transfer to an address where the agent may not fetch is a FETCH fault that reports the target (R72): a flow's context is FAULTED
with it; a steward core that may take a fault enters its handler. -/
def Claim.BadTargetsFaultWithFetch : Prop :=
  ∀ (c : Core) (a : Agent) (ra rb : RegNo) (off : Imm) (s : State), Issues c a (immLen off) s → reg s a ra = reg s a rb →
    fetchOk s a (pcOf s a + immS off * 4) 4 = false →
    ∃ t, exec (.beq c ra rb off) s = .next t ∧
      (∀ n, a = .ctx n → ∃ x f, kget t.ctxs n = some x ∧ x.st = .faulted f ∧ f.code = 0x05 ∧
        f.addr = (pcOf s a + immS off * 4).toNat % 2 ^ 48 ∧ x.rf = rfOf s a) ∧
      (∀ k y, a = .stew k → kget s.stews k = some y → y.inev = false →
        ∃ x, kget t.stews k = some x ∧ x.rf.pc = y.evbase ∧ x.epc = y.rf.pc ∧ x.ecause = 0x05 ∧
          x.eaddr = (pcOf s a + immS off * 4).toNat ∧ x.emode = y.mode ∧ x.p = true ∧ x.inev = true) ∧
      t.mem = s.mem

/-- Loads of R70 by a steward core from its regions, by a flow from its frame, and by a flow from HBM or DDR, where the context waits and
MEMORY_LOAD_RETURN writes the value. -/
def Claim.LoadResults : Prop :=
  ∀ (c : Core) (a : Agent) (rd ra : RegNo) (imm : Imm) (s : State), Issues c a (immLen imm) s → badDest c rd = false →
    let x := (reg s a ra + immS imm).toNat
    let loads (i : Instr) (n : Nat) (sx : Bool) : Prop :=
      x % n = 0 →
      (∀ k y, a = .stew k → kget s.stews k = some y → y.mayRegion x n 0 = true →
        (regionOf s x = .hbm ∨ regionOf s x = .ddr ∨ regionOf s x = .stewStore ∨ regionOf s x = .localStore ∨
          regionOf s x = .volTable ∨ regionOf s x = .cellarBuf) →
        exec i s = .next (wrote a (immLen imm) rd (loadValue n sx (rdN s x n)) s)) ∧
      (∀ m y, a = .ctx m → kget s.ctxs m = some y → inFrame y x n = true →
        exec i s = .next (wrote a (immLen imm) rd (loadValue n sx (rdN s x n)) s)) ∧
      (∀ m y, a = .ctx m → kget s.ctxs m = some y → flowNear s y x n = false → inHbmDdr s x n = true →
        windowOk s false x n = true →
        exec i s = .next (retire a s (makeWait m (.memory (.load rd.toNat x n sx))
          (setRf a { rfOf s a with pc := pcOf s a + BitVec.ofNat 64 (immLen imm) } s))))
    loads (.ld c rd ra imm) 8 false ∧ loads (.lw c rd ra imm) 4 false ∧ loads (.lws c rd ra imm) 4 true ∧
    loads (.lh c rd ra imm) 2 false ∧ loads (.lb c rd ra imm) 1 false

/-- When the data of a load returns, rd takes the bytes with the context's own buffered stores over them (R58), and the context is READY at
the end of its sequencer's turns; the store buffer and memory stay. An atomic waits for the stores before it; then it writes its result
to memory, and rd takes the old value (R61, R71). -/
def Claim.MemoryReturnResults : Prop :=
  ∀ (n : Nat) (x : Ctx) (s : State), Memory.wf s.mem = true → kget s.ctxs n = some x →
    (∀ r addr len sx, x.st = .waiting (.memory (.load r addr len sx)) →
      ∃ t y, exec (.memoryLoadReturn n) s = .next t ∧ kget t.ctxs n = some y ∧ y.st = .ready ∧ y.sbuf = x.sbuf ∧
        y.rf = x.rf.set r (loadValue len sx (ownView x.sbuf s addr len)) ∧
        (seqOf t x.seq).readyQ = (seqOf s x.seq).readyQ ++ [n] ∧ t.mem = s.mem ∧ t.csr = s.csr) ∧
    (∀ k r addr src cmp, x.st = .waiting (.memory (.amo k r addr src cmp)) → x.sbuf = [] →
      ∃ t y, exec (.memoryLoadReturn n) s = .next t ∧ kget t.ctxs n = some y ∧ y.st = .ready ∧
        y.rf = x.rf.set r (BitVec.ofNat 64 (rdN s addr 8)) ∧ SameMemBut addr 8 s t ∧
        BitVec.ofNat 64 (rdN t addr 8) = amoValue k (BitVec.ofNat 64 (rdN s addr 8)) src cmp ∧ t.csr = s.csr)

/-- Stores of R70: a steward core writes the low bytes of rd to HBM, DDR and its local store at once, and so does a flow to a part of its frame
that it may write; every other byte of memory stays. -/
def Claim.StoreResults : Prop :=
  ∀ (c : Core) (a : Agent) (rd ra : RegNo) (imm : Imm) (s : State), Memory.wf s.mem = true → Issues c a (immLen imm) s →
    let x := (reg s a ra + immS imm).toNat
    let stores (i : Instr) (n : Nat) : Prop :=
      x % n = 0 →
      ((∃ k y, a = .stew k ∧ kget s.stews k = some y ∧ y.mayRegion x n 1 = true ∧
          (regionOf s x = .hbm ∨ regionOf s x = .ddr ∨ regionOf s x = .stewStore)) ∨
        (∃ m y, a = .ctx m ∧ kget s.ctxs m = some y ∧ frameWrites y x n = true)) →
      ∃ t, exec i s = .next t ∧ rdN t x n = (reg s a rd).toNat % 256 ^ n ∧ SameMemBut x n s t ∧
        rfOf t a = { rfOf s a with pc := pcOf s a + BitVec.ofNat 64 (immLen imm) } ∧ t.jobs = s.jobs ∧
        (∀ b, b ≠ a → rfOf t b = rfOf s b) ∧ (∀ r, isPmcReg r = false → kget t.csr r = kget s.csr r)
    stores (.sd c rd ra imm) 8 ∧ stores (.sw c rd ra imm) 4 ∧ stores (.sh c rd ra imm) 2 ∧ stores (.sb c rd ra imm) 1

/-- A flow's store to HBM or DDR takes the last entry of its store buffer and changes no memory (R54); STORE_PERFORMED writes the bytes of an
entry that no older entry must precede, and the entry leaves the buffer. -/
def Claim.FlowStoresAreBuffered : Prop :=
  (∀ (q : BitVec 8) (n : Nat) (rd ra : RegNo) (imm : Imm) (x : Ctx) (s : State), Issues (.fsq q) (.ctx n) (immLen imm) s →
    kget s.ctxs n = some x → x.sbuf.length < 8 →
    let a := (reg s (.ctx n) ra + immS imm).toNat
    a % 8 = 0 → frameWrites x a 8 = false → inHbmDdr s a 8 = true → windowOk s true a 8 = true →
    ∃ t y, exec (.sd (.fsq q) rd ra imm) s = .next t ∧ kget t.ctxs n = some y ∧
      y.sbuf = x.sbuf ++ [.store a 8 (reg s (.ctx n) rd) x.fences 0] ∧ y.rf.g = x.rf.g ∧ t.mem = s.mem) ∧
  ∀ (n idx : Nat) (x : Ctx) (addr len : Nat) (v : Word) (f g : Nat) (s : State), Memory.wf s.mem = true →
    kget s.ctxs n = some x →
    x.sbuf[idx]? = some (.store addr len v f g) → (x.sbuf.take idx).any (mustPrecede · (.store addr len v f g)) = false →
    ∃ t y, exec (.storePerformed n idx) s = .next t ∧ kget t.ctxs n = some y ∧ y.sbuf = x.sbuf.eraseIdx idx ∧ y.rf = x.rf ∧
      rdN t addr len = v.toNat % 256 ^ len ∧ SameMemBut addr len s t ∧ t.csr = s.csr

/-- The atomics of R71 on a steward core: rd takes the old word, memory takes the result, which AMOCAS writes only where rd held the old
word; nothing else in memory changes. On a flow the context waits for the return. -/
def Claim.AtomicResults : Prop :=
  ∀ (c : Core) (a : Agent) (rd ra rb : RegNo) (s : State), Issues c a 4 s → badDest c rd = false →
    let x := (reg s a ra).toNat
    let old : Word := BitVec.ofNat 64 (rdN s x 8)
    let src := reg s a rb
    let amo (i : Instr) (k : AmoKind) (new : Word) : Prop :=
      x % 8 = 0 → inHbmDdr s x 8 = true →
      (∀ n y, a = .stew n → kget s.stews n = some y → y.mayRegion x 8 0 = true → y.mayRegion x 8 1 = true →
        exec i s = .next (wrN x 8 new.toNat (wrote a 4 rd old s))) ∧
      (∀ n, a = .ctx n → windowOk s false x 8 = true → windowOk s true x 8 = true →
        exec i s = .next (retire a s (makeWait n (.memory (.amo k rd.toNat x src (reg s a rd)))
          (setRf a { rfOf s a with pc := pcOf s a + 4 } s))))
    amo (.amoadd c rd ra rb) .add (old + src) ∧ amo (.amoswap c rd ra rb) .swap src ∧
    amo (.amocas c rd ra rb) .cas (if old = reg s a rd then src else old) ∧ amo (.amoand c rd ra rb) .and (old &&& src) ∧
    amo (.amoor c rd ra rb) .or (old ||| src) ∧ amo (.amomaxu c rd ra rb) .maxu (if old < src then src else old)

/-- The checks before a load: a misaligned address is an ALIGN fault and an address that the agent may not reach an ACCESS fault (R74, R568);
the instruction has no other effect, and the fault names the address. -/
def Claim.BadAddressesFault : Prop :=
  ∀ (k : BitVec 4) (rd ra : RegNo) (imm : Imm) (y : Stew) (s : State), Issues (.stew k) (.stew k.toNat) (immLen imm) s →
    kget s.stews k.toNat = some y → y.inev = false →
    let x := (reg s (.stew k.toNat) ra + immS imm).toNat
    regionOf s x ≠ .csr →
    let faults (code : Nat) : Prop :=
      ∃ t z, exec (.ld (.stew k) rd ra imm) s = .next t ∧ kget t.stews k.toNat = some z ∧ z.rf = { y.rf with pc := y.evbase } ∧
        z.ecause = code ∧ z.eaddr = x ∧ z.epc = y.rf.pc ∧ z.emode = y.mode ∧ t = { s with stews := t.stews }
    (x % 8 ≠ 0 → faults 0x03) ∧ (x % 8 = 0 → stewReads s y x 8 = false → faults 0x04)

/-- DLD copies 64 bytes into a descriptor register, DST copies one to memory and DCLR zeroes one (R73), on a steward core, in HBM or DDR where its
regions let it; nothing else in memory changes. -/
def Claim.DescriptorResults : Prop :=
  ∀ (c : Core) (a : Agent) (ra : RegNo) (d : Byte) (s : State), Memory.wf s.mem = true → Issues c a 4 s → d.toNat < 8 →
    let x := (reg s a ra).toNat
    let moved (t : State) : Prop := rfOf t a = { rfOf s a with pc := pcOf s a + 4 } ∧ t.jobs = s.jobs ∧
      ∀ r, isPmcReg r = false → kget t.csr r = kget s.csr r
    (∃ t, exec (.dclr c 0 0 d) s = .next t ∧ rdB t (descAddr s a d.toNat) 64 = zeros 64 ∧
      SameMemBut (descAddr s a d.toNat) 64 s t ∧ moved t) ∧
    ∀ k y, a = .stew k → kget s.stews k = some y → x % 64 = 0 → (regionOf s x = .hbm ∨ regionOf s x = .ddr) →
      (y.mayRegion x 64 0 = true →
        ∃ t, exec (.dld c 0 ra d) s = .next t ∧ rdB t (descAddr s a d.toNat) 64 = rdB s x 64 ∧
          SameMemBut (descAddr s a d.toNat) 64 s t ∧ moved t) ∧
      (y.mayRegion x 64 1 = true →
        ∃ t, exec (.dst c 0 ra d) s = .next t ∧ rdB t x 64 = rdB s (descAddr s a d.toNat) 64 ∧ SameMemBut x 64 s t ∧ moved t)

/-- MFS reads the special registers of R76, MTS writes them, and a written register reads as the bits written to it, its reserved bits as zero;
CORE is read-only. -/
def Claim.SpecialRegisterResults : Prop :=
  ∀ (k : BitVec 4) (r : RegNo) (y : Stew) (s : State), Issues (.stew k) (.stew k.toNat) 4 s →
    kget s.stews k.toNat = some y → y.p = true →
    let a : Agent := .stew k.toNat
    let v := reg s a r
    let reads (idx : Nat) (w : Word) : Prop := exec (.mfs (.stew k) r 0 (BitVec.ofNat 8 idx)) s = .next (wrote a 4 r w s)
    let writes (idx : Nat) (z : Stew) : Prop :=
      exec (.mts (.stew k) 0 r (BitVec.ofNat 8 idx)) s = .next { s with stews := kput s.stews k.toNat { z with rf := { y.rf with pc := y.rf.pc + 4 } } }
    (reads 0x00 (BitVec.ofNat 64 y.mode) ∧ writes 0x00 { y with mode := (v &&& 7).toNat }) ∧
    (reads 0x01 y.epc ∧ writes 0x01 { y with epc := v }) ∧
    (reads 0x02 (BitVec.ofNat 64 y.ecause) ∧ writes 0x02 { y with ecause := (v &&& 0xFF0FFF).toNat }) ∧
    (reads 0x03 (BitVec.ofNat 64 y.eaddr) ∧ writes 0x03 { y with eaddr := v.toNat }) ∧
    (reads 0x04 y.evbase ∧ writes 0x04 { y with evbase := v &&& ~~~0xFFF }) ∧
    (reads 0x05 (BitVec.ofNat 64 y.emode) ∧ writes 0x05 { y with emode := (v &&& 7).toNat }) ∧
    (reads 0x06 (k.setWidth 64) ∧ writes 0x06 y) ∧
    (∀ i, i < 8 → reads (0x08 + i) (kgetD y.scratch i 0) ∧ writes (0x08 + i) { y with scratch := kputD 0 y.scratch i v }) ∧
    ∀ i, i < 64 → reads (0x40 + i) (kgetD y.rgnb i 0) ∧ reads (0x80 + i) (kgetD y.rgnl i 0) ∧
      writes (0x40 + i) { y with rgnb := kputD 0 y.rgnb i (v &&& 0x0000FFFFFFFFF07F) } ∧
      writes (0x80 + i) { y with rgnl := kputD 0 y.rgnl i (v &&& 0x0000FFFFFFFFF000) }

/-- TRAP enters the handler at vector 2 with EPC at the next instruction; an event enters it at vector 1 with the queue number in ECAUSE; ERET
returns MODE and the pc from EMODE and EPC (R76, R77, R531). Nothing else of the device changes. -/
def Claim.HandlerEntryAndReturn : Prop :=
  ∀ (k : BitVec 4) (aux : Byte) (y : Stew) (s : State), kget s.stews k.toNat = some y →
    let enter (epc : Word) (cause v : Nat) : State :=
      { s with stews := kput s.stews k.toNat { y with
          emode := y.mode, epc := epc, ecause := cause, eaddr := 0, mode := y.mode ||| 3
          rf := { y.rf with pc := y.evbase + BitVec.ofNat 64 (0x100 * v) } } }
    (Issues (.stew k) (.stew k.toNat) 4 s → y.inev = false →
      exec (.trap (.stew k) 0 0 aux) s = .next (enter (y.rf.pc + 4) (0x21 + 65536 * aux.toNat) 2)) ∧
    (Issues (.stew k) (.stew k.toNat) 4 s → y.p = true →
      exec (.eret (.stew k) 0 0 0) s = .next
        { s with stews := kput s.stews k.toNat { y with mode := y.emode, rf := { y.rf with pc := y.epc } } }) ∧
    ∀ q, y.run = true → y.even = true → y.inev = false → eventQueue s k.toNat = some q →
      exec (.eventDelivery k) s = .next (enter y.rf.pc (0x20 + 256 * q) 1)

/-- A fault or TRAP while INEV is 1 is a double fault: records 0x0013 and 0x0014 are written to the log, then a flush with REASON 3 is requested, and a head
reset with code 0x04 is asserted (R78). -/
def Claim.DoubleFaultAssertsReset : Prop :=
  ∀ (k : BitVec 4) (aux : Byte) (y : Stew) (s : State), Issues (.stew k) (.stew k.toNat) 4 s → kget s.stews k.toNat = some y →
    y.inev = true →
    exec (.trap (.stew k) 0 0 aux) s = .next (assertReset 0x04 (requestFlush 3 (drainLog
      (cel 0x0014 k.toNat 4 0 0 0 (cel 0x0013 k.toNat 4 (0x21 + 65536 * aux.toNat) (bits (y.rf.pc + 4) 31 0) (bits (y.rf.pc + 4) 47 32) s)))))

/-- MFS, MTS, ERET and ICINV are PRIV faults in U mode and on a sequencer, and TRAP on a sequencer is ILLEGAL (R74, R76): a flow's context is
FAULTED and keeps its registers; a steward core enters its handler and keeps its other registers. -/
def Claim.PrivilegeFaults : Prop :=
  (∀ (k : BitVec 4) (y : Stew) (s : State), Issues (.stew k) (.stew k.toNat) 4 s → kget s.stews k.toNat = some y → y.p = false →
    y.inev = false → ∀ i : Instr,
      i = .mfs (.stew k) 1 0 0 ∨ i = .mts (.stew k) 0 1 0 ∨ i = .eret (.stew k) 0 0 0 ∨ i = .icinv (.stew k) 0 0 0 →
      exec i s = .next (handlerEntry k.toNat y.rf.pc 0x02 0 0 s)) ∧
  ∀ (q : BitVec 8) (n : Nat) (x : Ctx) (s : State), Issues (.fsq q) (.ctx n) 4 s → kget s.ctxs n = some x → ∀ i : Instr,
    (i = .mfs (.fsq q) 1 0 0 ∨ i = .mts (.fsq q) 0 1 0 ∨ i = .eret (.fsq q) 0 0 0 ∨ i = .icinv (.fsq q) 0 0 0 ∨ i = .trap (.fsq q) 0 0 0) →
    ∃ t z f, exec i s = .next t ∧ kget t.ctxs n = some z ∧ z.st = .faulted f ∧ z.rf = x.rf ∧ t.mem = s.mem ∧
      f.code = (if i = .trap (.fsq q) 0 0 0 then 0x01 else 0x02)

/-- An encoding that R67 does not assign, and a prefix that R66 does not allow, is an ILLEGAL fault (R66, R67, R75): the context is FAULTED with
the word, and its registers stay. -/
def Claim.UnassignedEncodingsAreIllegal : Prop :=
  ∀ (q : BitVec 8) (n : Nat) (x : Ctx) (w0 w1 w2 : BitVec 32) (s : State), Issues (.fsq q) (.ctx n) (if w0.toNat / 2 ^ 26 = 0x3F then 12 else 4) s →
    kget s.ctxs n = some x → unassigned w0 w1 = true →
    ∃ t z f, exec (.unassignedEncoding (.fsq q) w0 w1 w2) s = .next t ∧ kget t.ctxs n = some z ∧ z.st = .faulted f ∧ f.code = 0x01 ∧
      f.insn = (if w0.toNat / 2 ^ 26 = 0x3F then w1.toNat else w0.toNat) ∧ f.pc = x.rf.pc.toNat % 2 ^ 32 ∧ z.rf = x.rf ∧ t.mem = s.mem

/-- The ticket instructions of R94: WAIT on a READY ticket gives bytes 0 to 7 of its result slot and frees it, and a flow's WAIT on a PENDING one makes
the context WAITING; POLL gives 1 for READY and 0 for PENDING; WAITANY gives the lowest READY ticket of its mask and frees none, and
makes a flow WAITING while all are PENDING; DROP frees a READY ticket. -/
def Claim.TicketResults : Prop :=
  ∀ (c : Core) (a : Agent) (rd ra : RegNo) (t : BitVec 4) (k : Ticket) (s : State), Issues c a 4 s → badDest c rd = false →
    let aux : Byte := t.setWidth 8
    let f := rfOf s a
    kget f.tk t.toNat = some k →
    (k.ready = true →
      exec (.wait c rd 0 aux) s = .next (retire a s (setRf a
        { ({ f with tk := kdel f.tk t.toNat }.set rd.toNat (BitVec.ofNat 64 (rdN s (slotAddr s a t.toNat) 8))) with pc := f.pc + 4 } s)) ∧
      exec (.poll c rd 0 aux) s = .next (wrote a 4 rd 1 s) ∧
      exec (.drop c 0 0 aux) s = .next (retire a s (setRf a { f with tk := kdel f.tk t.toNat, pc := f.pc + 4 } s)) ∧
      ((reg s a ra).toNat.testBit t.toNat = true →
        (∀ i j, i < t.toNat → (reg s a ra).toNat.testBit i = true → kget f.tk i = some j → j.ready = false) →
        exec (.waitany c rd ra 0) s = .next (wrote a 4 rd (t.setWidth 64) s))) ∧
    (k.ready = false →
      exec (.poll c rd 0 aux) s = .next (wrote a 4 rd 0 s) ∧
      ∀ n, a = .ctx n →
        exec (.wait c rd 0 aux) s = .next (retire a s (makeWait n (.ticket t.toNat rd.toNat)
          (setRf a { f with pc := f.pc + 4 } s))) ∧
        ((reg s a ra).toNat % 65536 = 2 ^ t.toNat →
          exec (.waitany c rd ra 0) s = .next (retire a s (makeWait n (.anyTicket (2 ^ t.toNat) rd.toNat)
            (setRf a { f with pc := f.pc + 4 } s)))))

/-- WAIT, POLL and DROP on a FREE ticket, and WAITANY whose mask has no other, are TICKET faults (R94): the context is FAULTED and keeps its
registers. -/
def Claim.FreeTicketsFault : Prop :=
  ∀ (q : BitVec 8) (n : Nat) (x : Ctx) (rd ra : RegNo) (t : BitVec 4) (s : State), Issues (.fsq q) (.ctx n) 4 s → kget s.ctxs n = some x →
    rd ≠ 29 → kget x.rf.tk t.toNat = none → ∀ i : Instr,
    (i = .wait (.fsq q) rd 0 (t.setWidth 8) ∨ i = .poll (.fsq q) rd 0 (t.setWidth 8) ∨ i = .drop (.fsq q) 0 0 (t.setWidth 8) ∨
      (i = .waitany (.fsq q) rd ra 0 ∧ ∀ j < 16, (reg s (.ctx n) ra).toNat.testBit j = true → kget x.rf.tk j = none)) →
    ∃ u z f, exec i s = .next u ∧ kget u.ctxs n = some z ∧ z.st = .faulted f ∧ f.code = 0x06 ∧ z.rf = x.rf ∧ u.mem = s.mem

/-- SUBMIT captures the 64 bytes of the descriptor register, makes its FREE ticket PENDING and issues the job to its class; a flow's takes an entry of
the store buffer (R44, R62, R90 to R93). -/
def Claim.SubmitIssuesAJob : Prop :=
  ∀ (c : Core) (a : Agent) (t : BitVec 4) (d : BitVec 3) (cls : BitVec 6) (s : State), Issues c a 4 s →
    1 ≤ cls.toNat → cls.toNat ≤ 14 → kget (rfOf s a).tk t.toNat = none →
    (∀ n x, a = .ctx n → kget s.ctxs n = some x → x.sbuf.length < 8) →
    ∃ u j, exec (.submit c t d cls 0) s = .next u ∧ kget u.jobs s.nextJob = some j ∧ u.nextJob = s.nextJob + 1 ∧
      j.owner = a ∧ j.tk = t.toNat ∧ j.cls = cls.toNat ∧ j.phase = .issued none ∧
      j.desc = BitVec.ofNat 512 (rdN s (descAddr s a d.toNat) 64) ∧
      rfOf u a = { rfOf s a with pc := pcOf s a + 4, tk := kput (rfOf s a).tk t.toNat ⟨false, s.nextJob, 0⟩ } ∧ u.mem = s.mem ∧
      (∀ i, i ≠ s.nextJob → kget u.jobs i = kget s.jobs i) ∧
      ∀ n x, a = .ctx n → kget s.ctxs n = some x → ∃ y, kget u.ctxs n = some y ∧ y.sbuf = x.sbuf ++ [.submit s.nextJob]

/-- CTXID, SEQID and DTIME write rd (R73); the fences and ICINV only move the pc, and FENCE and FENCE.S put a fence before the later stores of a flow's
buffer (R60, R64). That ICINV only moves the pc follows from a model that fetches no words (log entry 1). -/
def Claim.FlowReadsAndFences : Prop :=
  ∀ (c : Core) (a : Agent) (rd : RegNo) (s : State), Issues c a 4 s → badDest c rd = false →
    let fenced : State :=
      match a with
      | .ctx n => retire a s (modCtx n (fun x => { x with fences := x.fences + 1 }) (setRf a { rfOf s a with pc := pcOf s a + 4 } s))
      | .stew _ => jumped a (pcOf s a + 4) s
    (∀ n, a = .ctx n → exec (.ctxid c rd 0 0) s = .next (wrote a 4 rd (BitVec.ofNat 64 n) s)) ∧
    exec (.seqid c rd 0 0) s = .next (wrote a 4 rd (match c with | .fsq q => q.setWidth 64 | .stew k => k.setWidth 64) s) ∧
    exec (.dtime c rd 0 0) s = .next (wrote a 4 rd s.dtime s) ∧
    exec (.fence c 0 0 0) s = .next fenced ∧ exec (.fenceS c 0 0 0) s = .next fenced ∧
    exec (.fenceL c 0 0 0) s = .next (jumped a (pcOf s a + 4) s) ∧
    ∀ k y, a = .stew k → kget s.stews k = some y → y.p = true → exec (.icinv c 0 0 0) s = .next (jumped a (pcOf s a + 4) s)

/-- YIELD makes the RUNNING context READY at the end of the turns and spends the quantum; PARK saves g1 to g6, the next pc and PARKED in the record,
frees the frame and holds the context until its wake time; END frees the context number (R45, R50, R51, R53, R73). -/
def Claim.ContextInstructionResults : Prop :=
  ∀ (q : BitVec 8) (n : Nat) (ra : RegNo) (x : Ctx) (s : State), Memory.wf s.mem = true → Issues (.fsq q) (.ctx n) 4 s →
    kget s.ctxs n = some x → x.seq = q.toNat →
    (∃ t y, exec (.yield (.fsq q) 0 0 0) s = .next t ∧ kget t.ctxs n = some y ∧ y.st = .ready ∧ y.rf = { x.rf with pc := x.rf.pc + 4 } ∧
      (seqOf t x.seq).running = none ∧ (seqOf t x.seq).readyQ = (seqOf s x.seq).readyQ ++ [n] ∧ (seqOf t x.seq).spent = true ∧ t.mem = s.mem) ∧
    (x.rf.tk = [] → x.sbuf = [] → (x.rf.get ra.toNat).ule s.dtime = false →
      ∃ t y, exec (.park (.fsq q) 0 ra 0) s = .next t ∧ kget t.ctxs n = some y ∧ y.st = .parked (x.rf.get ra.toNat) ∧
        (∀ i, i < 6 → BitVec.ofNat 64 (rdN t (ctxRec n + 80 + 8 * i) 8) = x.rf.get (i + 1)) ∧
        rdN t (ctxRec n + 72) 4 = (x.rf.pc + 4).toNat % 2 ^ 32 ∧ rdN t (ctxRec n + 76) 4 % 2 = 1 ∧
        SameMemBut (ctxRec n + 72) 56 s t ∧ (seqOf t x.seq).running = none) ∧
    (x.rf.tk = [] → x.sbuf = [] → x.posted = true → kget s.str.ctxs n = none →
      ∃ t, exec (.endFlow (.fsq q) 0 0 0) s = .next t ∧ (∀ m, m ≠ n → kget t.ctxs m = kget s.ctxs m) ∧
        (keysFrom 0 s.ctxs = true → kget t.ctxs n = none) ∧ (seqOf t x.seq).running = none ∧ t.out = s.out ∧ SameMem s t)

/-- A context is admitted into the sequencer with the most free frames by the class whose turn it is, and then it is paged in; the page-in takes
the record into its frame, clears the rest of the frame, loads g1 to g6, g29 and the pc, and the context is READY (R46, R48, R52). -/
def Claim.AdmissionAndPageIn : Prop :=
  (∀ (k credit q f n : Nat) (rest : List Nat) (x : Ctx) (s : State), isF s F.FSQ_CTL_EN = true → s.pwr.want = none →
    admitClass s = some (k, credit) → kgetD s.sched.fifo k [] = n :: rest → freestSeq s (List.range 256) = some q →
    freeFrame s q = some f → kget s.ctxs n = some x →
    ∃ t y, exec (.contextAdmission none) s = .next t ∧ kget t.ctxs n = some y ∧ y = { x with st := .paging, seq := q, frame := f } ∧
      kgetD t.sched.fifo k [] = rest ∧ t.sched.cls = k ∧ t.sched.credit = credit - 1 ∧ t.mem = s.mem) ∧
  ∀ (n : Nat) (x : Ctx) (s : State), Memory.wf s.mem = true → kget s.ctxs n = some x → x.st = .paging →
    x.seq < 256 → x.frame < 256 →
    let a := frameAddr x.seq x.frame
    ∃ t y, exec (.pageInComplete n) s = .next t ∧ kget t.ctxs n = some y ∧ y.st = .ready ∧ y.rf.tk = [] ∧
      rdB t a 128 = rdB s (ctxRec n) 128 ∧ rdB t (a + 128) 896 = zeros 896 ∧ SameMemBut a 1024 s t ∧
      y.rf.pc = BitVec.ofNat 64 (rdN s (ctxRec n + 72) 4) ∧ y.rf.get 29 = BitVec.ofNat 64 a ∧
      (∀ i, i < 6 → y.rf.get (i + 1) = BitVec.ofNat 64 (rdN s (ctxRec n + 80 + 8 * i) 8)) ∧
      (∀ r, 7 ≤ r → r ≠ 29 → y.rf.get r = 0) ∧ (seqOf t x.seq).readyQ = (seqOf s x.seq).readyQ ++ [n]

/-- The oldest command that waits receives the lowest free context: its record holds the submission queue entry, the header and the start
address, and the context is QUEUED last in its class (R33, R45, R52, R107). -/
def Claim.AllocationStartsTheOldestCommand : Prop :=
  ∀ (w : WaitCmd) (l : List WaitCmd) (n : Nat) (s : State), Memory.wf s.mem = true → s.ctxWait = w :: l → s.host.unfetched = [] →
    freeCtxNo s = some n → w.sqe.length = 64 →
    ∃ t y, exec .contextAllocation s = .next t ∧ t.ctxWait = l ∧ kget t.ctxs n = some y ∧ y.st = .queued ∧ y.cls = w.cls ∧
      y.vol = w.vol ∧ y.hq = w.hq ∧ y.cid = w.cid ∧ y.epoch = w.epoch ∧ y.used = 0 ∧ y.sbuf = [] ∧ y.posted = false ∧
      kgetD t.sched.fifo w.cls [] = kgetD s.sched.fifo w.cls [] ++ [n] ∧ rdB t (ctxRec n) 64 = w.sqe ∧
      rdN t (ctxRec n + 64) 8 = (n + w.cls * 2 ^ 22 + w.vol * 2 ^ 28 + w.hq * 2 ^ 46) % 2 ^ 64 ∧
      rdN t (ctxRec n + 72) 4 = w.pc % 2 ^ 32 ∧ rdN t (ctxRec n + 76) 4 = (if w.fwd then 2 else 0) ∧
      rdB t (ctxRec n + 80) 48 = zeros 48 ∧ SameMemBut (ctxRec n) 128 s t ∧ t.csr = s.csr ∧ ∀ m, m ≠ n → kget t.ctxs m = kget s.ctxs m

/-- A spent quantum preempts the RUNNING context, which goes to the end of the turns, and its registers stay; a parked context is queued once
DTIME has reached its wake time, and not before (R50, R53). -/
def Claim.PreemptionAndWake : Prop :=
  (∀ (q : BitVec 8) (n : Nat) (x : Ctx) (s : State), (seqOf s q.toNat).running = some n → kget s.ctxs n = some x → x.seq = q.toNat →
    ∃ t y, exec (.quantumExpired q) s = .next t ∧ kget t.ctxs n = some y ∧ y = { x with st := .ready } ∧
      seqOf t q.toNat = { running := none, readyQ := (seqOf s q.toNat).readyQ ++ [n], cls := (seqOf s q.toNat).cls, spent := true } ∧
      t.mem = s.mem ∧ t.csr = s.csr) ∧
  ∀ (n : Nat) (x : Ctx) (wake : Word) (s : State), kget s.ctxs n = some x → x.st = .parked wake →
    (wake.toNat ≤ s.dtime.toNat → exec (.parkWake n) s = .next { s with
      sched := { s.sched with fifo := kput s.sched.fifo x.cls (kgetD s.sched.fifo x.cls [] ++ [n]) }
      ctxs := kput s.ctxs n { x with st := .queued } }) ∧
    (s.dtime.toNat < wake.toNat → exec (.parkWake n) s = .next s)

/-- An instruction beyond the budget is a WATCHDOG fault and has no other effect; once no ticket of a FAULTED context is PENDING its frame and number
are freed, the fault is counted, and the fault registers take it where they are empty (R75, R81, R88). -/
def Claim.FaultsAreTakenAndReported : Prop :=
  (∀ (q : BitVec 8) (n : Nat) (w : BitVec 32) (x : Ctx) (s : State), (seqOf s q.toNat).running = some n → kget s.ctxs n = some x →
    budget s ≤ x.used →
    ∃ t y f, exec (.budgetExhausted q w) s = .next t ∧ kget t.ctxs n = some y ∧ y = { x with st := .faulted f } ∧ f.code = 0x07 ∧
      f.insn = w.toNat ∧ f.pc = x.rf.pc.toNat % 2 ^ 32 ∧ t.mem = s.mem ∧ t.csr = s.csr) ∧
  ∀ (n : Nat) (x : Ctx) (f : FlowFault) (s : State), kget s.ctxs n = some x → x.st = .faulted f →
    x.rf.tk.all (fun kv => kv.2.ready) = true → x.posted = true → keysFrom 0 s.ctxs = true → isF s F.FSQ_FLT_STAT_VALID = false →
    f.code < 256 → f.seq < 256 → f.pc < 2 ^ 32 → f.insn < 2 ^ 32 → f.addr < 2 ^ 48 → n < 2 ^ 22 →
    ∃ t, exec (.faultDrainDone n) s = .next t ∧ kget t.ctxs n = none ∧ t.out = s.out ∧
      getF t F.FSQ_FAULT_CNT_COUNT = (getF s F.FSQ_FAULT_CNT_COUNT + 1) % 2 ^ 32 ∧ isF t F.FSQ_FLT_STAT_VALID = true ∧
      getF t F.FSQ_FLT0_CODE = f.code ∧ getF t F.FSQ_FLT0_SEQ = f.seq ∧ getF t F.FSQ_FLT0_CTX = n ∧ getF t F.FSQ_FLT1_PC = f.pc ∧
      getF t F.FSQ_FLT1_INSN = f.insn ∧ getF t F.FSQ_FLT2_ADDR = f.addr

/-- A ticket that has outlived TKAGE while PENDING, and a sequencer that holds a READY context and has retired nothing, assert a head reset with the
codes 0x05 and 0x06 (R82, R83). -/
def Claim.WatchdogsAssertReset : Prop :=
  (∀ (a : Agent) (t : BitVec 4) (k : Ticket) (s : State), kget (rfOf s a).tk t.toNat = some k → k.ready = false →
    exec (.ticketAgeExpiry a t) s = .next (assertReset 0x05 s)) ∧
  ∀ (q : BitVec 8) (s : State), (seqOf s q.toNat).readyQ ≠ [] → exec (.sequencerHang q) s = .next (assertReset 0x06 s)

/-! ### Engine jobs and the data mover -/

/-- A data mover job that a steward core issued is accepted on the least loaded instance of its die when every acceptance check passes, and else it
ends with the result of the first check that fails (R93, R98, R100, R102); an accepted job's descriptor goes out over the switch core, and nothing else changes. -/
def Claim.JobsAreAcceptedOrEnd : Prop :=
  ∀ (id k : Nat) (j : Job) (s : State), kget s.jobs id = some j → j.owner = .stew k → j.cls = 0x0D → j.phase = .issued none →
    hasRoom s 0x0D = true →
    (checkDmov j s = none → ∃ x, x.data = leBytes 64 (j.n 0 64) ∧ exec (.jobAccepted id) s = .next { s with
      nextOrd := s.nextOrd + 1
      sw := { s.sw with xfers := s.sw.xfers ++ [x] }
      jobs := kput s.jobs id { j with inst := pickInst s 0x0D j.inst, phase := .accepted, ord := some s.nextOrd, cap := decodeCap s j } }) ∧
    ∀ r, checkDmov j s = some r → exec (.jobAccepted id) s = .next { s with
      jobs := kput s.jobs id { j with inst := pickInst s 0x0D j.inst, phase := .done r } }

/-- A held job whose predecessor ended with a code that is not DONE, without ANY, is skipped with that code and RFLAGS 1 (R91). -/
def Claim.HeldJobsAreReleasedOrSkipped : Prop :=
  ∀ (id k p code : Nat) (any : Bool) (j : Job) (s : State), kget s.jobs id = some j → j.owner = .stew k → j.cls = 0x0D →
    j.phase = .held p any → j.predCode = some code →
    ((code ≠ 0 ∧ any = false) → exec (.heldJobRelease id) s = .next { s with
      jobs := kput s.jobs id { j with inst := 0, phase := .done ⟨code, 1, 0, 0⟩ } }) ∧
    ((code = 0 ∨ any = true) → hasRoom s 0x0D = true → checkDmov j s = none →
      ∃ x, x.data = leBytes 64 (j.n 0 64) ∧ exec (.heldJobRelease id) s = .next { s with
        nextOrd := s.nextOrd + 1
        sw := { s.sw with xfers := s.sw.xfers ++ [x] }
        jobs := kput s.jobs id { j with inst := pickInst s 0x0D j.inst, phase := .accepted, ord := some s.nextOrd, cap := decodeCap s j } })

/-- A finished job of a steward core writes its 16-byte result record to the result slot of its ticket, makes the ticket READY with its code, and leaves the
device; no other byte of memory changes (R62, R95, R100). -/
def Claim.CompletionWritesTheResult : Prop :=
  ∀ (id k : Nat) (j : Job) (r : JobResult) (y : Stew) (tk : Ticket) (s : State), Memory.wf s.mem = true → keysFrom 0 s.jobs = true →
    kget s.jobs id = some j → j.owner = .stew k → j.phase = .done r → kget s.stews k = some y → kget y.rf.tk j.tk = some tk → tk.job = id →
    kget s.comp.outcomes id = none → mayComplete s j = true →
    let a := slotAddr s (.stew k) j.tk
    ∃ t, exec (.jobComplete id) s = .next t ∧ kget t.jobs id = none ∧ rdN t a 1 = r.code % 256 ∧ rdN t (a + 1) 1 = r.rflags % 256 ∧
      rdN t (a + 2) 2 = j.inst % 65536 ∧ rdN t (a + 4) 4 = r.count % 2 ^ 32 ∧ rdN t (a + 8) 8 = r.value % 2 ^ 64 ∧ SameMemBut a 16 s t ∧
      rfOf t (.stew k) = { y.rf with tk := kput y.rf.tk j.tk ⟨true, id, r.code⟩ } ∧ t.csr = s.csr

/-- The data mover: COPY leaves the destination as the source was at the start, FILL repeats the eight bytes of PATTERN, and COMPARE writes nothing and gives
the offset of the first byte that differs, or all ones; each ends its job with DONE and its length (R105). COPY's bytes cross the switch core. -/
def Claim.DataMoverResults : Prop :=
  ∀ (id : Nat) (j : Job) (s : State), Memory.wf s.mem = true →
    let src := j.n 8 8
    let dst := j.n 16 8
    let len := j.n 24 4
    let ended (t : State) (v : Nat) : Prop := t.jobs = kput s.jobs id { j with phase := .done ⟨0, 0, len, v⟩ } ∧ t = { s with mem := t.mem, jobs := t.jobs }
    (accepted s id 0x0D 1 = some j →
      ∃ t, exec (.dmovCopy id) s = .next t ∧ rdB t dst len = rdB s src len ∧ SameMemBut dst len s t ∧
        t.jobs = kput s.jobs id { j with phase := .done ⟨0, 0, len, 0⟩ } ∧
        t = { s with mem := t.mem, jobs := t.jobs, sw := { s.sw with xfers := t.sw.xfers } } ∧ s.sw.xfers <+: t.sw.xfers) ∧
    (accepted s id 0x0D 3 = some j →
      ∃ t, exec (.dmovFill id) s = .next t ∧ SameMemBut dst len s t ∧ ended t 0 ∧
        ∀ i, i < len → mget t.mem (dst + i) = BitVec.ofNat 8 (j.n (32 + i % 8) 1)) ∧
    (accepted s id 0x0D 2 = some j →
      ∃ t v, exec (.dmovCompare id) s = .next t ∧ t.mem = s.mem ∧ ended t v ∧
        ((v = 0xFFFF_FFFF_FFFF_FFFF ∧ ∀ i, i < len → mget s.mem (src + i) = mget s.mem (dst + i)) ∨
          (v < len ∧ mget s.mem (src + v) ≠ mget s.mem (dst + v) ∧ ∀ i, i < v → mget s.mem (src + i) = mget s.mem (dst + i))))

/-- The deadline of a running FILL passes: the bytes it has done are written, COUNT tells how many, and the job ends with TIMEOUT; the rest of its
destination is undefined, and no byte outside the destination changes (R99, R105). -/
def Claim.DeadlinesEndJobs : Prop :=
  ∀ (id n : Nat) (j : Job) (s : State), Memory.wf s.mem = true → accepted s id 0x0D 3 = some j → j.deadline ≠ 0 → n ≤ j.n 24 4 →
    ∃ t, exec (.deadlineExpired id n) s = .next t ∧ t.jobs = kput s.jobs id { j with phase := .done ⟨0x0C, 0, n, 0⟩ } ∧
      (∀ i, i < n → mget t.mem (j.n 16 8 + i) = BitVec.ofNat 8 (j.n (32 + i % 8) 1)) ∧ SameMemBut (j.n 16 8) (j.n 24 4) s t ∧ t.csr = s.csr

/-! ### Flow program sets and bungs -/

/-- FSQ_CTL.EN follows a write while a flow program set is active and stays 0 with none; FSQ_PSET_CTL takes ENTRIES, BANKSEL and ACTIVE while no set is
active, but ACTIVE not with no entries; what is refused leaves a record that names the register (R85, R110, R117). -/
def Claim.ProgramSetRegisters : Prop :=
  ∀ (v : Word) (s : State),
    (isF s F.FSQ_PSET_CTL_ACTIVE = true → exec (.fsqCtlWrite v) s = .next (setF F.FSQ_CTL_EN (bits v 0 0) s)) ∧
    (bit v 0 = true → isF s F.FSQ_PSET_CTL_ACTIVE = false →
      exec (.fsqCtlWrite v) s = .next (celRefused .FSQ_CTL v (setF F.FSQ_CTL_EN 0 s))) ∧
    (isF s F.FSQ_PSET_CTL_ACTIVE = false → bits v 28 16 ≠ 0 → bit v 0 = true →
      ∃ t, exec (.fsqPsetCtlWrite v) s = .next t ∧ isF t F.FSQ_PSET_CTL_ACTIVE = true ∧ getF t F.FSQ_PSET_CTL_ENTRIES = bits v 28 16 ∧
        getF t F.FSQ_PSET_CTL_BANKSEL = bits v 29 29 ∧ t = { s with csr := t.csr } ∧ SameRegsBut [(RegName.FSQ_PSET_CTL).addr 0 0] s t) ∧
    (isF s F.FSQ_PSET_CTL_ACTIVE = true → bits v 28 16 ≠ getF s F.FSQ_PSET_CTL_ENTRIES →
      exec (.fsqPsetCtlWrite v) s = .next (celRefused .FSQ_PSET_CTL v s))

/-- A local bung that no check of step 3 refuses flips the bank, sets BUSY and starts a new epoch; a refused GO changes only REFUSED and writes record
0x0C12; once no context of the old epoch is left BUSY clears, DONE sets and FSQ_BUNG_EPOCH counts (R113). -/
def Claim.LocalBung : Prop :=
  (∀ (v : Word) (s : State), bit v 0 = true → bit v 1 = false → bungRefusal s = none →
    ∃ t, exec (.bungGo v) s = .next t ∧ isF t F.FSQ_BUNG_STAT_BUSY = true ∧ getF t F.FSQ_PSET_CTL_BANKSEL = 1 - getF s F.FSQ_PSET_CTL_BANKSEL ∧
      t.bung.epoch = s.bung.epoch + 1 ∧ t.mem = s.mem ∧ t.ctxs = s.ctxs ∧ t.out = s.out ∧
      SameRegsBut [(RegName.FSQ_BUNG_CTL).addr 0 0, (RegName.FSQ_BUNG_STAT).addr 0 0, (RegName.FSQ_PSET_CTL).addr 0 0] s t) ∧
  (∀ (v : Word) (c : Nat) (s : State), bit v 0 = true → bungRefusal s = some c →
    ∃ t, exec (.bungGo v) s = .next (cel 0x0C12 0 2 c 0 0 t) ∧ isF t F.FSQ_BUNG_STAT_REFUSED = true ∧ t.bung = s.bung ∧ t.mem = s.mem ∧
      getF t F.FSQ_PSET_CTL_BANKSEL = getF s F.FSQ_PSET_CTL_BANKSEL ∧
      SameRegsBut [(RegName.FSQ_BUNG_CTL).addr 0 0, (RegName.FSQ_BUNG_STAT).addr 0 0] s t) ∧
  ∀ s : State, isF s F.FSQ_BUNG_STAT_BUSY = true → oldCtx s = 0 →
    ∃ t, exec .bungDrainDone s = .next t ∧ isF t F.FSQ_BUNG_STAT_BUSY = false ∧ isF t F.FSQ_BUNG_STAT_DONE = true ∧
      isF t F.FSQ_BUNG_CTL_STAGED = false ∧ getF t ⟨.FSQ_BUNG_EPOCH, 31, 0⟩ = (getF s ⟨.FSQ_BUNG_EPOCH, 31, 0⟩ + 1) % 2 ^ 32 ∧ t.mem = s.mem

/-- The pair bung (R115): a prepared partner acknowledges PREPARE; ACK makes the initiator send COMMIT and bung; COMMIT and ABORT are confirmed, and a
prepared head bungs or rolls back; NAK and the time-out abort; an unconfirmed message is sent again until CONFIRM. -/
def Claim.PairBung : Prop :=
  ∀ s : State,
    (∀ id, getF s F.FSQ_BUNG_STAT_PSTATE = 0 → isF s F.FSQ_BUNG_CTL_STAGED = true → isF s F.FSQ_BUNG_STAT_BUSY = false →
      bankValid s (inactiveBank s) = true → id = setId s →
      ∃ t, exec (.bungPrepare id) s = .next t ∧ getF t F.FSQ_BUNG_STAT_PSTATE = 2 ∧ t.out = s.out ++ [.partner .bungAck] ∧ t.mem = s.mem) ∧
    (getF s F.FSQ_BUNG_STAT_PSTATE = 1 →
      (∃ t, exec .bungAck s = .next t ∧ t.out = s.out ++ [.partner .bungCommit] ∧ t.bung.resend = some .bungCommit ∧
        getF t F.FSQ_BUNG_STAT_PSTATE = 0 ∧ isF t F.FSQ_BUNG_STAT_BUSY = true ∧ t.bung.epoch = s.bung.epoch + 1) ∧
      ∀ i : Instr, i = .bungNak ∨ i = .bungPrepareTimeout →
        ∃ t, exec i s = .next t ∧ t.out = s.out ++ [.partner .bungAbort] ∧ t.bung.resend = some .bungAbort ∧
          getF t F.FSQ_BUNG_STAT_PSTATE = 0 ∧ isF t F.FSQ_BUNG_STAT_ROLLBACK = true ∧ t.bung.epoch = s.bung.epoch) ∧
    (getF s F.FSQ_BUNG_STAT_PSTATE = 2 →
      (∃ t, exec .bungCommit s = .next t ∧ t.out = s.out ++ [.partner .bungConfirm] ∧ t.bung.epoch = s.bung.epoch + 1 ∧
        isF t F.FSQ_BUNG_STAT_BUSY = true ∧ getF t F.FSQ_BUNG_STAT_PSTATE = 0) ∧
      ∃ t, exec .bungAbort s = .next t ∧ t.out = s.out ++ [.partner .bungConfirm] ∧ t.bung.epoch = s.bung.epoch ∧
        isF t F.FSQ_BUNG_STAT_ROLLBACK = true ∧ getF t F.FSQ_BUNG_STAT_PSTATE = 0) ∧
    (∀ m, s.bung.resend = some m → s.partner.dead = false → exec .bungResendTimer s = .next { s with out := s.out ++ [.partner m] }) ∧
    exec .bungConfirm s = .next { s with bung := { s.bung with resend := none } }

/-! ### Cellar log, events, performance counters and the BMC window -/

/-- The log takes the oldest record of its input queue (R533, R534): one that repeats no record is written at WPOS, which advances with UNREAD; one that repeats
the last record is folded into it. -/
def Claim.LogTakesRecords : Prop :=
  ∀ (r : CelRec) (l : List CelRec) (s : State), Memory.wf s.mem = true → s.cel.inq = r :: l → r.sev % 8 < 3 →
    let last := celAddr ((getF s F.CEL_STAT_WPOS + 16383) % 16384)
    let a := celAddr (getF s F.CEL_STAT_WPOS)
    ((getF s F.CEL_STAT_UNREAD = 0 ∨ sameRecord r (rdB s last 32) = false) → getF s F.CEL_STAT_UNREAD < 16384 → s.cel.total < 16384 →
      ∃ t, exec .cellarRecord s = .next t ∧ t.cel.inq = l ∧ rdB t a 32 = recBytes r 1 0 false ∧ SameMemBut a 32 s t ∧
        getF t F.CEL_STAT_WPOS = (getF s F.CEL_STAT_WPOS + 1) % 16384 ∧ getF t F.CEL_STAT_UNREAD = getF s F.CEL_STAT_UNREAD + 1 ∧
        t.cel.total = s.cel.total + 1 ∧ SameRegsBut [(RegName.CEL_STAT).addr 0 0] s t) ∧
    (getF s F.CEL_STAT_UNREAD ≠ 0 → sameRecord r (rdB s last 32) = true → (r.first - rdN s (last + 8) 8) / 1000 < 2 ^ 32 →
      ∃ t, exec .cellarRecord s = .next t ∧ t.cel.inq = l ∧ rdN t (last + 4) 4 = min 0xFFFFFFFF (rdN s (last + 4) 4 + 1) ∧
        rdN t (last + 16) 4 = (r.first - rdN s (last + 8) 8) / 1000 ∧ SameMemBut last 32 s t ∧ t.csr = s.csr)

/-- Reading the log (R535): CEL_WIN0 latches the record at RPOS and gives its first word, CEL_WIN3 gives the latched record's last word and moves on by one record;
CEL_SWREC3 submits the record that the four registers hold, with the firmware mark. -/
def Claim.LogIsReadAndSubmitted : Prop :=
  ∀ s : State,
    (getF s F.CEL_STAT_UNREAD ≠ 0 → exec .celWin0Read s = .next { s with
      cel := { s.cel with latch := rdB s (celAddr (rpos s)) 32 }
      out := s.out ++ [.csrRead ((RegName.CEL_WIN).addr 0 0) (BitVec.ofNat 64 (rdN s (celAddr (rpos s)) 8))] }) ∧
    (getF s F.CEL_STAT_UNREAD ≠ 0 →
      ∃ t, exec .celWin3Read s = .next t ∧ getF t F.CEL_STAT_UNREAD = getF s F.CEL_STAT_UNREAD - 1 ∧ t.cel.armed = true ∧ t.mem = s.mem ∧
        t.out = s.out ++ [.csrRead ((RegName.CEL_WIN).addr 3 0) (BitVec.ofNat 64 (fieldN s.cel.latch 24 8))]) ∧
    ∀ v, s.cel.inq.length < 64 → keysFrom 0 s.cel.swrec = true →
      ∃ t, exec (.stewardRecordSubmit v) s = .next t ∧ t.mem = s.mem ∧ t.csr = s.csr ∧
        let w k := kgetD s.cel.swrec k (0 : Word)
        t.cel.inq = s.cel.inq ++ [⟨bits (w 0) 15 0, bits (w 0) 23 16, bits (w 0) 26 24, s.dtime.toNat, bits (w 2) 63 32, bits v 31 0, bits v 63 32, true⟩]

/-- A request for a flush copies the cellar buffer as it stands and sets FBUSY; once the copy is on the vault drives that did not fail, it leaves the device with its
header, FBUSY clears, FDONE sets and FDEGR tells which drives failed (R536). -/
def Claim.LogFlush : Prop :=
  (∀ (r : BitVec 3) (s : State), r ≠ 0 → r ≠ 7 → s.cel.flush = none →
    ∃ t f, exec (.cellarFlush r) s = .next t ∧ t.cel.flush = some f ∧ f.reason = r.toNat ∧ f.count = s.cel.total ∧
      f.wpos = getF s F.CEL_STAT_WPOS ∧ f.image = s.mem.filter (fun c => decide (celBase ≤ c.1) && decide (c.1 < celBase + 0x8_0000)) ∧
      isF t F.CEL_STAT_FBUSY = true ∧ t.mem = s.mem ∧ SameRegsBut [(RegName.CEL_STAT).addr 0 0] s t) ∧
  ∀ (m : BitVec 4) (f : Flush) (s : State), s.cel.flush = some f → s.cel.flushReq = none →
    ∃ t, exec (.cellarFlushDone m) s = .next t ∧ t.cel.flush = none ∧ isF t F.CEL_STAT_FBUSY = false ∧ isF t F.CEL_STAT_FDONE = true ∧
      getF t F.CEL_STAT_FDEGR = m.toNat ∧ t.out = s.out ++ [.vaultCellar (15 - m.toNat) (flushHeader f (getF s F.SYS_HEAD_ID)) f.image] ∧ t.mem = s.mem

/-- Event sources (R529 to R531): a raise of steward firmware on an enabled route enters its queue once and counts further raises; a pop gives the head of the queue with its
parameter and count and takes it out; a lower source number is refused with a record. -/
def Claim.EventsAreQueuedAndPopped : Prop :=
  (∀ (v : Word) (s : State), let src := bits v 12 0
    (0x1B00 ≤ src → isF s F.CEL_EVRT_EN src = true → kget s.cel.pend src = none →
      exec (.celEvraiseWrite v) s = .next { s with cel := { s.cel with
        pend := kput s.cel.pend src ⟨1, bits v 63 32 % 2 ^ 32⟩
        evq := kput s.cel.evq (getF s F.CEL_EVRT_QUEUE src) (kgetD s.cel.evq (getF s F.CEL_EVRT_QUEUE src) [] ++ [src]) } }) ∧
    (∀ p, 0x1B00 ≤ src → isF s F.CEL_EVRT_EN src = true → kget s.cel.pend src = some p →
      exec (.celEvraiseWrite v) s = .next { s with cel := { s.cel with
        pend := kput s.cel.pend src ⟨min 0xFFFF (p.count + 1), bits v 63 32 % 2 ^ 32⟩ } }) ∧
    (src < 0x1B00 → exec (.celEvraiseWrite v) s = .next (celRefused .CEL_EVRAISE v s))) ∧
  ∀ (q : BitVec 4) (src : Nat) (l : List Nat) (p : Pend) (s : State), kgetD s.cel.evq q.toNat [] = src :: l → kget s.cel.pend src = some p →
    exec (.eventPop q) s = .next { s with
      cel := { s.cel with evq := kput s.cel.evq q.toNat l, pend := kdel s.cel.pend src }
      out := s.out ++ [.csrRead ((RegName.CEL_EVQ_POP).addr q.toNat 0)
        (BitVec.ofNat 64 (p.param * 2 ^ 32 + p.count * 2 ^ 16 + 2 ^ 15 + src))] }

/-- Performance counters (R541, R542): a write sets a count, an occurrence beyond 2^48 − 1 wraps it and sets its overflow bit, a freeze on this chip stops and releases counting, and a snapshot
copies every count that has been written to its shadow with the time. -/
def Claim.PerformanceCounters : Prop :=
  ∀ s : State,
    (∀ (n : BitVec 10) (v : Word), ∃ t, exec (.pmcCounterWrite n v) s = .next t ∧ getF t F.PMC_CNT_COUNT n.toNat = bits v 47 0 ∧
      t = { s with csr := t.csr } ∧ SameRegsBut [(RegName.PMC_CNT).addr n.toNat 0] s t) ∧
    (∀ n : BitVec 10, isF s F.PMC_SEL_EN n.toNat = true → isF s F.PMC_FREEZE_FROZEN = false → getF s F.PMC_CNT_COUNT n.toNat = 2 ^ 48 - 1 →
      isF s F.PMC_SEL_CHAIN n.toNat = false →
      ∃ t, exec (.counterOverflow n) s = .next t ∧ getF t F.PMC_CNT_COUNT n.toNat = 0 ∧ bit (rd t .PMC_OVF (n.toNat / 64)) (n.toNat % 64) = true ∧
        SameMem s t) ∧
    (∀ v : Word, bit v 1 = true → ∃ t, exec (.pmcFreeze v false) s = .next t ∧ getF t F.PMC_FREEZE_FROZEN = bits v 0 0 ∧
      getF t F.PMC_FREEZE_LOCAL = 1 ∧ t = { s with csr := t.csr } ∧ SameRegsBut [(RegName.PMC_FREEZE).addr 0 0] s t) ∧
    ∀ v : Word, bit v 0 = true → bit v 1 = true →
      ∃ t, exec (.pmcSnap v false) s = .next t ∧ rd t .PMC_SNAPTIME = s.dtime ∧ t = { s with csr := t.csr } ∧
        ∀ (n : Nat) (w : Word), n < 1024 → kget s.csr ((RegName.PMC_CNT).addr n 0) = some w → rd t .PMC_SHD n = w

/-- The SMBus target answers a read of each of its registers with the bytes that R544 gives, and leaves everything else as it was. -/
def Claim.BmcWindowReads : Prop :=
  ∀ s : State,
    let answers (l : List Byte) : Res := .next { s with out := s.out ++ [.smbus l] }
    exec .smbId s = answers (leBytes 8 (rd s .SYS_ID).toNat) ∧
    exec .smbState s = answers (leBytes 1 (getF s F.SYS_HEAD_STATE + 16 * getF s F.PWR_PSTATE_CUR + 64 * getF s F.PWR_PF_VDONE + 128 * b2n s.partner.fenceOut)) ∧
    exec .smbReset s = answers (leBytes 1 (getF s F.SYS_RSTSRC_CODE) ++ leBytes 1 (getF s F.SYS_RSTSRC_COUNT % 256)) ∧
    exec .smbAlerts s = answers (leBytes 1 ((s.cel.alerts &&& 0xFE) ||| (if s.cel.pend.any (fun kv => isF s F.CEL_EVRT_ALERT kv.1) then 1 else 0))) ∧
    exec .smbHottest s = answers (leBytes 2 (getF s F.THM_STAT_HOTTEST)) ∧
    exec .smbAvs s = answers (leBytes 2 (getF s F.PWR_AVS_TARGET)) ∧
    (∀ n : BitVec 5, exec (.smbTemp n) s = answers (leBytes 2
      (if isF s F.THM_SEN_BROKEN n.toNat = true ∧ isF s F.THM_SEN_SUBST n.toNat = false then 0x8000 else getF s F.THM_SEN_TEMP n.toNat))) ∧
    exec .smbCelcnt s = answers (leBytes 2 (min 0xFFFF s.cel.bmcUnread)) ∧
    exec .smbCellost s = answers (leBytes 2 (min 0xFFFF s.cel.bmcLost)) ∧
    (alertsByte s ≠ 0 → exec .alertResponseAddress s = answers (leBytes 1 (2 * getF s F.MGT_SMB_ADDR)))

/-- ALERTCLR clears the bits written as 1; CELREC gives the record at the BMC cursor and moves it on, and zeros where it has passed all; CELRST with 0x01 moves the cursor to the
oldest record (R544). -/
def Claim.BmcWindowMoves : Prop :=
  ∀ s : State,
    (∀ v : Byte, ∃ t, exec (.smbAlertclr v) s = .next t ∧ t = { s with cel := { s.cel with alerts := t.cel.alerts } } ∧
      ∀ i, i < 8 → t.cel.alerts.testBit i = (s.cel.alerts.testBit i && !v.getLsbD i)) ∧
    (s.cel.bmcUnread ≠ 0 → exec .smbCelrec s = .next { s with
      cel := { s.cel with bmcUnread := s.cel.bmcUnread - 1 }
      out := s.out ++ [.smbus (rdB s (celAddr (getF s F.CEL_STAT_WPOS + 32768 - s.cel.bmcUnread)) 32)] }) ∧
    (s.cel.bmcUnread = 0 → exec .smbCelrec s = .next { s with out := s.out ++ [.smbus (zeros 32)] }) ∧
    exec (.smbCelrst 1) s = .next { s with cel := { s.cel with bmcUnread := s.cel.total } }

/-! ### The map engine and the metadata cache -/

/-- LOOKUP stores for each block its slot word, zero where the entry is not VALID, and its second word, and gives the first block's slot word (R152); only the buffer
changes in memory. -/
def Claim.LookupResults : Prop :=
  ∀ (id : Nat) (j : Job) (s : State), Memory.wf s.mem = true → MapRuns s id 1 j (mapPages s (mapVol s j) (mapLbas j)) → j.n 32 8 ≠ 0 →
    let v := mapVol s j
    let n := max 1 (j.n 28 4)
    ∃ t, exec (.mapLookup id) s = .next t ∧ JobDone t id ⟨0, 0, n, lookupWord s v (j.n 8 4)⟩ ∧ SameMemBut (j.n 32 8) (16 * n) s t ∧
      ∀ i, i < n → rdN t (j.n 32 8 + 16 * i) 8 = lookupWord s v (j.n 8 4 + i) % 2 ^ 64 ∧
        rdN t (j.n 32 8 + 16 * i + 8) 8 = (leafEntry s v (j.n 8 4 + i)).2 % 2 ^ 64

/-- A delta entry puts its slot word, resolved through the forwarding table, into the leaf entry of its block (R135): GEN and RSV stay for a word of zero, GEN becomes the
entry's number and RSV at least that for another, and both take the next number where it gives none; the leaf is changed. -/
def Claim.DeltaChangesTheLeaf : Prop :=
  ∀ (v : Nat) (seq : RingSeq) (d : Delta) (a b c l : Nat) (p : Page) (s : State), OwnPath s v d.lba a b c l p →
    let old := (p.entry (d.lba % 256)).2
    let gen := old % 2 ^ 32
    let rsv := old / 2 ^ 32
    let w := resolve s d.word
    ∃ q, pageOf (applyDelta v seq [] d s) l = some q ∧ q.changed = true ∧
      (w = 0 → q.entry (d.lba % 256) = (0, gen + rsv * 2 ^ 32)) ∧
      (w ≠ 0 → d.gen ≠ 0 → q.entry (d.lba % 256) = (w, d.gen + max rsv d.gen * 2 ^ 32)) ∧
      (w ≠ 0 → d.gen = 0 → q.entry (d.lba % 256) = (w, (rsv + 1) % 2 ^ 32 + (rsv + 1) % 2 ^ 32 * 2 ^ 32)) ∧
      ∀ i, i ≠ d.lba % 256 → q.entry i = p.entry i

/-- UPDATE applies the entries of its buffer in order, and GENRES of one block gives RSV + 1, which becomes its RSV, and leaves its slot word and GEN (R135, R136, R152). -/
def Claim.UpdateAndGenresResults : Prop :=
  (∀ (id : Nat) (j : Job) (s : State),
    let n := max 1 (j.n 28 4)
    let ds := (List.range n).map fun i =>
      let b := rdB s (j.n 32 8) (16 * n)
      Delta.mk (fieldN b (16 * i) 4) (fieldN b (16 * i + 4) 4) (fieldN b (16 * i + 8) 8)
    MapRuns s id 2 j (deltaPages s (mapVol s j) ds) →
    exec (.mapUpdate id) s = .next (finish id ⟨0, 0, n, getF s F.TA_JSEQ_NEXT - 1⟩
      (ds.foldl (fun t d => applyDelta (mapVol s j) ⟨false, getF s F.TA_JSEQ_NEXT - 1⟩ [] d t) s))) ∧
  ∀ (id a b c l : Nat) (p : Page) (j : Job) (s : State), Memory.wf s.mem = true → j.n 28 4 = 1 → j.n 32 8 ≠ 0 →
    MapRuns s id 5 j (mapPages s (mapVol s j) (mapLbas j)) → OwnPath s (mapVol s j) (j.n 8 4) a b c l p →
    let e := p.entry (j.n 8 4 % 256)
    e.2 / 2 ^ 32 < 0xFFFF_FFFF →
    ∃ t q, exec (.genres id) s = .next t ∧ JobDone t id ⟨0, 0, 1, e.2 / 2 ^ 32 + 1⟩ ∧ rdN t (j.n 32 8) 4 = e.2 / 2 ^ 32 + 1 ∧
      SameMemBut (j.n 32 8) 4 s t ∧ pageOf t l = some q ∧ q.entry (j.n 8 4 % 256) = (e.1, e.2 % 2 ^ 32 + (e.2 / 2 ^ 32 + 1) * 2 ^ 32)

/-- SRTINC and SRTDEC count the slot up and down and give the new count; SRTINC of a slot without references ends with LOST and leaves the entry; SRTINC of
a lost slot, or of the word that stands for one, ends with LOST and VALUE 1 (R132, R133, R152, R274). No other slot's
entry and no byte of memory changes. -/
def Claim.SlotReferenceResults : Prop :=
  ∀ (id : Nat) (j : Job) (s : State),
    let w := resolve s (j.n 16 8)
    let slot := swSlot w
    let c := srtCount (srt s slot)
    let others (t : State) : Prop := ∀ k, k ≠ slot → srt t k = srt s k
    (MapRuns s id 3 j (srtPages s [slot]) → w ≠ lostSlotWord → srtLost (srt s slot) = false → 0 < c → c < 0xFF_FFFF →
      ∃ t, exec (.srtinc id) s = .next t ∧ JobDone t id ⟨0, 0, 1, c + 1⟩ ∧ srtCount (srt t slot) = c + 1 ∧ others t ∧ t.mem = s.mem) ∧
    (MapRuns s id 3 j (srtPages s [slot]) → (w = lostSlotWord ∨ srtLost (srt s slot) = true) →
      ∃ t, exec (.srtinc id) s = .next t ∧ JobDone t id ⟨0x08, 0, 1, 1⟩ ∧ t.me = s.me ∧ t.mem = s.mem) ∧
    (MapRuns s id 3 j (srtPages s [slot]) → w ≠ lostSlotWord → srtLost (srt s slot) = false → c = 0 → latchOf s j.owner = none →
      srtIndexed (srt s slot) = false →
      ∃ t, exec (.srtinc id) s = .next t ∧ JobDone t id ⟨0x08, 0, 1, 0⟩ ∧ t.me = s.me ∧ t.mem = s.mem) ∧
    (MapRuns s id 4 j (srtPages s [slot]) → 1 < c → c < 0xFF_FFFF →
      ∃ t, exec (.srtdec id) s = .next t ∧ JobDone t id ⟨0, 0, 1, c - 1⟩ ∧ srtCount (srt t slot) = c - 1 ∧ others t ∧ t.mem = s.mem)

/-- PREFETCH ends once its pages are resident and tells how many it read, and WBVOL ends once no page of the volume is dirty or in flight; before, WBVOL starts the write-back of
every dirty page that a metadata tun takes, by a copy of it (R140, R152). -/
def Claim.PrefetchAndWritebackJobs : Prop :=
  ∀ (id : Nat) (j : Job) (s : State),
    (MapRuns s id 6 j (mapPages s (mapVol s j) (mapLbas j)) →
      ∃ t, exec (.prefetch id) s = .next t ∧ JobDone t id ⟨0, 0, max 1 (j.n 28 4), kgetD s.me.jobPages id 0⟩ ∧ t.me.pages = s.me.pages ∧ t.mem = s.mem) ∧
    (MapRuns s id 9 j [] → (∀ k p, (k, p) ∈ volPages s (mapVol s j) → p.changed = false) →
      ∃ t, exec (.wbvol id) s = .next t ∧ JobDone t id ⟨0, 0, 0, kgetD s.me.jobPages id 0⟩ ∧ t.me.pages = s.me.pages ∧ t.mem = s.mem) ∧
    ∀ k p, MapRuns s id 9 j [] → volPages s (mapVol s j) = [(k, p)] → p.st = .dirty → s.plc.fwd = [] → pageOf s k = some p → NotSrtPage s k →
      ∃ t j', exec (.wbvol id) s = .next t ∧ kget t.jobs id = some j' ∧ j'.phase = .accepted ∧
        ((findPlace (pagePool s p) 1 3 s).isSome = true →
          ∃ q, pageOf t k = some q ∧ q.st = .writing false ∧ q.cent = p.ent ∧ q.ckid = p.kid ∧ q.ent = p.ent) ∧
        ((findPlace (pagePool s p) 1 3 s).isSome = false → pageOf t k = some p)

/-- Paging (R130, R138 to R141): a page whose block passes the checks is CLEAN with the entries that the block gives; one that moved from DDR is CLEAN as it was; one that no
read gives is counted as lost, and a map page's entries all become the lost slot word; a write-back takes a copy where a metadata tun takes it; a page whose tun has been
written is CLEAN, or DIRTY again where it changed meanwhile, with the references that name its new home counted; an eviction of the clock's page leaves only the home copy. -/
def Claim.PagingResults : Prop :=
  ∀ (k : Nat) (p : Page) (ans : List DriveAns) (s : State), pageOf s k = some p → s.plc.fwd = [] → s.ta.mrecs = [] →
    (∀ b, p.st = .reading → p.move = false → p.pre = false → (p.ty = 1 ∨ p.ty = 3) → (pageTries s p ans).find? (pageGood s p) = some b →
      fieldN (b.drop 4096) 21 1 = 1 →
      let e := pageEnts p.ty (b.take 4096)
      exec (.pageInstalled k ans) s = .next { s with me := { s.me with
        pages := kput s.me.pages k { p with st := .clean, ent := e, kid := [], hent := e, hkid := [], last := fieldN (b.drop 4096) 40 8, waiters := [], held := p.waiters } } }) ∧
    (p.st = .reading → p.move = true → p.pre = false →
      exec (.pageInstalled k ans) s = .next { s with me := { s.me with
        pages := kput s.me.pages k { p with st := .clean, waiters := [], held := p.waiters, move := false } } }) ∧
    (p.st = .reading → p.move = false → p.ty ≤ 2 → p.waiters = [] → (pageTries s p ans).find? (pageGood s p) = none →
      ∃ t q, exec (.pageInstalled k ans) s = .next t ∧ pageOf t k = some q ∧ q.st = .dirty ∧ q.kid = [] ∧
        (∀ i, i < 256 → q.entry i = (lostSlotWord, 0)) ∧ getF t F.ME_LOST_COUNT = (getF s F.ME_LOST_COUNT + 1) % 2 ^ 32 ∧ t.mem = s.mem) ∧
    (p.st = .dirty → pageMine s p = true → p.ck = none → p.pck = none → NotSrtPage s k →
      ∃ t, exec (.writebackStart k) s = .next t ∧
        ((findPlace (pagePool s p) 1 3 s).isSome = true →
          ∃ q, pageOf t k = some q ∧ q.st = .writing false ∧ q.cent = p.ent ∧ q.ckid = p.kid ∧ q.ent = p.ent) ∧
        ((findPlace (pagePool s p) 1 3 s).isSome = false → t = s)) ∧
    (∀ again : Bool, p.st = .writing again → destSealed s p = true → NotSrtPage s k →
      (∀ e ∈ parentsOf s k, e.1 ≠ k ∧ ∀ q, pageOf s e.1 = some q → q.resident = true ∧ q.ddr = false) →
      ∃ u q, exec (.writebackHomed k p.dest) s = .next (drainRoots u) ∧ pageOf u k = some q ∧ q.st = (if again then .dirty else .clean) ∧
        q.home = p.dest ∧ q.hent = p.cent ∧ q.hkid = p.ckid ∧ q.ent = p.ent ∧
        srt u p.dest = max 1 ((parentsOf s k).length + (rootsOf s k).length + (snapRootsOf s k).length) + 3 * 2 ^ 40 + 2 ^ 45) ∧
    (clockVictim s false = some (k, p) → ddrFrames s = 0 →
      ∃ t, exec (.frameEvict false) s = .next t ∧ pageOf t k = some { p with st := .flash, ent := [], kid := [] } ∧
        (∀ i, p.addr s / 256 ≤ i → i < p.addr s / 256 + 16 → kget t.mc.lines i = none) ∧ t.mem = s.mem ∧ t.csr = s.csr) ∧
    ∀ ddr : Bool, clockVictim s ddr = none → exec (.frameEvict ddr) s = .next s

/-- A recount clears SKIP of the volume and writes MAPPED; nothing else changes (R570). A volume without a map has none mapped. -/
def Claim.RecountWritesMapped : Prop :=
  ∀ (vol : BitVec 18) (s : State), Memory.wf s.mem = true →
    ∃ t n, exec (.volumeRecount vol) s = .next t ∧ rdN t (volAddr vol.toNat + 24) 8 = 0 ∧ rdN t (volAddr vol.toNat + 40) 8 = n ∧
      (∀ x, (x < volAddr vol.toNat + 24 ∨ (volAddr vol.toNat + 32 ≤ x ∧ x < volAddr vol.toNat + 40) ∨ volAddr vol.toNat + 48 ≤ x) →
        mget t.mem x = mget s.mem x) ∧
      t = { s with mem := t.mem } ∧ (kget s.me.root vol.toNat = none → n = 0) ∧
      ∀ a b c l i j k pa pb pc p, kget s.me.root vol.toNat = some a → pageOf s a = some pa → pageOf s b = some pb → pageOf s c = some pc →
        pageOf s l = some p → pa.level ≠ 0 → pb.level ≠ 0 → pc.level ≠ 0 → pa.kids = [(i, b)] → pb.kids = [(j, c)] → pc.kids = [(k, l)] →
        p.level = 0 → p.ents.length ≤ 256 → n = p.ents.countP fun e => swValid e.2.1

/-- MC_CTL (R145 to R147): more than 12 locked ways are refused whole; EN sets only with INVOK; clearing EN starts the disable, at whose end every line is clean and EN and DISBUSY are 0, and INVOK
where EN was 1. -/
def Claim.MetadataCacheControl : Prop :=
  ∀ (v : Word) (s : State),
    (12 < waysSet (bits v 31 16) → ∃ t, exec (.mcCtlWrite v) s = .next (celRefused .MC_CTL v t) ∧ isF t F.MC_STAT_WLREFUSED = true ∧
      t.mc = s.mc ∧ rd t .MC_CTL = rd s .MC_CTL) ∧
    (waysSet (bits v 31 16) ≤ 12 → bit v 0 = true → isF s F.MC_CTL_EN = false → isF s F.MC_STAT_INVOK = true →
      ∃ t, exec (.mcCtlWrite v) s = .next t ∧ isF t F.MC_CTL_EN = true ∧ getF t F.MC_CTL_WAYLOCK = bits v 31 16 ∧ t.mem = s.mem) ∧
    (waysSet (bits v 31 16) ≤ 12 → bit v 0 = true → isF s F.MC_CTL_EN = false → isF s F.MC_STAT_INVOK = false →
      ∃ t, exec (.mcCtlWrite v) s = .next (celRefused .MC_CTL v t) ∧ isF t F.MC_CTL_EN = false ∧ isF t F.MC_STAT_ENFAIL = true) ∧
    (waysSet (bits v 31 16) ≤ 12 → bit v 0 = false →
      ∃ t, exec (.mcCtlWrite v) s = .next t ∧ isF t F.MC_CTL_EN = isF s F.MC_CTL_EN ∧ isF t F.MC_STAT_DISBUSY = true) ∧
    (isF s F.MC_STAT_DISBUSY = true →
      ∃ t, exec .mcDisableDone s = .next t ∧ isF t F.MC_CTL_EN = false ∧ isF t F.MC_STAT_DISBUSY = false ∧
        isF t F.MC_STAT_INVOK = (isF s F.MC_STAT_INVOK && !isF s F.MC_CTL_EN) ∧
        (∀ k x, (k, x) ∈ t.mc.lines → x.dirty = false) ∧ t.mem = s.mem)

/-- Range maintenance (R148, R149): CLEAN leaves every line of its range clean, INVALIDATE removes the unlocked lines of its range and dooms its fills, LOCKFILL locks its lines where a locked way is free; each makes
MC_MAINT BUSY. A fill that lands is installed clean or dirty in an unlocked way, a doomed one starts anew, and one that
lands while the cache is off is not installed; MC_MAINT_DONE ends the operation. -/
def Claim.MetadataCacheMaintenance : Prop :=
  ∀ (v : Word) (s : State), isF s F.MC_STAT_DISBUSY = false →
    let lo := getF s F.MC_MAINT_BASE_BASE
    let n := getF s F.MC_MAINT_LEN_LEN
    (isF s F.MC_MAINT_BUSY = false → bits v 2 0 = 1 →
      ∃ t, exec (.mcClean v) s = .next t ∧ isF t F.MC_MAINT_BUSY = true ∧ t.mem = s.mem ∧
        ∀ k x, (k, x) ∈ t.mc.lines → (bit v 3 = true ∨ (lo ≤ k ∧ k < lo + n)) → x.dirty = false) ∧
    (isF s F.MC_MAINT_BUSY = false → bits v 2 0 = 3 →
      ∃ t, exec (.mcInvalidate v) s = .next t ∧ isF t F.MC_MAINT_BUSY = true ∧ t.mem = s.mem ∧
        (∀ k x, (k, x) ∈ t.mc.lines → (bit v 3 = true ∨ (lo ≤ k ∧ k < lo + n)) → x.locked = true ∧ bit v 4 = false) ∧
        ∀ k x, (k, x) ∈ t.mc.fills → (bit v 3 = true ∨ (lo ≤ k ∧ k < lo + n)) → x.doomed = true) ∧
    (isF s F.MC_MAINT_BUSY = false → bits v 3 0 = 5 → n = 1 → (∃ w, freeWay s lo true = some w) → kget s.mc.lines lo = none →
      ∃ t x, exec (.mcLockfill v) s = .next t ∧ isF t F.MC_MAINT_BUSY = true ∧ kget t.mc.lines lo = some x ∧ x.locked = true ∧ t.mem = s.mem) ∧
    (∀ k f, kget s.mc.fills k = some f → isF s F.MC_CTL_EN = false →
      exec (.mcFillLanded k) s = .next { s with mc := { s.mc with fills := kdel s.mc.fills k } }) ∧
    (∀ k f w, kget s.mc.fills k = some f → isF s F.MC_CTL_EN = true → f.doomed = false → f.side = false → kget s.mc.lines k = none → freeWay s k false = some w →
      exec (.mcFillLanded k) s = .next { s with mc := { s.mc with fills := kdel s.mc.fills k, lines := kput s.mc.lines k ⟨w, f.dirty, false⟩ } }) ∧
    (∀ k f, kget s.mc.fills k = some f → isF s F.MC_CTL_EN = true → f.doomed = true → f.side = false →
      exec (.mcFillLanded k) s = .next { s with mc := { s.mc with fills := kput s.mc.fills k { f with doomed := false } } }) ∧
    ∀ op all, s.mc.maint = some (op, all) → s.mc.fills.any (fun kv => kv.2.doomed) = false →
      ∃ t, exec .mcMaintDone s = .next t ∧ isF t F.MC_MAINT_BUSY = false ∧ isF t F.MC_MAINT_DONE = true ∧ t.mc = { s.mc with maint := none } ∧
        (op = 1 → all = true → getF s F.MC_MAINT_SKIPPED_COUNT = 0 → isF t F.MC_STAT_INVOK = true)

/-! ### Compression, keys and ciphers -/

/-- CODE of one block (R193 to R198): an image that the verify decoder turned back into the block is stored with its class and needed bytes in the result, and decodes to the block; a block
that does not fit its classes gives NOSHRINK and one that does not verify gives VERIFY, without a store. The token stream is the coder's own, which stays open. -/
def Claim.CompressionResults : Prop :=
  ∀ (id : Nat) (j : Job) (s : State), Memory.wf s.mem = true → accepted s id 0x04 1 = some j → j.n 32 4 ≤ 1 → volFlag s (jobVol s j 48) 3 = false → j.n 52 1 < 4 →
    3072 ≤ compDstLen j →
    let src := rdB s (j.n 8 8) 4096
    ∃ t, exec (.compCode id) s = .next t ∧
      match codeBlock s.free (j.n 52 1) src with
      | .coded c need img => JobDone t id ⟨0, 0, 1, c + 2 ^ 16 * need⟩ ∧ rdB t (j.n 16 8) (classSize c) = img ∧
          decodeBlock (rdB t (j.n 16 8) (classSize c)) = some src ∧ SameMemBut (j.n 16 8) (classSize c) s t
      | .noshrink => JobDone t id ⟨0x01, 0, 1, 3⟩ ∧ t.mem = s.mem
      | .mismatch _ => JobDone t id ⟨0x03, 0, 1, 3⟩ ∧ t.mem = s.mem

/-- DECODE of one block without SLOT (R191, R199): the 4,096 bytes that the procedure gives are stored and the result gives their GUARD; a block that fails the procedure gives CHECK and stores nothing. -/
def Claim.DecompressionResults : Prop :=
  ∀ (id : Nat) (j : Job) (s : State), Memory.wf s.mem = true → accepted s id 0x05 1 = some j → j.n 32 4 ≤ 1 → j.n 24 8 = 0 →
    let n := classSize (fmtClass (rdB s (j.n 8 8) 1))
    let img := rdB s (j.n 8 8) n
    n ≤ j.cap →
    ∃ t, exec (.decompDecode id) s = .next t ∧
      match decodeBlock img with
      | some out => JobDone t id ⟨0, 0, 1, codedGuard img⟩ ∧ out.length = 4096 ∧ crc64 out = codedGuard img ∧
          rdB t (j.n 16 8) 4096 = out ∧ SameMemBut (j.n 16 8) 4096 s t
      | none => JobDone t id ⟨0x04, 0, 0, 0⟩ ∧ t.mem = s.mem

/-- A trial with enough NOSHRINK blocks opens a window of 2^LMIN blocks, or twice the last one up to 2^LMAX: SKIP of the volume takes its size and nothing else in memory changes; any other trial
sets the size back to 2^LMIN and starts the governor's record afresh; the parameters are those that the trial began with (R204, R206). -/
def Claim.SkipTrials : Prop :=
  ∀ (v : BitVec 18) (s : State), Memory.wf s.mem = true → trialFull s v.toNat = true →
    let k := skipOf s v.toNat
    let opens (n : Nat) : Prop :=
      ∃ t, exec (.skipTrialEnd v) s = .next t ∧ rdN t (volAddr v.toNat + 24) 8 = n % 2 ^ 64 ∧ SameMemBut (volAddr v.toNat + 24) 8 s t ∧
        skipOf t v.toNat = ⟨n, 0, 0, true, {}⟩
    (k.par.thresh ≤ k.noshrink → k.opened = false → opens (2 ^ k.par.lmin)) ∧
    (k.par.thresh ≤ k.noshrink → k.opened = true → opens (min (2 * k.n) (2 ^ k.par.lmax))) ∧
    (k.noshrink < k.par.thresh →
      ∃ t, exec (.skipTrialEnd v) s = .next t ∧ skipOf t v.toNat = { n := 2 ^ k.par.lmin } ∧ t.mem = s.mem ∧ t.csr = s.csr)

/-- The key commands (R212, R213): GENERATE takes a key from the generator, or fails where its health test does (a free value), WRAP the key that SEC_KEYIN holds, and LOAD the one that unwraps, each only into an EMPTY slot; DONE sets and SEC_KEYIN is zeroed. CLEAR
empties a slot, ERASE raises its MINSERIAL too, and both stay BUSY until no job holds the key. No command changes memory. -/
def Claim.KeyCommands : Prop :=
  ∀ (slot : BitVec 16) (s : State), isF s F.SEC_KEYSTAT_BUSY = false →
    let k := slot.toNat
    let ended (t : State) : Prop := isF t F.SEC_KEYSTAT_DONE = true ∧ getF t F.SEC_KEYSTAT_ERR = 0 ∧ (∀ i, i < 7 → rd t .SEC_KEYIN i = 0) ∧ t.mem = s.mem
    let refused (t : State) (err : Nat) : Prop := isF t F.SEC_KEYSTAT_REFUSED = true ∧ getF t F.SEC_KEYSTAT_ERR = err ∧ t.xe = s.xe ∧ t.mem = s.mem
    (kget s.xe.keys k = none → ∃ t, exec (.keyGenerate slot) s = .next t ∧
      ((∃ x, kget t.xe.keys k = some x ∧ x.key.length = 32 ∧ x.mask = (rd s .SEC_KEYIN 4).toNat ∧ x.serial = minSerial s k ∧ ended t) ∨
        refused t 5)) ∧
    (kget s.xe.keys k = none →
      ∃ t x, exec (.keyWrap slot) s = .next t ∧ kget t.xe.keys k = some x ∧ x.key = keyIn s 4 ∧ x.mask = (rd s .SEC_KEYIN 4).toNat ∧
        x.serial = minSerial s k ∧ ended t ∧ ∀ i, i < 7 → rd t .SEC_KEYOUT i = BitVec.ofNat 64 (fieldN (kwWrap kek (blobText k x)) (8 * i) 8)) ∧
    (kget s.xe.keys k = none → ∃ t, exec (.keyLoad slot) s = .next t ∧
      match kwUnwrap kek (keyIn s 7) with
      | none => refused t 2
      | some p =>
        if fieldN p 42 2 ≠ 0 then refused t 2
        else if fieldN p 40 2 ≠ k then refused t 3
        else if fieldN p 44 4 < minSerial s k then refused t 4
        else kget t.xe.keys k = some ⟨p.take 32, fieldN p 32 8, fieldN p 44 4⟩ ∧ ended t) ∧
    (∀ i : Instr, i = .keyClear slot ∨ i = .keyErase slot → keysFrom 0 s.xe.keys = true →
      ∃ t, exec i s = .next t ∧ kget t.xe.keys k = none ∧ t.xe.drain = some k ∧ isF t F.SEC_KEYSTAT_BUSY = true ∧ t.mem = s.mem ∧
        minSerial t k = (if i = .keyErase slot then (minSerial s k + 1) % 2 ^ 32 else minSerial s k) ∧ ∀ m, m ≠ k → kget t.xe.keys m = kget s.xe.keys m) ∧
    (kget s.xe.keys k ≠ none → ∀ i : Instr, i = .keyGenerate slot ∨ i = .keyWrap slot ∨ i = .keyLoad slot →
      ∃ t, exec i s = .next t ∧ refused t 1)

/-- KEY_PURGE_DONE (R213): while a job holds the key of the slot nothing happens; after, the slot's derived keys are gone from both caches, BUSY clears and DONE sets. -/
def Claim.KeyPurge : Prop :=
  ∀ (k : Nat) (s : State), s.xe.drain = some k →
    ((∃ i x, (i, x) ∈ s.xe.held ∧ x.slot = k) → exec .keyPurgeDone s = .next s) ∧
    ((∀ i x, (i, x) ∈ s.xe.held → x.slot ≠ k) →
      ∃ t, exec .keyPurgeDone s = .next t ∧ t.xe.drain = none ∧ (∀ x ∈ t.xe.dkc0 ++ t.xe.dkc1, x.slot ≠ k) ∧
        isF t F.SEC_KEYSTAT_BUSY = false ∧ isF t F.SEC_KEYSTAT_DONE = true ∧ t.mem = s.mem)

/-- SENC stores the record's open part, its sealed part and the tag; SDEC stores the open part and the opened one where the tag is right, and gives CHECK where it is not (R222); each releases its key. -/
def Claim.StreamCipherResults : Prop :=
  ∀ (id : Nat) (j : Job) (x : XeJob) (s : State), Memory.wf s.mem = true → kget s.xe.held id = some x → x.key.length = 32 → xAad j ≤ xLen j →
    let r := rdB s (j.n 8 8) (xLen j)
    let aad := r.take (xAad j)
    let body := r.drop (xAad j)
    let crypt := gcmText (strKeys j x) (strNonce j) body
    (accepted s id 0x06 3 = some j →
      ∃ t, exec (.cipherSenc id) s = .next t ∧ JobDone t id ⟨0, 0, xLen j, 0⟩ ∧ rdB t (j.n 16 8) (xLen j) = aad ++ crypt ∧
        rdB t (j.n 16 8 + xLen j) 16 = gcmTag (strKeys j x) (strNonce j) aad crypt ∧ SameMemBut (j.n 16 8) (xLen j + 16) s t) ∧
    (accepted s id 0x06 4 = some j → ∃ t, exec (.cipherSdec id) s = .next t ∧ SameMemBut (j.n 16 8) (xLen j) s t ∧
      if gcmTag (strKeys j x) (strNonce j) aad body = rdB s (j.n 8 8 + xLen j) 16 then
        JobDone t id ⟨0, 0, xLen j, 0⟩ ∧ rdB t (j.n 16 8) (xLen j) = aad ++ crypt
      else JobDone t id ⟨0x04, 0, 0, 0⟩)

/-- Counter mode opens what it sealed: applied twice with the same keys and nonce it gives the text back, whatever its length (R219, R222). -/
def Claim.CounterModeOpensWhatItSeals : Prop :=
  ∀ (ks : List (List Nat)) (nonce d : List Byte), (ks.getD 14 []).length = 16 → gcmText ks nonce (gcmText ks nonce d) = d

/-- ENC of an XTS volume puts the encrypted slot and its trailer into the slot's place in the tun that holds its segment, and gives the guard; DEC stores the block that opens with its trailer and gives its guard, or CHECK where
it does not open (R216 to R218, R221). -/
def Claim.SlotCipherResults : Prop :=
  ∀ (id : Nat) (j : Job) (x : XeJob) (s : State), Memory.wf s.mem = true → kget s.xe.held id = some x →
    let w := j.n 24 8
    let c := swClass w
    let src := rdB s (j.n 8 8) (classSize c)
    (∀ i tun, accepted s id 0x06 1 = some j → x.key.length = 32 → x.sealed = false → c = 3 → slotOff (swSlot w) % 4 = 0 → tunOf s (slotPool (swSlot w)) (slotSeg (swSlot w)) = some (i, tun) →
      kget s.ta.tuns i = some tun → canonical 0 tun.buf = true →
      ∃ t u, exec (.cipherEnc id) s = .next t ∧ JobDone t id ⟨0, 0, 1, crc64 src⟩ ∧ t.mem = s.mem ∧ kget t.ta.tuns i = some u ∧
        u.read (slotData (slotOff (swSlot w))) 4096 = xts true (xtsKey x x.dom) (xtsTweak x.dom (crc64 src) (xLba j)) src ∧
        u.read (slotTrailer (slotOff (swSlot w))) 8 = leBytes 8 (crc64 src)) ∧
    (accepted s id 0x06 2 = some j → x.key.length = 32 → ∃ t, exec (.cipherDec id) s = .next t ∧ SameMemBut (j.n 16 8) (classSize c) s t ∧
      match openSlot x (swSealed w) c (xLba j) (xGen j) src (rdB s (j.n 8 8 + classSize c) 16) with
      | some p => JobDone t id ⟨0, 0, 1, plainGuard c p⟩ ∧ rdB t (j.n 16 8) (classSize c) = p
      | none => JobDone t id ⟨0x04, 0, 1, 0⟩)

/-! ### The cask journal -/

/-- APPEND and MARK take the next SEQ and put their record at the head of the ring, where it passes the checks of replay and holds the buffer's bytes as its body; NEXT and the ring offset
advance, and a held job proceeds in the same way once there is room (R251, R252, R256, R257). The job stays accepted until the record is DONE. -/
def Claim.JournalAppends : Prop :=
  ∀ (id op : Nat) (i : Instr) (j : Job) (s : State), Memory.wf s.mem = true → accepted s id 0x0C op = some j →
    (op = 1 ∧ i = .jrnlAppend id) ∨ (op = 2 ∧ i = .jrnlMark id) ∨ ((op = 1 ∨ op = 2) ∧ i = .appendUnblocked id ∧ s.ta.waiting = []) →
    s.rekey.draining = false → (∀ r ∈ s.ta.recs, r.job ≠ some id) → (op = 1 → mayAppend s (jobVol s j 20) = true ∧ getF s F.PWR_PF_STEP < 3) →
    let n := j.n 16 4
    let body := rdB s (j.n 8 8) (if op = 1 then 16 * n else n)
    let units := 1 + (body.length + 63) / 64
    let a := ownRing + s.ta.woff
    n ≤ 262144 → (op = 1 → n ≤ 4096) → slotCopies s (if op = 1 then deltasOf body n else []) = [] →
    s.ta.woff + 64 * units ≤ ringSize s → ringUsed s + 64 * units ≤ ringSize s → getF s F.TA_JSEQ_NEXT < 0xFFFF_FFFF_FFFF_FFFF →
    ∃ t r, exec i s = .next t ∧ t.ta.recs = s.ta.recs ++ [r] ∧ r.seq = getF s F.TA_JSEQ_NEXT ∧ r.off = s.ta.woff ∧ r.len = units ∧
      r.ty = (if op = 1 then 1 else 6) ∧ r.body = body ∧ r.job = some id ∧ r.done = false ∧
      recordGood (rdB t a (64 * units)) r.seq = true ∧ rdB t (a + 64) body.length = body ∧ SameMemBut a (64 * units) s t ∧
      getF t F.TA_JSEQ_NEXT = getF s F.TA_JSEQ_NEXT + 1 ∧ t.ta.woff = (s.ta.woff + 64 * units) % ringSize s ∧
      kget t.jobs id = some { j with started := true } ∧ ∀ k, k ≠ id → kget t.jobs k = kget s.jobs k

/-- The lowest record that is not DONE becomes DONE (R253): a MARK job ends with COUNT 1 and the record's SEQ, and a DELTA's entries take effect: an entry with word zero empties the block's
slot word and leaves its numbers, where the head may still apply it. No handover is under way. -/
def Claim.JournalRecordsBecomeDone : Prop :=
  ∀ (r : JRec) (l : List JRec) (s : State), s.ta.recs = r :: l → r.done = false → r.acts = [] → s.rootRecs = [] → s.partner.failback = false →
    s.snap.fence = false → handing s = false → (∀ x ∈ l, x.seq ≠ r.seq ∧ x.job ≠ r.job) →
    (∀ id j, r.ty = 6 → r.job = some id → kget s.jobs id = some j →
      ∃ t, exec .jrnlRecordDone s = .next t ∧ JobDone t id ⟨r.code, 0, 1, r.seq⟩ ∧ t.ta.recs.head? = some { r with done := true, job := none } ∧ t.mem = s.mem) ∧
    ∀ d a b c x p, r.ty = 1 → s.snap.cuts = [] → deltasOf r.body r.nent = [d] → d.word = 0 → kget s.plc.fwd 0 = none →
      updateOk s (bitsN r.arg 17 0) [d] = true → mayUpdate s (bitsN r.arg 17 0) = true → x ∉ reflecting s ⟨false, r.seq⟩ →
      OwnPath s (bitsN r.arg 17 0) d.lba a b c x p →
      ∃ t q, exec .jrnlRecordDone s = .next t ∧ pageOf t x = some q ∧ q.entry (d.lba % 256) = (0, (p.entry (d.lba % 256)).2)

/-- The mirror (R223, R254, R424): the record after the last accepted one is written into the mirror ring and accepted; one behind a gap is held; a repeated one is dropped; one whose tag does not
verify is counted and dropped. A slot reference change of the partner replaces the slot's entry (R425). -/
def Claim.MirrorTakesRecords : Prop :=
  (∀ (r : Rec) (s : State), Memory.wf s.mem = true → s.ta.mstop = false → s.ta.mrecs = [] →
    let x := recordOf r
    let macc := getF s F.SYS_PTR_SEQ_MACC
    (x.seq = macc + 1 → x.ty = 6 → r.acts = [] → r.copies = [] → s.ta.mheld = [] →
      ∃ t, exec (.mirrorRecordReceived r true) s = .next t ∧ getF t F.SYS_PTR_SEQ_MACC = macc + 1 ∧ t.ta = { s.ta with mrecs := [{ x with done := true }] } ∧
        rdB t (mirrorRing + r.off) r.bytes.length = r.bytes ∧ SameMemBut (mirrorRing + r.off) r.bytes.length s t) ∧
    (macc + 1 < x.seq → exec (.mirrorRecordReceived r true) s = .next { s with ta := { s.ta with mheld := s.ta.mheld ++ [r] } }) ∧
    (x.seq ≤ macc → exec (.mirrorRecordReceived r true) s = .next s) ∧
    ∃ t, exec (.mirrorRecordReceived r false) s = .next t ∧ t.ta = s.ta ∧ t.mem = s.mem ∧
      getF t ⟨.XE_AUTHFAIL_CNT, 47, 0⟩ = (getF s ⟨.XE_AUTHFAIL_CNT, 47, 0⟩ + 1) % 2 ^ 48) ∧
  ∀ (slot : BitVec 48) (entry : Word) (s : State), keysFrom 0 s.me.srt = true →
    ∃ t, exec (.slotRefMessage slot entry) s = .next t ∧ srt t slot.toNat = entry.toNat ∧ (∀ k, k ≠ slot.toNat → srt t k = srt s k) ∧
      t.mem = s.mem ∧ t.ta = s.ta ∧ t.jobs = s.jobs ∧ t.out = s.out

/-- The oldest record leaves the ring when it may (R255): a DELTA once it lies below every pending number of both heads, its tuns are sealed and no stream context of it is left. The oldest mirror record
leaves once it is applied and no page waits for it. Nothing else changes. -/
def Claim.RecordsRetire : Prop :=
  ∀ (r : JRec) (l : List JRec) (s : State),
    (s.ta.recs = r :: l → r.done = true → r.ty = 1 → r.tun = none → r.seq < ckptSeq s false → r.seq < s.ta.plow →
      (∀ i ∈ r.imgs, tunSealed s i = true) → s.str.ctxs = [] → s.str.waits = [] →
      exec (.recordRetire false) s = .next { s with ta := { s.ta with recs := l } }) ∧
    (s.ta.recs = r :: l → (r.done = false ∨ (r.ty = 1 ∧ ckptSeq s false ≤ r.seq)) → exec (.recordRetire false) s = .next s) ∧
    (s.ta.mrecs = r :: l → r.done = true → r.seq < ckptSeq s true →
      exec (.recordRetire true) s = .next { s with ta := { s.ta with mrecs := l } })

/-- Replay of the own ring (R256): the records up to the first that fails a check are taken back as DONE and NEXT passes the last of them; a ring whose first record fails gives none. Shown for a ring of one
record whose type has no entries to apply, with no tun left open. -/
def Claim.ReplayTakesGoodRecords : Prop :=
  ∀ (r : Rec) (s : State), Memory.wf s.mem = true → s.ta.ptuns = [] → s.ta.recs = [] → r.off % 64 = 0 → r.acts = [] → r.copies = [] → (recordOf r).ty = 6 →
    (recordGood r.bytes (recordOf r).seq = true → (recordOf r).seq < 0xFFFF_FFFF_FFFF_FFFF →
      ∃ t, exec (.journalReplay false [r]) s = .next t ∧ t.ta.recs = [{ recordOf r with done := true }] ∧
        getF t F.TA_JSEQ_NEXT = (recordOf r).seq + 1 ∧ rdB t (ownRing + r.off) r.bytes.length = r.bytes ∧
        SameMemBut (ownRing + r.off) r.bytes.length s t ∧ t.ta.woff = (r.off + 64 * (recordOf r).len) % ringSize s) ∧
    (recordGood r.bytes (recordOf r).seq = false → exec (.journalReplay false [r]) s = .next s)

/-! ### Tuns, allocation and parity -/

/-- ALLOC SLOT and MOVE hand out a place of an open tun (R242, R243): the job ends with its slot word, and the slot's reference entry has COUNT 1, the class and UNJ, with the fingerprint latch's tag where the agent
holds one. SLOT of a context is held, and counted once, while the pool is below HARD (R259). -/
def Claim.SlotAllocation : Prop :=
  ∀ (id i off : Nat) (x : Tun) (j : Job) (s u : State),
    let v := jobVol s j 12
    let c := j.n 8 1
    let tag := match latchOf u j.owner with | some l => fieldN l.fp 0 2 | none => 0
    let slot := slotIdent x.pool x.seg off
    ownsVol s v = true →
    (accepted s id 0x0B 1 = some j → id ∉ s.ta.held → (j.fromStew = true ∨ belowPercent s (volPool s v) (getF s F.TA_LEES_HARD) = false) →
      findPlace (volPool s v) 0 c s = some (i, off, u) → kget u.ta.tuns i = some x →
      ∃ t, exec (.allocSlot id) s = .next t ∧ JobDone t id ⟨0, 0, 1, slot + c * 2 ^ 48 + 2 ^ 50 + (if volSealed u v then 2 ^ 51 else 0)⟩ ∧
        srt t slot = 1 + tag * 2 ^ 24 + c * 2 ^ 40 + 2 ^ 42) ∧
    (accepted s id 0x0B 3 = some j → findPlace (swPool (j.n 16 8)) 2 (swClass (j.n 16 8)) s = some (i, off, u) → kget u.ta.tuns i = some x →
      ∃ t, exec (.allocMove id) s = .next t ∧
        JobDone t id ⟨0, 0, 1, slot + swClass (j.n 16 8) * 2 ^ 48 + 2 ^ 50 + (if swSealed (j.n 16 8) then 2 ^ 51 else 0)⟩ ∧
        srt t slot = 1 + tag * 2 ^ 24 + swClass (j.n 16 8) * 2 ^ 40 + 2 ^ 42) ∧
    (accepted s id 0x0B 1 = some j → j.fromStew = false → belowPercent s (volPool s v) (getF s F.TA_LEES_HARD) = true → id ∉ s.ta.held →
      ∃ t, exec (.allocSlot id) s = .next t ∧ id ∈ t.ta.held ∧ kget t.jobs id = some { j with started := true } ∧ t.mem = s.mem ∧
        getF t ⟨.TA_HELD_CNT, 47, 0⟩ = (getF s ⟨.TA_HELD_CNT, 47, 0⟩ + 1) % 2 ^ 48)

/-- A place in a tun (R242): a slot takes a hole of exactly its size, else part of the smallest larger hole, else the next block of the lowest strip; the place lies in one block, in no header block, and within the tun's strips. -/
def Claim.PlacesLieInOneBlock : Prop :=
  ∀ (x y : Tun) (c off : Nat), c ≤ 3 →
    (∀ h ∈ x.holes, h.1 / 1024 < x.k ∧ h.1 % 1024 / 4 < 255 ∧ h.1 % 4 + h.2 ≤ 4) → x.place c = some (off, y) →
    off / 1024 < x.k ∧ off % 1024 / 4 < 255 ∧ off % 4 + (c + 1) ≤ 4 ∧
      ∀ h ∈ y.holes, h.1 / 1024 < x.k ∧ h.1 % 1024 / 4 < 255 ∧ h.1 % 4 + h.2 ≤ 4

/-- The states of a tun (R244, R245): FLUSH leaves no open tun in its pool; the seal timer makes a used open tun SEALING; with its SEALING record DONE parity starts; the parity done, every strip is written to its place;
with the strips written the tun and its segment are SEALED. -/
def Claim.TunsAreSealed : Prop :=
  ∀ (s : State), Memory.wf s.mem = true → keysFrom 0 s.ta.tuns = true →
    (∀ id j, accepted s id 0x0B 2 = some j →
      ∃ t, exec (.allocFlush id) s = .next t ∧ JobDone t id ⟨0, 0, 1, 0⟩ ∧ ∀ i x, kget t.ta.tuns i = some x → x.pool = j.n 9 1 → x.phase ≠ .opened) ∧
    ∀ i x, kget s.ta.tuns i = some x → x.frame < 2 ^ 26 → x.pool < 8 →
      (x.phase = .opened → x.used = true →
        ∃ t y, exec (.sealTimer i) s = .next t ∧ kget t.ta.tuns i = some y ∧ y.phase = .sealing ∧ segState t x.pool x.seg = 2) ∧
      (x.phase = .sealing → sealingDurable s i x = true → exec (.tunSealingDurable i) s = .next { s with ta := { s.ta with tuns := kput s.ta.tuns i { x with phase := .parity } } }) ∧
      (x.phase = .parity → (∀ pos, pos < x.k + 2 → memState s x.pool (posMember s x.pool x.frame pos) = 1) →
        ∃ t, exec (.tunParityDone i) s = .next t ∧ kget t.ta.tuns i = some { x with phase := .writing, left := List.range (x.k + 2) } ∧ t.mem = s.mem ∧
          t.out = s.out ++ (List.range (x.k + 2)).map fun pos => .driveWrite x.pool (posMember s x.pool x.frame pos)
            (driveLba (posChunk s x.pool x.frame pos) 0) ((x.strip pos).take 1048576) ((x.strip pos).drop 1048576)) ∧
      (x.phase = .writing →
        ∃ t y, exec (.tunStripsWritten i) s = .next t ∧ kget t.ta.tuns i = some y ∧ y.phase = .sealed ∧ segState t x.pool x.seg = 3)

/-- A failed strip write makes the member that it went to FAILED, that of the position or of its spare chunk, and is counted (R258, R266). -/
def Claim.StripWritesFail : Prop :=
  ∀ (i pos : Nat) (x : Tun) (s : State), kget s.ta.tuns i = some x → x.phase = .writing → x.pool < 8 → pos ∈ x.left →
    stripMember s x pos < 256 →
    ∃ t, exec (.stripWriteFail i pos) s = .next t ∧ memState t x.pool (stripMember s x pos) = 2 ∧
      getF t ⟨.DRV_WERR_CNT, 47, 0⟩ = (getF s ⟨.DRV_WERR_CNT, 47, 0⟩ + 1) % 2 ^ 48

/-- PARITY GEN writes the XOR of the data strips to P, and to Q their sum weighted by powers of the generator; REC of one lost data strip gives the XOR of the other data strips and P (R246, R247). No other byte of memory
changes. -/
def Claim.ParityResults : Prop :=
  ∀ (id : Nat) (j : Job) (s : State), Memory.wf s.mem = true → j.n 16 1 ≤ 30 →
    let k := j.n 16 1
    let len := j.n 20 4
    let a (p : Nat) := rdN s (j.n 8 8 + 8 * p) 8
    let col (i : Nat) := (List.range k).map fun p => (mget s.mem (a p + i)).toNat
    (accepted s id 0x07 1 = some j → a k + len ≤ a (k + 1) ∨ a (k + 1) + len ≤ a k →
      ∃ t, exec (.parityGen id) s = .next t ∧ JobDone t id ⟨0, 0, len, 0⟩ ∧
        (∀ i, i < len → (mget t.mem (a k + i)).toNat = pCol (col i) ∧ (mget t.mem (a (k + 1) + i)).toNat = qCol (col i)) ∧
        ∀ b, (b < a k ∨ a k + len ≤ b) → (b < a (k + 1) ∨ a (k + 1) + len ≤ b) → mget t.mem b = mget s.mem b) ∧
    ∀ x, accepted s id 0x07 2 = some j → x < k → j.n 24 4 = 2 ^ x →
      ∃ t, exec (.parityRec id) s = .next t ∧ JobDone t id ⟨0, 0, len, 0⟩ ∧ SameMemBut (a x) len s t ∧
        ∀ i, i < len → mget t.mem (a x + i) =
          (((List.range (k + 1)).filter (· ≠ x)).map fun p => mget s.mem (a p + i)).foldl (· ^^^ ·) 0

/-- A placement load is refused while the pool is enabled, and where a row breaks a rule, whose number ERR gives; else the table has the image's entries and DONE sets (R238, R264). -/
def Claim.PlacementLoads : Prop :=
  ∀ (p : BitVec 3) (s : State), keysFrom 0 s.plc.place = true →
    let a := getF s F.PLC_PTADDR_BASE * 4096
    let bad := badRow s a (getF s F.PLC_GEOM_K p.toNat) (poolMembers s p.toNat) (getF s F.PLC_GEOM_EPOCHCH p.toNat)
    (poolEn s p.toNat = true → ∃ t, exec (.placementLoad p) s = .next t ∧ isF t F.PLC_PTSTAT_REFUSED = true ∧ t.plc = s.plc ∧ t.mem = s.mem) ∧
    (poolEn s p.toNat = false → ∃ t, exec (.placementLoad p) s = .next t ∧ t.mem = s.mem ∧
      match bad with
      | some r => isF t F.PLC_PTSTAT_REFUSED = true ∧ getF t F.PLC_PTSTAT_ERR = r ∧ t.plc = s.plc
      | none => isF t F.PLC_PTSTAT_DONE = true ∧
          (∀ i, i < 131072 → kget t.plc.place (p.toNat * 131072 + i) = some (rdN s (a + 4 * i) 4)) ∧
          ∀ i, (i < p.toNat * 131072 ∨ (p.toNat + 1) * 131072 ≤ i) → kget t.plc.place i = kget s.plc.place i)

/-- Lees reclaim (R259, R260): below LOW the SEALED segment with the least LIVEK that is no META one is picked, as often in a second of device time as the rate allows (the model's count of seconds, log 14); a picked segment without slots becomes FREE and its frame is given back. -/
def Claim.LeesReclaim : Prop :=
  ∀ (p : BitVec 3) (s : State), Memory.wf s.mem = true → keysFrom 0 s.plc.frames = true →
    (∀ f g0, isF s F.TA_LEES_EN = true → belowPercent s p.toNat (getF s F.TA_LEES_LOW) = true → p.toNat ∈ s.plc.low →
      belowPercent s p.toNat (getF s F.TA_LEES_HARD) = s.plc.hard.contains p.toNat →
      (f, g0) ∈ s.plc.frames → f / 2 ^ 26 = p.toNat → segState s p.toNat g0 = 3 → segMeta s p.toNat g0 = false → s.plc.picked = [] →
      leesCount s p.toNat < leesRateOf s p.toNat →
      ∃ g, exec (.leesSelect p) s = .next { s with plc := { s.plc with
        picked := [p.toNat * 2 ^ 26 + g], leesDone := kput s.plc.leesDone p.toNat (s.dtime.toNat / 10 ^ 9, leesCount s p.toNat + 1) } } ∧ segState s p.toNat g = 3 ∧
        segMeta s p.toNat g = false ∧ segLivek s p.toNat g ≤ segLivek s p.toNat g0) ∧
    ∀ g : BitVec 26, segState s p.toNat g.toNat = 3 → p.toNat * 2 ^ 26 + g.toNat ∈ s.plc.picked → segSlots s p.toNat g.toNat = [] → s.plc.fwd = [] →
      segAddr s p.toNat g.toNat + 8 ≤ ownRing →
      ∃ t, exec (.segmentMove p g []) s = .next t ∧ segState t p.toNat g.toNat = 0 ∧
        kget t.plc.frames (frameKey p.toNat (segFrame s p.toNat g.toNat)) = none

/-! ### Drive I/O, members, rebuild and racking -/

/-- SLOTRD (R249, R269, R274): a lost slot is LOST; a slot that HBM still holds comes from there with VALUE 1; else what its drive answers is used, its RTAG checked, and a position without a readable copy is
reconstructed from the others with VALUE 4; three erasures lose the slot. The slot and its trailer go to DST. COUNT is a free value, as no rule defines it. -/
def Claim.SlotReads : Prop :=
  ∀ (id : Nat) (reads : List DriveAns) (j : Job) (s : State), Memory.wf s.mem = true → accepted s id 0x08 1 = some j →
    let w := resolve s (dvSlot j)
    let dst := j.n 16 8
    let pl := dvPlace s w
    let ended (t : State) (code value : Nat) : Prop := ∃ c, JobDone t id ⟨code, 0, c, value⟩
    let given (d tr : List Byte) (value : Nat) : Prop := ∃ t, exec (.slotrd id reads) s = .next t ∧ ended t 0 value ∧
      rdB t dst (d.length + tr.length) = d ++ tr ∧ SameMemBut dst (d.length + tr.length) s t
    let fails (code value : Nat) : Prop := ∃ t, exec (.slotrd id reads) s = .next t ∧ ended t code value ∧ SameMemBut dst (dvSlotLen j) s t
    ((w = lostSlotWord ∨ srtLost (srt s (swSlot w)) = true) → ∃ t, exec (.slotrd id reads) s = .next t ∧ ended t 0x08 0 ∧ t.mem = s.mem) ∧
    (w ≠ lostSlotWord → srtLost (srt s (swSlot w)) = false →
      (∀ d tr, fromHbm s id w = some (d, tr) → (rtagOk w tr = true → given d tr 1) ∧ (rtagOk w tr = false → fails 0x04 1)) ∧
      (∀ m c, fromHbm s id w = none → posRead s pl.1 pl.2.1 pl.2.2.2 = some (m, c) → s.plc.around = [] →
        (∀ data md, reads.getD pl.2.2.2 .timeout = .block data md →
          let x := slotInBlock (slotOff (swSlot w)) (swClass w) data md
          (rtagOk w x.2 = true → given x.1 x.2 0) ∧ (rtagOk w x.2 = false → fails 0x04 0)) ∧
        (reads.getD pl.2.2.2 .timeout = .media → fails 0x07 0) ∧
        (reads.getD pl.2.2.2 .timeout = .timeout → fails 0x0C 0)) ∧
      (fromHbm s id w = none → posRead s pl.1 pl.2.1 pl.2.2.2 = none →
        let row := rowOf s pl.1 pl.2.1 reads
        let x := ofBlock w ((solvedRow (frameK s pl.1 pl.2.1) row).getD pl.2.2.2 [])
        (3 ≤ (erased row).length → ∃ t, exec (.slotrd id reads) s = .next t ∧ ended t 0x08 4) ∧
        ((erased row).length < 3 → rtagOk w x.2 = true → given x.1 x.2 4) ∧
        ((erased row).length < 3 → rtagOk w x.2 = false → fails 0x04 4)))

/-- SLOTREC (R270): the repaired row's slot goes to DST with VALUE 4 where a position was reconstructed and 8 where one was corrected; a row that cannot be located gives CHECK and is counted; three erasures lose the slot, and the lost slot word gives LOST (R274). -/
def Claim.SlotRecovery : Prop :=
  ∀ (id : Nat) (reads : List DriveAns) (j : Job) (s : State), Memory.wf s.mem = true → accepted s id 0x08 4 = some j →
    let w := resolve s (dvSlot j)
    let pl := dvPlace s w
    let fate := repairRow (frameK s pl.1 pl.2.1) (rowOf s pl.1 pl.2.1 reads)
    (w = lostSlotWord → ∃ t c, exec (.slotrec id reads) s = .next t ∧ JobDone t id ⟨0x08, 0, c, 0⟩ ∧ t.mem = s.mem) ∧
    (w ≠ lostSlotWord → ∃ t c, exec (.slotrec id reads) s = .next t ∧
      match fate with
      | .good full rebuilt fixed =>
        let x := ofBlock w (full.getD pl.2.2.2 [])
        let v := 4 * b2n (decide (rebuilt ≠ [])) + 8 * b2n (decide (fixed ≠ []))
        if rtagOk w x.2 then
          JobDone t id ⟨0, 0, c, v⟩ ∧ rdB t (j.n 16 8) (x.1.length + x.2.length) = x.1 ++ x.2 ∧
            SameMemBut (j.n 16 8) (x.1.length + x.2.length) s t ∧ ((j.hflags / 256).testBit 0 = false → t.out = s.out)
        else JobDone t id ⟨0x04, 0, c, v⟩ ∧ SameMemBut (j.n 16 8) (dvSlotLen j) s t
      | .unlocatable => JobDone t id ⟨0x04, 0, c, 0⟩ ∧
          getF t ⟨.DRV_CONSIST_CNT, 47, 0⟩ = (getF s ⟨.DRV_CONSIST_CNT, 47, 0⟩ + 1) % 2 ^ 48 ∧ SameMemBut (j.n 16 8) (dvSlotLen j) s t
      | .gone _ => JobDone t id ⟨0x08, 0, c, 4⟩)

/-- Block jobs (R248, R358): BLKRD stores the blocks and their metadata that the drive gave, BLKWR writes the buffer's to the drive, and PASS sends its command and gives the drive's status and dword 0 in VALUE. A drive that
gives an error or no answer ends the job with MEDIA or TIMEOUT, and PASS for a volume that this head has lost with FENCED. -/
def Claim.BlockJobs : Prop :=
  ∀ (id : Nat) (j : Job) (s : State), Memory.wf s.mem = true →
    let n := dvNblk j
    (∀ bl : List (List Byte × List Byte), accepted s id 0x08 2 = some j → bl.length = n → (∀ b ∈ bl, b.1.length = 4096 ∧ b.2.length = 64) →
      j.n 16 8 + 4096 * n ≤ j.n 24 8 ∨ j.n 24 8 + 64 * n ≤ j.n 16 8 →
      ∃ t c, exec (.blkrd id (bl.map fun b => .block b.1 b.2)) s = .next t ∧ JobDone t id ⟨0, 0, c, 0⟩ ∧
        rdB t (j.n 16 8) (4096 * n) = bl.flatMap Prod.fst ∧ rdB t (j.n 24 8) (64 * n) = bl.flatMap Prod.snd ∧
        ∀ a, (a < j.n 16 8 ∨ j.n 16 8 + 4096 * n ≤ a) → (a < j.n 24 8 ∨ j.n 24 8 + 64 * n ≤ a) → mget t.mem a = mget s.mem a) ∧
    (∀ ans, accepted s id 0x08 3 = some j →
      ∃ t c, exec (.blkwr id ans) s = .next t ∧
        JobDone t id ⟨match ans with | .block _ _ => 0 | .media => 0x07 | .timeout => 0x0C, 0, c, 0⟩ ∧ t.mem = s.mem ∧
        t.out = s.out ++ [.driveWrite (dvPool j) (dvMember j) (j.n 32 8) (rdB s (j.n 48 8) (4096 * n)) (rdB s (j.n 24 8) (64 * n))]) ∧
    (accepted s id 0x08 6 = some j → ownsVol s (passVol s j) = false → ∀ ans, exec (.drvioPass id ans) s = .next (finish id ⟨0x09, 0, 0, 0⟩ s)) ∧
    (accepted s id 0x08 6 = some j → ownsVol s (passVol s j) = true →
      let e := passEntry s (passVol s j)
      let opc := j.n 20 1
      let sent (t : State) : Prop := t.out = s.out ++ [.drivePass (e % 256) (bitsN e 15 8) (bitsN e 47 16) opc (leBytes 24 (j.n 32 24))
        (if opc = 1 ∨ opc = 5 ∨ opc = 9 then rdB s (j.n 8 8) (j.n 16 4) else [])]
      (∀ st dw0 d, ∃ t c, exec (.drvioPass id (some (st, dw0, d))) s = .next t ∧ JobDone t id ⟨0, 0, c, st.toNat + dw0.toNat * 2 ^ 32⟩ ∧ sent t ∧
        (opc ≠ 2 → t.mem = s.mem) ∧
        (opc = 2 → d.length = j.n 16 4 → rdB t (j.n 8 8) (j.n 16 4) = d ∧ SameMemBut (j.n 8 8) (j.n 16 4) s t)) ∧
      ∃ t c, exec (.drvioPass id none) s = .next t ∧ JobDone t id ⟨0x0C, 0, c, 0⟩ ∧ sent t ∧ SameMemBut (j.n 8 8) (j.n 16 4) s t)

/-- Slow members (R271): a slot read of a SLOW member starts a read-around where at most one other position is missing or slow and the budget allows, and none while DRV_RA.EN is 0; a member whose mean latency is above SLOWUS
becomes SLOW where no other is. -/
def Claim.SlowMembers : Prop :=
  ∀ (s : State),
    (∀ id j m c, accepted s id 0x08 1 = some j →
      let w := resolve s (dvSlot j)
      let pl := dvPlace s w
      posRead s pl.1 pl.2.1 pl.2.2.2 = some (m, c) → w ≠ lostSlotWord → fromHbm s id w = none → s.plc.slow = [pl.1 * 256 + m] → s.plc.around = [] →
      (∀ q, q ∈ positions s pl.1 pl.2.1 → q ≠ pl.2.2.2 → ∃ x y, posRead s pl.1 pl.2.1 q = some (x, y) ∧ x ≠ m) →
      ((raWindow s pl.1).2 + 1) * 100 ≤ getF s F.DRV_RA_BUDGET * (raWindow s pl.1).1 →
      (isF s F.DRV_RA_EN = true → ∃ t, exec (.readAroundStart id) s = .next t ∧ t.plc.around = [id] ∧ t.mem = s.mem ∧ kget t.jobs id = some { j with started := true } ∧
        getF t ⟨.DRV_RA_CNT, 47, 0⟩ = (getF s ⟨.DRV_RA_CNT, 47, 0⟩ + 1) % 2 ^ 48) ∧
      (isF s F.DRV_RA_EN = false → ∃ t, exec (.readAroundStart id) s = .next t ∧ t.plc = s.plc ∧ t.mem = s.mem ∧ t.csr = s.csr)) ∧
    ∀ (p : BitVec 3) (m : Byte) (mean : Nat), s.plc.lat = [] → s.plc.slow = [] → 0 < getF s F.DRV_RA_MAXSLOW →
      (getF s F.DRV_RA_SLOWUS < mean → ∃ t, exec (.slowMark p m mean) s = .next t ∧ t.plc.slow = [p.toNat * 256 + m.toNat] ∧ t.mem = s.mem) ∧
      (mean ≤ getF s F.DRV_RA_SLOWUS → exec (.slowMark p m mean) s =
        .next { s with plc := { s.plc with lat := [(p.toNat * 256 + m.toNat, mean)] } })

/-- Members that fail (R266, R267): an ACTIVE member becomes FAILED at a fatal controller, at more than MEDIAMAX media results within 24 hours, at TMOMAX consecutive timeouts, and on a root port whose link is still down after 100 ms, while a link that
retrains in time only has the strip writes in flight on it issued again;
a critical warning 0, 2 or 3 makes it EVACUATE. Below those bounds its state stays. -/
def Claim.MembersFail : Prop :=
  ∀ (p : BitVec 3) (m : Byte) (s : State), memState s p.toNat m.toNat = 1 →
    let key := p.toNat * 256 + m.toNat
    let now := s.dtime.toNat
    let recent := (kgetD s.plc.media key []).filter fun x => decide (now < x + 86400000000000)
    let failed (i : Instr) : Prop := ∃ t, exec i s = .next t ∧ memState t p.toNat m.toNat = 2
    failed (.controllerFatal p m) ∧
    (getF s F.DRV_HEALTH_MEDIAMAX ≤ recent.length → failed (.mediaResult p m)) ∧
    (recent.length < getF s F.DRV_HEALTH_MEDIAMAX → exec (.mediaResult p m) s =
      .next { s with plc := { s.plc with media := kput s.plc.media key (now :: recent) } }) ∧
    (max 1 (getF s F.DRV_HEALTH_TMOMAX) ≤ kgetD s.plc.tmo key 0 + 1 → failed (.memberCommandTimeout p m)) ∧
    (kgetD s.plc.tmo key 0 + 1 < max 1 (getF s F.DRV_HEALTH_TMOMAX) → exec (.memberCommandTimeout p m) s =
      .next { s with plc := { s.plc with tmo := kput s.plc.tmo key (kgetD s.plc.tmo key 0 + 1) } }) ∧
    (∀ w : Byte, w &&& 0x0D ≠ 0 → ∃ t, exec (.smartPoll p m w) s = .next t ∧ memState t p.toNat m.toNat = 3) ∧
    (∀ w : Byte, w &&& 0x0D = 0 → exec (.smartPoll p m w) s = .next s) ∧
    ∀ port : Byte, getF s F.PLC_MEM_PORT p.toNat m.toNat = port.toNat →
      (port.toNat ∈ s.plc.down → failed (.linkRetrainTimeout port)) ∧
      (port.toNat ∉ s.plc.down → exec (.linkRetrainTimeout port) s = .next s ∧
        exec (.rootPortLinkDown port) s = .next { s with plc := { s.plc with down := port.toNat :: s.plc.down } }) ∧
      (flightStrips s port.toNat = [] →
        exec (.rootPortLinkRetrained port) s = .next { s with plc := { s.plc with down := s.plc.down.erase port.toNat } }) ∧
      ∀ x q, (x, q) ∈ flightStrips s port.toNat → port.toNat ∈ s.plc.down → stripMember s x q = posMember s x.pool x.frame q →
        ∃ t, exec (.rootPortLinkRetrained port) s = .next t ∧ t.plc.down = s.plc.down.erase port.toNat ∧
          Sends s t (.driveWrite x.pool (stripMember s x q) (driveLba (posChunk s x.pool x.frame q) 0) ((x.strip q).take 1048576) ((x.strip q).drop 1048576))

/-- A write of a member's register (R231, R266, R268, R280): one that leaves STATE takes the other fields; a change of STATE is made in a disabled pool to any named state, but not from FAILED to ACTIVE and from ABSENT only
for a drive with the LBA format (whether it has it is the configuration's, log 169), and in an enabled one from ACTIVE to FAILED or EVACUATE and from FAILED to COPYBACK where the chunks fit; any other change is refused with a record. -/
def Claim.MemberStateWrites : Prop :=
  ∀ (p : BitVec 3) (m : Byte) (v : Word) (s : State),
    let old := memState s p.toNat m.toNat
    let new := bits v 11 8
    let enabled := (old = 1 ∧ (new = 2 ∨ new = 3)) ∨
      (old = 2 ∧ new = 4 ∧ chunksFit s p.toNat m.toNat (bits v 63 32 - getF s F.PLC_SPARE_SPARECH p.toNat) = true)
    let disabled := new < 7 ∧ ¬ (old = 2 ∧ new = 1) ∧ (old ≠ 0 ∨ admitted v = true)
    (new = old → ∃ t, exec (.memberStateWrite p m v) s = .next t ∧ memState t p.toNat m.toNat = new ∧
      getF t F.PLC_MEM_CHUNKS p.toNat m.toNat = bits v 63 32 ∧ t = { s with csr := t.csr } ∧ SameRegsBut [(RegName.PLC_MEM).addr p.toNat m.toNat] s t) ∧
    (new ≠ old → (poolEn s p.toNat = true → enabled) → (poolEn s p.toNat = false → disabled) →
      ∃ t, exec (.memberStateWrite p m v) s = .next t ∧ memState t p.toNat m.toNat = new ∧ getF t F.PLC_MEM_CHUNKS p.toNat m.toNat = bits v 63 32) ∧
    (new ≠ old → (poolEn s p.toNat = true → ¬ enabled) → (poolEn s p.toNat = false → ¬ disabled) →
      exec (.memberStateWrite p m v) s = .next (celRefused .PLC_MEM v s p.toNat m.toNat))

/-- Rebuild (R276 to R278): a scan takes the positions that are due, in their order; without a progress map it only leaves a record. The first position of the scan is rebuilt from its frame's rows and written to a spare chunk,
journalled, and leaves the scan; one that is no longer due only leaves it. -/
def Claim.RebuildResults : Prop :=
  ∀ (p : BitVec 3) (s : State), rebuildOn s p.toNat = true →
    let due := dueList s p.toNat
    (getF s F.PLC_RBCTL_MAPBASE p.toNat ≠ 0 → keysFrom 0 s.plc.scan = true →
      ∃ t, exec (.rebuildScan p) s = .next t ∧ scanOf t p.toNat = due ∧ t.plc.reloc = s.plc.reloc ∧ t.out = s.out) ∧
    (getF s F.PLC_RBCTL_MAPBASE p.toNat = 0 → exec (.rebuildScan p) s = .next (if due = [] then s else celOpen 0x0B p.toNat 0 0 s)) ∧
    ∀ rows f pos l, scanOf s p.toNat = (f, pos) :: l → keysFrom 0 s.plc.scan = true → memState s p.toNat (posMember s p.toNat f pos) ≠ 3 →
      let r := rebuildStrip p.toNat f pos rows s
      (stillDue s p.toNat f pos = true → ∃ t, exec (.rebuildPosition p rows) s = .next t ∧ scanOf t p.toNat = l ∧
        match spareChunk r.2 p.toNat f with
        | some (q, c) => (∃ x, kget t.plc.reloc (posKey p.toNat f pos) = some x ∧ x.member = q ∧ x.chunk = c) ∧
            Sends s t (.driveWrite p.toNat q (driveLba c 0) (r.1.take 1048576) (r.1.drop 1048576))
        | none => t.plc.reloc = s.plc.reloc) ∧
      (stillDue s p.toNat f pos = false → ∃ t, exec (.rebuildPosition p rows) s = .next t ∧ scanOf t p.toNat = l ∧
        t.plc.reloc = s.plc.reloc ∧ t.out = s.out)

/-- Copy-back (R280): the next position of this head's half is written to its place on the member and its relocation entry goes; a head with none left waits for the partner's half, and with none left in either the member is
ACTIVE. -/
def Claim.CopybackResults : Prop :=
  ∀ (p : BitVec 3) (m : Byte) (rows : List (List DriveAns)) (s : State), poolEn s p.toNat = true → memState s p.toNat m.toNat = 4 →
    (∀ f pos, nextBack s p.toNat m.toNat true = some (f, pos) → keysFrom 0 s.plc.reloc = true →
      let img := (rebuildStrip p.toNat f pos rows s).1
      ∃ t, exec (.copybackStrip p m rows) s = .next t ∧ kget t.plc.reloc (posKey p.toNat f pos) = none ∧
        Sends s t (.driveWrite p.toNat m.toNat (driveLba (posChunk s p.toNat f pos) 0) (img.take 1048576) (img.drop 1048576))) ∧
    (nextBack s p.toNat m.toNat true = none → nextBack s p.toNat m.toNat false ≠ none → exec (.copybackStrip p m rows) s = .next s) ∧
    (nextBack s p.toNat m.toNat true = none → nextBack s p.toNat m.toNat false = none →
      ∃ t, exec (.copybackStrip p m rows) s = .next t ∧ memState t p.toNat m.toNat = 1)

/-- Sparge passes (R281, R282): a visit rewrites every position that its rows show to be wrong and repairable; with no frame left a cycle ends; while a rebuild is due the pass only notes the time of the pause. -/
def Claim.SpargeResults : Prop :=
  ∀ (p : BitVec 3) (rows : List (List DriveAns)) (deep : List DeepJob) (s : State), poolEn s p.toNat = true → isF s F.PLC_SPG_EN p.toNat = true →
    let next := spargeFrame s p.toNat (getF s F.PLC_SPGSTAT_NEXT p.toNat)
    (spargePaused s p.toNat = true → kget s.plc.paused p.toNat = none → exec (.spargeVisit p rows deep) s =
      .next { s with plc := { s.plc with paused := kput s.plc.paused p.toNat s.dtime.toNat } }) ∧
    (spargePaused s p.toNat = false → next = none →
      ∃ t, exec (.spargeVisit p rows deep) s = .next t ∧ getF t F.PLC_SPGSTAT_NEXT p.toNat = 0 ∧ t.mem = s.mem ∧ t.out = s.out ∧
        getF t F.PLC_SPGSTAT_CYCLES p.toNat = (getF s F.PLC_SPGSTAT_CYCLES p.toNat + 1) % 2 ^ 16) ∧
    ∀ f, spargePaused s p.toNat = false → next = some f → bandOn s p.toNat = false → (∀ e ∈ s.plc.reloc, e.2.member < 256) →
      ∃ t, exec (.spargeVisit p rows deep) s = .next t ∧ ∀ b, b < 256 →
        match repairRow (frameK s p.toNat f) (rowOf s p.toNat f (rows.getD b [])) with
        | .good full rebuilt fixed => ∀ x m c, x ∈ rebuilt ++ fixed → posRead s p.toNat f x = some (m, c) →
            Sends s t (.driveWrite p.toNat m (driveLba c b) ((full.getD x []).take 4096) ((full.getD x []).drop 4096))
        | .unlocatable => True
        | .gone _ => True

/-- Racking (R284 to R286): a GO that no check refuses runs, and a refused one gives its reason; the lowest band of the current geometry drains, and once both heads have its frames FREE it goes or holds a target band; with none left the
pool takes the target geometry. -/
def Claim.RackingResults : Prop :=
  ∀ (p : BitVec 3) (s : State),
    let n := p.toNat
    (∃ t, exec (.rackingGo p) s = .next t ∧
      if rackError s n = 0 then isF t F.PLC_RKSTAT_RUN = true ∧ t.plc.rack = some n
      else isF t F.PLC_RKSTAT_REFUSED = true ∧ getF t F.PLC_RKSTAT_ERR = rackError s n ∧ t.plc = s.plc ∧ t.mem = s.mem) ∧
    (∀ e, s.plc.rack = some n → isF s F.PLC_RKCTL_PAUSE = false → isF s F.PLC_RKSTAT_PAUSED = false → Memory.wf s.mem = true →
      e ∈ bandsOf s n false → (∀ e' ∈ bandsOf s n false, e' ≠ e → bandOf s n e % 2 ^ 32 < bandOf s n e' % 2 ^ 32) →
      bandEmpty s n e false = true → bandAddr s n 16384 ≤ ownRing →
      (soloMode s = false → isF s F.PLC_RKSTAT_WAITP = false →
        ∃ t, exec (.bandDrain p false) s = .next t ∧ (bandOf t n e).testBit 34 = true ∧ isF t F.PLC_RKSTAT_WAITP = true ∧ Sends s t (.partner (.bandFree n e))) ∧
      (targetMembers s n ≠ [] → ∃ t, exec (.bandDrain p true) s = .next t ∧ isF t F.PLC_RKSTAT_WAITP = false ∧
        (bandOf t n e = 0 ∨ (bandOf t n e).testBit 32 = true))) ∧
    (s.plc.rack = some n → isF s F.PLC_RKSTAT_PAUSED = false → bandsOf s n false = [] →
      ∃ t, exec (.rackingSwitchover p) s = .next t ∧ getF t F.PLC_GEOM_K n = getF s F.PLC_RKGEOM_K ∧
        getF t F.PLC_GEOM_MEMBERS n = getF s F.PLC_RKGEOM_MEMBERS ∧ getF t F.PLC_GEOM_EPOCHCH n = getF s F.PLC_RKGEOM_EPOCHCH ∧
        t.plc.rack = none ∧ isF t F.PLC_RKSTAT_DONE = true ∧ isF t F.PLC_RKSTAT_RUN = false)

/-! ### Fingerprints, the lauter filter and the index -/

/-- GRIST FP (R160, R162): fingerprint i of DST is SHA-512/256 of block i of SRC, COUNT tells their number and bit i of VALUE whether block i, of the first 64, is all zero. SEC borrows the unit once it has no accepted job and
gives it back (R163). -/
def Claim.FingerprintResults : Prop :=
  (∀ (id : Nat) (j : Job) (s : State), Memory.wf s.mem = true → accepted s id 0x01 1 = some j →
    let n := j.n 24 4
    let block (i : Nat) := rdB s (j.n 8 8 + 4096 * i) 4096
    ∃ t v, exec (.gristFp id) s = .next t ∧ JobDone t id ⟨0, 0, n, v⟩ ∧ SameMemBut (j.n 16 8) (32 * n) s t ∧
      (∀ i, i < n → rdB t (j.n 16 8 + 32 * i) 32 = sha512t256 (block i)) ∧
      ∀ i, v.testBit i = decide (i < n ∧ i < 64 ∧ ∀ b ∈ block i, b = 0)) ∧
  ∀ s : State, exec (.secBorrow false) s = .next { s with gl := { s.gl with borrow := false } } ∧
    (instLoad s 0x01 0 = 0 → exec (.secBorrow true) s = .next { s with gl := { s.gl with borrow := true } }) ∧
    (instLoad s 0x01 0 ≠ 0 → exec (.secBorrow true) s = .next s)

/-- GL_CTL (R164): setting EN fixes the capacity as the largest power of two whose buckets fit half the mapped DDR5; while builds are queued a write does not change EN and leaves a record. -/
def Claim.FilterEnable : Prop :=
  ∀ (v : Word) (s : State),
    (s.gl.builds = [] → s.gl.building = none → bit v 0 = true → isF s F.GL_CTL_EN = false → 4 ≤ s.ddrcSize → s.ddrcSize < 2 ^ 41 →
      ∃ t, exec (.glEnable v) s = .next t ∧ isF t F.GL_CTL_EN = true ∧ getF t F.GL_CTL_ADMITEN = bits v 1 1 ∧ t.mem = s.mem ∧
        2 ^ (fcap t + 1) ≤ s.ddrcSize / 2 ∧ s.ddrcSize / 2 < 2 ^ (fcap t + 2)) ∧
    (s.gl.builds = [] → s.gl.building = none → bit v 0 = false →
      ∃ t, exec (.glEnable v) s = .next t ∧ isF t F.GL_CTL_EN = false ∧ t = { s with csr := t.csr } ∧ SameRegsBut [(RegName.GL_CTL).addr 0 0] s t) ∧
    (s.gl.builds ≠ [] → b2n (bit v 0) ≠ getF s F.GL_CTL_EN →
      ∃ t, exec (.glEnable v) s = .next (celRefused .GL_CTL v t) ∧ getF t F.GL_CTL_EN = getF s F.GL_CTL_EN ∧ t = { s with csr := t.csr })

/-- LAUTER jobs (R165 to R168, R171, R177): PROBE answers whether the bucket of the fingerprint holds its remainder and sets the latch; for a volume that does not deduplicate it answers 0 and clears the latch. INSERT appends the remainder,
at 64 entries in place of the oldest; DELETE takes out the newest equal entry. -/
def Claim.FilterJobs : Prop :=
  ∀ (id : Nat) (j : Job) (s : State), Memory.wf s.mem = true → fcap s ≤ 39 →
    let v := jobVol s j 16
    let f := rdB s (j.n 8 8) 32
    let b := bucketOf s (volGroup s v) f
    let r := remOf f
    let yes := decide (sumCount s b ≠ 0) && (sumMask s b).testBit (r % 32) && (heldOf s b).contains r
    (accepted s id 0x02 1 = some j → dedups s v = true →
      ∃ t, exec (.lauterProbe id) s = .next t ∧ JobDone t id ⟨0, 0, 1, b2n yes⟩ ∧ latchOf t j.owner = some ⟨f, v⟩ ∧
        heldOf t b = heldOf s b ∧ (agentKey j.owner ∈ t.gl.maybe ↔ yes = true ∨ (agentKey j.owner ∈ s.gl.maybe.erase (agentKey j.owner)))) ∧
    (accepted s id 0x02 1 = some j → dedups s v = false → keysFrom 0 s.gl.latch = true →
      ∃ t, exec (.lauterProbe id) s = .next t ∧ JobDone t id ⟨0, 0, 1, 0⟩ ∧ latchOf t j.owner = none ∧ t.mem = s.mem) ∧
    (accepted s id 0x02 2 = some j → sumCount s b < 64 →
      ∃ t, exec (.lauterInsert id) s = .next t ∧ JobDone t id ⟨0, 0, 1, 0⟩ ∧ heldOf t b = heldOf s b ++ [r]) ∧
    (accepted s id 0x02 2 = some j → sumCount s b = 64 →
      ∃ t, exec (.lauterInsert id) s = .next t ∧ JobDone t id ⟨0, 0, 1, 0⟩ ∧ heldOf t b = (heldOf s b).drop 1 ++ [r]) ∧
    (∀ l m, accepted s id 0x02 3 = some j → sumCount s b ≤ 64 → heldOf s b = l ++ r :: m → r ∉ m →
      ∃ t, exec (.lauterDelete id) s = .next t ∧ JobDone t id ⟨0, 0, 1, 0⟩ ∧ heldOf t b = l ++ m) ∧
    (accepted s id 0x02 3 = some j → r ∉ heldOf s b → ∃ t, exec (.lauterDelete id) s = .next t ∧ JobDone t id ⟨0, 0, 1, 0⟩ ∧ t.mem = s.mem)

/-- The end of an admission window (R170): the bit becomes 1 where hits times 65,536 reach THRESH times the probes, and else 0, and the counts start again; before WINDOW probes, or with ADMITEN 0, nothing happens. -/
def Claim.AdmissionWindows : Prop :=
  ∀ (vol : BitVec 18) (s : State), keysFrom 0 s.gl.admission = true →
    let a := admitOf s vol.toNat
    (isF s F.GL_CTL_ADMITEN = true → max 1024 (getF s F.GL_ADMIT_WINDOW) ≤ a.probes →
      ∃ t, exec (.admissionWindowEnd vol) s = .next t ∧
        admitOf t vol.toNat = ⟨decide (getF s F.GL_ADMIT_THRESH * a.probes ≤ a.hits * 65536), 0, 0⟩ ∧ t.mem = s.mem) ∧
    ((isF s F.GL_CTL_ADMITEN = false ∨ a.probes < max 1024 (getF s F.GL_ADMIT_WINDOW)) → exec (.admissionWindowEnd vol) s = .next s)

/-- An entry that is added to an index page is found there again under its fingerprint (R174). -/
def Claim.IndexPagesFindWhatWasAdded : Prop :=
  ∀ (ent m : KMap (Nat × Nat)) (x : Nat × Nat), ixValid x.2 = true → ixFind ent x.1 = none → ixAdd ent x = some m →
    ∃ e, e < 128 ∧ ixFind m x.1 = some e ∧ kgetD m e (0, 0) = x ∧ ∀ i, i ≠ e → kgetD m i (0, 0) = kgetD ent i (0, 0)

/-- FPX jobs on one fingerprint (R175 to R178, R181): LOOKUP gives the slot word of the match or 0, and 0 with a record where the compared bytes differ; INSERT adds an entry and sets INDEXED, and gives 0 where there is a match already; REMOVE
takes out the entry that matches fingerprint and slot. Each sees the fingerprint's page resident. -/
def Claim.IndexJobs : Prop :=
  ∀ (id : Nat) (read : Option (List Byte × List Byte)) (j : Job) (s : State),
    let v := fxVol s j
    let d := volDom s v
    let f := rdB s (j.n 8 8) 32
    let w := ixLookup s d f
    let word := resolve s (j.n 16 8)
    owns s (domGroup d) = true →
    (accepted s id 0x03 1 = some j → dedups s v = false →
      ∃ t, exec (.fpxLookup id read) s = .next t ∧ JobDone t id ⟨0, 0, 1, 0⟩ ∧ t.mem = s.mem) ∧
    (accepted s id 0x03 1 = some j → dedups s v = true → firstAbsent s (fpPages s d f) = none →
      ((w = 0 ∨ fxCompare s j = false) → ∃ t, exec (.fpxLookup id read) s = .next t ∧ JobDone t id ⟨0, 0, 1, w⟩ ∧ latchOf t j.owner = some ⟨f, v⟩) ∧
      (w ≠ 0 → fxCompare s j = true → ∃ t, exec (.fpxLookup id read) s = .next t ∧
        match (ownRead s w read).bind (domBlock s d w) with
        | some b =>
          if b = rdB s (j.n 32 8) 4096 then JobDone t id ⟨0, 0, 1, w⟩
          else JobDone t id ⟨0, 0, 1, 0⟩ ∧ getF t ⟨.GL_COLL_CNT, 47, 0⟩ = (getF s ⟨.GL_COLL_CNT, 47, 0⟩ + 1) % 2 ^ 48
        | none => JobDone t id ⟨0, 0, 1, 0⟩)) ∧
    ∀ pid p, ixPageId s d (pageNo (domOf s d) (fpH f)) = some pid → pageOf s pid = some p → p.resident = true → p.ddr = false →
      (accepted s id 0x03 2 = some j → ixFind p.ent (fxNum f) = none → (ixRun p.ent (fprStart (fxNum f)) 128).length < 128 →
        ∃ t, exec (.fpxInsert id) s = .next t ∧ JobDone t id ⟨0, 0, 1, 1⟩ ∧ srtIndexed (srt t (swSlot word)) = true) ∧
      (∀ e, ixFind p.ent (fxNum f) = some e →
        (accepted s id 0x03 2 = some j → (domOf s d).keyset = true →
          ∃ t, exec (.fpxInsert id) s = .next t ∧ JobDone t id ⟨0, 0, 1, 0⟩ ∧ t.me = s.me ∧ t.mem = s.mem) ∧
        (accepted s id 0x03 3 = some j → swSlot (resolve s (ixSlotWord (domPool d) (kgetD p.ent e (0, 0)).2)) = swSlot word →
          ∃ t q, exec (.fpxRemove id) s = .next t ∧ JobDone t id ⟨0, 0, 1, 1⟩ ∧ pageOf t pid = some q ∧ q.ent = ixDel p.ent e)) ∧
      (accepted s id 0x03 3 = some j → ixFind p.ent (fxNum f) = none →
        ∃ t, exec (.fpxRemove id) s = .next t ∧ JobDone t id ⟨0, 0, 1, 0⟩ ∧ t.me = s.me ∧ t.mem = s.mem)

/-- CENSUS (R182): the count buffer gives for each slot of the range how many leaf entries of the domain name it; slots whose COUNT agrees are left, one that does not agree is corrected and counted in VALUE. Shown with no forwarded slots and no lost slot-reference page. -/
def Claim.CensusResults : Prop :=
  ∀ (id : Nat) (j : Job) (s : State), Memory.wf s.mem = true → keysFrom 0 s.me.srt = true → accepted s id 0x03 4 = some j →
    let d := fxDom s j
    let n := j.n 28 4
    let base := swSlot (j.n 16 8)
    let pages := domMapPages s d
    let slots := censusSlots s pages base n
    owns s (domGroup d) = true → s.plc.fwd = [] → 0 < n → (∀ e ∈ s.me.srtPage, (pageOf s e.2).map Page.st ≠ some .lost) →
    ((∀ x ∈ slots, srtCount (srt s x) = leafCount s pages x) →
      ∃ t, exec (.fpxCensus id) s = .next t ∧ JobDone t id ⟨0, 0, n, 0⟩ ∧ t.me = s.me ∧ SameMemBut (j.n 40 8) (4 * n) s t ∧
        ∀ i, i < n → rdN t (j.n 40 8 + 4 * i) 4 = (if base + i ∈ slots then leafCount s pages (base + i) % 2 ^ 32 else 0)) ∧
    ∀ x, slots = [x] → srtLost (srt s x) = false → srtUnj (srt s x) = false → srtCount (srt s x) < 0xFF_FFFF →
      0 < leafCount s pages x → leafCount s pages x < 0xFF_FFFF → srtCount (srt s x) ≠ leafCount s pages x →
      ∃ t, exec (.fpxCensus id) s = .next t ∧ JobDone t id ⟨0, 0, n, 1⟩ ∧ srtCount (srt t x) = leafCount s pages x

/-- SWEEP and RESET (R181): SWEEP takes out the entries whose slot has COUNT zero or is LOST, clears their INDEXED and counts pages and entries; RESET leaves the domain without pages and its record as at the start. Its COUNT is a free value, as
no rule defines it. -/
def Claim.SweepAndResetResults : Prop :=
  ∀ (id : Nat) (j : Job) (s : State),
    let d := fxDom s j
    let pages := allIxPages s d
    owns s (domGroup d) = true →
    (accepted s id 0x03 5 = some j → s.plc.fwd = [] → firstAbsent s pages = none → (∀ p ∈ pages, deadEntries s d p = []) →
      ∃ t, exec (.fpxSweep id) s = .next t ∧ JobDone t id ⟨0, 0, pages.length, 0⟩ ∧ t.me = s.me ∧ t.mem = s.mem) ∧
    (∀ pid p x i, accepted s id 0x03 5 = some j → s.plc.fwd = [] → pages = [pid] → pageOf s pid = some p → p.resident = true → p.ddr = false →
      NotSrtPage s pid → keysFrom 0 s.me.srt = true → deadEntries s d pid = [x] → ixFind p.ent x.1 = some i →
      ∃ t q, exec (.fpxSweep id) s = .next t ∧ JobDone t id ⟨0, 0, 1, 1⟩ ∧ pageOf t pid = some q ∧ q.ent = ixDel p.ent i ∧
        srtIndexed (srt t (swSlot (ixSlotWord (domPool d) x.2))) = false) ∧
    (accepted s id 0x03 6 = some j → keysFrom 0 s.gl.dom = true →
      ∃ t c, exec (.fpxReset id) s = .next t ∧ JobDone t id ⟨0, 0, c, pages.length⟩ ∧ allIxPages t d = [] ∧ domOf t d = {})

/-- The queues of the index (R169, R178, R179): a build begins with the next domain of the queue and ends after its last page; the oldest insertion leaves its queue, and sets INDEXED where it takes place; the oldest removal leaves its queue and
clears INDEXED where its slot can be read and its fingerprint is known, or no index entry names it. -/
def Claim.IndexQueues : Prop :=
  ∀ s : State,
    (∀ d l, s.gl.building = none → s.gl.builds = d :: l →
      exec .filterBuild s = .next { s with gl := { s.gl with builds := l, building := some (d, 0) } }) ∧
    (∀ d n, s.gl.building = some (d, n) → (allIxPages s d).length ≤ n → exec .filterBuild s = .next { s with gl := { s.gl with building := none } }) ∧
    (∀ d n, s.gl.building = some (d, n) → n < (allIxPages s d).length → ∃ t, exec .filterBuild s = .next t ∧ t.gl.building = some (d, n + 1)) ∧
    (∀ x l, s.gl.ins = x :: l → owns s (domGroup (volDom s x.vol)) = false → exec .fpInsertion s = .next { s with gl := { s.gl with ins := l } }) ∧
    (∀ x l pid p, s.gl.ins = x :: l → owns s (domGroup (volDom s x.vol)) = true → (domOf s (volDom s x.vol)).keyset = true →
      ixPageId s (volDom s x.vol) (pageNo (domOf s (volDom s x.vol)) (fpH x.fp)) = some pid → pageOf s pid = some p → p.resident = true →
      ixFind p.ent (fxNum x.fp) = none → (ixRun p.ent (fprStart (fxNum x.fp)) 128).length < 128 →
      ∃ t, exec .fpInsertion s = .next t ∧ t.gl.ins = l ∧ srtIndexed (srt t (swSlot (resolve s x.word))) = true) ∧
    ∀ slot rest read, s.gl.rem = slot :: rest → keysFrom 0 s.me.srt = true →
      let w := slot + srtClass (srt s slot) * 2 ^ 48 + 2 ^ 50
      let known (dt : List Byte × List Byte) := (slotDoms s slot).findSome? fun d => (domBlock s d w dt).map fun b => (d, sha512t256 b)
      (ownRead s w read = none → exec (.fpRemoval read) s = .next { s with gl := { s.gl with rem := rest } }) ∧
      (∀ dt, ownRead s w read = some dt → ((known dt).isSome = true ∨ indexNames s slot = false) →
        ∃ t, exec (.fpRemoval read) s = .next t ∧ t.gl.rem = rest ∧ srtIndexed (srt t slot) = false) ∧
      ∀ dt, ownRead s w read = some dt → known dt = none → indexNames s slot = true →
        exec (.fpRemoval read) s = .next { s with gl := { s.gl with rem := rest } }

/-! ### Snapshots, the diff walk and pair cuts -/

/-- SNAP CUT (R296, R298, R299) appends one cut record that names the volumes that can still be cut, and its job ends with that record; it is held while a volume has a cut pending. With PAIR it fences and, on head B, sends READY. -/
def Claim.SnapshotCuts : Prop :=
  ∀ (id : Nat) (j : Job) (s : State), accepted s id 0x0A 7 = some j → snSub j = 1 → (∀ e ∈ snEnts s j, ownsVol s e.vol = true) →
    (∀ r ∈ s.ta.recs, r.job ≠ some id) → s.snap.pair.job ≠ some id →
    let ents := (snEnts s j).map fun e => (e.vol, e.snap)
    let units := 1 + (16 * ents.length + 63) / 64
    let free := (∀ e ∈ ents, cutPending s e = false) ∧ ∀ e ∈ snEnts s j, snRefused s 1 e = false
    (∀ e ∈ ents, cutPending s e = true →
      ∃ t, exec (.snapCut id) s = .next t ∧ kget t.jobs id = some { j with started := true } ∧ t.ta = s.ta ∧ t.snap = s.snap ∧ t.mem = s.mem) ∧
    (free → snPair j = false → s.rekey.draining = false →
      s.ta.woff + 64 * units ≤ ringSize s → ringUsed s + 64 * units ≤ ringSize s →
      ∃ t r, exec (.snapCut id) s = .next t ∧ t.ta.recs = s.ta.recs ++ [r] ∧ r.ty = 2 ∧ r.seq = getF s F.TA_JSEQ_NEXT ∧ r.job = some id ∧
        r.acts = [.cut (ents.filter fun e => decide (volEpoch s e.1 < 0xFFFF_FFFF)) (snCgid j)] ∧
        r.code = (if ∀ e ∈ ents, volEpoch s e.1 < 0xFFFF_FFFF then 0 else 0x02) ∧ kget t.jobs id = some { j with started := true }) ∧
    (free → snPair j = true → getF s F.ME_CGSTAT_PSTATE = 0 →
      ∃ t, exec (.snapCut id) s = .next t ∧ t.snap.fence = true ∧ getF t F.ME_CGSTAT_PSTATE = 1 ∧ getF t F.ME_CGSTAT_CGID = snCgid j ∧ t.mem = s.mem ∧
        t.out = s.out ++ (if headB s then [.partner (.cutReady (snCgid j) ents)] else []))

/-- The map engine cuts a volume (R296, R297): its snapshot is CUTTING with the volume's tree, and EPOCH rises; the snapshot is READY once none of its pages is pinned. -/
def Claim.CutsAreApplied : Prop :=
  ∀ (v n : Nat) (s : State), Memory.wf s.mem = true → v < 2 ^ 18 → snapAddr s n + 64 ≤ ownRing →
    (∀ c, s.snap.cuts = [c] → c.ents = [(v, n)] → volEpoch s v < 0xFFFF_FFFF → 0x2100_0000 ≤ snapAddr s n →
      ∃ t, exec .cutApply s = .next t ∧ t.snap.cuts = [] ∧ volEpoch t v = volEpoch s v + 1 ∧ snapState t n = 1 ∧ snapEpoch t n = volEpoch s v ∧
        kget t.snap.cutting n = some v ∧ ∀ r, kget s.me.root v = some r → kget t.me.snapRoot n = some r) ∧
    ∀ x : BitVec 24, n = x.toNat → kget s.snap.cutting n = some v → ownsVol s (snapVol s n) = true → keysFrom 0 s.snap.cutting = true →
      ((∀ e ∈ s.me.pages, e.2.pin ≠ some n) →
        ∃ t, exec (.snapshotReady x) s = .next t ∧ snapState t n = 2 ∧ kget t.snap.cutting n = none ∧
          snapRootSlot t n = (match (kget s.me.snapRoot n).bind (pageOf s) with | some p => p.home % 2 ^ 48 | none => 0)) ∧
      ((∃ e ∈ s.me.pages, e.2.pin = some n) → exec (.snapshotReady x) s = .next s)

/-- DELETE, RELEASE and CLONE of one entry (R301, R302): DELETE makes the snapshot DELETING and queues its walk, RELEASE queues the walk of the volume's tree, and CLONE gives the new volume the snapshot's tree, its
EPOCH plus one and its MAPPED, and makes it VALID. -/
def Claim.SnapshotJobs : Prop :=
  ∀ (id : Nat) (j : Job) (e : SnapEnt) (s : State), Memory.wf s.mem = true → accepted s id 0x0A 7 = some j → snEnts s j = [e] → ownsVol s e.vol = true →
    (snSub j = 2 → snapState s e.snap = 2 → snapAddr s e.snap + 64 ≤ ownRing →
      (∀ r p, kget s.me.snapRoot e.snap = some r → pageOf s r = some p →
        let a := segAddr s (slotPool p.home) (slotSeg p.home)
        a + 8 ≤ snapAddr s e.snap ∨ snapAddr s e.snap + 64 ≤ a) →
      ∃ t, exec (.snapDelete id) s = .next t ∧ JobDone t id ⟨0, 0, 1, 0⟩ ∧ snapState t e.snap = 3 ∧
        t.snap.walks = s.snap.walks ++ [⟨true, e.snap, (kget s.me.snapRoot e.snap).toList⟩]) ∧
    (snSub j = 4 → liveSnaps s e.vol = [] →
      ∃ t, exec (.snapRelease id) s = .next t ∧ JobDone t id ⟨0, 0, 1, 0⟩ ∧
        t.snap.walks = s.snap.walks ++ [⟨false, e.vol, (kget s.me.root e.vol).toList⟩]) ∧
    (snSub j = 3 → e.new < 2 ^ 18 → ownsVol s e.new = true → mayClone s e = true →
      ∃ t, exec (.snapClone id) s = .next t ∧ JobDone t id ⟨0, 0, 1, 0⟩ ∧ volValid t e.new = true ∧ volEpoch t e.new = (snapEpoch s e.snap + 1) % 2 ^ 32 ∧
        volMapped t e.new = snapMapped s e.snap ∧ ∀ r, kget s.me.snapRoot e.snap = some r → kget t.me.root e.new = some r)

/-- The delete walk (R301): the tree is no longer reached from its snapshot or volume, and the walk frees a page that nothing names any more, passes over one that is still named, and at its end makes the snapshot FREE. It waits while the ring
has no room for the record of the page, and nothing happens where this head has no walk. -/
def Claim.DeleteWalks : Prop :=
  ∀ (w : Walk) (s : State), s.snap.walks = [w] → keysFrom 0 s.me.pages = true → Memory.wf s.mem = true →
    (walkMine s w = false → exec .deleteWalk s = .next s) ∧
    (walkMine s w = true →
      let d := dropRoot w.snap w.num s
      (w.todo = [] → w.snap = true → snapAddr s w.num + 64 ≤ ownRing → ∃ t, exec .deleteWalk s = .next t ∧ t.snap.walks = [] ∧ snapState t w.num = 0) ∧
      ∀ k l, w.todo = k :: l →
        (∀ p, pageOf s k = some p → pageDead d k = true → ringTakes s 2 = true → s.ta.waiting = [] → ∃ t, exec .deleteWalk s = .next t ∧ pageOf t k = none) ∧
        (∀ p, pageOf s k = some p → pageDead d k = true → (ringTakes s 2 = false ∨ s.ta.waiting ≠ []) → exec .deleteWalk s = .next d) ∧
        ((pageOf s k = none ∨ pageDead d k = false) → exec .deleteWalk s = .next { d with snap := { d.snap with walks := [{ w with todo := l }] } }))

/-- DIFF (R304): the delta entries of the differences go to the buffer, COUNT tells their number and VALUE the LBA to go on from; between equal trees there is none and the walk is complete. -/
def Claim.DiffResults : Prop :=
  ∀ (id : Nat) (j : Job) (s : State), Memory.wf s.mem = true → accepted s id 0x0A 8 = some j → ownsVol s (snapVol s (dfTarget j)) = true →
    (∀ l next k, diffFrom s (dfBase j) (dfTarget j) (j.n 8 8) (mapNblk j) = .inr (l, next, k) →
      ∃ t, exec (.diff id) s = .next t ∧ JobDone t id ⟨0, 0, l.length, next⟩ ∧ SameMemBut (j.n 32 8) (16 * l.length) s t ∧ t.me = s.me ∧
        ∀ i d, l[i]? = some d → rdN t (j.n 32 8 + 16 * i) 4 = d.lba % 2 ^ 32 ∧ rdN t (j.n 32 8 + 16 * i + 4) 4 = d.gen % 2 ^ 32 ∧
          rdN t (j.n 32 8 + 16 * i + 8) 8 = d.word % 2 ^ 64) ∧
    ∀ b, dfBase j = some b → snapTree s b = snapTree s (dfTarget j) → firstAbsent s (diffPages s 3 0 (snapTree s b) (snapTree s b)) = none →
      ∃ t, exec (.diff id) s = .next t ∧ JobDone t id ⟨0, 0, 0, 0x1_0000_0000⟩ ∧ t.mem = s.mem

/-- Every delta entry that the diff walk gives for a leaf lies in that leaf, at or after the LBA it starts from and below the size, and names a block whose word 0 differs, with the TARGET's word where that is VALID (R304). -/
def Claim.DiffEntriesLieInRange : Prop :=
  ∀ (s : State) (lo size : Nat) (x : Nat × Sub × Sub) (d : Delta), d ∈ diffLeaf s lo size x →
    lo ≤ d.lba ∧ d.lba < size ∧ x.1 ≤ d.lba ∧ d.lba < x.1 + 256 ∧ (x.2.1.leaf s (d.lba - x.1)).1 ≠ (x.2.2.leaf s (d.lba - x.1)).1 ∧
      (swValid d.word = true → d.word = (x.2.2.leaf s (d.lba - x.1)).1)

/-- The pair cut (R299). READY is confirmed; without a job it is answered with ABORT, and head A with one cuts and sends GO. GO makes head B cut, send CUT and release; CUT makes head A release; ABORT, and the time-out at head A, end the job with TIMEOUT and
release. A message is repeated until CONFIRM, and not to a dead partner. -/
def Claim.PairCuts : Prop :=
  ∀ (cgid : BitVec 32) (ents : List (Nat × Nat)) (s : State),
    let p := getF s F.ME_CGSTAT_PSTATE
    let gaveUp (t : State) : Prop := t.snap.fence = false ∧ getF t F.ME_CGSTAT_PSTATE = 0 ∧ isF t F.ME_CGSTAT_ABORTED = true ∧ t.snap.pair = {} ∧
      ∀ id j, s.snap.pair.job = some id → kget s.jobs id = some j → (∀ r ∈ s.ta.recs, r.job ≠ some id) → JobDone t id ⟨0x0C, 0, 0, 0⟩
    (p = 0 → exec (.pairCutReady cgid ents) s = .next { s with
      snap := { s.snap with resend := some (.cutAbort cgid.toNat) }, out := s.out ++ [.partner .cutConfirm, .partner (.cutAbort cgid.toNat)] }) ∧
    (p = 1 → headB s = false → ∃ t, exec (.pairCutReady cgid ents) s = .next t ∧ getF t F.ME_CGSTAT_PSTATE = 2 ∧ t.snap.pair.theirs = ents ∧
      t.snap.resend = some (.cutGo cgid.toNat) ∧ Sends s t (.partner .cutConfirm) ∧ Sends s t (.partner (.cutGo cgid.toNat))) ∧
    (p = 1 → headB s = true → ∃ t, exec (.pairCutGo cgid) s = .next t ∧ getF t F.ME_CGSTAT_PSTATE = 0 ∧ isF t F.ME_CGSTAT_DONE = true ∧
      t.snap.fence = false ∧ t.snap.resend = some (.cutCut cgid.toNat) ∧ Sends s t (.partner (.cutCut cgid.toNat))) ∧
    (p = 2 → s.snap.pair.cgid = cgid.toNat → ∃ t, exec (.pairCutCut cgid) s = .next t ∧ getF t F.ME_CGSTAT_PSTATE = 0 ∧ isF t F.ME_CGSTAT_DONE = true ∧
      t.snap.fence = false ∧ t.mem = s.mem ∧ t.out = s.out ++ [.partner .cutConfirm]) ∧
    (p = 1 → headB s = true → s.snap.pair.cgid = cgid.toNat → ∃ t, exec (.pairCutAbort cgid) s = .next t ∧ gaveUp t ∧ t.snap.resend = none ∧ t.mem = s.mem) ∧
    (p = 1 → headB s = false → ∃ t, exec .pairCutTimeout s = .next t ∧ gaveUp t ∧ t.mem = s.mem ∧ t.out = s.out ++ [.partner (.cutAbort s.snap.pair.cgid)]) ∧
    (∀ m, s.snap.resend = some m → s.partner.dead = false → exec .pairCutResendTimer s = .next { s with out := s.out ++ [.partner m] }) ∧
    (s.partner.dead = true → exec .pairCutResendTimer s = .next s) ∧
    exec .pairCutConfirm s = .next { s with snap := { s.snap with resend := none } }

/-! ### Replication streams -/

/-- Streams (R307 to R309, R316, R319): GO starts the cycle of an IDLE SNAP stream at CURSOR 0, or is refused with a record; a waiting context takes the lowest free context; a failed delivery makes the stream BROKEN; a new epoch
counts EPOCH up and takes LASTSEQ as OLDLAST, and the partner's message sets both. -/
def Claim.StreamResults : Prop :=
  ∀ (n : BitVec 12) (s : State), Memory.wf s.mem = true →
    let k := n.toNat
    (∀ v : Word, bits v 11 0 = k → bit v 16 = true →
      let snaps := decide (snapState s (strTarget s k) = 2) && ((strBaseSnap s k).all fun b => decide (snapState s b = 2))
      (strMode s k = 0 → strState s k = 0 → strValid s k = true → strRecv s k = false → snaps = true →
        ∃ t, exec (.streamCycleGo v) s = .next t ∧ strState t k = 1 ∧ strCursor t k = 0 ∧ SameMemBut (strAddr s k) 128 s t) ∧
      ((strMode s k ≠ 0 ∨ strState s k ≠ 0 ∨ strValid s k = false ∨ strRecv s k = true ∨ snaps = false) →
        exec (.streamCycleGo v) s = .next (celRefused .TA_STRCMD v (setF F.TA_STRCMD_STREAM k s)))) ∧
    (∀ w pc c, strMode s k ≠ 0 → s.str.waits = [w] → w.info.stream = k → isF s F.TA_STRCTL_EN = true →
      bindingOf s (volClass s (strVol s k)) w.info.opc = some pc → freeCtxNo s = some c →
      ∃ t, exec (.streamContextStart n none) s = .next t ∧ kget t.str.ctxs c = some w.info ∧ t.str.waits = [] ∧ (kget t.ctxs c).isSome = true) ∧
    (∀ b : Byte, ∃ t, exec (.streamContextStart n (some b)) s = .next t ∧ strState t k = 2 ∧ SameMemBut (strAddr s k) 128 s t) ∧
    (strValid s k = true → strRecv s k = false → strMode s k = 1 → unsentRecs s k = [] →
      ∃ t, exec (.streamEpochRaise n) s = .next t ∧ strEpoch t k = (strEpoch s k + 1) % 2 ^ 32 ∧ strOldLast t k = strLast s k ∧ k ∈ t.str.first ∧
        SameMemBut (strAddr s k) 128 s t ∧ t.out = s.out) ∧
    ∀ (e : BitVec 32) (o : Word), ∃ t, exec (.streamEpochMessage n e o) s = .next t ∧ strEpoch t k = e.toNat ∧ strOldLast t k = o.toNat ∧
      k ∈ t.str.first ∧ k ∉ t.str.mute ∧ SameMemBut (strAddr s k) 128 s t

/-- The receiver of a SYNC or TWIN stream (R312, R314): the message after the last one is taken; an OFFER to a volume that does not deduplicate needs every block, and a repeated OFFER gets its stored answer; a DATA is appended as one record with its entries; a
message that was held too long completes with Command Sequence Error. A MARK of a SNAP stream is answered when it is the next (R315). -/
def Claim.StreamReceiver : Prop :=
  ∀ (h : StrHdr) (ents : List StrEnt) (s : State), Memory.wf s.mem = true →
    let n := h.stream
    strValid s n = true → strRecv s n = true → strAddr s n + 128 ≤ ownRing →
    (∀ m ws, h.epoch = strEpoch s n → offerOf s n h.seq = some (m, ws) →
      exec (.offer h ents) s = .next { s with out := s.out ++ [.streamAnswer n h.seq 0 (m % 2 ^ 32) (m / 2 ^ 32)] }) ∧
    (h.epoch = strEpoch s n → strMode s n ≠ 0 → strLast s n < h.seq → h.seq < 2 ^ 64 → h.prev = strLast s n → s.str.held = [] →
      (∀ _ : offerOf s n h.seq = none, dedups s (strVol s n) = false → (∀ e ∈ ents, e.flags = 0) →
        ∃ t, exec (.offer h ents) s = .next t ∧ strLast t n = h.seq ∧
          t.out = s.out ++ [.streamAnswer n h.seq 0 ((2 ^ ents.length - 1) % 2 ^ 32) ((2 ^ ents.length - 1) / 2 ^ 32)]) ∧
      ∀ words, ents ≠ [] →
        let have' := match offerOf s n (h.seq - 1) with | some x => x.2 | none => []
        ∃ t r, exec (.data h ents words) s = .next t ∧ strLast t n = h.seq ∧ Sends s t (.streamAnswer n h.seq 0 0 0) ∧ (r ∈ t.ta.recs ∨ r ∈ t.ta.waiting) ∧
          r.ty = 1 ∧ r.arg = strVol s n ∧ r.nent = ents.length ∧ r.body = deltaBytes (dataDeltas have' 0 ents words)) ∧
    (h.epoch = strEpoch s n → strMode s n = 0 → h.seq = strNext s n → winBit s n h.seq = false → s.str.held = [] →
      ∃ t, exec (.mark h) s = .next t ∧ Sends s t (.streamAnswer n h.seq 0 0 0)) ∧
    ∀ (x : BitVec 12) (q : Word) (m : StrMsg), s.str.held = [m] → m.hdr.stream = x.toNat → m.hdr.seq = q.toNat →
      exec (.streamHoldTimeout x q) s = .next { s with str := { s.str with held := [] }, out := s.out ++ [.streamAnswer x.toNat q.toNat 0x400C 0 0] }

/-! ### The host front end -/

/-- Admin commands (R329, R333, R335, R338, R341): each is answered on its queue. Abort gives Dword 0 = 1, Keep Alive nothing; up to eight Asynchronous Event Requests are kept and the next is refused; Set Features stores what Get Features gives
back; a saved feature, an unknown one and a reserved SEL are refused. A discovery controller serves neither Abort nor a feature but that of its notices (log entry 187). -/
def Claim.AdminCommands : Prop :=
  ∀ (hq : BitVec 17) (cid : BitVec 16) (q : HQueue) (c : Ctrl) (dw nsid : BitVec 32) (s : State), Takes s hq.toNat q c → q.qid = 0 →
    let answers (i : Instr) (st dw0 : Nat) : Prop := ∃ t, exec i s = .next t ∧ Answers s t hq.toNat cid.toNat st dw0
    let sets (i : Instr) (c' : Ctrl) : Prop := ∃ t, exec i s = .next t ∧ Answers s t hq.toNat cid.toNat 0 0 ∧ ctrlOf t q.ctrl = some c' ∧ t.mem = s.mem
    answers (.keepAlive hq cid) 0 0 ∧
    (c.aers.length < 8 → ∃ t, exec (.asyncEventRequest hq cid) s = .next t ∧ ctrlOf t q.ctrl = some { c with aers := c.aers ++ [cid.toNat] } ∧
      t.out = s.out ∧ t.mem = s.mem) ∧
    (8 ≤ c.aers.length → answers (.asyncEventRequest hq cid) 0x4105 0) ∧
    sets (.setFeatures hq cid 0x0B false dw nsid) { c with aec := dw.toNat } ∧
    (c.disc = false → answers (.abort hq cid) 0 1) ∧ (c.disc = false → sets (.setFeatures hq cid 0x82 false dw nsid) { c with mask := kput c.mask nsid.toNat dw.toNat }) ∧
    (c.disc = true → answers (.abort hq cid) 0x4001 0 ∧ answers (.setFeatures hq cid 0x0F false dw nsid) 0x4001 0 ∧ answers (.getFeatures hq cid 0x0F 0 dw nsid) 0x4001 0) ∧
    (dw ≠ 0 → c.disc = false → sets (.setFeatures hq cid 0x0F false dw nsid) { c with kato := dw.toNat }) ∧
    (c.disc = false → ctrlQueues s q.ctrl true ≠ [] → answers (.setFeatures hq cid 0x07 false dw nsid) 0x400C 0) ∧
    answers (.setFeatures hq cid 0x0B true dw nsid) 0x410D 0 ∧ (c.disc = false → answers (.setFeatures hq cid 0x01 false dw nsid) 0x4002 0) ∧
    answers (.getFeatures hq cid 0x0B 0 dw nsid) 0 c.aec ∧ (c.disc = false → answers (.getFeatures hq cid 0x0F 0 dw nsid) 0 c.kato ∧
      answers (.getFeatures hq cid 0x82 0 dw nsid) 0 (kgetD c.mask nsid.toNat 0)) ∧ answers (.getFeatures hq cid 0x0B 1 dw nsid) 0x4002 0 ∧
    answers (.propertyGet hq cid 0x14) 0 c.cc

/-- Properties and the end of an association (R329, R333): CC alone can be written; clearing EN takes the I/O queues away; Disconnect, a freeze of the admin queue and an expired Keep Alive Timer end the controller with all its queues. A frozen I/O queue stays, frozen, and its
contexts are cancelled. -/
def Claim.AssociationsEnd : Prop :=
  ∀ (hq : BitVec 17) (cid : BitVec 16) (q : HQueue) (s : State), keysFrom 0 s.host.ctrls = true → keysFrom 0 s.host.queues = true →
    let gone (i : Instr) : Prop := ∃ t, exec i s = .next t ∧ ctrlOf t q.ctrl = none ∧ ∀ k x, queueOf t k = some x → x.ctrl ≠ q.ctrl
    (∀ c (v : Word), Takes s hq.toNat q c → q.qid = 0 →
      (c.cc.testBit 0 = false → ∃ t, exec (.propertySet hq cid 0x14 v) s = .next t ∧ Answers s t hq.toNat cid.toNat 0 0 ∧
        ctrlOf t q.ctrl = some { c with cc := v.toNat % 2 ^ 32 }) ∧
      (c.cc.testBit 0 = true → bit v 0 = false → ∃ t, exec (.propertySet hq cid 0x14 v) s = .next t ∧ Answers s t hq.toNat cid.toNat 0 0 ∧
        ∀ k x, queueOf t k = some x → x.ctrl = q.ctrl → x.qid = 0) ∧
      ∀ off : BitVec 16, off ≠ 0x14 → ∃ t, exec (.propertySet hq cid off v) s = .next t ∧ Answers s t hq.toNat cid.toNat 0x4002 0) ∧
    (queueOf s hq.toNat = some q → gone (.disconnect hq cid)) ∧
    (queueOf s hq.toNat = some q → q.frozen = false → q.qid = 0 → gone (.queueFreeze hq)) ∧
    (∀ n : BitVec 16, q.ctrl = n.toNat → (ctrlOf s n.toNat).isSome = true → gone (.katoExpiry n)) ∧
    (queueOf s hq.toNat = some q → q.frozen = false → q.qid ≠ 0 →
      ∃ t, exec (.queueFreeze hq) s = .next t ∧ queueOf t hq.toNat = some { q with frozen := true } ∧ t.mem = s.mem ∧ t.out = s.out ∧
        ∀ n x, kget t.ctxs n = some x → x.hq = hq.toNat → x.fwd = false → x.cancelled = true)

/-- Identify and log pages (R324, R328, R338, R342): a namespace that is not attached is refused; an attached one's structure is returned; the Changed Namespace List is returned and cleared; a page of the other kind of controller is refused. -/
def Claim.IdentifyAndLogPages : Prop :=
  ∀ (hq : BitVec 17) (cid : BitVec 16) (nsid : BitVec 32) (q : HQueue) (c : Ctrl) (s : State), Takes s hq.toNat q c → q.qid = 0 →
    let n := nsid.toNat
    let gives (i : Instr) (l : List Byte) : Prop := ∃ t, exec i s = .next t ∧ Answers s t hq.toNat cid.toNat 0 0 ∧ Sends s t (.hostData hq.toNat cid.toNat l) ∧ t.mem = s.mem
    let refuses (i : Instr) (st : Nat) : Prop := ∃ t, exec i s = .next t ∧ Answers s t hq.toNat cid.toNat st 0 ∧ t.mem = s.mem
    (c.disc = false → (nsValid s n = false ∨ attachedTo s q.ctrl n = false) → refuses (.identify hq cid 0 nsid) 0x400B) ∧
    (c.disc = false → nsValid s n = true → attachedTo s q.ctrl n = true → gives (.identify hq cid 0 nsid) (identifyNs s (nsVol s n))) ∧
    (c.disc = true → refuses (.identify hq cid 0 nsid) 0x4002) ∧
    (c.disc = false → ∀ sqe peer,
      (∃ t, exec (.getLogPage hq cid 0x04 false false sqe peer) s = .next t ∧ Answers s t hq.toNat cid.toNat 0 0 ∧
        Sends s t (.logPage hq.toNat cid.toNat 4 [c.changed]) ∧ ctrlOf t q.ctrl = some { c with changed := [] }) ∧
      (∃ t, exec (.getLogPage hq cid 0x0C false false sqe peer) s = .next t ∧ Answers s t hq.toNat cid.toNat 0 0 ∧
        Sends s t (.logPage hq.toNat cid.toNat 0x0C (anaLog s q.ctrl false))) ∧
      refuses (.getLogPage hq cid 0x70 false false sqe peer) 0x4109)

/-- Connect (R321, R326, R327, R571): an admin Connect in order makes a controller with the next free identity and its admin queue; an I/O Connect of a known controller and host makes a queue; one that is out of order is answered with Connect Invalid Parameters and changes
nothing; without an open connection nothing happens. A TCP connection is accepted while EN and TCPEN are 1. -/
def Claim.ConnectResults : Prop :=
  ∀ (a : ConnArgs) (s : State),
    let full := decide (getF s F.HFE_RXPOOL_GIB * 2 ^ 30 < poolUsed s + 1088 * a.size)
    (connOpen s a = false → exec (.connect a) s = .next s) ∧ (connOpen s a = true →
    (∀ i, a.qid = 0 → a.cntlid = 0xFFFF → 2 ≤ a.size → a.size ≤ 128 → full = false → freeCtrl s = some i →
      let c := cntlidOf s i
      ∃ t, exec (.connect a) s = .next t ∧ t.out = s.out ++ [.connected a.conn a.cid 0 c] ∧
        ctrlOf t c = some { disc := a.disc, nqn := a.nqn, hostid := a.host, kato := if a.kato = 0 then 120000 else a.kato } ∧
        queueOf t (adminHq c) = some { ctrl := c, qid := 0, size := a.size, tcp := a.tcp, conn := a.conn }) ∧
    (a.qid = 0 → (a.cntlid ≠ 0xFFFF ∨ a.size < 2 ∨ 128 < a.size) →
      exec (.connect a) s = .next { s with out := s.out ++ [.connected a.conn a.cid 0x4182 0] }) ∧
    (∀ h, a.qid ≠ 0 → ioConnectOk s a = true → 2 ≤ a.size → a.size ≤ min 1024 (getF s F.HFE_CTL_MQES + 1) → full = false → freeHq s = some h →
      ∃ t, exec (.connect a) s = .next t ∧ t.out = s.out ++ [.connected a.conn a.cid 0 a.cntlid] ∧ t.host.ctrls = s.host.ctrls ∧ t.mem = s.mem ∧
        queueOf t h = some { ctrl := a.cntlid, qid := a.qid, size := a.size, tcp := a.tcp, conn := a.conn }) ∧
    (a.qid ≠ 0 → ioConnectOk s a = false → exec (.connect a) s = .next { s with out := s.out ++ [.connected a.conn a.cid 0x4182 0] })) ∧
    let on := isF s F.HFE_CTL_EN && isF s F.HFE_CTL_TCPEN
    exec .tcpConnect s = .next { s with host := { s.host with tcpOpen := s.host.tcpOpen + (if on then 1 else 0) }, out := s.out ++ [.tcpAnswer on] }

/-- An I/O capsule (R107, R331, R333): a Read that passes every check of R331 on a group that this head owns starts in the lowest free context; a digest error, an NSID that is not attached and a range beyond the volume are answered with their statuses; the command that fills the queue
freezes it. A Flush of a namespace that is not PASS completes at once (R334). While a command of the queue waits for a context, its next capsule waits unfetched (R33). -/
def Claim.IoCapsules : Prop :=
  ∀ (hq : BitVec 16) (sqe data : List Byte) (q : HQueue) (c : Ctrl) (s : State), q.qid ≠ 0 →
    let n := sqNsid sqe
    let v := nsVol s n
    let answers (i : Instr) (st : Nat) : Prop := ∃ t, exec i s = .next t ∧ Answers s t hq.toNat (sqCid sqe) st 0 ∧ t.ctxs = s.ctxs
    let known := nsValid s n && attachedTo s q.ctrl n && decide (sanitizeStatus s = none) && volValid s v
    (Takes s hq.toNat q c → resvOpc (sqOpc sqe) = false → fetchStops s hq.toNat = false →
      answers (.ioCapsuleReceived hq sqe data true) 0x022 ∧
      (sqOpc sqe = 2 → (nsValid s n = false ∨ attachedTo s q.ctrl n = false) → answers (.ioCapsuleReceived hq sqe data false) 0x400B) ∧
      (sqOpc sqe = 2 → known = true → volSize s v < sqLba sqe + sqNlb sqe → answers (.ioCapsuleReceived hq sqe data false) 0x4080) ∧
      (∀ pc m, sqOpc sqe = 2 → known = true → sqLba sqe + sqNlb sqe ≤ volSize s v → resvForbids s v c.hostid 2 = false →
        sglCheck s q.tcp (volFlag s v 4) sqe data = none → groupChip s (volGroup s v) = gangChip s → anaState s (volGroup s v) = 1 →
        bindingOf s (volClass s v) 2 = some pc → s.ctxWait = [] → freeCtxNo s = some m →
        ∃ t x, exec (.ioCapsuleReceived hq sqe data false) s = .next t ∧ kget t.ctxs m = some x ∧ x.st = .queued ∧ x.vol = v ∧ x.hq = hq.toNat ∧
          x.cid = sqCid sqe ∧ x.cls = volClass s v ∧ t.out = s.out) ∧
      (sqOpc sqe = 0 → n ≠ 0xFFFF_FFFF → known = true → nsPass s n = false → answers (.flush hq sqe) 0)) ∧
    (queueOf s hq.toNat = some q → q.frozen = false → ctrlOf s q.ctrl = some c → bitsN c.cc 15 14 = 0 → getF s F.SYS_HEAD_STATE < 4 → q.size ≤ q.used + 1 →
      resvOpc (sqOpc sqe) = false →
      ∃ t, exec (.ioCapsuleReceived hq sqe data false) s = .next t ∧ queueOf t hq.toNat = some { q with frozen := true } ∧ t.out = s.out) ∧
    (queueOf s hq.toNat = some q → q.frozen = false → fetchStops s hq.toNat = true → resvOpc (sqOpc sqe) = false →
      q.used + 1 + s.host.unfetched.countP (fun x => decide (x.hq = hq.toNat)) < q.size →
      exec (.ioCapsuleReceived hq sqe data false) s = .next { s with host := { s.host with unfetched := s.host.unfetched ++ [⟨hq.toNat, sqe, data, false⟩] } })

/-- Forwarding (R41, R346, R351, R352): the OWNER refuses a forwarded command that a reservation forbids, starts one of a group it owns in a free context with its host data, and holds one of a group it does not serve yet; the result, and the data for the
host before it, goes out on the queue that received the capsule, over RDMA once the host has acknowledged the data. A held command times out with Asymmetric Access Transition; a change of a group's state is counted. -/
def Claim.ForwardedCommands : Prop :=
  ∀ (hq cid : BitVec 16) (host : BitVec 128) (vol : BitVec 18) (sqe data : List Byte) (s : State),
    let x : HostCmd := ⟨hq.toNat, cid.toNat, host.toNat, sqe, true, vol.toNat⟩
    let v := vol.toNat
    let key := cmdKey hq.toNat cid.toNat
    (resvForbids s v host.toNat (sqOpc sqe) = true → ∃ t, exec (.forwardedCommandReceived hq cid host ⟨vol, sqe, data⟩) s = .next t ∧
      t.out = s.out ++ [.forwardResult hq.toNat cid.toNat 0x4083 0] ∧ t.mem = s.mem ∧ t.ctxs = s.ctxs) ∧
    (∀ pc m, resvForbids s v host.toNat (sqOpc sqe) = false → anaState s (volGroup s v) = 1 → sqOpc sqe ∉ [0xC4, 0xC8, 0xCC] →
      bindingOf s (volClass s v) (sqOpc sqe) = some pc → s.ctxWait = [] → freeCtxNo s = some m →
      ∃ t y, exec (.forwardedCommandReceived hq cid host ⟨vol, sqe, data⟩) s = .next t ∧ kget t.ctxs m = some y ∧ y.st = .queued ∧ y.vol = v ∧ y.fwd = true ∧
        kget t.rx.staged key = some data ∧ t.out = s.out) ∧
    (resvForbids s v host.toNat (sqOpc sqe) = false → (anaState s (volGroup s v) = 2 ∨ anaState s (volGroup s v) = 15) →
      ∃ t, exec (.forwardedCommandReceived hq cid host ⟨vol, sqe, data⟩) s = .next t ∧ t.host = { s.host with held := s.host.held ++ [x] } ∧ t.out = s.out) ∧
    (∀ (y : HostCmd) (q : HQueue) (st : BitVec 16) (dw : BitVec 32) (d : List (Nat × List Byte)), s.host.fwds = [y] → y.hq = hq.toNat → y.cid = cid.toNat →
      queueOf s hq.toNat = some q → q.frozen = false →
      ((d = [] ∨ q.tcp = true) → ∃ t, exec (.forwardedResultReceived hq cid st ⟨dw, d⟩) s = .next t ∧ Answers s t hq.toNat cid.toNat st.toNat dw.toNat ∧
        t.host.fwds = [] ∧ ∀ e ∈ d, Sends s t (.tcpData hq.toNat cid.toNat e.1 e.2)) ∧
      ∀ l, q.tcp = false → sglOf false ((y.sqe.drop 24).take 16) (kgetD s.rx.capsule key []) = some (.keyed l) → stageEnts y l d ≠ [] →
        ∃ t g, exec (.forwardedResultReceived hq cid st ⟨dw, d⟩) s = .next t ∧ t.host = s.host ∧ kget t.rx.stage key = some g ∧
          g.result = some (st.toNat, dw.toNat)) ∧
    (∀ y : HostCmd, s.host.held = [y] → y.hq = hq.toNat → y.cid = cid.toNat → y.fwd = false → Live s hq.toNat →
      ∃ t, exec (.anaHoldTimeout hq cid) s = .next t ∧ Answers s t hq.toNat cid.toNat 0x303 0 ∧ t.host.held = []) ∧
    ∀ g : BitVec 10, s.host.held = [] →
      (kgetD s.host.anaSeen g.toNat 15 ≠ anaState s g.toNat → ∃ t, exec (.anaStateChange g) s = .next t ∧
        kgetD t.host.anaSeen g.toNat 15 = anaState s g.toNat ∧ t.host.anaCount = s.host.anaCount + 1 ∧ t.mem = s.mem) ∧
      (kgetD s.host.anaSeen g.toNat 15 = anaState s g.toNat → exec (.anaStateChange g) s = .next s)

/-- The service ring (R340): an admin command for the steward, and a reservation command, takes the entry at TAIL with its submission queue entry, and TAIL moves on; while the ring is full the capsule is not accepted. A write of SVCCMP posts the entry's completion once. -/
def Claim.ServiceRing : Prop :=
  ∀ (hq : BitVec 17) (sqe : List Byte) (q : HQueue) (c : Ctrl) (s : State), Memory.wf s.mem = true → sqe.length = 64 →
    let tail := getF s F.HFE_SVCIDX_TAIL
    let a := getF s F.HFE_SVC_BASE * 4096 + 128 * tail
    let queued (i : Instr) : Prop := ∃ t, exec i s = .next t ∧ kget t.host.svc tail = some ⟨hq.toNat, sqCid sqe, q.ctrl, sqe⟩ ∧ rdB t a 64 = sqe ∧
      SameMemBut a 128 s t ∧ getF t F.HFE_SVCIDX_TAIL = (tail + 1) % 4096 ∧ t.out = s.out
    let admin (i : Instr) : Prop := i = .namespaceManagement hq sqe ∨ i = .namespaceAttachment hq sqe none ∨
      (i = .formatNvm hq sqe none ∧ getF s F.HFE_SANSTAT_SSTAT ≠ 2) ∨ (i = .sanitize hq sqe none ∧ sanitizeRefusal sqe s = none)
    (svcFull s = false → Takes s hq.toNat q c → q.qid = 0 → c.disc = false → ∀ i, admin i → queued i) ∧
    (svcFull s = true → ∀ i, admin i → exec i s = .next s) ∧
    (∀ h : BitVec 16, h.toNat = hq.toNat → svcFull s = false → Takes s hq.toNat q c → q.qid ≠ 0 → resvOpc (sqOpc sqe) = true →
      fetchStops s hq.toNat = false → nsValid s (sqNsid sqe) = true → attachedTo s q.ctrl (sqNsid sqe) = true → sanitizeStatus s = none → volValid s (nsVol s (sqNsid sqe)) = true →
      queued (.reservationCommand h sqe none)) ∧
    ∀ (v : Word) (x : SvcEnt),
      (kget s.host.svc (bits v 11 0) = some x → Live s x.hq → keysFrom 0 s.host.svc = true →
        ∃ t, exec (.serviceCompletion v) s = .next t ∧ Answers s t x.hq x.cid (bits v 30 16) (bits v 63 32) ∧ kget t.host.svc (bits v 11 0) = none ∧ t.mem = s.mem) ∧
      (kget s.host.svc (bits v 11 0) = none → exec (.serviceCompletion v) s = .next s)

/-- What the steward does for its commands (R323, R345, R354, R355): an attachment is recorded for the hosts named; a Format that cannot be is answered with Invalid Format, else the namespace gets its new volume; Sanitize moves HFE_SANSTAT and is announced to the partner; a reservation
command writes the volume's entry. Each completes its entry. -/
def Claim.StewardCommands : Prop :=
  ∀ (hq : BitVec 17) (h16 : BitVec 16) (sqe : List Byte) (e : Nat) (x : SvcEnt) (s : State), Memory.wf s.mem = true → e < 4096 → kget s.host.svc e = some x → Live s x.hq →
    (∀ hosts n, ∃ t, exec (.namespaceAttachment hq sqe (some (e, hosts, n, true))) s = .next t ∧ Answers s t x.hq x.cid 0 0 ∧
      ∀ h ∈ hosts, (h, n) ∈ t.host.attached) ∧
    (∀ f : FormatArgs, f.entry = e → 1 < bitsN (fieldN x.sqe 40 4) 3 0 →
      ∃ t, exec (.formatNvm hq sqe (some f)) s = .next t ∧ Answers s t x.hq x.cid 0x410A 0 ∧ t.mem = s.mem) ∧
    (∀ f : FormatArgs, f.entry = e → bitsN (fieldN x.sqe 40 4) 3 0 ≤ 1 → bitsN (fieldN x.sqe 40 4) 7 5 ≤ 1 → bitsN (fieldN x.sqe 40 4) 11 9 ≠ 2 →
      0 < sqNsid x.sqe → sqNsid x.sqe ≤ 262144 → f.vol < 2 ^ 18 →
      ∃ t, exec (.formatNvm hq sqe (some f)) s = .next t ∧ Answers s t x.hq x.cid 0 0 ∧ nsVol t (sqNsid x.sqe) = f.vol) ∧
    (∃ t, exec (.sanitize hq sqe (some (.start e))) s = .next t ∧ Answers s t x.hq x.cid 0 0 ∧ Sends s t (.partner .sanitize) ∧
      getF t F.HFE_SANSTAT_SSTAT = 2 ∧ getF t F.HFE_SANSTAT_SPROG = 0) ∧
    (∃ t, exec (.sanitize hq sqe (some .done)) s = .next t ∧ getF t F.HFE_SANSTAT_SSTAT = 1 ∧ getF t F.HFE_SANSTAT_SPROG = 0xFFFF ∧ t.mem = s.mem) ∧
    (∃ t, exec (.sanitize hq sqe (some .failed)) s = .next t ∧ getF t F.HFE_SANSTAT_SSTAT = 3 ∧ t = { s with csr := t.csr }) ∧
    ∀ a : ResvArgs, a.entry = e → a.table = none → a.notices = [] → a.status < 0x800 →
      ∃ t, exec (.reservationCommand h16 sqe (some a)) s = .next t ∧ Answers s t x.hq x.cid (status a.status) (a.dw0 % 2 ^ 32) ∧ t.mem = s.mem

/-- Posting operations (R308, R347 to R350): the first of a context posts its status on the command's queue and ends with VALUE 0; a second one is refused; a cancelled context and a stream context post nothing and get VALUE 1. ERR maps the job's code to a status. -/
def Claim.PostingOperations : Prop :=
  ∀ (id op n : Nat) (j : Job) (x : Ctx) (i : Instr) (s : State), accepted s id 0x0E op = some j → j.owner = .ctx n → kget s.ctxs n = some x →
    (op = 1 ∧ i = .hostOk id) ∨ (op = 2 ∧ i = .hostErr id) ∨ (op = 3 ∧ i = .hostBadlen id) ∨ (op = 5 ∧ i = .hostStatus id) →
    ((x.cancelled = true ∨ x.hq = 0xFFFF) → ∃ t, exec i s = .next t ∧ JobDone t id ⟨0, 0, 0, 1⟩ ∧ t.out = s.out ∧ t.ctxs = s.ctxs ∧ t.mem = s.mem) ∧
    (x.cancelled = false → x.hq ≠ 0xFFFF → x.posted = true →
      ∃ t, exec i s = .next t ∧ JobDone t id ⟨0x0D, 0, 0, 4⟩ ∧ t.out = s.out ∧ t.ctxs = s.ctxs ∧ t.mem = s.mem) ∧
    (x.cancelled = false → x.hq ≠ 0xFFFF → x.posted = false → x.fwd = false → Live s x.hq → syncHolds s n x = false →
      ∃ t st dw, exec i s = .next t ∧ JobDone t id ⟨0, 0, 0, 0⟩ ∧ kget t.ctxs n = some { x with posted := true } ∧ Answers s t x.hq x.cid st dw ∧
        (op = 1 → st = 0 ∧ dw = j.n 28 4) ∧ (op = 3 → st = 0x4002 ∧ dw = 0) ∧ (op = 5 → st = j.n 34 2 ∧ dw = 0) ∧
        (op = 2 → dw = 0 ∧ (j.n 32 1 = 0x07 → st = 0x4281) ∧ (j.n 32 1 = 0x05 → st = 0x4286) ∧ (j.n 32 1 = 0x09 → st = 0x303) ∧
          (j.n 32 1 = 0x02 → st = 0x081) ∧ (j.n 32 1 = 0x0C → st = 0x021) ∧ (j.n 32 1 = 0x0D → st = 0x006)))

/-- PIGEN (R325): each block's 16 bytes are its guard, an application tag of zero and the low 48 bits of its LBA, big-endian. -/
def Claim.ProtectionInformation : Prop :=
  ∀ (id : Nat) (j : Job) (s : State), Memory.wf s.mem = true → accepted s id 0x0E 4 = some j → hePi s j = true → heLbax j = true → j.n 40 8 = 0 →
    let n := heNblk j
    ∃ t, exec (.hostPigen id) s = .next t ∧ JobDone t id ⟨0, 0, n, 0⟩ ∧ SameMemBut (hePidst j) (16 * n) s t ∧
      ∀ i, i < n → rdB t (hePidst j + 16 * i) 16 =
        beBytes 8 (crc64 (rdB s (j.n 8 8 + 4096 * i) 4096)) ++ zeros 2 ++ beBytes 6 ((j.n 48 8 + i) % 2 ^ 48)

/-- A DRAIN that takes 50 ms cancels every context of this head's hosts (R337); a write of GENCTR takes its value (R328); a range that the partner resolved is logged, and a queued lost slot that no volume names leaves the queue (R273, R343). -/
def Claim.DrainAndLostSlots : Prop :=
  ∀ s : State,
    (getF s F.SYS_HEAD_STATE = 4 → s.upd.draining = true →
      ∃ t, exec .drainTimeout s = .next t ∧ (∀ n x, kget t.ctxs n = some x → x.fwd = false → x.cancelled = true) ∧ t.mem = s.mem ∧ t.out = s.out) ∧
    (getF s F.SYS_HEAD_STATE ≠ 4 → exec .drainTimeout s = .next s) ∧
    (∀ v : Word, ∃ t, exec (.discoveryGenctrWrite v) s = .next t ∧ getF t F.HFE_DISC_GENCTR = bits v 31 0 ∧ t.mem = s.mem) ∧
    (∀ v first len, ∃ t, exec (.lostSlotResolve (some (v, first, len))) s = .next t ∧ t.host.errCount = s.host.errCount + 1 ∧
      t.host.mediaErrs = s.host.mediaErrs + 1 ∧ t.mem = s.mem ∧ t.csr = s.csr ∧ t.out = s.out) ∧
    ∀ w l, s.plc.lost = w :: l → poolVols s (swPool w) = [] → exec (.lostSlotResolve none) s = .next { s with plc := { s.plc with lost := l } }

/-! ### The RDMA engine -/

/-- The connection manager (R364 to R367, R571): a REQ that can be served is answered with a REP and takes the lowest free index as a TARGET queue pair in RTR; one that cannot be is rejected and counted. An RTU takes the queue pair to RTS at the line rate; a DREQ is answered and takes it to
ERROR. -/
def Claim.ConnectionManager : Prop :=
  (∀ (a : CmReq) (s : State),
    (∀ q, isF s F.HFE_CTL_EN = true → isF s F.HFE_CTL_RDMAEN = true → isF s F.RXE_CTL_EN = true → a.ioq = false → freeQp s = some q →
      ∃ t x, exec (.cmReq a) s = .next t ∧ t.out = s.out ++ [.rdma q (.rep x.spsn)] ∧ qpOf t q = some x ∧ x.st = 2 ∧ x.kind = 0 ∧ x.spsn < 2 ^ 24 ∧
        x.epsn = a.psn % 2 ^ 24 ∧ x.sq = [] ∧ t.csr = s.csr ∧ t.mem = s.mem) ∧
    (isF s F.HFE_CTL_RDMAEN = false → ∃ t, exec (.cmReq a) s = .next t ∧ t.out = s.out ++ [.cmReject 28] ∧ t.rx = s.rx ∧
      getF t ⟨.RXE_CMREJ_CNT, 47, 0⟩ = (getF s ⟨.RXE_CMREJ_CNT, 47, 0⟩ + 1) % 2 ^ 48)) ∧
  ∀ (q : BitVec 17) (x : Qp) (s : State), qpOf s q.toNat = some x →
    (x.st = 2 → ∃ t, exec (.cmRtu q) s = .next t ∧
      qpOf t q.toNat = some { x with st := 3, rate := lineRate s x, target := lineRate s x, alpha := 1024, step := 0 } ∧ t.out = s.out ∧ t.mem = s.mem) ∧
    (x.st ≠ 0 → x.st ≠ 4 → ∃ t y, exec (.cmDreq q) s = .next t ∧ Sends s t (.rdma q.toNat .drep) ∧ qpOf t q.toNat = some y ∧ y.st = 4 ∧ y.sq = [])

/-- The queue pair commands (R366, R369, R386): CREATE of a free index takes the record; MODIFY goes forward along R366 with the record's fields, or to ERROR; QUERY writes the record; DESTROY takes the queue pair to ERROR. Each sets DONE. An index that is taken, a transition that is not R366's and
a TARGET queue pair are refused and change no queue pair. QUIET over, an ended queue pair's index is free. -/
def Claim.QueuePairCommands : Prop :=
  ∀ (v : Word) (s : State), bit v 0 = true → isF s F.RXE_QPCMD_BUSY = false →
    let q := bits v 48 32
    let a := qpAttr s
    let done (i : Instr) (st kind : Nat) : Prop := ∃ t x, exec i s = .next t ∧ isF t F.RXE_QPCMD_DONE = true ∧ qpOf t q = some x ∧ x.st = st ∧ x.kind = kind
    let refuses (i : Instr) (e : Nat) : Prop := ∃ t, exec i s = .next t ∧ isF t F.RXE_QPCMD_REFUSED = true ∧ getF t F.RXE_QPCMD_ERR = e ∧ t.rx = s.rx ∧ t.mem = s.mem
    (bits v 3 1 = 1 →
      (qpOf s q = none → q < getF s F.RXE_CTL_STEWQP → qpAttrOk s a = true → (fieldN a 1 1 ≠ 2 ∨ getF s F.SYS_HEAD_STATE < 2) →
        done (.qpCreate v) (fieldN a 0 1) (fieldN a 1 1)) ∧
      (((qpOf s q).isSome = true ∨ getF s F.RXE_CTL_STEWQP ≤ q) → refuses (.qpCreate v) 1)) ∧
    (∀ x, bits v 3 1 = 2 → qpOf s q = some x → x.kind ≠ 0 →
      ((qpState s q, fieldN a 0 1) = (1, 2) ∨ (qpState s q, fieldN a 0 1) = (2, 3) → done (.qpModify v) (fieldN a 0 1) x.kind) ∧
      ((x.st = 2 ∨ x.st = 3) → fieldN a 0 1 = 4 → done (.qpModify v) 4 x.kind) ∧
      (qpState s q < 2 → fieldN a 0 1 = 3 → refuses (.qpModify v) 1)) ∧
    (∀ x, bits v 3 1 = 2 → qpOf s q = some x → x.kind = 0 → (qpState s q, fieldN a 0 1) = (2, 3) → refuses (.qpModify v) 3) ∧
    (∀ x, bits v 3 1 = 3 → qpOf s q = some x → ∃ t, exec (.qpQuery v) s = .next t ∧ isF t F.RXE_QPCMD_DONE = true ∧ t.rx = s.rx ∧ t.mem = s.mem ∧
      ∀ i < 8, (rd t .RXE_QPATTR i).toNat = fieldN (qpRecord s q { x with st := qpState s q }) (8 * i) 8) ∧
    (∀ x, bits v 3 1 = 4 → qpOf s q = some x → (x.kind = 0 → refuses (.qpDestroy v) 3) ∧ (x.kind ≠ 0 → x.st ≠ 0 → done (.qpDestroy v) 4 x.kind)) ∧
    ∀ (n : BitVec 17) (x : Qp), qpOf s n.toNat = some x → qpEnded s n.toNat x = true → x.kind ≠ 2 →
      exec (.qpQuietExpiry n) s = .next { s with rx := { s.rx with qps := kdel s.rx.qps n.toNat } }

/-- The window commands (R370, R371, R374, R387): REGISTER of a free window binds it to its queue pair with a tag that is not zero; QUERY fills the attribute registers and KEY; REVOKE raises the fence and is BUSY until the requests from before it have drained, when the window is free. A window that is not
free, no page and a window that is not registered are refused. -/
def Claim.WindowCommands : Prop :=
  ∀ (v : Word) (s : State), bit v 0 = true → isF s F.RXE_WINCMD_BUSY = false →
    let w := bits v 47 32
    let q := getF s F.RXE_WINATTR1_QP
    let pages := getF s F.RXE_WINATTR1_PAGES
    let base := getF s F.RXE_WINATTR0_BASE * 4096
    let refuses (i : Instr) (e : Nat) : Prop := ∃ t, exec i s = .next t ∧ isF t F.RXE_WINCMD_REFUSED = true ∧ getF t F.RXE_WINCMD_ERR = e ∧ t.rx = s.rx ∧ t.mem = s.mem
    (bits v 2 1 = 1 →
      (∀ x, kget s.rx.wins w = none → pages ≠ 0 → inHbmDdr s base (4096 * pages) = true → qpState s q ≠ 0 → qpState s q ≠ 4 → winOf s q = none →
        qpOf s q = some x → x.kind ≠ 0 → ∃ t y, exec (.windowRegister v) s = .next t ∧ isF t F.RXE_WINCMD_DONE = true ∧ kget t.rx.wins w = some y ∧
          y.revoking = false ∧ y.base = base ∧ y.pages = pages ∧ y.qp = q ∧ y.rrd = isF s F.RXE_WINATTR0_RRD ∧ y.rwr = isF s F.RXE_WINATTR0_RWR ∧
          0 < y.tag ∧ y.tag < 65536 ∧ getF t F.RXE_WINKEY_KEY = w * 65536 + y.tag ∧ t.mem = s.mem) ∧
      ((kget s.rx.wins w).isSome = true → refuses (.windowRegister v) 1) ∧
      (kget s.rx.wins w = none → pages = 0 → refuses (.windowRegister v) 2)) ∧
    (bits v 2 1 = 2 →
      (∀ x, kget s.rx.wins w = some x → x.revoking = false → ∃ t, exec (.windowRevoke v) s = .next t ∧ isF t F.RXE_WINCMD_BUSY = true ∧
        kget t.rx.wins w = some { x with revoking := true } ∧ t.mem = s.mem) ∧
      (kget s.rx.wins w = none → refuses (.windowRevoke v) 1)) ∧
    (bits v 2 1 = 3 → ∀ x, kget s.rx.wins w = some x → x.pages < 2 ^ 28 → x.qp < 2 ^ 17 → x.base < 2 ^ 48 → winKey w x < 2 ^ 32 →
      ∃ t, exec (.windowQuery v) s = .next t ∧ isF t F.RXE_WINCMD_DONE = true ∧ getF t F.RXE_WINATTR1_PAGES = x.pages ∧ getF t F.RXE_WINATTR1_QP = x.qp ∧
        getF t F.RXE_WINATTR0_BASE = x.base / 4096 ∧ isF t F.RXE_WINATTR0_RRD = x.rrd ∧ isF t F.RXE_WINATTR0_RWR = x.rwr ∧ getF t F.RXE_WINKEY_KEY = winKey w x ∧
        t.rx = s.rx ∧ t.mem = s.mem) ∧
    ∀ (n : BitVec 16) (x : Win), kget s.rx.wins n.toNat = some x → x.revoking = true → keysFrom 0 s.rx.wins = true →
      (∀ k y i, (k, y) ∈ s.rx.qps → y.inWrite = some i → i.win ≠ n.toNat) →
      ∃ t, exec (.revokeDrainDone n) s = .next t ∧ kget t.rx.wins n.toNat = none ∧ t.rx.qps = s.rx.qps ∧ t.mem = s.mem ∧
        (getF s F.RXE_WINCMD_WIN = n.toNat → isF t F.RXE_WINCMD_DONE = true ∧ isF t F.RXE_WINCMD_BUSY = false)

/-- A packet reaches a queue pair (R363): its ICRC is right, it carries no CE mark, and its queue pair is held. -/
def Reaches (s : State) (h : Bth) (q : Nat) (x : Qp) : Prop :=
  h.icrcOk = true ∧ h.ce = false ∧ qpIndex h.qpn = some q ∧ qpOf s q = some x ∧ qpState s q ≠ 0

/-- Packets that reach no queue pair are dropped and counted (R363); a request out of sequence is answered with one NAK for the gap, a duplicate SEND or WRITE with an acknowledgement and no more (R375). -/
def Claim.PacketsAreChecked : Prop :=
  ∀ (h : Bth) (va : Word) (rkey len : BitVec 32) (data : List Byte) (s : State),
    let request (i : Instr) : Prop := i = .rdmaSendReceived h data ∨ i = .rdmaWriteRequest h va rkey len data
    let any (i : Instr) : Prop := request i ∨ i = .rdmaReadRequest h va rkey len ∨ i = .rdmaAckReceived h data ∨ i = .cnpReceived h
    (h.icrcOk = false → ∀ i, any i → ∃ t, exec i s = .next t ∧ withLogOf s t = s ∧
      getF t ⟨.RXE_ICRC_CNT, 47, 0⟩ = (getF s ⟨.RXE_ICRC_CNT, 47, 0⟩ + 1) % 2 ^ 48) ∧
    (h.icrcOk = true → qpIndex h.qpn = none → ∀ i, any i → ∃ t, exec i s = .next t ∧ withLogOf s t = s ∧
      getF t ⟨.RXE_NOQP_CNT, 47, 0⟩ = (getF s ⟨.RXE_NOQP_CNT, 47, 0⟩ + 1) % 2 ^ 48) ∧
    ∀ q x, Reaches s h q x → (x.st = 2 ∨ x.st = 3) →
      (∀ i, request i → (h.psn + 2 ^ 24 - x.epsn % 2 ^ 24) % 2 ^ 24 ≠ 0 → (h.psn + 2 ^ 24 - x.epsn % 2 ^ 24) % 2 ^ 24 < 2 ^ 23 →
        (x.nakked = true → exec i s = .next s) ∧
        (x.nakked = false → ∃ t, exec i s = .next t ∧ t.out = s.out ++ [.rdma q (.nak x.epsn 0x60)] ∧ qpOf t q = some { x with nakked := true } ∧ t.mem = s.mem)) ∧
      (∀ i, request i → 2 ^ 23 ≤ (h.psn + 2 ^ 24 - x.epsn % 2 ^ 24) % 2 ^ 24 →
        ∃ t, exec i s = .next t ∧ t.out = s.out ++ [.rdma q (.ack ((x.epsn + 2 ^ 24 - 1) % 2 ^ 24))] ∧ t.rx = s.rx ∧ t.mem = s.mem)

/-- Inbound requests (R372 to R375): a WRITE that passes the checks of its window is written at the window's base plus its address and acknowledged; a READ is answered with the bytes there; the last packet of a SEND is the message of its queue pair's kind. EPSN moves on by the packets taken. A request that fails
the checks is answered with NAK Remote Access Error, writes nothing and takes the queue pair to ERROR. -/
def Claim.InboundRequests : Prop :=
  ∀ (h : Bth) (va : Word) (rkey len : BitVec 32) (data : List Byte) (q : Nat) (x : Qp) (s : State), Memory.wf s.mem = true → Reaches s h q x → x.st = 3 → h.psn = x.epsn →
    let epsn (t : State) (n : Nat) : Prop := ∃ y, qpOf t q = some y ∧ y.epsn = (x.epsn + n) % 2 ^ 24
    (∀ w y, h.op = 0x0A → winCheck s q rkey.toNat va.toNat len.toNat true = some (w, y) → data.length = len.toNat →
      ∃ t, exec (.rdmaWriteRequest h va rkey len data) s = .next t ∧ rdB t (y.base + va.toNat) data.length = data ∧
        SameMemBut (y.base + va.toNat) data.length s t ∧ epsn t 1 ∧ Sends s t (.rdma q (.ack (x.epsn % 2 ^ 24)))) ∧
    (h.op = 0x0A → winCheck s q rkey.toNat va.toNat len.toNat true = none → pathJobs s (.qp q) = [] →
      ∃ t y, exec (.rdmaWriteRequest h va rkey len data) s = .next t ∧ Sends s t (.rdma q (.nak h.psn 0x62)) ∧ qpOf t q = some y ∧ y.st = 4 ∧ t.mem = s.mem) ∧
    (∀ w y, h.op = 0x0C → winCheck s q rkey.toNat va.toNat len.toNat false = some (w, y) →
      ∃ t, exec (.rdmaReadRequest h va rkey len) s = .next t ∧ Sends s t (.rdma q (.readResp h.psn (rdB s (y.base + va.toNat) len.toNat))) ∧
        epsn t (max 1 ((len.toNat + x.pmtu - 1) / x.pmtu)) ∧ t.mem = s.mem) ∧
    (h.op = 0x0C → winCheck s q rkey.toNat va.toNat len.toNat false = none → pathJobs s (.qp q) = [] →
      ∃ t, exec (.rdmaReadRequest h va rkey len) s = .next t ∧ Sends s t (.rdma q (.nak h.psn 0x62)) ∧ t.mem = s.mem) ∧
    (h.op = 0x00 → ∃ t y, exec (.rdmaSendReceived h data) s = .next t ∧ qpOf t q = some y ∧ y.inSend = data ∧ epsn t 1 ∧ t.out = s.out ∧ t.mem = s.mem) ∧
    (∀ hq, h.op = 0x04 → x.kind = 0 → qpQueue s q = some hq → ∃ u, exec (.rdmaSendReceived h data) s = .next (ioCapsule hq (data.take 64) (data.drop 64) false u) ∧
      u.host = s.host ∧ u.ctxs = s.ctxs ∧ u.mem = s.mem ∧ epsn u 1 ∧ Sends s u (.rdma q (.ack (x.epsn % 2 ^ 24)))) ∧
    ∀ id j, h.op = 0x04 → x.kind = 1 → kget x.cmds (fieldN data 12 2) = some id → kget s.jobs id = some j →
      ∃ t, exec (.rdmaSendReceived h data) s = .next t ∧ JobDone t id (JobResult.done (bitsN (fieldN data 12 4) 31 17) (fieldN data 0 8)) ∧ epsn t 1

/-- A job may use its queue pair (R366, R376, R379): it is accepted, the queue pair is in RTS, nothing holds it, and its send queue is empty. -/
def MaySend (s : State) (id op : Nat) (j : Job) (q : Nat) (x : Qp) : Prop :=
  accepted s id 0x09 op = some j ∧ rdmaPath s j = .qp q ∧ qpOf s q = some x ∧ x.st = 3 ∧ x.rnrHold = false ∧ x.sq = [] ∧ kget s.rx.got id = none

/-- RDMA jobs (R381 to R383): a READ whose SGL is in-capsule data is done with the bytes; a READ or WRITE of one keyed block is sent as one request at the queue pair's next PSN, and a CMD as a capsule; a job of a TCP queue asks for its data, or sends it and is done; that of a forwarded command reads the data that the partner staged and sends to the partner (R41); a job whose queue pair is in ERROR is flushed. -/
def Claim.RdmaJobs : Prop :=
  ∀ (id : Nat) (ttag : BitVec 16) (j : Job) (q : Nat) (x : Qp) (s : State), Memory.wf s.mem = true →
    let sent (i : Instr) (o : RdmaOut) (e : SendEnt → Prop) : Prop := ∃ t y a, exec i s = .next t ∧ t.out = s.out ++ [.rdma q o] ∧
      qpOf t q = some y ∧ y.sq = [a] ∧ a.sent = true ∧ a.job = some id ∧ a.psn = x.spsn ∧ y.spsn = (x.spsn + a.packets x.pmtu) % 2 ^ 24 ∧ e a ∧ t.mem = s.mem
    (∀ a k n, MaySend s id 1 j q x → 0 < x.ord → (∃ l, jobSgl s j = some (.keyed l) ∧ sliceKeyed l (rxOffset j) (rxRlen s j) = [(a, k, n)]) →
      sent (.rdmaRead id ttag) (.readReq x.spsn a k n) (fun e => e.kind = .read ∧ e.addr = a ∧ e.rkey = k ∧ e.len = n)) ∧
    (∀ d, MaySend s id 1 j q x → rxPi s j = false → jobSgl s j = some (.capsule d) → (d.drop (rxOffset j)).length = rxLen j →
      ∃ t, exec (.rdmaRead id ttag) s = .next t ∧ JobDone t id (JobResult.done (rxLen j) 0) ∧ rdB t (rxLaddr j) (rxLen j) = d.drop (rxOffset j) ∧
        SameMemBut (rxLaddr j) (rxLen j) s t) ∧
    (∀ a k n, MaySend s id 2 j q x → (∃ l, jobSgl s j = some (.keyed l) ∧ sliceKeyed l (rxOffset j) (rxRlen s j) = [(a, k, n)]) →
      sent (.rdmaWrite id) (.write x.spsn a k ((writeData s j).take n)) (fun e => e.kind = .write ∧ e.len = n)) ∧
    (∀ cid w y, MaySend s id 3 j q x → kfree x.cmds 65536 = some cid → winOf s q = some (w, y) →
      sent (.rdmaCmd id) (.send x.spsn (cmdCapsule s j cid (winKey w y))) (fun e => e.kind = .cmd)) ∧
    (∀ hq hqe c n, accepted s id 0x09 1 = some j → rdmaPath s j = .tcp hq → queueOf s hq = some hqe → hqe.frozen = false → rxCtx s j = some c →
      jobSgl s j = some (.transport n) → kget s.rx.r2t id = none → ∃ t, exec (.rdmaRead id ttag) s = .next t ∧
        t.out = s.out ++ [.tcpR2t hq c.cid ttag.toNat (rxOffset j) (rxRlen s j)] ∧ kget t.rx.r2t id = some (rxRlen s j) ∧ t.mem = s.mem) ∧
    (∀ hq hqe c, accepted s id 0x09 2 = some j → rdmaPath s j = .tcp hq → queueOf s hq = some hqe → hqe.frozen = false → rxCtx s j = some c →
      ∃ t, exec (.rdmaWrite id) s = .next t ∧ t.out = s.out ++ [.tcpData hq c.cid (rxOffset j) (writeData s j)] ∧ JobDone t id (JobResult.done (rxLen j) 0) ∧ t.mem = s.mem) ∧
    (accepted s id 0x09 1 = some j → rdmaPath s j = .peer → rxPi s j = false → rxOffset j + rxLen j ≤ (rxStaged s j).length →
      ∃ t, exec (.rdmaRead id ttag) s = .next t ∧ JobDone t id (JobResult.done (rxLen j) 0) ∧ rdB t (rxLaddr j) (rxLen j) = ((rxStaged s j).drop (rxOffset j)).take (rxLen j) ∧
        SameMemBut (rxLaddr j) (rxLen j) s t) ∧
    (∀ c, accepted s id 0x09 2 = some j → rdmaPath s j = .peer → rxCtx s j = some c →
      ∃ t, exec (.rdmaWrite id) s = .next t ∧ t.out = s.out ++ [.partner (.hostData c.hq c.cid (rxOffset j) (writeData s j))] ∧ JobDone t id (JobResult.done (rxLen j) 0) ∧
        t.mem = s.mem) ∧
    ∀ op i, accepted s id 0x09 op = some j → rdmaPath s j = .qp q → qpOf s q = some x → x.st = 4 →
      ((op, i) = (1, Instr.rdmaRead id ttag) ∨ (op, i) = (2, .rdmaWrite id) ∨ (op, i) = (3, .rdmaCmd id)) →
      ∃ t, exec i s = .next t ∧ JobDone t id ⟨0x0A, 0, 0, 8⟩

/-- Acknowledgements and retries (R367, R368, R376, R381): the acknowledgement of a WRITE's last packet ends its job; READ data ends its job with the data in the buffer; a NAK Sequence Error and an ACK timeout send again what is unacknowledged; an RNR NAK holds the queue pair until its timer; a NAK Remote Access Error and the last
retry end the entry's job with REMOTE and the syndrome, and the queue pair is in ERROR. -/
def Claim.Acknowledgements : Prop :=
  ∀ (h : Bth) (data : List Byte) (q : Nat) (x : Qp) (s : State), Memory.wf s.mem = true → x.st = 3 →
    let again (l : List SendEnt) : List Out := (l.filter (·.sent)).map fun e => .rdma q e.message
    (∀ e id j, Reaches s h q x → x.sq = [e] → e.sent = true → e.job = some id → kget s.jobs id = some j →
      (e.kind = .write → psnCovers h.psn (e.psn + e.packets x.pmtu - 1) = true →
        ∃ t y, exec (.rdmaAckReceived h []) s = .next t ∧ JobDone t id (JobResult.done (rxLen j) 0) ∧ qpOf t q = some y ∧ y.sq = [] ∧ y.retry = 0 ∧ t.mem = s.mem) ∧
      (e.kind = .read → e.data = [] → data ≠ [] → data.length = e.len → e.len = rxLen j → h.psn = e.psn → e.psn < 2 ^ 24 → rxPi s j = false → kget s.rx.got id = some [] →
        ∃ t y, exec (.rdmaAckReceived h data) s = .next t ∧ JobDone t id (JobResult.done (rxLen j) 0) ∧ qpOf t q = some y ∧ y.sq = [] ∧
          rdB t (rxLaddr j) data.length = data ∧ SameMemBut (rxLaddr j) data.length s t) ∧
      (psnEntry x h.psn = some e → pathJobs s (.qp q) = [(id, j)] →
        ∃ t y, exec (.rdmaNakReceived h 0x62) s = .next t ∧ JobDone t id ⟨0x0A, 0, 0, 3⟩ ∧ qpOf t q = some y ∧ y.st = 4 ∧ y.sq = [])) ∧
    (Reaches s h q x → ackSplit x (h.psn + 2 ^ 24 - 1) x.sq = ([], x.sq) →
      exec (.rdmaNakReceived h 0x60) s = .next { s with out := s.out ++ again x.sq } ∧
      (x.rnr < x.rnrRetries → ∃ t, exec (.rdmaNakReceived h 0x20) s = .next t ∧ qpOf t q = some { x with rnr := x.rnr + 1, rnrHold := true } ∧ t.out = s.out ∧ t.mem = s.mem)) ∧
    ∀ n : BitVec 17, n.toNat = q → qpOf s q = some x →
      (∀ e, oldest x = some e → x.rnrHold = false →
        (x.retry < x.retries → ∃ t, exec (.rdmaAckTimeout n) s = .next t ∧ t.out = s.out ++ again x.sq ∧ qpOf t q = some { x with retry := x.retry + 1 } ∧
          getF t ⟨.RXE_RETRY_CNT, 47, 0⟩ = (getF s ⟨.RXE_RETRY_CNT, 47, 0⟩ + 1) % 2 ^ 48 ∧ t.mem = s.mem) ∧
        (∀ id j, x.retries ≤ x.retry → e.job = some id → pathJobs s (.qp q) = [(id, j)] →
          ∃ t y, exec (.rdmaAckTimeout n) s = .next t ∧ JobDone t id ⟨0x0A, 0, 0, 5⟩ ∧ qpOf t q = some y ∧ y.st = 4)) ∧
      (x.rnrHold = true → ∃ t y, exec (.rnrTimer n) s = .next t ∧ qpOf t q = some y ∧ y.rnrHold = false ∧ ∀ o ∈ again x.sq, Sends s t o)

/-- Congestion control (R377, R378): a CE mark is answered with a CNP; a CNP sets TARGET to RATE, cuts RATE by RATE × ALPHA / 2048 down to MINRATE and raises ALPHA, once in MINGAP; the timer lowers ALPHA by a sixteenth, raises TARGET by AI after five steps, and moves RATE halfway to TARGET. -/
def Claim.CongestionControl : Prop :=
  ∀ (h : Bth) (q : Nat) (x : Qp) (s : State), qpOf s q = some x → x.st = 3 → isF s F.RXE_CC_EN = true →
    (h.icrcOk = true → qpIndex h.qpn = some q →
      (h.ce = false → x.react = none →
        ∃ t, exec (.cnpReceived h) s = .next t ∧ t.out = s.out ∧ t.mem = s.mem ∧ qpOf t q = some { x with
          target := x.rate
          rate := max (getF s F.RXE_CC_MINRATE) (x.rate * (2048 - x.alpha) / 2048)
          alpha := x.alpha - x.alpha / 16 + 64
          step := 0
          react := some s.dtime.toNat }) ∧
      (h.ce = false → ∀ r, x.react = some r → s.dtime.toNat < r + 1000 * getF s F.RXE_CC_MINGAP → ∃ t, exec (.cnpReceived h) s = .next t ∧ t.rx = s.rx ∧ t.out = s.out) ∧
      (h.ce = true → x.cnp = none → ∃ t, exec (.cnpReceived h) s = .next t ∧ Sends s t (.rdma q .cnp))) ∧
    ∀ n : BitVec 17, n.toNat = q → x.react ≠ some s.dtime.toNat →
      let target := if 5 < x.step + 1 then min (lineRate s x) (x.target + getF s F.RXE_CC_AI) else x.target
      ∃ t, exec (.ccTimer n) s = .next t ∧ t.out = s.out ∧ t.csr = s.csr ∧ t.mem = s.mem ∧ qpOf t q = some { x with
        alpha := x.alpha - x.alpha / 16
        step := x.step + 1
        target := target
        rate := min (lineRate s x) ((x.rate + target) / 2) }

/-- The PDUs of a TCP queue (R333, R383): a capsule is taken as the queue's next command; data of a READ job that awaits it ends the job once all has come; a broken connection freezes an I/O queue; a PDU of a queue that is not TCP is nothing. -/
def Claim.TcpPdus : Prop :=
  ∀ (hq : BitVec 17) (p : TcpPdu) (qe : HQueue) (s : State), Memory.wf s.mem = true → queueOf s hq.toNat = some qe →
    (qe.tcp = false → exec (.tcpPduReceived hq p) s = .next s) ∧
    (qe.tcp = true →
      (∀ sqe data bad, p = .capsule sqe data bad → exec (.tcpPduReceived hq p) s = .next (ioCapsule hq.toNat sqe data bad s)) ∧
      (∀ id data j, p = .h2cData id data false → accepted s id 0x09 1 = some j → rdmaPath s j = .tcp hq.toNat → rxPi s j = false →
        kget s.rx.r2t id = some (rxLen j) → kget s.rx.got id = some [] → data.length = rxLen j →
        ∃ t, exec (.tcpPduReceived hq p) s = .next t ∧ JobDone t id (JobResult.done (rxLen j) 0) ∧ rdB t (rxLaddr j) data.length = data ∧
          SameMemBut (rxLaddr j) data.length s t) ∧
      (p = .broken → qe.qid ≠ 0 → qe.frozen = false → ∃ t, exec (.tcpPduReceived hq p) s = .next t ∧ queueOf t hq.toNat = some { qe with frozen := true }))

/-! ### The switch core and the cell links -/

/-- Nothing keeps a head reset from starting: none is asserted or held, and no power-fail sequence runs (R484, R485, R488). -/
def NoReset (s : State) : Prop := s.rst.asserted = none ∧ s.rst.held = false ∧ getF s F.PWR_PF_STEP = 0

/-- A head reset source has been asserted (R485): CODE names it, ALSO is clear, and COUNT has gone up by one. -/
def Resets (s t : State) (code : Nat) : Prop :=
  t.rst.asserted = some code ∧ getF t F.SYS_RSTSRC_CODE = code ∧ getF t F.SYS_RSTSRC_ALSO = 0 ∧
    getF t F.SYS_RSTSRC_COUNT = (getF s F.SYS_RSTSRC_COUNT + 1) % 2 ^ 16

/-- Ethernet frames (R394 to R396, R402): a cell for which there is room is charged to its pool and waits for its output with its bytes, marked where the output holds THRESH cells; a frame that does not fit in its ingress queue, whose size is the implementation's (log), is paused or dropped and counted. A frame at a port
without a MAC is nothing. -/
def Claim.EthernetFrames : Prop :=
  ∀ (port : BitVec 7) (pfc : Bool) (prio : BitVec 3) (c : List Byte) (s : State),
    let p := port.toNat
    (macPort p = false → ∀ l, exec (.ethernetFrameReceived port pfc prio l) s = .next s) ∧
    ∀ o pool, macPort p = true → cellOutput s c = some o → ingressOf s p o = [] → admitPool s o (cTc c) = some pool →
      let key := (o * 96 + p) * 8 + cTc c
      let marked := isF s F.SWC_CM_EN && decide (getF s F.SWC_CM_THRESH ≤ (outCells s o).length)
      ∃ t, exec (.ethernetFrameReceived port pfc prio [c]) s = .next t ∧
        if Config.ingressCells < 1 then t.sw = s.sw ∧ t.mem = s.mem ∧ t.out = if pfc then s.out ++ [.pfcPause p prio.toNat] else s.out
        else t.out = s.out ∧ ∃ b, kget t.sw.buf key = some (kgetD s.sw.buf key [] ++ [b]) ∧ b.pool = pool ∧ b.bytes = (if marked then markCell c else c) ∧
          b.since = s.dtime.toNat ∧ ∀ k, k ≠ key → kget t.sw.buf k = kget s.sw.buf k

/-- The central scheduler and the resequencer (R397, R400, R401): a cell that alone waits leaves the buffer in one cell time, at its output, where its SEQ is the next one, and the last cell of an Ethernet frame completes the frame (R403); an early one is held, a late one discarded. A parity error degrades the scheduler once. -/
def Claim.CellsLeaveInOrder : Prop :=
  (∀ (i o tc : Nat) (c : BufCell) (s : State), i < 96 → o < 96 → tc < 8 → linkPort i = false → linkPort o = false →
    s.sw.buf = [((o * 96 + i) * 8 + tc, [c])] → s.sw.ingress = [] → s.sw.xfers = [] → s.sw.discard = false → isF s F.SWC_STAT_DEGRADED = false → isF s F.SWC_TAP_CTL_EN = false →
    let key := (o * 4 + cSchip c.bytes) * 8 + portGroup (cSport c.bytes)
    let r := kgetD s.sw.reseq key {}
    r.early = [] → s.sw.start < 96 →
    let block := fieldN c.bytes 7 1
    let frame := ((o * 4 + cSchip c.bytes) * 8 + portGroup (cSport c.bytes)) * 256 + block
    let cells := kgetD s.sw.egress frame [] ++ [c.bytes]
    (cSeq c.bytes = r.next → (cellTime s).sw.buf = [] ∧ kget (cellTime s).sw.reseq key = some { next := (r.next + 1) % 65536 } ∧
      (macPort o = false ∨ Config.macBlock o block = false → (cellTime s).out = s.out ++ [.cell o c.bytes]) ∧
      (macPort o = true → Config.macBlock o block = true → (fieldN c.bytes 1 1).testBit 7 = true → (cellTime s).out = s.out ++ [.frame o (cellFrame cells)]) ∧
      (macPort o = true → Config.macBlock o block = true → (fieldN c.bytes 1 1).testBit 7 = false → (cellTime s).out = s.out ∧
        kget (cellTime s).sw.egress frame = some cells)) ∧
    (r.next < cSeq c.bytes → cSeq c.bytes < r.next + 256 → (cellTime s).out = s.out ∧ (cellTime s).sw.buf = [] ∧
      kget (cellTime s).sw.reseq key = some { r with early := [(cSeq c.bytes, c.bytes)] })) ∧
  ∀ s : State,
    (isF s F.SWC_STAT_DEGRADED = false → ∃ t, exec .schedulerParityError s = .next t ∧ isF t F.SWC_STAT_DEGRADED = true ∧ t.sw = { s.sw with discard := true } ∧ t.mem = s.mem) ∧
    (isF s F.SWC_STAT_DEGRADED = true → exec .schedulerParityError s = .next s) ∧
    (NoReset s → ∃ t, exec .switchEcc s = .next t ∧ Resets s t 0x07 ∧ t.mem = s.mem)

/-- The tap (R404, R405): a cell that matches at the tapped port is written to the ring at HEAD with its first 64 bytes, the time of its admission, the wait, its ports and the cells queued, and HEAD moves on; a full ring loses it and counts it; while EN is 0, nothing. -/
def Claim.TapCaptures : Prop :=
  ∀ (dep : Bool) (inp outp : BitVec 7) (bytes : List Byte) (wait : BitVec 32) (queued : Nat) (s : State), Memory.wf s.mem = true → bytes.length = 64 →
    let n := getF s F.SWC_TAP_LEN_ENTRIES
    let head := getF s F.SWC_TAP_HEAD_HEAD
    let a := getF s F.SWC_TAP_BASE_BASE * 4096 + 80 * head
    (isF s F.SWC_TAP_CTL_EN = false → exec (.tapCapture dep inp outp bytes wait queued) s = .next s) ∧
    (isF s F.SWC_TAP_CTL_EN = true → getF s F.SWC_TAP_CTL_PORT = (if dep then outp.toNat else inp.toNat) → isF s F.SWC_TAP_CTL_DIR = dep →
      (BitVec.ofNat 64 (fieldN bytes 0 8)) &&& rd s .SWC_TAP_MASK = rd s .SWC_TAP_MATCH → getF s F.SWC_TAP_CTL_N = 1 → n ≠ 0 →
      ((head + 1) % n ≠ getF s F.SWC_TAP_TAIL_TAIL → ∃ t, exec (.tapCapture dep inp outp bytes wait queued) s = .next t ∧ SameMemBut a 80 s t ∧
        rdB t a 80 = bytes ++ leBytes 8 (s.dtime.toNat - (if dep then wait.toNat else 0)) ++ leBytes 4 (if dep then wait.toNat else 0) ++ leBytes 1 inp.toNat ++ leBytes 1 outp.toNat ++ leBytes 2 (min 0xFFFF queued) ∧
        getF t F.SWC_TAP_HEAD_HEAD = (head + 1) % n) ∧
      ((head + 1) % n = getF s F.SWC_TAP_TAIL_TAIL → ∃ t, exec (.tapCapture dep inp outp bytes wait queued) s = .next t ∧ t.mem = s.mem ∧
        getF t ⟨.SWC_TAPLOST_CNT, 47, 0⟩ = (getF s ⟨.SWC_TAPLOST_CNT, 47, 0⟩ + 1) % 2 ^ 48))

/-- The frames of a LOCKED cell link (R407 to R411): the frame with the expected FSEQ is taken and its cell admitted; one with a bad CRC, and one past a gap, is answered with one RETRY; a duplicate is not taken again. RETRY and the replay timeout send again what is unacknowledged; the resend timeout sends the RETRY again; IDLE
shows the peer's chip, which is then reached. -/
def Claim.CellLinkFrames : Prop :=
  ∀ (link : Fin 3) (f : LinkFrame) (s : State), linkState s link.val = 4 →
    let l := link.val
    let x := linkOf s l
    let frame (kind fseq : Nat) (c : List Byte) (y : CellLink) : Out := .linkFrame l kind fseq ((y.expect + 1023) % 1024) ((512 + y.freed) % 1024) c
    let kept := x.kept.filter fun k => decide (512 ≤ (f.ackseq + 1024 - k.1 % 1024) % 1024)
    let retried (i : Instr) : Prop := ∃ t, exec i s = .next t ∧ t.out = s.out ++ [frame 2 0 (idleCell s) x] ∧ (linkOf t l).asked = true ∧ (linkOf t l).expect = x.expect ∧ t.mem = s.mem
    (f.crcOk = true →
      (∀ o pool, f.fseq = x.expect → x.expect < 1024 → cellOutput s f.cell = some o → ingressOf s (83 + 2 * l) o = [] → admitPool s o (cTc f.cell) = some pool →
        isF s F.SWC_TAP_CTL_EN = false → ∃ t b, exec (.cellFrame link f) s = .next t ∧ t.out = s.out ∧ (linkOf t l).expect = (x.expect + 1) % 1024 ∧
          (linkOf t l).asked = false ∧ (linkOf t l).freed = (x.freed + 1) % 1024 ∧ (linkOf t l).acked = f.ackseq ∧ (linkOf t l).cred = f.credsum ∧
          kget t.sw.buf ((o * 96 + (83 + 2 * l)) * 8 + cTc f.cell) = some (kgetD s.sw.buf ((o * 96 + (83 + 2 * l)) * 8 + cTc f.cell) [] ++ [b]) ∧ b.pool = pool) ∧
      ((f.fseq + 1024 - x.expect) % 1024 ≠ 0 → (f.fseq + 1024 - x.expect) % 1024 < 512 → x.asked = false → retried (.cellFrame link f)) ∧
      (512 ≤ (f.fseq + 1024 - x.expect) % 1024 → ∃ t, exec (.cellFrame link f) s = .next t ∧ t.out = s.out ∧ t.sw.buf = s.sw.buf ∧ (linkOf t l).expect = x.expect) ∧
      (∃ t, exec (.retryFrame link f) s = .next t ∧ t.out = s.out ++ kept.map (fun k => frame 1 k.1 k.2 x) ∧
        getF t ⟨.GANG_LNK_RETRY_CNT, 47, 0⟩ l = (getF s ⟨.GANG_LNK_RETRY_CNT, 47, 0⟩ l + 1) % 2 ^ 48 ∧ t.mem = s.mem) ∧
      (s.host.held = [] → ∃ t, exec (.idleFrame link f) s = .next t ∧ getF t F.GANG_LNK_STAT_PEER l = bitsN (fieldN f.cell 0 1) 1 0 ∧
        (getF t F.GANG_STAT_REACH).testBit (bitsN (fieldN f.cell 0 1) 1 0) = true ∧ t.out = s.out ∧ t.mem = s.mem)) ∧
    (f.crcOk = false → x.asked = false → retried (.cellFrame link f) ∧ retried (.retryFrame link f) ∧ retried (.idleFrame link f)) ∧
    (x.kept ≠ [] → ∃ t, exec (.replayTimeout link) s = .next t ∧ t.out = s.out ++ x.kept.map (fun k => frame 1 k.1 k.2 x) ∧ t.sw = s.sw ∧ t.mem = s.mem) ∧
    (x.asked = true → exec (.retryResendTimeout link) s = .next { s with out := s.out ++ [frame 2 0 (idleCell s) x] })

/-- The states of a cell link (R408, R412): EN takes a DOWN link to TRAIN, and its clearing takes it DOWN; trained, it searches; four marks in place lock it; three marks of a LOCKED link out of place lose the lock, which is counted; a link that comes back asks for a replay; a link that goes down reports the chips that can be reached, and the job whose descriptor is in a cell
that no path takes ends with INTERNAL 5. -/
def Claim.CellLinkStates : Prop :=
  ∀ (link : Fin 3) (v : Word) (diff : BitVec 7) (reach : BitVec 4) (s : State),
    let l := link.val
    let x := linkOf s l
    let goes (i : Instr) (st : Nat) : Prop := ∃ t, exec i s = .next t ∧ linkState t l = st ∧ t.out = s.out ∧ t.mem = s.mem
    (bit v 0 = true → isF s F.GANG_LNK_CTL_EN l = false → linkState s l = 0 → goes (.cellLinkEnable link v) 1) ∧
    (bit v 0 = false → isF s F.GANG_LNK_CTL_EN l = false → goes (.cellLinkEnable link v) 0) ∧
    (linkState s l = 1 → goes (.cellLinkTrained link) 2) ∧
    (linkState s l = 2 → diff = 0 → goes (.syncMark link diff) 3) ∧
    (linkState s l = 3 → diff ≠ 0 → goes (.syncMark link diff) 2) ∧
    (linkState s l = 3 → diff = 0 → x.confirm < 3 → goes (.syncMark link diff) 3) ∧
    (linkState s l = 3 → diff = 0 → 3 ≤ x.confirm → x.begun = false → goes (.syncMark link diff) 4) ∧
    (linkState s l = 3 → diff = 0 → 3 ≤ x.confirm → x.begun = true → ∃ t, exec (.syncMark link diff) s = .next t ∧ linkState t l = 4 ∧
      t.out = s.out ++ [.linkFrame l 2 0 ((x.expect + 1023) % 1024) ((512 + x.freed) % 1024) (idleCell s)]) ∧
    (linkState s l = 4 → diff.toNat ≤ 3 → ∃ t, exec (.syncMark link diff) s = .next t ∧ linkState t l = 4 ∧ getF t F.GANG_LNK_STAT_MISS l = 0) ∧
    (linkState s l = 4 → 3 < diff.toNat → getF s F.GANG_LNK_STAT_MISS l = 2 → ∃ t, exec (.syncMark link diff) s = .next t ∧ linkState t l = 2 ∧
      getF t ⟨.GANG_LNK_LOCKLOSS_CNT, 47, 0⟩ l = (getF s ⟨.GANG_LNK_LOCKLOSS_CNT, 47, 0⟩ l + 1) % 2 ^ 48) ∧
    (linkState s l ≠ 0 → (∀ c ∈ s.host.fwds, c.fwd = false) →
      (∃ t, exec (.cellLinkDown link reach) s = .next t ∧ linkState t l = 0 ∧ getF t F.GANG_STAT_REACH = reach.toNat ∧ t.mem = s.mem) ∧
      ∀ c id, x.kept = [] → x.queue = [c] → reach = 0 → (∀ k < 3, k ≠ l → linkState s k ≠ 4) → cellJob s c = some id →
        ∃ t, exec (.cellLinkDown link reach) s = .next t ∧ JobDone t id (internal 5))

/-! ### The partner -/

/-- The partner is declared dead (R427, R429, R432): FENCE_OUT_N is asserted, the head is in solo mode, and every group of the partner is TAKING while its own are SETTLED. -/
def DeclaresDead (s t : State) : Prop :=
  t.partner.dead = true ∧ t.partner.fenceOut = true ∧ isF t F.TA_CTL_SOLO = true ∧ isF t F.SYS_PTR_STAT_TAKE = true ∧
    ∀ g < 1024, grpPos t g = (if grpOwner s g = headNo s then 0 else 2) ∧ grpOwner t g = grpOwner s g

/-- A race for the arbiter has begun (R430): every group is HELD, and an Acquire has been sent. -/
def StartsRace (s t : State) : Prop :=
  t.partner.race = true ∧ t.partner.tries = 1 ∧ (∀ g < 1024, grpPos t g = 1) ∧
    getF t ⟨.SYS_RACE_CNT, 47, 0⟩ = (getF s ⟨.SYS_RACE_CNT, 47, 0⟩ + 1) % 2 ^ 48 ∧
    Sends s t (.arbiter 1 (getF s F.SYS_PTR_ARB_PORT) (getF s F.SYS_PTR_ARB_DEV) (getF s F.SYS_PTR_ARB_NSID) (arbiterKey s))

/-- A head is FENCED (R431): head state 5, its HEALTH_OUT still, and a head reset with the source 0x08. -/
def Fences (s t : State) : Prop := headState t = 5 ∧ t.rst.health = false ∧ Resets s t 0x08

/-- Heartbeats (R421, R428, R429): one leaves on every P port; the partner's is taken; without the magic, or of a dead head past SYNC, it is nothing. A period with one clears MISSED; one without is counted. An edge of the pin sets HLTH.
One that reports DRAIN ends the handovers not journalled. -/
def Claim.Heartbeats : Prop :=
  ∀ (port : BitVec 7) (bytes : List Byte) (s : State),
    (s.rst.asserted = none → s.rst.idle = false → headState s ≠ 6 →
      let u : State := { s with partner := { s.partner with hbnum := (s.partner.hbnum + 1) % 65536 } }
      exec .heartbeatSend s = .next { u with out := s.out ++ (List.range 7).map fun i => .partner (.heartbeat (76 + i) (heartbeatBytes u)) }) ∧
    (fieldN bytes 0 4 ≠ 0x4842_5A4E → exec (.heartbeat port bytes) s = .next s) ∧
    (fieldN bytes 0 4 = 0x4842_5A4E → fieldN bytes 4 1 = 1 - headNo s →
      let new := fieldN bytes 5 1 % 8
      (s.partner.dead = true → 1 < new → exec (.heartbeat port bytes) s = .next s) ∧
      (s.partner.dead = false → s.host.held = [] → ∃ t, exec (.heartbeat port bytes) s = .next t ∧ t.partner.hb = true ∧ partnerState t = new ∧
        t.partner.pdone = fieldN bytes 16 8 ∧ t.ta.plow = fieldN bytes 40 8 ∧ t.partner.oxor = fieldN bytes 48 8 ∧ t.partner.epoch = fieldN bytes 56 4 ∧
        (new = 4 → partnerState s ≠ 4 → ∀ g < 1024, grpPos s g = 3 → g ∉ s.partner.expired → grpPos t g = 0))) ∧
    (s.partner.hb = true → ∃ t, exec .heartbeatPeriodEnd s = .next t ∧ getF t F.SYS_PTR_STAT_MISSED = 0 ∧ t.partner = { s.partner with hb := false } ∧ t.out = s.out) ∧
    (s.partner.hb = false → getF s F.SYS_PTR_STAT_MISSED ≠ 3 → ∃ t, exec .heartbeatPeriodEnd s = .next t ∧ t.partner = s.partner ∧
      getF t F.SYS_PTR_STAT_MISSED = min 15 (getF s F.SYS_PTR_STAT_MISSED + 1) ∧ getF t ⟨.SYS_HBMISS_CNT, 47, 0⟩ = (getF s ⟨.SYS_HBMISS_CNT, 47, 0⟩ + 1) % 2 ^ 48) ∧
    ∃ t, exec .partnerHealthEdge s = .next t ∧ isF t F.SYS_PTR_STAT_HLTH = true ∧ t.partner = s.partner ∧ t.mem = s.mem ∧ t.out = s.out

/-- Races and fences (R427 to R431): four missed heartbeats together with lost health declare the partner dead; with one sign alone the head races, or notes it. The winner declares the partner dead; a loser, a head whose fourth Acquire
is not answered, and one that sees FENCE_IN_N outside BOOT, is fenced. -/
def Claim.RacesAndFences : Prop :=
  ∀ s : State, getF s F.FSQ_BUNG_STAT_PSTATE = 0 → s.pwr.degraded = false →
    (watches s = true → s.partner.hb = false → getF s F.SYS_PTR_STAT_MISSED = 3 →
      (isF s F.SYS_PTR_STAT_HLTH = false → ∃ t, exec .heartbeatPeriodEnd s = .next t ∧ DeclaresDead s t) ∧
      (isF s F.SYS_PTR_STAT_HLTH = true → ∃ t, exec .heartbeatPeriodEnd s = .next t ∧ StartsRace s t)) ∧
    (watches s = true → isF s F.SYS_PTR_STAT_HLTH = true → ∃ t, exec .healthTimeout s = .next t ∧ isF t F.SYS_PTR_STAT_HLTH = false ∧
      (4 ≤ getF s F.SYS_PTR_STAT_MISSED → DeclaresDead s t) ∧ (getF s F.SYS_PTR_STAT_MISSED < 4 → t.partner = s.partner ∧ t.out = s.out)) ∧
    (s.partner.race = true → s.partner.dead = false → ∃ t, exec (.arbiterAnswer true) s = .next t ∧ DeclaresDead s t ∧ t.partner.arb = true ∧ getF t F.SYS_PTR_STAT_RACE = 1) ∧
    (s.partner.race = true → NoReset s → ∃ t, exec (.arbiterAnswer false) s = .next t ∧ Fences s t ∧ getF t F.SYS_PTR_STAT_RACE = 2) ∧
    (s.partner.race = true → s.partner.tries < 4 → exec .arbiterRetry s = .next { s with
      partner := { s.partner with tries := s.partner.tries + 1 }
      out := s.out ++ [.arbiter 1 (getF s F.SYS_PTR_ARB_PORT) (getF s F.SYS_PTR_ARB_DEV) (getF s F.SYS_PTR_ARB_NSID) (arbiterKey s)] }) ∧
    (s.partner.race = true → 4 ≤ s.partner.tries → NoReset s → ∃ t, exec .arbiterRetry s = .next t ∧ Fences s t ∧ getF t F.SYS_PTR_STAT_RACE = 3) ∧
    (headState s ≠ 0 → s.partner.fenceIn = false → NoReset s → ∃ t, exec .fenceIn s = .next t ∧ Fences s t ∧ t.partner.fenceIn = true) ∧
    (headState s = 0 → exec .fenceIn s = .next { s with partner := { s.partner with fenceIn := true } }) ∧
    (s.boot.waits = false → exec .fenceInRelease s = .next { s with partner := { s.partner with fenceIn := false } }) ∧
    (s.boot.waits = true → ∃ t, exec .fenceInRelease s = .next t ∧ headState t = 1 ∧ t.boot.waits = false) ∧
    (headState s = 1 → s.partner.race = false → s.partner.dead = false → ∃ t, exec .syncPartnerTimeout s = .next t ∧ StartsRace s t)

/-- Takeover (R432): once every accepted record of the dead partner is applied and FENCE_OUT_N has stood for 20,000 CORE cycles, this head owns every group that is TAKING, with its OEPOCH one higher, SETTLED, and TAKE is clear. -/
def Claim.Takeover : Prop :=
  ∀ s : State, s.partner.dead = true → isF s F.SYS_PTR_STAT_TAKE = true → (∀ r ∈ s.ta.mrecs, r.done = true) → s.partner.t0 + 10000 ≤ s.dtime.toNat → s.ta.ptuns = [] → getF s F.ME_CGSTAT_PSTATE = 0 →
    s.host.held = [] → s.host.fwds = [] →
    ∃ t, exec .takeover s = .next t ∧ isF t F.SYS_PTR_STAT_TAKE = false ∧ (headState s = 1 → headState t = 2) ∧
      getF t ⟨.SYS_TAKE_CNT, 47, 0⟩ = (getF s ⟨.SYS_TAKE_CNT, 47, 0⟩ + 1) % 2 ^ 48 ∧
      ∀ g < 1024, (grpPos s g = 2 → grpPos t g = 0 ∧ grpOwner t g = headNo s ∧ getF t F.SYS_GRP_OEPOCH g = (getF s F.SYS_GRP_OEPOCH g + 1) % 2 ^ 32) ∧
        (grpPos s g ≠ 2 → rd t .SYS_GRP g = rd s .SYS_GRP g)

/-- SYNC (R422, R427, R435): the survivor releases FENCE_OUT_N and sends the returning head its copy; the returning head takes the groups' owners and epochs, all HELD; the link key epoch is one above both. Once the lag is within LAGMAX, the survivor leaves solo mode and the head in SYNC is ACTIVE with every group SETTLED. -/
def Claim.Sync : Prop :=
  ∀ s : State,
    let epoch := (max (getF s F.XE_PLINK_EPOCH) s.partner.epoch + 1) % 2 ^ 32
    (s.partner.dead = true → partnerState s ≤ 1 → s.partner.hb = true → isF s F.SYS_PTR_STAT_TAKE = false →
      ∃ t c, exec (.syncStart none) s = .next t ∧ Sends s t (.partner (.sync c)) ∧ t.partner.fenceOut = false ∧ t.partner.syncing = true ∧ getF t F.XE_PLINK_EPOCH = epoch) ∧
    (∀ c : SyncCopy, s.partner.dead = false → headState s = 1 → s.partner.hb = true → s.partner.race = false → partnerState s = 2 → c.ring = [] → c.acts = [] →
      ∃ t, exec (.syncStart (some c)) s = .next t ∧ t.partner.syncing = true ∧ getF t F.XE_PLINK_EPOCH = epoch ∧
        ∀ g < 1024, grpPos t g = 1 ∧ grpOwner t g = bits (copyWord c .SYS_GRP g) 1 1 ∧ getF t F.SYS_GRP_OEPOCH g = bits (copyWord c .SYS_GRP g) 63 32) ∧
    (s.partner.syncing = true → applyLag s ≤ lagMax s →
      (s.partner.dead = true → ∃ t, exec .syncComplete s = .next t ∧ isF t F.TA_CTL_SOLO = false ∧ isF t F.SYS_PTR_STAT_SYNCD = true ∧ t.partner.dead = false ∧
        t.partner.syncing = false ∧ ∃ p d n k, t.out = s.out ++ [.arbiter 2 p d n k]) ∧
      (s.partner.dead = false → headState s = 1 → s.host.held = [] → ∃ t, exec .syncComplete s = .next t ∧ headState t = 2 ∧ isF t F.SYS_PTR_STAT_SYNCD = true ∧
        ∀ g < 1024, grpPos t g = 0)) ∧
    (s.partner.syncing = false → exec .syncComplete s = .next s)

/-- Handover and failback (R436, R437): a head gives a group it owns to an ACTIVE partner, which becomes the receiver; when the wait is over, the change of OWNER is journalled, once. Failback hands over the groups whose HOME is the partner, the lowest first. -/
def Claim.Handover : Prop :=
  ∀ (g : BitVec 10) (s : State), s.host.held = [] →
    let n := g.toNat
    (partnerActive s = true → grpPos s n = 0 → grpOwner s n = headNo s → (groups fun k => grpPos s k = 3) = [] →
      ∃ t, exec (.handoverStart g false) s = .next t ∧ grpPos t n = 3 ∧ grpOwner t n = headNo s ∧ Sends s t (.partner (.handover n)) ∧ t.mem = s.mem) ∧
    (getF s F.PWR_PF_STEP = 0 → grpPos s n = 0 → grpOwner s n ≠ headNo s → ∃ t, exec (.handoverStart g true) s = .next t ∧ grpPos t n = 4 ∧ t.mem = s.mem) ∧
    (grpPos s n = 3 → n ∉ s.partner.expired → ∃ t r, exec (.handoverWaitExpiry g) s = .next t ∧ t.partner.expired = n :: s.partner.expired ∧
      (r ∈ t.ta.recs ∨ r ∈ t.ta.waiting) ∧ r.acts = [.owner n (1 - headNo s) (getF s F.SYS_GRP_OEPOCH n + 1)]) ∧
    (grpPos s n = 3 → n ∈ s.partner.expired → exec (.handoverWaitExpiry g) s = .next s) ∧
    (∀ k, headState s = 2 → isF s F.SYS_PTR_CTL_FBEN = true → partnerActive s = true → (groups fun k => grpPos s k = 3) = [] →
      ((ownedGroups s).find? fun k => getF s F.SYS_GRP_HOME k ≠ headNo s) = some k →
      ∃ t, exec .failbackSettle s = .next t ∧ t.partner.failback = true ∧ grpPos t k = 3 ∧ Sends s t (.partner (.handover k)))

/-- The link rekey (R422): GO of head A with a key staged and the link up proposes it; the partner answers ACK where it holds the same staged, else NAK, which ends the rekey as REFUSED. After ACK both drain; once SWITCH has been sent and received on every PARTNER queue pair, the staged key is in force. -/
def Claim.LinkRekey : Prop :=
  ∀ (v : Word) (epoch : BitVec 32) (en : Bool) (s : State),
    (bit v 0 = true → headB s = false → linkUp s = true → isF s F.XE_PLINK_NEXT_BUSY = false →
      (bit v 2 = true → ∃ t, exec (.rekeyGo v) s = .next t ∧ isF t F.XE_PLINK_NEXT_BUSY = true ∧ t.out = s.out ++ [.partner (.rekey (bits v 63 32) (bit v 1))] ∧ t.mem = s.mem) ∧
      (bit v 2 = false → ∃ t, exec (.rekeyGo v) s = .next t ∧ isF t F.XE_PLINK_NEXT_REFUSED = true ∧ isF t F.XE_PLINK_NEXT_BUSY = false ∧ t.out = s.out)) ∧
    (isF s F.XE_PLINK_NEXT_STAGED = true → getF s F.XE_PLINK_NEXT_EPOCH = epoch.toNat → isF s F.XE_PLINK_NEXT_EN = en →
      ∃ t, exec (.rekey epoch en) s = .next t ∧ t.out = s.out ++ [.partner .rekeyAck] ∧ isF t F.XE_PLINK_NEXT_BUSY = true ∧
        t.rekey = { draining := true, qps := partnerQps s }) ∧
    (isF s F.XE_PLINK_NEXT_STAGED = false → exec (.rekey epoch en) s = .next { s with out := s.out ++ [.partner .rekeyNak] }) ∧
    (isF s F.XE_PLINK_NEXT_BUSY = true → s.rekey.draining = false →
      (s.rekey.switched = false → ∃ t, exec .rekeyAck s = .next t ∧ t.rekey = { draining := true, qps := partnerQps s } ∧ t.out = s.out) ∧
      (s.rekey.switched = false → ∃ t, exec .rekeyNak s = .next t ∧ isF t F.XE_PLINK_NEXT_REFUSED = true ∧ isF t F.XE_PLINK_NEXT_BUSY = false ∧ t.rekey = s.rekey) ∧
      (∀ q : BitVec 17, s.rekey.qps = [q.toNat] → s.rekey.switched = true → ∃ t, exec (.rekeySwitch (some q)) s = .next t ∧
        getF t F.XE_PLINK_EPOCH = getF s F.XE_PLINK_NEXT_EPOCH ∧ getF t F.XE_PLINK_KEYSLOT = getF s F.XE_PLINK_NEXT_KEYSLOT ∧
        isF t F.XE_PLINK_EN = isF s F.XE_PLINK_NEXT_EN ∧ isF t F.XE_PLINK_NEXT_DONE = true ∧ isF t F.XE_PLINK_NEXT_BUSY = false ∧
        isF t F.XE_PLINK_NEXT_STAGED = false ∧ t.rekey = {})) ∧
    (s.rekey.draining = true → s.rekey.qps ≠ [] → s.rekey.got = [] →
      exec (.rekeySwitch none) s = .next { s with
        rekey := { s.rekey with draining := false, switched := true }
        out := s.out ++ s.rekey.qps.map fun q => .partner (.rekeySwitch q) })

/-- The partner window and PTP (R26, R443): a load that the partner does not answer is an ACCESS fault; a PTP message sets DTIME. -/
def Claim.PartnerWindowAndTime : Prop :=
  ∀ (k : BitVec 4) (addr time : Word) (locks : Bool) (s : State),
    (∀ c, regionOf s addr.toNat = .partner → kget s.stews k.toNat = some c → c.run = true →
      exec (.partnerReadTimeout k addr) s = .next (raiseFault (.stew k.toNat) 0 fAccess addr.toNat s)) ∧
    (regionOf s addr.toNat ≠ .partner → exec (.partnerReadTimeout k addr) s = .next s) ∧
    exec (.ptpMessage time locks) s = .next { s with dtime := time, partner := { s.partner with locked := locks } }

/-! ### Power, temperature, resets and boot -/

/-- Supplies (R451, R454): PFA and PFB follow the pins; the loss of one supply while the other is good is counted and shown. A supply that returns after step 7 resets the head. -/
def Claim.Supplies : Prop :=
  ∀ (a b : Bool) (s : State),
    (∃ t, exec (.pfailInput a b) s = .next t ∧ isF t F.PWR_PSU_PFA = a ∧ isF t F.PWR_PSU_PFB = b ∧ t.mem = s.mem ∧
      (a = true → b = false → isF s F.PWR_PSU_PFA = false → isF s F.PWR_PSU_PRESA = true → isF s F.PWR_PSU_PRESB = true →
        isF t F.PWR_PSU_LOSTONE = true ∧ getF t ⟨.PWR_PSULOSS_CNT, 47, 0⟩ = (getF s ⟨.PWR_PSULOSS_CNT, 47, 0⟩ + 1) % 2 ^ 48)) ∧
    (isF s F.PWR_PSU_PRESA = true → isF s F.PWR_PSU_PFA = false → s.rst.asserted = none → s.rst.held = false →
      (getF s F.PWR_PF_STEP = 7 → ∃ t, exec .powerReturn s = .next t ∧ isF t F.PWR_PF_RETURN = true ∧ Resets s t 0x09) ∧
      (getF s F.PWR_PF_STEP = 4 → ∃ t, exec .powerReturn s = .next t ∧ isF t F.PWR_PF_RETURN = true ∧ t.rst = s.rst) ∧
      (getF s F.PWR_PF_STEP = 0 → exec .powerReturn s = .next s))

/-- The power-fail sequence (R453, R462 to R464): its steps come in order. Step 1 counts and enters DRAIN; step 4 stops the cores and writes the own-journal image to the vault drives that have not failed, its header last; from step 3 on no record of the own ring becomes DONE for a job; step 7 sets VAULT_DONE where both images are written. A drive that fails is left out. -/
def Claim.PowerFailSequence : Prop :=
  ∀ (n : BitVec 3) (d : BitVec 2) (s : State),
    (n.toNat ≠ getF s F.PWR_PF_STEP + 1 → exec (.powerFailStart n) s = .next s) ∧
    (n = 1 → getF s F.PWR_PF_STEP = 0 → allFail s = true → ∃ t, exec (.powerFailStart n) s = .next t ∧ getF t F.PWR_PF_STEP = 1 ∧
      getF t ⟨.PWR_PF_CNT, 47, 0⟩ = (getF s ⟨.PWR_PF_CNT, 47, 0⟩ + 1) % 2 ^ 48 ∧ ((headState s = 2 ∨ headState s = 3) → headState t = 4)) ∧
    (n.toNat = getF s F.PWR_PF_STEP + 1 → n ≠ 1 → ∃ t, exec (.powerFailStart n) s = .next t ∧ getF t F.PWR_PF_STEP = n.toNat) ∧
    (n = 3 → getF s F.PWR_PF_STEP = 2 → getF s F.PWR_PF_HOMS = 0 → ∃ t, exec (.powerFailStart n) s = .next t ∧ ∀ r ∈ t.ta.recs, r.done = false → r.job = none) ∧
    (n = 4 → getF s F.PWR_PF_STEP = 3 → journalHere s = true → soloMode s = false → vaultDrives s ≠ [] →
      ∃ t, exec (.powerFailStart n) s = .next t ∧ t.pwr.gen = s.pwr.gen + 1 ∧ (∀ k c, kget t.stews k = some c → c.run = false) ∧
        Sends s t (.vaultWrite ((vaultDrives s).map fun d => (d, 0x4_0000, imageHeader s false 1 (s.pwr.gen + 1), zeros 64)))) ∧
    (n = 7 → getF s F.PWR_PF_STEP = 6 → s.pwr.images = 3 → s.pwr.later = none → isF s F.PWR_PF_RETURN = false →
      ∃ t, exec (.powerFailStart n) s = .next t ∧ isF t F.PWR_PF_VDONE = true ∧ t.rst = s.rst) ∧
    (isF s F.PWR_VAULT_EN = true → ∃ t, exec (.vaultDriveTimeout d) s = .next t ∧ (getF t F.PWR_VSTAT_FAILED).testBit d.toNat = true ∧ d.toNat ∉ vaultDrives t ∧ t.mem = s.mem)

/-- Adaptive voltage and droop (R450, R465): an acknowledged step is the new TARGET; a new step lies within 5 mV of it, and one without an answer is sent again with NACK. A droop trip shows its region, halves its clock and is counted; its release ends it. -/
def Claim.VoltageAndDroop : Prop :=
  ∀ (n : BitVec 5) (s : State),
    let k := n.toNat
    let cur : Int := getF s F.PWR_AVS_TARGET
    let next := (clampI (cur - 5) (cur + 5) (avsGoal s)).toNat
    (isF s F.PWR_AVS_EN = true →
      (∀ v, s.pwr.avsSent = some v → v < 1024 →
        (∃ t, exec (.avsStep true) s = .next t ∧ getF t F.PWR_AVS_TARGET = v ∧ t.pwr = { s.pwr with avsSent := none } ∧ t.out = s.out) ∧
        (∃ t, exec .avsAckTimeout s = .next t ∧ t.out = s.out ++ [.avs v] ∧ isF t F.PWR_AVS_NACK = true ∧ t.pwr = s.pwr)) ∧
      (s.pwr.avsSent = none → exec (.avsStep false) s = .next (if next = getF s F.PWR_AVS_TARGET then s else
        { s with
          pwr := { s.pwr with avsSent := some next }
          out := s.out ++ [.avs next] }))) ∧
    (isF s F.PWR_DROOP_EN = true → (getF s F.PWR_DROOPSTAT_ACTIVE).testBit k = false → ∃ t, exec (.droopTrip n) s = .next t ∧
      (getF t F.PWR_DROOPSTAT_ACTIVE).testBit k = true ∧ isF t F.THM_LVL_DROOP k = true ∧
      getF t ⟨.PWR_DROOP_CNT, 47, 0⟩ k = (getF s ⟨.PWR_DROOP_CNT, 47, 0⟩ k + 1) % 2 ^ 48 ∧ t.mem = s.mem) ∧
    (∃ t, exec (.droopRelease n) s = .next t ∧ (getF t F.PWR_DROOPSTAT_ACTIVE).testBit k = false ∧ isF t F.THM_LVL_DROOP k = false ∧ t.mem = s.mem)

/-- Sensors, throttling, stop and trip (R467 to R474): a conversion asks every sensor; a valid reading is kept and moves its region's floor at THROT and HOT, which falls 3 °C below THROT; a sensor that does not convert is broken and its region reads as THROT. At STOP the head stops in order, or holds every region where the partner is not ACTIVE;
at TRIP it resets. -/
def Claim.SensorResults : Prop :=
  ∀ (n : BitVec 5) (r : BitVec 16) (s : State), s.pwr.converting.contains n.toNat = true → r.toNat ≤ 2400 →
    let k := n.toNat
    let at_ (f : Fld) : Nat := 16 * getF s f
    let keeps (t : State) : Prop := getF t F.THM_SEN_TEMP k = r.toNat ∧ isF t F.THM_SEN_VALID k = true ∧ isF t F.THM_SEN_BROKEN k = false
    (exec .sensorConversion s = .next { s with pwr := { s.pwr with converting := List.range 32 } }) ∧
    (s.rst.held = false → r.toNat < at_ F.THM_LIM_STOP → r.toNat < at_ F.THM_LIM_TRIP → ∃ t, exec (.sensorResult n (some r)) s = .next t ∧ keeps t ∧ t.rst = s.rst ∧
      (at_ F.THM_LIM_HOT ≤ r.toNat → getF t F.THM_LVL_FLOOR k = 3) ∧
      (at_ F.THM_LIM_THROT ≤ r.toNat → r.toNat + 48 ≤ at_ F.THM_LIM_HOT → getF t F.THM_LVL_FLOOR k = 2) ∧
      (r.toNat + 48 ≤ at_ F.THM_LIM_THROT → at_ F.THM_LIM_THROT ≤ at_ F.THM_LIM_HOT → getF t F.THM_LVL_FLOOR k = 0)) ∧
    (s.rst.held = false → isF s F.THM_SEN_BROKEN k = false → isF s F.THM_CTL_XCHK = false → ∃ t, exec (.sensorResult n none) s = .next t ∧ isF t F.THM_SEN_BROKEN k = true ∧
      (getF t F.THM_STAT_BROKEN).testBit k = true ∧ getF t ⟨.THM_BROKEN_CNT, 47, 0⟩ = (getF s ⟨.THM_BROKEN_CNT, 47, 0⟩ + 1) % 2 ^ 48 ∧ 2 ≤ getF t F.THM_LVL_FLOOR k) ∧
    (s.rst.held = false → at_ F.THM_LIM_STOP ≤ r.toNat → r.toNat < at_ F.THM_LIM_TRIP → getF s F.PWR_PF_STEP = 0 → isF s F.THM_STAT_STOPPING = false → getF s F.PWR_PSTATE_CUR ≠ 2 →
      (partnerActive s = true → ∃ t, exec (.sensorResult n (some r)) s = .next t ∧ keeps t ∧ isF t F.THM_STAT_STOPPING = true ∧ headState t = 4 ∧ t.pwr.want = some 2 ∧ t.pwr.orderly = true) ∧
      (partnerActive s = false → ∃ t, exec (.sensorResult n (some r)) s = .next t ∧ keeps t ∧ isF t F.THM_STAT_NOSTOP = true)) ∧
    (at_ F.THM_LIM_TRIP ≤ r.toNat → NoReset s →
      ∃ t, exec (.sensorResult n (some r)) s = .next t ∧ isF t F.THM_STAT_TRIPPED = true ∧ Resets s t 0x0A)

/-- STANDBY and PARK (R489 to R494): a request of an ACTIVE head with an ACTIVE partner is made for, any other refused; once its groups are handed over and its contexts have ended the head is in STANDBY, its metadata cache without power, or in PARK, its rails off and its contexts gone; the end of the drain time refuses it. STANDBY ends in ACTIVE, and a wake of PARK in a
head reset, unless a region is too hot. -/
def Claim.PowerStates : Prop :=
  ∀ (v : Word) (s : State),
    let asks (i : Instr) (w : Nat) : Prop := (headState s = 2 → s.pwr.want = none →
      (partnerActive s = true → ∃ t, exec i s = .next t ∧ t.pwr.want = some w) ∧
      (partnerActive s = false → ∃ t, exec i s = .next t ∧ isF t F.PWR_PSTATE_REFUSED = true ∧ getF t F.PWR_PSTATE_ERR = 2 ∧ t.pwr = s.pwr)) ∧
      (headState s ≠ 2 → ∃ t, exec i s = .next t ∧ isF t F.PWR_PSTATE_REFUSED = true ∧ getF t F.PWR_PSTATE_ERR = 1 ∧ t.pwr = s.pwr)
    let hot := ∃ n < 32, ∃ t, regionReading s n = some t ∧ limit s F.THM_LIM_THROT ≤ t
    let wakes (i : Instr) : Prop := getF s F.PWR_PSTATE_CUR = 2 → s.pwr.want = none →
      (¬hot → s.boot.pwrgood = true → NoReset s → ∃ t, exec i s = .next t ∧ Sends s t (.rails true) ∧ Resets s t 0x0C) ∧
      (hot → ∃ t, exec i s = .next t ∧ isF t F.PWR_PSTATE_REFUSED = true ∧ getF t F.PWR_PSTATE_ERR = 4 ∧ t.rst = s.rst)
    (bits v 1 0 = 1 → asks (.standbyRequest (some v)) 1) ∧ (bits v 1 0 = 2 → asks (.parkRequest (some v)) 2) ∧
    (s.pwr.want = some 1 → drained s = true → ∃ t, exec (.standbyRequest none) s = .next t ∧ headState t = 3 ∧ getF t F.PWR_PSTATE_CUR = 1 ∧ t.mc = {} ∧ t.pwr.want = none ∧ t.me = s.me) ∧
    (s.pwr.want = some 1 → ∃ t, exec .standbyDrainTimeout s = .next t ∧ isF t F.PWR_PSTATE_REFUSED = true ∧ getF t F.PWR_PSTATE_ERR = 3 ∧ t.pwr = { s.pwr with want := none }) ∧
    (bits v 1 0 = 0 → getF s F.PWR_PSTATE_CUR = 1 → ∃ t, exec (.standbyExit v) s = .next t ∧ headState t = 2 ∧ getF t F.PWR_PSTATE_CUR = 0) ∧
    (s.pwr.want = some 2 → drained s = true → ∃ t, exec (.parkRequest none) s = .next t ∧ headState t = 6 ∧ getF t F.PWR_PSTATE_CUR = 2 ∧ Sends s t (.rails false) ∧ t.ctxs = [] ∧ t.jobs = [] ∧
      ∀ k c, kget t.stews k = some c → c.run = false) ∧
    wakes .parkWakeRequest ∧ wakes .smbWake ∧
    (getF s F.PWR_PSTATE_CUR = 2 → s.pwr.orderly = true → isF s F.PWR_PSTATE_AUTOWAKE = true → s.pwr.want = none → s.boot.pwrgood = true → NoReset s →
      (∀ n < 32, sensorValid s n = true → readingOf (getF s F.THM_SEN_TEMP n) < limit s F.THM_LIM_THROT) →
      ∃ t, exec .autowakeTimer s = .next t ∧ Sends s t (.rails true) ∧ Resets s t 0x0C)

/-- The sources of a head reset (R484, R485, R488, R503, R504): each asserts a head reset with its code; a further source sets its bit in ALSO; while the power-fail sequence runs a source waits for its end. A request without the key, and an expiry with the watchdog off, are nothing but a record. -/
def Claim.ResetSources : Prop :=
  ∀ (v : Word) (s : State),
    let source (i : Instr) (code : Nat) : Prop :=
      (NoReset s → ∃ t, exec i s = .next t ∧ Resets s t code ∧ t.mem = s.mem ∧ t.stews = s.stews) ∧
      (∀ c, s.rst.asserted = some c → s.rst.t0 ≠ s.dtime.toNat → ∃ t, exec i s = .next t ∧ t.rst.asserted = some c ∧ (getF t F.SYS_RSTSRC_ALSO).testBit code = true ∧
        getF t F.SYS_RSTSRC_CODE = getF s F.SYS_RSTSRC_CODE) ∧
      (s.rst.asserted = none → s.rst.held = false → getF s F.PWR_PF_STEP = 4 → s.pwr.later = none → ∃ t, exec i s = .next t ∧ t.rst.asserted = none ∧ t.pwr.later = some code)
    source .memoryEcc 0x0F ∧ (getF s F.PWR_PSTATE_CUR ≠ 2 → source .coreBrownOut 0x0D) ∧ (s.boot.holdover = true → source .clockLoss 0x0E) ∧
    (s.rst.rstn = false → s.boot.aon = true → getF s F.PWR_PSTATE_CUR ≠ 2 → source .rstN 0x01) ∧ (getF s F.SYS_SWDT_PERIOD ≠ 0 → source .swdtExpiry 0x03) ∧
    (bits v 63 32 = 0x48454144 → bit v 0 = true → source (.resetRequest v) 0x02) ∧
    (bits v 63 32 ≠ 0x48454144 → ∃ t, exec (.resetRequest v) s = .next t ∧ withLogOf s t = s) ∧
    (getF s F.SYS_SWDT_PERIOD = 0 → exec .swdtExpiry s = .next s) ∧
    (bits v 47 32 ≠ 0 → ∃ t, exec (.swdtWrite v) s = .next t ∧ getF t F.SYS_SWDT_PERIOD = bits v 47 32 ∧ t.mem = s.mem) ∧
    (bits v 47 32 = 0 → getF s F.SYS_SWDT_PERIOD ≠ 0 → ∃ t, exec (.swdtWrite v) s = .next t ∧ withLogOf s t = s ∧ getF t F.SYS_SWDT_PERIOD = getF s F.SYS_SWDT_PERIOD)

/-- The head reset (R15, R80, R486, R487): contexts, jobs and data keys are gone, HBM keeps its bytes but for the summaries of the filter, the reset source, the identity of the head and DTIME stay, V fields keep their values and H fields take their reset values; the head is in BOOT, and once nothing holds the reset only steward core 0 runs, at address 0 in P mode. -/
def Claim.HeadResetResults : Prop :=
  ∀ (code : Nat) (s : State), s.rst.asserted = some code → code ≠ 0x0D → code ≠ 0x0E → s.cel.inq = [] →
    ∃ t, exec .headReset s = .next t ∧ t.rst.asserted = none ∧ t.ctxs = [] ∧ t.jobs = [] ∧ t.xe.keys = [] ∧ t.rx = {} ∧ t.dtime = s.dtime ∧ t.pending = s.pending ∧
      headState t = 0 ∧ headNo t = headNo s ∧ getF t F.SYS_RSTSRC_CODE = getF s F.SYS_RSTSRC_CODE ∧ getF t F.SYS_RSTSRC_COUNT = getF s F.SYS_RSTSRC_COUNT ∧
      getF t F.PWR_PF_STEP = 0 ∧ getF t F.PWR_PSTATE_CUR = 0 ∧ rd t .SYS_PTR_CTL = rd s .SYS_PTR_CTL ∧ getF t F.UPD_FUSE_RBCNT = getF s F.UPD_FUSE_RBCNT ∧
      (∀ a, regionOf s a = .hbm → (a < 0x38_0000_0000 ∨ 0x48_0000_0000 ≤ a) → mget t.mem a = mget s.mem a) ∧
      (∀ a, regionOf s a = .hbm → 0x38_0000_0000 ≤ a → a < 0x48_0000_0000 → mget t.mem a = 0) ∧
      (s.rst.rstn = false → tripHolds t = false → t.stews = [(0, startCore 0)] ∧ t.rst.held = false) ∧
      (s.rst.rstn = true → t.rst.held = true ∧ t.stews = [])

/-- Power-on and pins (R484, R559): the loss of VDD_AON empties memory and stops DTIME at 0; power-on and the release of RST_N let a reset that nothing else holds end, with core 0 at address 0; PWRGOOD is noted. -/
def Claim.PowerOn : Prop :=
  ∀ (up : Bool) (s : State),
    (∃ t, exec .vddAonLoss s = .next t ∧ t.mem = [] ∧ t.dtime = 0 ∧ t.boot.aon = false ∧ t.rst.held = true ∧ t.stews = [] ∧ t.ctxs = [] ∧ t.upd.maker = s.upd.maker ∧
      getF t F.UPD_FUSE_ENROLLED = getF s F.UPD_FUSE_ENROLLED) ∧
    (s.boot.aon = true → exec .coldPowerOn s = .next s) ∧
    (s.boot.aon = false → s.rst.rstn = false → tripHolds s = false → s.boot.pwrgood = true → ∃ t, exec .coldPowerOn s = .next t ∧ t.boot.aon = true ∧
      t.stews = [(0, startCore 0)] ∧ t.rst.held = false ∧ t.mem = s.mem ∧ t.csr = s.csr) ∧
    (s.rst.held = true → tripHolds s = false → s.boot.cold = false → ∃ t, exec .rstNRelease s = .next t ∧ t.rst.rstn = false ∧ t.stews = [(0, startCore 0)] ∧ t.rst.held = false ∧ t.mem = s.mem) ∧
    (s.boot.pwrgood = up → exec (.pwrgoodChange up) s = .next s) ∧
    (s.boot.pwrgood = false → up = true → s.boot.aon = true → s.rst.held = true → s.boot.cold = true → s.rst.rstn = false → tripHolds s = false →
      ∃ t, exec (.pwrgoodChange up) s = .next t ∧ t.boot.pwrgood = true ∧ t.stews = [(0, startCore 0)] ∧ t.rst.held = false)

/-- Reference clocks (R561): the loss of the active reference takes the other, with SWITCHED, or starts the holdover where both are lost; a reference that returns ends it. -/
def Claim.ReferenceClocks : Prop :=
  ∀ (b : Bool) (s : State),
    let n := b2n b
    (refLost s n = false → getF s F.CLK_REF_ACTIVE = n →
      (refLost s (1 - n) = false → ∃ t, exec (.refclkLoss b) s = .next t ∧ refLost t n = true ∧ getF t F.CLK_REF_ACTIVE = 1 - n ∧ isF t F.CLK_REF_SWITCHED = true ∧ t.boot.holdover = false) ∧
      (refLost s (1 - n) = true → ∃ t, exec (.refclkLoss b) s = .next t ∧ refLost t n = true ∧ t.boot.holdover = true ∧ getF t F.CLK_REF_ACTIVE = n)) ∧
    (s.boot.holdover = true → ∃ t, exec (.refclkReturn b) s = .next t ∧ refLost t n = false ∧ t.boot.holdover = false ∧ getF t F.CLK_REF_ACTIVE = n)

/-- The boot (R495): its steps come in order while the head is in BOOT. The ROM takes a GOOD bank that it has verified; DDR5 is twelve times the smallest DIMM; a vault without a configuration that checks stops the boot (R497); a flow program set that passes its checks is loaded and made active with the binding of its images or the one recorded for it (R109, R110, R112), and one that does not stops the boot of a GOOD bank; a NONREV bank in TRIAL goes on only with the converted tables and becomes GOOD (R520); the steward image starts sixteen cores at its entry; the last step leaves BOOT for SYNC; a step that fails stops the boot. -/
def Claim.BootSteps : Prop :=
  ∀ s : State, headState s = 0 → s.boot.stopped = false → s.rst.held = false → s.rst.asserted = none → s.boot.aon = true →
    (∀ ok, s.boot.step = 0 → (bankOf s 0).state = 3 → (bankOf s 1).state ≠ 2 → (bankOf s 1).state ≠ 3 →
      ∃ t, exec (.boot (.rom true ok)) s = .next t ∧ t.boot.step = 1 ∧ activeBank t = 0) ∧
    (∀ n, s.boot.step = 1 → 0 < n → ∃ t, exec (.boot (.memory (List.replicate 12 n))) s = .next t ∧ t.boot.step = 2 ∧ t.ddrcSize = 12 * n * 2 ^ 30 ∧ t.mem = s.mem) ∧
    (s.boot.step = 1 → ∃ t, exec (.boot (.memory [])) s = .next t ∧ t.boot.stopped = true ∧ t.boot.step = 1) ∧
    (∀ board cfg tbl spare, s.boot.step = 2 → s.boot.cold = false → getF s F.PWR_VSTAT_FAILED = 0 →
      (isF s F.PWR_VAULT_EN = false → ∃ t, exec (.boot (.restore board cfg tbl spare)) s = .next t ∧ t.boot.step = 3 ∧ t.mem = s.mem) ∧
      (isF s F.PWR_VAULT_EN = true → newestCopy cfg = none → ∃ t, exec (.boot (.restore board cfg tbl spare)) s = .next t ∧ t.boot.stopped = true ∧ t.boot.step = 2)) ∧
    (∀ (e : Word) (tbl cfg : List Byte), s.boot.step = 4 → (bankOf s (activeBank s)).state = 2 → mNonrev (bankOf s (activeBank s)).manifest = true →
      exec (.boot (.image e none)) s = .next s ∧
      (convGood s 2 tbl = true → convGood s 1 cfg = true → ∃ t, exec (.boot (.image e (some (tbl, cfg)))) s = .next t ∧ t.boot.step = 5 ∧
        (bankOf t (activeBank s)).state = 3)) ∧
    (∀ (e : Word) conv, s.boot.step = 4 → (bankOf s (activeBank s)).state ≠ 2 → ∃ t, exec (.boot (.image e conv)) s = .next t ∧ t.boot.step = 5 ∧
      ∀ k < 16, kget t.stews k = some (startCore (e &&& 0x0000FFFFFFFFFFFC))) ∧
    (s.boot.step = 3 → s.boot.cold = true → Memory.wf s.mem = true → ∀ set : List Byte,
      (setChecks s set = true → ∃ t, exec (.boot (.tables [] set)) s = .next t ∧ t.boot.step = 4 ∧ isF t F.FSQ_PSET_CTL_ACTIVE = true ∧
        getF t F.FSQ_PSET_CTL_ENTRIES = psEntries set ∧ (cfgBinding s.boot.cfg = none → getF t F.FSQ_PSET_CTL_BANKSEL = psSel set) ∧
        (∀ x e, cfgBinding s.boot.cfg = some x → partEntry (bankOf s (activeBank s)).manifest 3 = some e → x.hash = pHash e →
          getF t F.FSQ_PSET_CTL_BANKSEL = x.sel % 2) ∧ rdB t flowStoreBase (psCode set) = psBytes set) ∧
      (setChecks s set = false → (bankOf s (activeBank s)).state = 3 → ∃ t, exec (.boot (.tables [] set)) s = .next t ∧ t.boot.stopped = true ∧ t.boot.step = 3 ∧
        isF t F.FSQ_PSET_CTL_ACTIVE = isF s F.FSQ_PSET_CTL_ACTIVE)) ∧
    (s.boot.step = 5 → exec (.boot .steward) s = .next { s with boot := { s.boot with step := 6 } }) ∧
    (s.boot.step = 6 → s.partner.hb = true → s.partner.fenceIn = false → ∀ ring, ∃ t, exec (.boot (.finish ring)) s = .next t ∧ t.boot.step = 7 ∧ headState t = 1) ∧
    (s.boot.step = 3 → (bankOf s (activeBank s)).state = 3 → ∀ cause, ∃ t, exec (.boot (.fail 4 cause)) s = .next t ∧ t.boot.stopped = true ∧ t.boot.step = 3) ∧
    (s.boot.step = 2 → exec (.boot .steward) s = .next s)

/-- Core release and checkpoints (R80, R497 to R501): a write of SYS_CORE starts the cores it sets that did not run, each at SYS_CORE_ENTRY in P mode; a GO of SYS_CKPT with a copy that fits makes it BUSY, and its end writes the copy with a GEN one above the newest, unless two drives are left out. -/
def Claim.CoresAndCheckpoints : Prop :=
  ∀ (v : Word) (failed : BitVec 4) (s : State),
    (∃ t, exec (.coreRelease v) s = .next t ∧ getF t F.SYS_CORE_RUN = getF s F.SYS_CORE_RUN ||| bits v 15 0 ∧ t.mem = s.mem ∧
      ∀ k < 16, (bit v k = true → (getF s F.SYS_CORE_RUN).testBit k = false → kget t.stews k = some (startCore (rd s .SYS_CORE_ENTRY))) ∧
        ((bit v k = false ∨ (getF s F.SYS_CORE_RUN).testBit k = true) → kget t.stews k = kget s.stews k)) ∧
    (bit v 0 = true → bits v 2 1 = 0 → isF s F.SYS_CKPTSTAT_BUSY = false →
      (ckptBytes (rdB s (bits v 47 12 * 4096) 4096) ≤ 0x2000_0000 → ∃ t, exec (.checkpointGo (some v) failed) s = .next t ∧ isF t F.SYS_CKPTSTAT_BUSY = true ∧ t.mem = s.mem ∧ t.out = s.out) ∧
      (0x2000_0000 < ckptBytes (rdB s (bits v 47 12 * 4096) 4096) → ∃ t, exec (.checkpointGo (some v) failed) s = .next t ∧ isF t F.SYS_CKPTSTAT_REFUSED = true ∧ getF t F.SYS_CKPTSTAT_ERR = 2)) ∧
    (isF s F.SYS_CKPTSTAT_BUSY = true →
      let ds := (vaultDrives s).filter fun d => !failed.toNat.testBit d
      (ds.length ≤ 2 → ∃ t, exec (.checkpointGo none failed) s = .next t ∧ isF t F.SYS_CKPTSTAT_BUSY = false ∧ getF t F.SYS_CKPTSTAT_ERR = 4 ∧ t.boot = s.boot ∧ t.out = s.out) ∧
      (2 < ds.length → s.boot.ckpt.1 = 0 → ∃ t, exec (.checkpointGo none failed) s = .next t ∧ isF t F.SYS_CKPTSTAT_BUSY = false ∧ isF t F.SYS_CKPTSTAT_DONE = true ∧
        copyGen t 0 (olderCopy s 0) = copyGen s 0 (1 - olderCopy s 0) + 1 ∧ t.mem = s.mem)) ∧
    (isF s F.SYS_CKPTSTAT_BUSY = false → exec (.checkpointGo none failed) s = .next s)

/-! ### Firmware, board pins, registers and the governor -/

/-- STAGE (R514): a package that fails a check is refused with that check's code and the banks stay; one that passes is written to the other bank, which is STAGED with the package's manifest. -/
def Claim.StagePackages : Prop :=
  ∀ (v : Word) (s : State), bit v 0 = true → bits v 3 1 = 1 → 3 ≤ (vaultDrives s).length →
    let base := getF s F.UPD_STG_BASE * 4096
    let len := getF s F.UPD_STGLEN_LEN
    let m := rdB s base (mLength (rdB s base 128))
    let ps := packParts (mParts m) (rdB s (base + mLength m) (len - mLength m))
    ∃ t, exec (.stage v true) s = .next t ∧ t.mem = s.mem ∧
      match stageFail s m len ps with
      | some e => isF t F.UPD_STAT_REFUSED = true ∧ getF t F.UPD_STAT_ERR = e ∧ t.upd = s.upd ∧ t.out = s.out
      | none => isF t F.UPD_STAT_DONE = true ∧ (bankOf t (otherBank s)).state = 1 ∧ (bankOf t (otherBank s)).manifest = m ∧ bankOf t (activeBank s) = bankOf s (activeBank s)

/-- The other firmware commands (R508, R509, R518, R523): ARM needs a STAGED bank and a TIME; DISARM ends it; COMMIT makes a TRIAL bank GOOD and raises the rollback counter to its manifest's; ENROLL and UKEXP work until SEAL, which needs a live slot. -/
def Claim.UpdateCommands : Prop :=
  ∀ (v : Word) (s : State), bit v 0 = true →
    let done (i : Instr) (p : State → Prop) : Prop := ∃ t, exec i s = .next t ∧ isF t F.UPD_STAT_DONE = true ∧ t.mem = s.mem ∧ p t
    let refuses (i : Instr) (e : Nat) : Prop := ∃ t, exec i s = .next t ∧ isF t F.UPD_STAT_REFUSED = true ∧ getF t F.UPD_STAT_ERR = e ∧ t.upd = s.upd ∧ t.mem = s.mem
    let k := bankOf s (activeBank s)
    let slot := bits v 15 8
    (bits v 3 1 = 2 →
      ((bankOf s (otherBank s)).state = 1 → getF s F.UPD_ACT_TIME ≠ 0 → done (.arm v) fun t => isF t F.UPD_STAT_ARMED = true) ∧
      (((bankOf s (otherBank s)).state ≠ 1 ∨ getF s F.UPD_ACT_TIME = 0) → refuses (.arm v) 1)) ∧
    (bits v 3 1 = 3 → done (.disarm v) fun t => isF t F.UPD_STAT_ARMED = false ∧ t.upd = { s.upd with due := false, announced := false }) ∧
    (bits v 3 1 = 4 → k.state = 2 → mNonrev k.manifest = false → done (.commit v) fun t => (bankOf t (activeBank s)).state = 3 ∧ (bankOf t (otherBank s)).state = 1 ∧
      getF t F.UPD_FUSE_RBCNT = min 64 (max (getF s F.UPD_FUSE_RBCNT) (mRollback k.manifest))) ∧
    (bits v 3 1 = 5 →
      (isF s F.UPD_FUSE_SEALED = false → slot < 4 → done (.enroll v) fun t => (getF t F.UPD_FUSE_ENROLLED).testBit slot = true ∧
        kget t.upd.maker slot = some ((sha512 ((List.range 4).flatMap fun i => leBytes 8 (rd s .UPD_KEYIN i).toNat)).take 32)) ∧
      (isF s F.UPD_FUSE_SEALED = true → refuses (.enroll v) 9)) ∧
    (bits v 3 1 = 6 → (∃ n < 4, slotLive s n = true) → done (.seal v) fun t => isF t F.UPD_FUSE_SEALED = true) ∧
    (bits v 3 1 = 7 →
      (isF s F.UPD_FUSE_SEALED = false → done (.ukexp v) fun t => ∀ i < 4, (rd t .UPD_UKOUT i).toNat = fieldN (updKey (bits v 63 32)) (8 * i) 8) ∧
      (isF s F.UPD_FUSE_SEALED = true → refuses (.ukexp v) 9))

/-- Scheduled activation (R522, R523): at TIME a head that may start announces it, and drains at the next heartbeat unless the partner goes first; a head that waits too long, and one whose ring does not drain, gives the activation up; once the ring is drained the staged bank is TRIAL and the head resets. -/
def Claim.Activation : Prop :=
  ∀ (time : Word) (s : State),
    (isF s F.UPD_STAT_ARMED = true → getF s F.UPD_ACT_TIME ≤ s.dtime.toNat → getF s F.PWR_PF_STEP = 0 → mayStart s = true → s.upd.theirs = false →
      (s.upd.announced = false → exec .activationTime s = .next { s with
        upd := { s.upd with due := true, announced := true }
        out := s.out ++ [.partner (.activation (rd s .UPD_ACT))] }) ∧
      (s.upd.announced = true → ∃ t, exec .activationTime s = .next t ∧ headState t = 4 ∧ t.upd.draining = true ∧ isF t F.UPD_STAT_ARMED = false)) ∧
    (s.dtime.toNat < getF s F.UPD_ACT_TIME → exec .activationTime s = .next s) ∧
    (isF s F.UPD_STAT_ARMED = true → s.upd.due = true → ∃ t, exec .activationWaitExpiry s = .next t ∧ isF t F.UPD_STAT_REFUSED = true ∧ getF t F.UPD_STAT_ERR = 12 ∧ isF t F.UPD_STAT_ARMED = false) ∧
    (s.upd.draining = false → exec (.activationAnnounce time) s = .next { s with upd := { s.upd with theirs := true } }) ∧
    (s.upd.draining = true → exec (.activationAnnounce time) s = .next s) ∧
    (s.upd.draining = true → ownedGroups s = [] → s.ta.recs = [] → s.pwr.parkNext = false → NoReset s → ∃ t, exec .ringDrained s = .next t ∧ Resets s t 0x0B ∧
      (bankOf t (otherBank s)).state = 2 ∧ (bankOf t (otherBank s)).tries = 0 ∧ (bankOf t (otherBank s)).gen = (bankOf s (activeBank s)).gen + 1 ∧ t.upd.draining = false) ∧
    (s.upd.draining = true → ∃ t, exec .ringDrainTimeout s = .next t ∧ headState t = 2 ∧ getF t F.UPD_STAT_ERR = 13 ∧ t.upd.draining = false)

/-- Attestation (R525, R526): a GO writes the quote, with the nonce and the measurement log, to the buffer and its signature to SEC_ATTSIG. -/
def Claim.AttestationQuotes : Prop :=
  ∀ (v : Word) (s : State), bit v 0 = true → isF s F.SEC_ATTCMD_BUSY = false → Memory.wf s.mem = true → (quote s).length ≤ 1408 →
    let base := getF s F.SEC_ATTBUF_BASE * 4096
    (inHbmDdr s base 1408 = true → ∃ t, exec (.attestQuote v) s = .next t ∧ isF t F.SEC_ATTCMD_DONE = true ∧ getF t F.SEC_ATTCMD_LEN = (quote s).length ∧
      rdB t base (quote s).length = quote s ∧ SameMemBut base (quote s).length s t ∧
      ∀ i < 8, (rd t .SEC_ATTSIG i).toNat = fieldN (edSign idKey (sha512 (quote s))) (8 * i) 8) ∧
    (inHbmDdr s base 1408 = false → ∃ t, exec (.attestQuote v) s = .next t ∧ isF t F.SEC_ATTCMD_REFUSED = true ∧ t.mem = s.mem)

/-- The PPS pins and the TAP (R563, R564): an edge of PPS_IN stores DTIME to 4 ns; PPS_OUT rises for 100 ms at each second; IDCODE shifts out 0x19024A1F, SAMPLE/PRELOAD the pins; EXTEST, CLAMP and HIGHZ take effect only while RST_N is asserted, and are BYPASS at other times. The two low bits of MGT_PPSIN are free (log). -/
def Claim.BoardPins : Prop :=
  ∀ (pins pre : List Bool) (s : State),
    let tap (n : Nat) : State := { s with board := { s.board with tap := n } }
    (∃ t, exec .ppsInEdge s = .next t ∧ bits (rd t .MGT_PPSIN) 63 2 = bits s.dtime 63 2 ∧ t.out = s.out ∧ t.mem = s.mem) ∧
    exec .ppsOutSecond s = .next { s with
      board := { s.board with ppsUntil := s.dtime.toNat + 100000000 }
      out := s.out ++ [.pps] } ∧
    exec .tapBypass s = .next (tap 0) ∧
    exec .tapIdcode s = .next { tap 1 with out := s.out ++ [.tap ((List.range 32).map fun i => Nat.testBit 0x19024A1F i)] } ∧
    exec (.tapSample pins pre) s = .next { s with
      board := { s.board with tap := 2, boundary := pre }
      out := s.out ++ [.tap pins] } ∧
    (s.rst.rstn = true → exec .tapExtest s = .next (tap 3) ∧ exec .tapClamp s = .next (tap 4) ∧ exec .tapHighz s = .next (tap 5)) ∧
    (s.rst.rstn = false → ∀ i, i = .tapExtest ∨ i = .tapClamp ∨ i = .tapHighz → exec i s = .next (tap 0))

/-- Register accesses (R9 to R12, R27, R79): in P mode an aligned write stores RW fields, leaves RO fields, and a read of an RC field returns it and clears it; a reserved bit written as 1 is recorded; an address that holds no register reads as zero, ignores a write, and is recorded. In U mode an access is a PRIV fault, and one that is not aligned an ALIGN fault. -/
def Claim.RegisterAccess : Prop :=
  ∀ (k : BitVec 4) (addr v : Word) (c : Stew) (s : State), kget s.stews k.toNat = some c → c.run = true → regionOf s addr.toNat = .csr →
    let a := addr.toNat
    let both (o : Host.Outcome State Fault Refusal) : Prop := exec (.csrWrite k addr v) s = o ∧ exec (.rcRead k addr) s = o ∧
      (regAt a = none → exec (.csrUnmappedAccess addr ⟨k, some v⟩) s = o ∧ exec (.csrUnmappedAccess addr ⟨k, none⟩) s = o)
    (c.p = false → both (.next (raiseFault (.stew k.toNat) 0 fPriv a s))) ∧
    (c.p = true → a % 8 ≠ 0 → both (.next (raiseFault (.stew k.toNat) 0 fAlign a s))) ∧
    (c.p = true → a % 8 = 0 →
      (a = (RegName.SYS_PTR_CTL).addr 0 0 → ∃ t, exec (.csrWrite k addr v) s = .next t ∧ getF t F.SYS_PTR_CTL_LAGMAX = bits v 47 32 ∧ getF t F.SYS_PTR_CTL_ARBMS = bits v 55 48 ∧
        getF t F.SYS_PTR_CTL_SETTLE = bits v 27 16 ∧ getF t F.SYS_PTR_CTL_FBEN = bits v 0 0 ∧ bits (rd t .SYS_PTR_CTL) 15 1 = bits (rd s .SYS_PTR_CTL) 15 1 ∧ t.mem = s.mem) ∧
      (a = (RegName.SYS_ID).addr 0 0 → ∃ t, exec (.csrWrite k addr v) s = .next t ∧ rd t .SYS_ID = rd s .SYS_ID ∧ t.mem = s.mem) ∧
      (a = (RegName.HFE_KATO_CNT).addr 0 0 → ∃ t, exec (.rcRead k addr) s = .next t ∧ t.out = s.out ++ [.csrRead a (BitVec.ofNat 64 (getF s ⟨.HFE_KATO_CNT, 47, 0⟩))] ∧
        getF t ⟨.HFE_KATO_CNT, 47, 0⟩ = 0 ∧ t.mem = s.mem) ∧
      (∀ r i j, regAt a = some (r, i, j) → r ≠ .CEL_WIN → r ≠ .CEL_EVQ_POP → ∃ t, exec (.rcRead k addr) s = .next t ∧
        t.out = s.out ++ [.csrRead a (readFields (liveValue r i s (rd s r i j)) r.info.fields)] ∧ t.mem = s.mem ∧
        ∀ f, f ∈ r.info.fields → f.ty = .rc → bits (rd t r i j) f.hi f.lo = 0) ∧
      (regAt a = none →
        (∃ t, exec (.csrUnmappedAccess addr ⟨k, some v⟩) s = .next t ∧ withLogOf s t = s) ∧
        (∃ t, exec (.csrUnmappedAccess addr ⟨k, none⟩) s = .next t ∧ withLogOf s t = { s with out := s.out ++ [.csrRead a 0] })))

/-- The governor (R42, R204, R259, R471): a decision stands in its table: the weight of a class between 1 and 255, the window of a volume whose trial opens one, the segments that lees reclaim may pick in a
second, where free frames are taken, the slow mark of a member, the admission of a volume, the skipping of a region within THM_CTL; a kind that it does not have is nothing. -/
def Claim.GovernorDecisions : Prop :=
  ∀ (object new : BitVec 32) (s : State),
    let o := object.toNat
    let decides (kind : BitVec 8) (p : State → Prop) : Prop := ∃ t, exec (.governorDecision kind object new) s = .next t ∧ t.out = s.out ∧ p t
    (keysFrom 0 s.weight = true → decides 1 fun t => kgetD t.weight o 1 = max 1 (min 255 new.toNat) ∧ t.mem = s.mem) ∧
    (trialFull s o = true → trialOpens s o = true → ownsVol s o = true → windowSize s o = new.toNat → decides 2 fun t =>
      (skipOf t o).n = new.toNat ∧ (skipOf t o).opened = true ∧ t.mem = (wrN (volAddr o + 24) 8 new.toNat s).mem ∧
        getF t ⟨.CE_WINOPEN_CNT, 47, 0⟩ = (getF s ⟨.CE_WINOPEN_CNT, 47, 0⟩ + 1) % 2 ^ 48) ∧
    (decides 3 fun t => leesRateOf t o = min (getF s F.TA_LEES_MAXSEG) new.toNat ∧ t.mem = s.mem) ∧
    (decides 4 fun t => placement t o = new.toNat ∧ t.mem = s.mem) ∧
    (new ≠ 0 → decides 5 fun t => o ∈ t.plc.slow ∧ t.mem = s.mem) ∧
    (s.plc.slow.Nodup → new = 0 → decides 5 fun t => o ∉ t.plc.slow ∧ t.mem = s.mem) ∧
    (decides 6 fun t => (kgetD t.gl.admission o {}).bit = decide (new ≠ 0) ∧ t.mem = s.mem) ∧
    (∀ x, isF s F.THM_CTL_GOVEN = true → o < 32 → getF s F.THM_LVL_FLOOR o = 0 → regionReading s o = some x → limit s F.THM_LIM_WARN ≤ x → x < limit s F.THM_LIM_THROT →
      new.toNat ≤ getF s F.THM_CTL_GOVMAXM → decides 7 fun t => getF t F.THM_LVL_SKIPM o = new.toNat ∧
        getF t F.THM_LVL_MODE o = (if heldAt4 s = true then 3 else if new = 0 then 0 else 1) ∧ t.mem = s.mem) ∧
    exec (.governorDecision 0 object new) s = .next s

/-! ### Rules stated on their own -/

/-- Forms that are ILLEGAL in a flow (R44, R66 to R69): g29 as the destination of an integer operation, an rb that CLZ, CTZ, POPC and BSWAP do not use and that is not g0, a shift count of 64 or more, and an ra of LUI that is not g0. The context is FAULTED with code 0x01 and keeps its registers. -/
def Claim.IllegalForms : Prop :=
  ∀ (q : BitVec 8) (n : Nat) (x : Ctx) (rd ra rb : RegNo) (v sh : BitVec 16) (i : Instr) (s : State), Issues (.fsq q) (.ctx n) 4 s → kget s.ctxs n = some x →
    let c : Core := .fsq q
    (i ∈ [Instr.add c 29 ra rb, .sub c 29 ra rb, .and c 29 ra rb, .or c 29 ra rb, .xor c 29 ra rb, .andn c 29 ra rb, .sll c 29 ra rb, .srl c 29 ra rb,
        .sra c 29 ra rb, .slt c 29 ra rb, .sltu c 29 ra rb, .min c 29 ra rb, .max c 29 ra rb, .minu c 29 ra rb, .maxu c 29 ra rb, .mul c 29 ra rb,
        .mulhu c 29 ra rb, .divu c 29 ra rb, .remu c 29 ra rb, .clz c 29 ra 0, .ctz c 29 ra 0, .popc c 29 ra 0, .bswap c 29 ra 0,
        .addi c 29 ra (.short v), .andi c 29 ra (.short v), .ori c 29 ra (.short v), .xori c 29 ra (.short v), .slti c 29 ra (.short v), .sltiu c 29 ra (.short v),
        .slli c 29 ra v, .srli c 29 ra v, .srai c 29 ra v, .lui c 29 0 (.short v)] ∨
      (rb ≠ 0 ∧ i ∈ [Instr.clz c rd ra rb, .ctz c rd ra rb, .popc c rd ra rb, .bswap c rd ra rb]) ∨
      (64 ≤ sh.toNat ∧ i ∈ [Instr.slli c rd ra sh, .srli c rd ra sh, .srai c rd ra sh]) ∨ (ra ≠ 0 ∧ i = .lui c rd ra (.short v))) →
    ∃ t z f, exec i s = .next t ∧ kget t.ctxs n = some z ∧ z.st = .faulted f ∧ f.code = 0x01 ∧ z.rf = x.rf ∧ t.mem = s.mem ∧ t.csr = s.csr

/-- A packet whose ICRC fails, or that names a QPN that the engine does not hold, is dropped without an answer and counted, and no queue pair changes (R363). -/
def Claim.BadPacketsAreDropped : Prop :=
  ∀ (h : Bth) (va : Word) (rkey len : BitVec 32) (data : List Byte) (syn : Byte) (i : Instr) (s : State),
    i ∈ [Instr.rdmaSendReceived h data, .rdmaWriteRequest h va rkey len data, .rdmaReadRequest h va rkey len, .rdmaAckReceived h data, .rdmaNakReceived h syn, .cnpReceived h] →
    (h.icrcOk = false → ∃ t, exec i s = .next t ∧ t.rx = s.rx ∧ t.out = s.out ∧ t.mem = s.mem ∧
      getF t ⟨.RXE_ICRC_CNT, 47, 0⟩ = (getF s ⟨.RXE_ICRC_CNT, 47, 0⟩ + 1) % 2 ^ 48) ∧
    (h.icrcOk = true → (qpIndex h.qpn = none ∨ ∃ q, qpIndex h.qpn = some q ∧ qpState s q = 0) → ∃ t, exec i s = .next t ∧ t.rx = s.rx ∧ t.out = s.out ∧ t.mem = s.mem ∧
      getF t ⟨.RXE_NOQP_CNT, 47, 0⟩ = (getF s ⟨.RXE_NOQP_CNT, 47, 0⟩ + 1) % 2 ^ 48)

/-- A steward core that runs in P mode accesses an aligned address of CSR space (R10, R79). -/
def MayAccess (s : State) (k : BitVec 4) (addr : Word) : Prop :=
  ∃ c, kget s.stews k.toNat = some c ∧ c.run = true ∧ c.p = true ∧ regionOf s addr.toNat = .csr ∧ addr.toNat % 8 = 0

/-- An address in CSR space that holds no register reads as zero and ignores a write, and either access writes the record that names the address (R12); nothing else changes. -/
def Claim.UnmappedRegisters : Prop :=
  ∀ (k : BitVec 4) (addr v : Word) (s : State), MayAccess s k addr → regAt addr.toNat = none →
    let a := addr.toNat
    let record (w : Bool) : State := celPush ⟨unitOf a * 256 + 2, 0, 2, s.dtime.toNat, a % 2 ^ 32, a / 2 ^ 32 % 65536, b2n w, false⟩ s
    exec (.csrWrite k addr v) s = .next (record true) ∧
    exec (.rcRead k addr) s = .next { record false with out := (record false).out ++ [.csrRead a 0] }

/-- The registers of the ownership groups (R445): SYS_GRP of group g lies at offset 0x1000 + 8 × g of unit SYS; a write of HOME is ignored and recorded while the group is not SETTLED, and stored while it is. -/
def Claim.GroupHomeWrites : Prop :=
  (∀ g < 1024, (RegName.SYS_GRP).addr g 0 = (RegName.SYS_ID).addr 0 0 + 0x1000 + 8 * g) ∧
  ∀ (k : BitVec 4) (addr v : Word) (g : Nat) (s : State), g < 1024 → MayAccess s k addr → addr.toNat = (RegName.SYS_GRP).addr g 0 → v.toNat < 2 →
    (grpPos s g ≠ 0 → exec (.csrWrite k addr v) s = .next (celRefused .SYS_GRP v s g)) ∧
    (grpPos s g = 0 → ∃ t, exec (.csrWrite k addr v) s = .next t ∧ getF t F.SYS_GRP_HOME g = v.toNat ∧ grpPos t g = 0 ∧ grpOwner t g = grpOwner s g ∧
      getF t F.SYS_GRP_OEPOCH g = getF s F.SYS_GRP_OEPOCH g ∧ SameRegsBut [(RegName.SYS_GRP).addr g 0] s t ∧ t.mem = s.mem)

/-- The registers of the gang (R446): GANG_CFG at offset 0 and GANG_STAT at offset 8 of unit GANG; a write of GANG_CFG is ignored and recorded while a cell link is enabled, and stored while none is. -/
def Claim.GangConfigWrites : Prop :=
  (RegName.GANG_STAT).addr 0 0 = (RegName.GANG_CFG).addr 0 0 + 8 ∧ (RegName.GANG_CFG).addr 0 0 % 0x100_0000 = 0 ∧
  ∀ (k : BitVec 4) (addr v : Word) (s : State), MayAccess s k addr → addr.toNat = (RegName.GANG_CFG).addr 0 0 → bits v 63 6 = 0 → bits v 3 2 = 0 →
    ((∃ l < 3, isF s F.GANG_LNK_CTL_EN l = true) → exec (.csrWrite k addr v) s = .next (celRefused .GANG_CFG v s)) ∧
    ((∀ l < 3, isF s F.GANG_LNK_CTL_EN l = false) → ∃ t, exec (.csrWrite k addr v) s = .next t ∧ getF t F.GANG_CFG_CHIPS = bits v 5 4 ∧ getF t F.GANG_CFG_CHIP = bits v 1 0 ∧
      SameRegsBut [(RegName.GANG_CFG).addr 0 0] s t ∧ t.mem = s.mem)

/-- A write of PWR_PSU during the power-fail sequence takes effect only after the next head reset (R479). -/
def Claim.SupplyWritesWait : Prop :=
  (∀ (k : BitVec 4) (addr v : Word) (s : State), MayAccess s k addr → addr.toNat = (RegName.PWR_PSU).addr 0 0 → bits v 1 0 ≠ 0 → getF s F.PWR_PF_STEP ≠ 0 →
    ∃ t w, exec (.csrWrite k addr v) s = .next t ∧ getF t F.PWR_PSU_PRESA = getF s F.PWR_PSU_PRESA ∧ getF t F.PWR_PSU_PRESB = getF s F.PWR_PSU_PRESB ∧
      t.pwr = { s.pwr with psuLater := some w } ∧ bits w 1 0 = bits v 1 0) ∧
  ∀ (w : Word) (code : Nat) (s : State), s.rst.asserted = some code → s.pwr.psuLater = some w →
    ∃ t, exec .headReset s = .next t ∧ getF t F.PWR_PSU_PRESA = bits w 0 0 ∧ getF t F.PWR_PSU_PRESB = bits w 1 1 ∧ t.pwr.psuLater = none

/-! ### The words of the instructions -/

/-- The words of the flow instructions (R65 to R67): decoding the words that an instruction is gives that instruction with every operand, and what is decoded is
the words' own instruction, so no bit is dropped; a word of major 0x00 with func 0 is ADD, a load with a long offset is a group of three words, and a shift immediate after a
prefix is no instruction. -/
def Claim.WordsAreDecoded : Prop :=
  (∀ (i : Instr) (w : GfiWords), gfiWords i = some w → gfiDecode w.core w.w0 w.w1 w.w2 = some i) ∧
  (∀ (c : Core) (w0 w1 w2 : BitVec 32) (i : Instr), gfiDecode c w0 w1 w2 = some i →
    ∃ w, gfiWords i = some w ∧ w.core = c ∧ w.w0 = w0 ∧ (wf w0 26 6 = 0x3F → w.w1 = w1 ∧ w.w2 = w2)) ∧
  ∀ (c : Core) (w1 w2 : BitVec 32),
    gfiDecode c 0x00221800 w1 w2 = some (.add c 1 2 3) ∧ gfiDecode c 0xFC000000 0x40220000 w2 = some (.ld c 1 2 (.long w2)) ∧
    gfiDecode c 0xFC000000 0x1C220000 w2 = none


/-! ### The statements -/

/-- A step with a command at the front of the queue is exec of that command with the rest of the queue. -/
def Obligations.StepRunsTheFrontCommand : Prop := Claim.StepRunsTheFrontCommand

/-- Every command answers a next state in every state. -/
def Obligations.EveryCommandAnswersANextState : Prop := Claim.EveryCommandAnswersANextState

/-- No command changes the queue of the commands that wait. -/
def Obligations.CommandsLeaveTheQueue : Prop := Claim.CommandsLeaveTheQueue

/-- Every step keeps the memory in its canonical form. -/
def Obligations.EveryStepKeepsMemoryCanonical : Prop := Claim.EveryStepKeepsMemoryCanonical

/-- The state after reset: canonical memory, an empty queue, steward core 0 alone at the boot ROM. -/
def Obligations.ResetStartsStewardCoreZero : Prop := Claim.ResetStartsStewardCoreZero

/-- An empty queue passes 10 ns (the model's choice, log entry 3) and leaves memory, cores and contexts. -/
def Obligations.IdleStepsPassTime : Prop := Claim.IdleStepsPassTime

/-- Integer register and immediate instructions write their results; the ILLEGAL forms fault. -/
def Obligations.IntegerInstructionResults : Prop := Claim.IntegerRegisterResults ∧ Claim.BitCountResults ∧ Claim.IntegerImmediateResults ∧ Claim.IllegalForms

/-- What an instruction that writes a register leaves unchanged. -/
def Obligations.RegisterInstructionFrame : Prop := Claim.RegisterInstructionFrame

/-- Branches and jumps, and the FETCH fault of a bad target. -/
def Obligations.ControlTransferResults : Prop := Claim.BranchResults ∧ Claim.JumpResults ∧ Claim.BadTargetsFaultWithFetch

/-- Loads, atomics and descriptor instructions: results, memory and frames. -/
def Obligations.LoadAtomicAndDescriptorResults : Prop := Claim.LoadResults ∧ Claim.MemoryReturnResults ∧ Claim.AtomicResults ∧ Claim.DescriptorResults

/-- Stores: the bytes stored, the frame, the store buffer of a flow, and the faults of bad addresses. -/
def Obligations.StoreResults : Prop := Claim.StoreResults ∧ Claim.FlowStoresAreBuffered ∧ Claim.BadAddressesFault

/-- Decoding the words of a flow instruction gives that instruction, and no bit of an encoding is dropped. -/
def Obligations.WordsAreDecoded : Prop := Claim.WordsAreDecoded

/-- MFS, MTS, TRAP, ERET, events, double faults, privilege and unassigned encodings. -/
def Obligations.SpecialRegistersAndHandlers : Prop := Claim.SpecialRegisterResults ∧ Claim.HandlerEntryAndReturn ∧ Claim.DoubleFaultAssertsReset ∧ Claim.PrivilegeFaults ∧ Claim.UnassignedEncodingsAreIllegal

/-- Ticket instructions and SUBMIT. -/
def Obligations.TicketAndSubmitResults : Prop := Claim.TicketResults ∧ Claim.FreeTicketsFault ∧ Claim.SubmitIssuesAJob

/-- Context instructions, reads of flow registers, fences and ICINV. -/
def Obligations.ContextInstructionResults : Prop := Claim.FlowReadsAndFences ∧ Claim.ContextInstructionResults

/-- Admission, page-in, allocation, preemption and wake of flow contexts. -/
def Obligations.ContextScheduling : Prop := Claim.AdmissionAndPageIn ∧ Claim.AllocationStartsTheOldestCommand ∧ Claim.PreemptionAndWake

/-- Flow faults are taken and reported; watchdogs reset the head; deadlines end jobs. -/
def Obligations.FaultsAndDeadlines : Prop := Claim.FaultsAreTakenAndReported ∧ Claim.WatchdogsAssertReset ∧ Claim.DeadlinesEndJobs

/-- Engine jobs are accepted, held, released and completed with their result records; COPY, COMPARE and FILL of the data mover. -/
def Obligations.EngineJobsRun : Prop := Claim.JobsAreAcceptedOrEnd ∧ Claim.HeldJobsAreReleasedOrSkipped ∧ Claim.CompletionWritesTheResult ∧ Claim.DataMoverResults

/-- Flow program sets, their binding registers, and bungs of one head and of the pair. -/
def Obligations.ProgramSetsAndBungs : Prop := Claim.ProgramSetRegisters ∧ Claim.LocalBung ∧ Claim.PairBung

/-- The cellar log takes records, is read, submitted and flushed. -/
def Obligations.CellarLogResults : Prop := Claim.LogTakesRecords ∧ Claim.LogIsReadAndSubmitted ∧ Claim.LogFlush

/-- Event queues and performance counters. -/
def Obligations.EventsAndCounters : Prop := Claim.EventsAreQueuedAndPopped ∧ Claim.PerformanceCounters

/-- The BMC window. -/
def Obligations.BmcWindowResults : Prop := Claim.BmcWindowReads ∧ Claim.BmcWindowMoves

/-- Map jobs: LOOKUP, UPDATE, GENRES, slot references, PREFETCH and WRITEBACK. -/
def Obligations.MapJobResults : Prop := Claim.LookupResults ∧ Claim.UpdateAndGenresResults ∧ Claim.SlotReferenceResults ∧ Claim.PrefetchAndWritebackJobs

/-- A DELTA entry changes the leaf entry of its block and no other. -/
def Obligations.DeltaChangesTheLeaf : Prop := Claim.DeltaChangesTheLeaf

/-- Metadata paging, RECOUNT, and the metadata cache. -/
def Obligations.PagingAndMetadataCache : Prop := Claim.PagingResults ∧ Claim.RecountWritesMapped ∧ Claim.MetadataCacheControl ∧ Claim.MetadataCacheMaintenance

/-- CODE, DECODE and the skip trials. -/
def Obligations.CompressionResults : Prop := Claim.CompressionResults ∧ Claim.DecompressionResults ∧ Claim.SkipTrials

/-- Key commands, key purge, stream and slot ciphers. -/
def Obligations.KeysAndCiphers : Prop := Claim.KeyCommands ∧ Claim.KeyPurge ∧ Claim.StreamCipherResults ∧ Claim.SlotCipherResults

/-- What counter mode seals, the same key and nonce open. -/
def Obligations.CounterModeOpensWhatItSeals : Prop := Claim.CounterModeOpensWhatItSeals

/-- The cask journal: append, DONE, mirror, retirement and replay. -/
def Obligations.JournalResults : Prop := Claim.JournalAppends ∧ Claim.JournalRecordsBecomeDone ∧ Claim.MirrorTakesRecords ∧ Claim.RecordsRetire ∧ Claim.ReplayTakesGoodRecords

/-- Slot allocation, sealing of tuns, failed strip writes and lees reclaim. -/
def Obligations.TunResults : Prop := Claim.SlotAllocation ∧ Claim.TunsAreSealed ∧ Claim.StripWritesFail ∧ Claim.LeesReclaim

/-- The place of a slot lies within the data of one block. -/
def Obligations.PlacesLieInOneBlock : Prop := Claim.PlacesLieInOneBlock

/-- Parity generation and reconstruction, and placement. -/
def Obligations.ParityAndPlacement : Prop := Claim.ParityResults ∧ Claim.PlacementLoads

/-- Slot reads, recovery, block jobs and slow members. -/
def Obligations.DriveJobResults : Prop := Claim.SlotReads ∧ Claim.SlotRecovery ∧ Claim.BlockJobs ∧ Claim.SlowMembers

/-- Member states, rebuild, copyback, sparge and racking. -/
def Obligations.MembersAndRebuild : Prop := Claim.MembersFail ∧ Claim.MemberStateWrites ∧ Claim.RebuildResults ∧ Claim.CopybackResults ∧ Claim.SpargeResults ∧ Claim.RackingResults

/-- Fingerprints, the lauter filter and admission windows. -/
def Obligations.FingerprintResults : Prop := Claim.FingerprintResults ∧ Claim.FilterEnable ∧ Claim.FilterJobs ∧ Claim.AdmissionWindows

/-- An index page finds an entry that was added to it. -/
def Obligations.IndexPagesFindWhatWasAdded : Prop := Claim.IndexPagesFindWhatWasAdded

/-- Index jobs, the census, sweep, reset and the index queues. -/
def Obligations.IndexResults : Prop := Claim.IndexJobs ∧ Claim.CensusResults ∧ Claim.SweepAndResetResults ∧ Claim.IndexQueues

/-- Snapshot cuts, jobs, deletion and diff. -/
def Obligations.SnapshotResults : Prop := Claim.SnapshotCuts ∧ Claim.CutsAreApplied ∧ Claim.SnapshotJobs ∧ Claim.DeleteWalks ∧ Claim.DiffResults

/-- Every entry of a DIFF lies in the range asked for. -/
def Obligations.DiffEntriesLieInRange : Prop := Claim.DiffEntriesLieInRange

/-- Pair cuts, and the sender and receiver of replication streams. -/
def Obligations.PairCutsAndStreams : Prop := Claim.PairCuts ∧ Claim.StreamResults ∧ Claim.StreamReceiver

/-- Admin commands, associations, Identify, log pages and Connect. -/
def Obligations.HostAdminResults : Prop := Claim.AdminCommands ∧ Claim.AssociationsEnd ∧ Claim.IdentifyAndLogPages ∧ Claim.ConnectResults

/-- I/O capsules and forwarded commands. -/
def Obligations.HostIoResults : Prop := Claim.IoCapsules ∧ Claim.ForwardedCommands

/-- The service ring and what the steward does for its commands. -/
def Obligations.ServiceCommandResults : Prop := Claim.ServiceRing ∧ Claim.StewardCommands

/-- Posting operations, protection information, drain and lost slots. -/
def Obligations.HostEngineResults : Prop := Claim.PostingOperations ∧ Claim.ProtectionInformation ∧ Claim.DrainAndLostSlots

/-- The connection manager, queue pairs and windows. -/
def Obligations.RdmaControlResults : Prop := Claim.ConnectionManager ∧ Claim.QueuePairCommands ∧ Claim.WindowCommands

/-- Inbound packets and congestion control. -/
def Obligations.RdmaPacketResults : Prop := Claim.PacketsAreChecked ∧ Claim.InboundRequests ∧ Claim.CongestionControl

/-- RDMA jobs, acknowledgements, and the PDUs of TCP queues. -/
def Obligations.RdmaJobResults : Prop := Claim.RdmaJobs ∧ Claim.Acknowledgements ∧ Claim.TcpPdus

/-- The switch core, its scheduler and resequencer, and the tap. -/
def Obligations.SwitchResults : Prop := Claim.EthernetFrames ∧ Claim.CellsLeaveInOrder ∧ Claim.TapCaptures

/-- The frames and the states of the cell links. -/
def Obligations.CellLinkResults : Prop := Claim.CellLinkFrames ∧ Claim.CellLinkStates

/-- Heartbeats, races, fences, takeover, the partner window and PTP. -/
def Obligations.PartnerResults : Prop := Claim.Heartbeats ∧ Claim.RacesAndFences ∧ Claim.Takeover ∧ Claim.PartnerWindowAndTime

/-- SYNC, handover, failback and the link rekey. -/
def Obligations.SyncAndHandoverResults : Prop := Claim.Sync ∧ Claim.Handover ∧ Claim.LinkRekey

/-- Supplies, the power-fail sequence, voltage, sensors and power states. -/
def Obligations.PowerAndThermalResults : Prop := Claim.Supplies ∧ Claim.PowerFailSequence ∧ Claim.VoltageAndDroop ∧ Claim.SensorResults ∧ Claim.PowerStates

/-- Reset sources, the head reset, power-on, reference clocks, boot and checkpoints. -/
def Obligations.ResetAndBootResults : Prop := Claim.ResetSources ∧ Claim.HeadResetResults ∧ Claim.PowerOn ∧ Claim.ReferenceClocks ∧ Claim.BootSteps ∧ Claim.CoresAndCheckpoints

/-- Staging, update commands, activation, attestation and the board pins. -/
def Obligations.FirmwareResults : Prop := Claim.StagePackages ∧ Claim.UpdateCommands ∧ Claim.Activation ∧ Claim.AttestationQuotes ∧ Claim.BoardPins

/-- Register accesses and the governor's decisions. -/
def Obligations.RegistersAndGovernor : Prop := Claim.RegisterAccess ∧ Claim.GovernorDecisions

/-- A packet with a bad ICRC or for no queue pair is dropped and counted. -/
def Obligations.BadPacketsAreDropped : Prop := Claim.BadPacketsAreDropped

/-- An address without a register reads as zero, ignores writes, and is recorded. -/
def Obligations.UnmappedRegistersReadAsZero : Prop := Claim.UnmappedRegisters

/-- A write of HOME is ignored and recorded while the group is not SETTLED. -/
def Obligations.GroupHomeWrites : Prop := Claim.GroupHomeWrites

/-- A write of GANG_CFG is ignored and recorded while a cell link is enabled. -/
def Obligations.GangConfigWrites : Prop := Claim.GangConfigWrites

/-- A write of PWR_PSU during the power-fail sequence takes effect after the next head reset. -/
def Obligations.SupplyWritesWait : Prop := Claim.SupplyWritesWait
end

