-- ==== Sys2Proof/Laws/Bits.lean ====
section
/-! SUPPORT. The laws of bit fields, of byte order (R8) and of the CRC. -/

namespace Sys2Proof.Machine

theorem bitsN_eq_testBit (n hi lo i : Nat) : (bitsN n hi lo).testBit i = (decide (i < hi + 1 - lo) && n.testBit (lo + i)) := by
  rw [bitsN, Nat.testBit_mod_two_pow, Nat.testBit_div_two_pow, Nat.add_comm i lo]

theorem bitsN_lt (n hi lo : Nat) : bitsN n hi lo < 2 ^ (hi + 1 - lo) := Nat.mod_lt _ (Nat.two_pow_pos _)

theorem bits_lt (w : Word) (hi lo : Nat) : bits w hi lo < 2 ^ (hi + 1 - lo) := bitsN_lt _ _ _

theorem getLsbD_maskW (hi lo i : Nat) : (maskW hi lo).getLsbD i = (decide (i < 64) && decide (lo ≤ i) && decide (i < hi + 1 - lo + lo)) := by
  simp only [maskW, BitVec.getLsbD_ofNat, Nat.testBit_mul_two_pow, Nat.testBit_two_pow_sub_one]
  by_cases h1 : lo ≤ i <;> by_cases h2 : i < 64 <;> simp [h1, h2] <;> omega

theorem getLsbD_setBits (w : Word) (hi lo v i : Nat) : (setBits w hi lo v).getLsbD i =
    if lo ≤ i ∧ i < hi + 1 - lo + lo then decide (i < 64) && v.testBit (i - lo) else w.getLsbD i := by
  simp only [setBits, BitVec.getLsbD_or, BitVec.getLsbD_and, BitVec.getLsbD_not, getLsbD_maskW, BitVec.getLsbD_ofNat, Nat.testBit_mul_two_pow,
    Nat.testBit_mod_two_pow]
  by_cases h0 : i < 64
  · by_cases h1 : lo ≤ i
    · by_cases h2 : i < hi + 1 - lo + lo
      · have h3 : i - lo < hi + 1 - lo := by omega
        simp [h0, h1, h2, h3]
      · have h3 : ¬(i - lo < hi + 1 - lo) := by omega
        simp [h0, h1, h2, h3]
    · simp [h0, h1]
  · have h4 : w.getLsbD i = false := BitVec.getLsbD_of_ge w i (by omega)
    simp [h0, h4]

/-- The field that was set reads as its new value, cut to its width. -/
theorem bits_setBits_self (w : Word) {hi lo : Nat} (h : hi < 64) (v : Nat) : bits (setBits w hi lo v) hi lo = v % 2 ^ (hi + 1 - lo) := by
  apply Nat.eq_of_testBit_eq
  intro i
  rw [bits, bitsN_eq_testBit, ← BitVec.getLsbD, getLsbD_setBits, Nat.testBit_mod_two_pow]
  by_cases hi' : i < hi + 1 - lo
  · have h1 : lo ≤ lo + i ∧ lo + i < hi + 1 - lo + lo := by omega
    have h2 : lo + i < 64 := by omega
    simp [hi', h1, h2]
  · simp [hi']

/-- Setting a field leaves every field that does not overlap it. -/
theorem bits_setBits_of_disjoint (w : Word) {hi lo hi' lo' : Nat} (v : Nat) (h : hi' < lo ∨ hi + 1 ≤ lo') :
    bits (setBits w hi lo v) hi' lo' = bits w hi' lo' := by
  apply Nat.eq_of_testBit_eq
  intro i
  rw [bits, bits, bitsN_eq_testBit, bitsN_eq_testBit, ← BitVec.getLsbD, ← BitVec.getLsbD, getLsbD_setBits]
  by_cases hi'' : i < hi' + 1 - lo'
  · rw [if_neg (by omega)]
  · simp [hi'']

@[simp] theorem leBytes_length (n v : Nat) : (leBytes n v).length = n := by
  induction n generalizing v with
  | zero => rfl
  | succ n ih => simp [leBytes, ih]

/-- The bytes of a number are the number, cut to their width. -/
theorem leNat_leBytes (n v : Nat) : leNat (leBytes n v) = v % 256 ^ n := by
  induction n generalizing v with
  | zero => simp [leBytes, leNat, Nat.mod_one]
  | succ n ih =>
    have h := Nat.mod_mul (x := v) (a := 256) (b := 256 ^ n)
    rw [leBytes, leNat, ih, BitVec.toNat_ofNat, Nat.pow_succ' (m := 256), h]

/-- A number of bytes is less than 256 to their count. -/
theorem leNat_lt (l : List Byte) : leNat l < 256 ^ l.length := by
  induction l with
  | nil => simp [leNat]
  | cons b l ih =>
    have hb : b.toNat < 256 := b.isLt
    rw [leNat, List.length_cons, Nat.pow_succ']
    calc b.toNat + 256 * leNat l < 256 * (leNat l + 1) := by omega
      _ ≤ 256 * 256 ^ l.length := Nat.mul_le_mul_left _ ih

/-- A number written out as as many bytes as it was read from gives those bytes. -/
theorem leBytes_leNat (l : List Byte) : leBytes l.length (leNat l) = l := by
  induction l with
  | nil => rfl
  | cons b l ih =>
    have hb : b.toNat < 256 := b.isLt
    have h1 : (b.toNat + 256 * leNat l) / 256 = leNat l := by omega
    rw [List.length_cons, leBytes, leNat, h1, ih]
    congr 1
    apply BitVec.eq_of_toNat_eq
    rw [BitVec.toNat_ofNat]
    omega

@[simp] theorem b2n_lt_two (b : Bool) : b2n b < 2 := by cases b <;> decide

/-- A CRC register of 64 bits keeps its width. -/
theorem crcSteps_lt {poly : Nat} (hp : poly < 2 ^ 64) (n c : Nat) (hc : c < 2 ^ 64) : crcSteps poly n c < 2 ^ 64 := by
  induction n generalizing c with
  | zero => exact hc
  | succ n ih =>
    rw [crcSteps]
    split
    · exact ih _ (Nat.xor_lt_two_pow (by omega) hp)
    · exact ih _ (by omega)

/-- A CRC-64 has 64 bits. -/
theorem crc64_lt (l : List Byte) : crc64 l < 2 ^ 64 := by
  have h : ∀ c, c < 2 ^ 64 → l.foldl (crcByte 0x9A6C9329AC4BC9B5) c < 2 ^ 64 := by
    induction l with
    | nil => exact fun c hc => hc
    | cons b l ih => exact fun c hc => ih _ (crcSteps_lt (by decide) 8 _ (Nat.xor_lt_two_pow hc (Nat.lt_of_lt_of_le b.isLt (by decide))))
  exact Nat.xor_lt_two_pow (h _ (by decide)) (by decide)

/-- A field beyond a prefix. -/
theorem fieldN_append (a b : List Byte) (i n : Nat) : fieldN (a ++ b) (a.length + i) n = fieldN b i n := by
  rw [fieldN, fieldN, List.drop_length_add_append]

/-- A field at the start. -/
theorem fieldN_left (a b : List Byte) : fieldN (a ++ b) 0 a.length = leNat a := by
  simp [fieldN]

end Sys2Proof.Machine
end

