-- ==== Sys2Proof/Laws/KMap.lean ====
section
/-! SUPPORT. The laws of sparse tables: what a read gives after a change, and that every change keeps the keys in order. -/

namespace Sys2Proof.Machine

variable {α : Type}

@[simp] theorem kget_nil (i : Nat) : kget ([] : KMap α) i = none := rfl

theorem kget_cons (k : Nat) (v : α) (m : KMap α) (i : Nat) : kget ((k, v) :: m) i = if i = k then some v else kget m i := rfl

@[simp] theorem kget_kput_self (m : KMap α) (i : Nat) (x : α) : kget (kput m i x) i = some x := by
  induction m with
  | nil => simp [kput, kget]
  | cons kv m ih =>
    obtain ⟨k, v⟩ := kv
    unfold kput
    split
    · simp [kget]
    · split
      · simp [kget]
      · next h => simp [kget, h, ih]

theorem kget_kput_ne (m : KMap α) {i j : Nat} (h : j ≠ i) (x : α) : kget (kput m i x) j = kget m j := by
  induction m with
  | nil => simp [kput, kget, h]
  | cons kv m ih =>
    obtain ⟨k, v⟩ := kv
    unfold kput
    split
    · simp [kget, h]
    · split
      · next hk => subst hk; simp [kget, h]
      · simp [kget, ih]

theorem kget_kdel_ne (m : KMap α) {i j : Nat} (h : j ≠ i) : kget (kdel m i) j = kget m j := by
  induction m with
  | nil => rfl
  | cons kv m ih =>
    obtain ⟨k, v⟩ := kv
    unfold kdel
    split
    · next hk => subst hk; simp [kget, h]
    · simp [kget, ih]

theorem keysFrom_mono {m : KMap α} {lo hi : Nat} (h : lo ≤ hi) (hm : keysFrom hi m = true) : keysFrom lo m = true := by
  cases m with
  | nil => rfl
  | cons kv m => simp [keysFrom] at hm ⊢; exact ⟨by omega, hm.2⟩

theorem kget_of_lt {m : KMap α} {lo i : Nat} (hm : keysFrom lo m = true) (h : i < lo) : kget m i = none := by
  induction m generalizing lo with
  | nil => rfl
  | cons kv m ih =>
    obtain ⟨k, v⟩ := kv
    simp [keysFrom] at hm
    rw [kget_cons, if_neg (by omega)]
    exact ih hm.2 (by omega)

theorem kget_kdel_self {m : KMap α} {lo : Nat} (hm : keysFrom lo m = true) (i : Nat) : kget (kdel m i) i = none := by
  induction m generalizing lo with
  | nil => rfl
  | cons kv m ih =>
    obtain ⟨k, v⟩ := kv
    simp [keysFrom] at hm
    unfold kdel
    split
    · next hk => subst hk; exact kget_of_lt hm.2 (by omega)
    · next hk => rw [kget_cons, if_neg hk]; exact ih hm.2

theorem keysFrom_kput {m : KMap α} {lo : Nat} (hm : keysFrom lo m = true) {i : Nat} (h : lo ≤ i) (x : α) : keysFrom lo (kput m i x) = true := by
  induction m generalizing lo with
  | nil => simp [kput, keysFrom, h]
  | cons kv m ih =>
    obtain ⟨k, v⟩ := kv
    simp [keysFrom] at hm
    unfold kput
    split
    · simp [keysFrom, h]; exact ⟨by omega, hm.2⟩
    · split
      · next hk => subst hk; simp [keysFrom, h, hm.2]
      · simp [keysFrom, hm.1]; exact ih hm.2 (by omega)

theorem keysFrom_kdel {m : KMap α} {lo : Nat} (hm : keysFrom lo m = true) (i : Nat) : keysFrom lo (kdel m i) = true := by
  induction m generalizing lo with
  | nil => rfl
  | cons kv m ih =>
    obtain ⟨k, v⟩ := kv
    simp [keysFrom] at hm
    unfold kdel
    split
    · exact keysFrom_mono (by omega) hm.2
    · simp [keysFrom, hm.1, ih hm.2]

theorem keysFrom_filter {m : KMap α} {lo : Nat} (hm : keysFrom lo m = true) (p : Nat × α → Bool) : keysFrom lo (m.filter p) = true := by
  induction m generalizing lo with
  | nil => rfl
  | cons kv m ih =>
    obtain ⟨k, v⟩ := kv
    simp [keysFrom] at hm
    rw [List.filter_cons]
    split
    · simp [keysFrom, hm.1, ih hm.2]
    · exact keysFrom_mono (by omega) (ih hm.2)

theorem kget_filter_key (m : KMap α) (p : Nat → Bool) (i : Nat) : kget (m.filter fun kv => p kv.1) i = if p i then kget m i else none := by
  induction m with
  | nil => simp
  | cons kv m ih =>
    obtain ⟨k, v⟩ := kv
    rw [List.filter_cons]
    by_cases hp : p k
    · simp only [hp, if_true, kget_cons, ih]
      split
      · next h => subst h; simp [hp]
      · rfl
    · simp only [hp, Bool.false_eq_true, if_false, ih, kget_cons]
      split
      · next h => split
                  · next h' => subst h'; simp [h] at hp
                  · rfl
      · rfl

@[simp] theorem kget_kmapV (m : KMap α) (f : Nat → α → α) (i : Nat) : kget (kmapV m f) i = (kget m i).map (f i) := by
  induction m with
  | nil => rfl
  | cons kv m ih =>
    obtain ⟨k, v⟩ := kv
    simp only [kmapV, List.map_cons, kget_cons] at ih ⊢
    split
    · next h => subst h; rfl
    · exact ih

theorem keysFrom_kmapV {m : KMap α} {lo : Nat} (f : Nat → α → α) : keysFrom lo (kmapV m f) = keysFrom lo m := by
  induction m generalizing lo with
  | nil => rfl
  | cons kv m ih => simp only [kmapV, List.map_cons, keysFrom] at ih ⊢; rw [ih]

theorem kget_kmod_self {m : KMap α} {i : Nat} {x : α} (h : kget m i = some x) (f : α → α) : kget (kmod m i f) i = some (f x) := by
  simp [kmod, h]

theorem kget_kmod_ne (m : KMap α) {i j : Nat} (h : j ≠ i) (f : α → α) : kget (kmod m i f) j = kget m j := by
  unfold kmod
  split
  · exact kget_kput_ne m h _
  · rfl

/-! ### Tables whose unlisted keys have a value -/

variable [DecidableEq α] {d : α}

@[simp] theorem kgetD_kput_self (m : KMap α) (i : Nat) (x d : α) : kgetD (kput m i x) i d = x := by simp [kgetD]

theorem kgetD_kput_ne (m : KMap α) {i j : Nat} (h : j ≠ i) (x d : α) : kgetD (kput m i x) j d = kgetD m j d := by
  simp [kgetD, kget_kput_ne m h]

theorem kgetD_kputD_ne (m : KMap α) {i j : Nat} (h : j ≠ i) (x : α) : kgetD (kputD d m i x) j d = kgetD m j d := by
  unfold kputD kgetD
  split
  · rw [kget_kdel_ne m h]
  · rw [kget_kput_ne m h]

theorem kgetD_kputD_self {m : KMap α} {lo : Nat} (hm : keysFrom lo m = true) (i : Nat) (x : α) : kgetD (kputD d m i x) i d = x := by
  unfold kputD
  split
  · next h => subst h; simp [kgetD, kget_kdel_self hm]
  · simp [kgetD]

theorem all_kput {m : KMap α} {p : Nat × α → Bool} (hm : m.all p = true) {i : Nat} {x : α} (h : p (i, x) = true) : (kput m i x).all p = true := by
  induction m with
  | nil => simp [kput, h]
  | cons kv m ih =>
    obtain ⟨k, v⟩ := kv
    rw [List.all_cons, Bool.and_eq_true] at hm
    unfold kput
    split
    · rw [List.all_cons, List.all_cons, h, hm.1, hm.2]; rfl
    · split
      · rw [List.all_cons, h, hm.2]; rfl
      · rw [List.all_cons, hm.1, ih hm.2]; rfl

theorem all_kdel {m : KMap α} {p : Nat × α → Bool} (hm : m.all p = true) (i : Nat) : (kdel m i).all p = true := by
  induction m with
  | nil => rfl
  | cons kv m ih =>
    obtain ⟨k, v⟩ := kv
    rw [List.all_cons, Bool.and_eq_true] at hm
    unfold kdel
    split
    · exact hm.2
    · rw [List.all_cons, hm.1, ih hm.2]; rfl

theorem canonical_kputD {m : KMap α} (hm : canonical d m = true) (i : Nat) (x : α) : canonical d (kputD d m i x) = true := by
  rw [canonical, Bool.and_eq_true] at hm ⊢
  unfold kputD
  split
  · exact ⟨keysFrom_kdel hm.1 i, all_kdel hm.2 i⟩
  · next h => exact ⟨keysFrom_kput hm.1 (Nat.zero_le i) x, all_kput hm.2 (by simpa using h)⟩

theorem canonical_filter {m : KMap α} (hm : canonical d m = true) (p : Nat × α → Bool) : canonical d (m.filter p) = true := by
  rw [canonical, Bool.and_eq_true] at hm ⊢
  refine ⟨keysFrom_filter hm.1 p, ?_⟩
  rw [List.all_eq_true] at hm ⊢
  exact fun x hx => hm.2 x (List.mem_filter.mp hx).1

end Sys2Proof.Machine
end

