-- ==== Sys2Proof/Laws/Memory.lean ====
section
/-! SUPPORT. The laws of memory: a read after a write, and that every operation over memory keeps its canonical form. -/

namespace Sys2Proof.Machine

theorem keysFrom_of_wf {m : List Host.Cell} (h : Memory.wf m = true) : keysFrom 0 m = true := by
  rw [Memory.wf, canonical, Bool.and_eq_true] at h
  exact h.1

theorem mget_mput_self {m : List Host.Cell} (h : Memory.wf m = true) (a : Nat) (b : Byte) : mget (mput m a b) a = b :=
  kgetD_kputD_self (keysFrom_of_wf h) a b

theorem mget_mput_ne (m : List Host.Cell) {a x : Nat} (h : x ≠ a) (b : Byte) : mget (mput m a b) x = mget m x := kgetD_kputD_ne m h b

theorem wf_mput {m : List Host.Cell} (h : Memory.wf m = true) (a : Nat) (b : Byte) : Memory.wf (mput m a b) = true := canonical_kputD h a b

theorem wf_mwrite {m : List Host.Cell} (h : Memory.wf m = true) (a : Nat) (l : List Byte) : Memory.wf (mwrite m a l) = true := by
  induction l generalizing m a with
  | nil => exact h
  | cons b l ih => exact ih (wf_mput h a b) (a + 1)

theorem wf_filter {m : List Host.Cell} (h : Memory.wf m = true) (p : Host.Cell → Bool) : Memory.wf (m.filter p) = true := canonical_filter h p

/-- A write leaves every byte outside it. -/
theorem mget_mwrite_of_out (m : List Host.Cell) (a : Nat) (l : List Byte) {x : Nat} (h : x < a ∨ a + l.length ≤ x) : mget (mwrite m a l) x = mget m x := by
  induction l generalizing m a with
  | nil => rfl
  | cons b l ih =>
    rw [List.length_cons] at h
    rw [mwrite, ih _ _ (by omega), mget_mput_ne m (by omega)]

/-- A write puts its bytes where it says. -/
theorem mget_mwrite_of_in {m : List Host.Cell} (hm : Memory.wf m = true) (a : Nat) (l : List Byte) {i : Nat} (h : i < l.length) :
    mget (mwrite m a l) (a + i) = l[i] := by
  induction l generalizing m a i with
  | nil => simp at h
  | cons b l ih =>
    cases i with
    | zero =>
      rw [mwrite, mget_mwrite_of_out _ _ _ (by omega)]
      exact mget_mput_self hm a b
    | succ i =>
      rw [mwrite, show a + (i + 1) = a + 1 + i by omega]
      exact ih (wf_mput hm a b) (a + 1) (by simpa using h)

@[simp] theorem mread_length (m : List Host.Cell) (a n : Nat) : (mread m a n).length = n := by simp [mread]

/-- Reading what has just been written. -/
theorem mread_mwrite {m : List Host.Cell} (hm : Memory.wf m = true) (a : Nat) (l : List Byte) : mread (mwrite m a l) a l.length = l := by
  apply List.ext_getElem
  · simp
  · intro i _ h
    simp [mread, mget_mwrite_of_in hm a l h]

/-- A write leaves what is read elsewhere. -/
theorem mread_mwrite_of_out (m : List Host.Cell) (a : Nat) (l : List Byte) {x n : Nat} (h : x + n ≤ a ∨ a + l.length ≤ x) :
    mread (mwrite m a l) x n = mread m x n := by
  apply List.map_congr_left
  intro i hi
  rw [List.mem_range] at hi
  exact mget_mwrite_of_out m a l (by omega)

/-! ### The named operations -/

theorem rdB_wrB {s : State} (h : Memory.wf s.mem = true) (a : Nat) (l : List Byte) : rdB (wrB a l s) a l.length = l := mread_mwrite h a l

theorem rdB_wrB_of_out (s : State) (a : Nat) (l : List Byte) {x n : Nat} (h : x + n ≤ a ∨ a + l.length ≤ x) : rdB (wrB a l s) x n = rdB s x n :=
  mread_mwrite_of_out s.mem a l h

theorem wf_wrB {s : State} (h : Memory.wf s.mem = true) (a : Nat) (l : List Byte) : Memory.wf (wrB a l s).mem = true := wf_mwrite h a l

theorem wf_wrN {s : State} (h : Memory.wf s.mem = true) (a n v : Nat) : Memory.wf (wrN a n v s).mem = true := wf_mwrite h a _

theorem wf_wrBits {s : State} (h : Memory.wf s.mem = true) (a n hi lo v : Nat) : Memory.wf (wrBits a n hi lo v s).mem = true := wf_wrN h a n _

theorem wf_wrFree {s : State} (h : Memory.wf s.mem = true) (a n : Nat) : Memory.wf (wrFree a n s).mem = true := wf_mwrite h a _

theorem wf_wipe {s : State} (h : Memory.wf s.mem = true) (lo hi : Nat) : Memory.wf (wipe lo hi s).mem = true := wf_filter h _

/-- A fold of steps that each keep the canonical form keeps it. -/
theorem wf_foldl {β : Type} {f : State → β → State} (hf : ∀ s x, Memory.wf s.mem = true → Memory.wf (f s x).mem = true) (l : List β) {s : State}
    (h : Memory.wf s.mem = true) : Memory.wf (l.foldl f s).mem = true := by
  induction l generalizing s with
  | nil => exact h
  | cons x l ih => exact ih (hf s x h)

/-- What forgetting a range leaves. -/
theorem mget_wipe (s : State) (lo hi a : Nat) : mget (wipe lo hi s).mem a = if lo ≤ a ∧ a ≤ hi then 0 else mget s.mem a := by
  have h := kget_filter_key s.mem (fun k => !(decide (lo ≤ k) && decide (k ≤ hi))) a
  simp only [wipe, mget, kgetD, h]
  by_cases h1 : lo ≤ a <;> by_cases h2 : a ≤ hi <;> simp [h1, h2]

theorem reset_mem_wf : Memory.wf State.reset.mem = true := rfl

end Sys2Proof.Machine
end

