-- ==== Sys2Proof/Laws/State.lean ====
section
/-! SUPPORT. What each named update of the state leaves as it was, field by field, and what it writes. -/

namespace Sys2Proof.Machine

variable (s : State)

/-! ### wrN -/

@[simp] theorem wrN_mem (a n v : Nat) : (wrN a n v s).mem = mwrite s.mem a (leBytes n v) := rfl
@[simp] theorem wrN_pending (a n v : Nat) : (wrN a n v s).pending = s.pending := rfl
@[simp] theorem wrN_csr (a n v : Nat) : (wrN a n v s).csr = s.csr := rfl
@[simp] theorem wrN_dtime (a n v : Nat) : (wrN a n v s).dtime = s.dtime := rfl
@[simp] theorem wrN_free (a n v : Nat) : (wrN a n v s).free = s.free := rfl
@[simp] theorem wrN_out (a n v : Nat) : (wrN a n v s).out = s.out := rfl
@[simp] theorem wrN_ddrcSize (a n v : Nat) : (wrN a n v s).ddrcSize = s.ddrcSize := rfl
@[simp] theorem wrN_ctxs (a n v : Nat) : (wrN a n v s).ctxs = s.ctxs := rfl
@[simp] theorem wrN_seqs (a n v : Nat) : (wrN a n v s).seqs = s.seqs := rfl
@[simp] theorem wrN_sched (a n v : Nat) : (wrN a n v s).sched = s.sched := rfl
@[simp] theorem wrN_weight (a n v : Nat) : (wrN a n v s).weight = s.weight := rfl
@[simp] theorem wrN_stews (a n v : Nat) : (wrN a n v s).stews = s.stews := rfl
@[simp] theorem wrN_jobs (a n v : Nat) : (wrN a n v s).jobs = s.jobs := rfl
@[simp] theorem wrN_nextJob (a n v : Nat) : (wrN a n v s).nextJob = s.nextJob := rfl
@[simp] theorem wrN_nextOrd (a n v : Nat) : (wrN a n v s).nextOrd = s.nextOrd := rfl
@[simp] theorem wrN_cel (a n v : Nat) : (wrN a n v s).cel = s.cel := rfl
@[simp] theorem wrN_bung (a n v : Nat) : (wrN a n v s).bung = s.bung := rfl
@[simp] theorem wrN_ctxWait (a n v : Nat) : (wrN a n v s).ctxWait = s.ctxWait := rfl
@[simp] theorem wrN_partner (a n v : Nat) : (wrN a n v s).partner = s.partner := rfl
@[simp] theorem wrN_me (a n v : Nat) : (wrN a n v s).me = s.me := rfl
@[simp] theorem wrN_mc (a n v : Nat) : (wrN a n v s).mc = s.mc := rfl
@[simp] theorem wrN_rootRecs (a n v : Nat) : (wrN a n v s).rootRecs = s.rootRecs := rfl
@[simp] theorem wrN_comp (a n v : Nat) : (wrN a n v s).comp = s.comp := rfl
@[simp] theorem wrN_xe (a n v : Nat) : (wrN a n v s).xe = s.xe := rfl
@[simp] theorem wrN_gl (a n v : Nat) : (wrN a n v s).gl = s.gl := rfl
@[simp] theorem wrN_ta (a n v : Nat) : (wrN a n v s).ta = s.ta := rfl
@[simp] theorem wrN_plc (a n v : Nat) : (wrN a n v s).plc = s.plc := rfl
@[simp] theorem wrN_snap (a n v : Nat) : (wrN a n v s).snap = s.snap := rfl
@[simp] theorem wrN_str (a n v : Nat) : (wrN a n v s).str = s.str := rfl
@[simp] theorem wrN_host (a n v : Nat) : (wrN a n v s).host = s.host := rfl
@[simp] theorem wrN_rx (a n v : Nat) : (wrN a n v s).rx = s.rx := rfl
@[simp] theorem wrN_sw (a n v : Nat) : (wrN a n v s).sw = s.sw := rfl
@[simp] theorem wrN_rekey (a n v : Nat) : (wrN a n v s).rekey = s.rekey := rfl
@[simp] theorem wrN_rst (a n v : Nat) : (wrN a n v s).rst = s.rst := rfl
@[simp] theorem wrN_pwr (a n v : Nat) : (wrN a n v s).pwr = s.pwr := rfl
@[simp] theorem wrN_boot (a n v : Nat) : (wrN a n v s).boot = s.boot := rfl
@[simp] theorem wrN_upd (a n v : Nat) : (wrN a n v s).upd = s.upd := rfl
@[simp] theorem wrN_board (a n v : Nat) : (wrN a n v s).board = s.board := rfl

/-! ### wrB -/

@[simp] theorem wrB_mem (a : Nat) (l : List Byte) : (wrB a l s).mem = mwrite s.mem a l := rfl
@[simp] theorem wrB_pending (a : Nat) (l : List Byte) : (wrB a l s).pending = s.pending := rfl
@[simp] theorem wrB_csr (a : Nat) (l : List Byte) : (wrB a l s).csr = s.csr := rfl
@[simp] theorem wrB_dtime (a : Nat) (l : List Byte) : (wrB a l s).dtime = s.dtime := rfl
@[simp] theorem wrB_free (a : Nat) (l : List Byte) : (wrB a l s).free = s.free := rfl
@[simp] theorem wrB_out (a : Nat) (l : List Byte) : (wrB a l s).out = s.out := rfl
@[simp] theorem wrB_ddrcSize (a : Nat) (l : List Byte) : (wrB a l s).ddrcSize = s.ddrcSize := rfl
@[simp] theorem wrB_ctxs (a : Nat) (l : List Byte) : (wrB a l s).ctxs = s.ctxs := rfl
@[simp] theorem wrB_seqs (a : Nat) (l : List Byte) : (wrB a l s).seqs = s.seqs := rfl
@[simp] theorem wrB_sched (a : Nat) (l : List Byte) : (wrB a l s).sched = s.sched := rfl
@[simp] theorem wrB_weight (a : Nat) (l : List Byte) : (wrB a l s).weight = s.weight := rfl
@[simp] theorem wrB_stews (a : Nat) (l : List Byte) : (wrB a l s).stews = s.stews := rfl
@[simp] theorem wrB_jobs (a : Nat) (l : List Byte) : (wrB a l s).jobs = s.jobs := rfl
@[simp] theorem wrB_nextJob (a : Nat) (l : List Byte) : (wrB a l s).nextJob = s.nextJob := rfl
@[simp] theorem wrB_nextOrd (a : Nat) (l : List Byte) : (wrB a l s).nextOrd = s.nextOrd := rfl
@[simp] theorem wrB_cel (a : Nat) (l : List Byte) : (wrB a l s).cel = s.cel := rfl
@[simp] theorem wrB_bung (a : Nat) (l : List Byte) : (wrB a l s).bung = s.bung := rfl
@[simp] theorem wrB_ctxWait (a : Nat) (l : List Byte) : (wrB a l s).ctxWait = s.ctxWait := rfl
@[simp] theorem wrB_partner (a : Nat) (l : List Byte) : (wrB a l s).partner = s.partner := rfl
@[simp] theorem wrB_me (a : Nat) (l : List Byte) : (wrB a l s).me = s.me := rfl
@[simp] theorem wrB_mc (a : Nat) (l : List Byte) : (wrB a l s).mc = s.mc := rfl
@[simp] theorem wrB_rootRecs (a : Nat) (l : List Byte) : (wrB a l s).rootRecs = s.rootRecs := rfl
@[simp] theorem wrB_comp (a : Nat) (l : List Byte) : (wrB a l s).comp = s.comp := rfl
@[simp] theorem wrB_xe (a : Nat) (l : List Byte) : (wrB a l s).xe = s.xe := rfl
@[simp] theorem wrB_gl (a : Nat) (l : List Byte) : (wrB a l s).gl = s.gl := rfl
@[simp] theorem wrB_ta (a : Nat) (l : List Byte) : (wrB a l s).ta = s.ta := rfl
@[simp] theorem wrB_plc (a : Nat) (l : List Byte) : (wrB a l s).plc = s.plc := rfl
@[simp] theorem wrB_snap (a : Nat) (l : List Byte) : (wrB a l s).snap = s.snap := rfl
@[simp] theorem wrB_str (a : Nat) (l : List Byte) : (wrB a l s).str = s.str := rfl
@[simp] theorem wrB_host (a : Nat) (l : List Byte) : (wrB a l s).host = s.host := rfl
@[simp] theorem wrB_rx (a : Nat) (l : List Byte) : (wrB a l s).rx = s.rx := rfl
@[simp] theorem wrB_sw (a : Nat) (l : List Byte) : (wrB a l s).sw = s.sw := rfl
@[simp] theorem wrB_rekey (a : Nat) (l : List Byte) : (wrB a l s).rekey = s.rekey := rfl
@[simp] theorem wrB_rst (a : Nat) (l : List Byte) : (wrB a l s).rst = s.rst := rfl
@[simp] theorem wrB_pwr (a : Nat) (l : List Byte) : (wrB a l s).pwr = s.pwr := rfl
@[simp] theorem wrB_boot (a : Nat) (l : List Byte) : (wrB a l s).boot = s.boot := rfl
@[simp] theorem wrB_upd (a : Nat) (l : List Byte) : (wrB a l s).upd = s.upd := rfl
@[simp] theorem wrB_board (a : Nat) (l : List Byte) : (wrB a l s).board = s.board := rfl

/-! ### wrBits -/

@[simp] theorem wrBits_pending (a n hi lo v : Nat) : (wrBits a n hi lo v s).pending = s.pending := rfl
@[simp] theorem wrBits_csr (a n hi lo v : Nat) : (wrBits a n hi lo v s).csr = s.csr := rfl
@[simp] theorem wrBits_dtime (a n hi lo v : Nat) : (wrBits a n hi lo v s).dtime = s.dtime := rfl
@[simp] theorem wrBits_free (a n hi lo v : Nat) : (wrBits a n hi lo v s).free = s.free := rfl
@[simp] theorem wrBits_out (a n hi lo v : Nat) : (wrBits a n hi lo v s).out = s.out := rfl
@[simp] theorem wrBits_ddrcSize (a n hi lo v : Nat) : (wrBits a n hi lo v s).ddrcSize = s.ddrcSize := rfl
@[simp] theorem wrBits_ctxs (a n hi lo v : Nat) : (wrBits a n hi lo v s).ctxs = s.ctxs := rfl
@[simp] theorem wrBits_seqs (a n hi lo v : Nat) : (wrBits a n hi lo v s).seqs = s.seqs := rfl
@[simp] theorem wrBits_sched (a n hi lo v : Nat) : (wrBits a n hi lo v s).sched = s.sched := rfl
@[simp] theorem wrBits_weight (a n hi lo v : Nat) : (wrBits a n hi lo v s).weight = s.weight := rfl
@[simp] theorem wrBits_stews (a n hi lo v : Nat) : (wrBits a n hi lo v s).stews = s.stews := rfl
@[simp] theorem wrBits_jobs (a n hi lo v : Nat) : (wrBits a n hi lo v s).jobs = s.jobs := rfl
@[simp] theorem wrBits_nextJob (a n hi lo v : Nat) : (wrBits a n hi lo v s).nextJob = s.nextJob := rfl
@[simp] theorem wrBits_nextOrd (a n hi lo v : Nat) : (wrBits a n hi lo v s).nextOrd = s.nextOrd := rfl
@[simp] theorem wrBits_cel (a n hi lo v : Nat) : (wrBits a n hi lo v s).cel = s.cel := rfl
@[simp] theorem wrBits_bung (a n hi lo v : Nat) : (wrBits a n hi lo v s).bung = s.bung := rfl
@[simp] theorem wrBits_ctxWait (a n hi lo v : Nat) : (wrBits a n hi lo v s).ctxWait = s.ctxWait := rfl
@[simp] theorem wrBits_partner (a n hi lo v : Nat) : (wrBits a n hi lo v s).partner = s.partner := rfl
@[simp] theorem wrBits_me (a n hi lo v : Nat) : (wrBits a n hi lo v s).me = s.me := rfl
@[simp] theorem wrBits_mc (a n hi lo v : Nat) : (wrBits a n hi lo v s).mc = s.mc := rfl
@[simp] theorem wrBits_rootRecs (a n hi lo v : Nat) : (wrBits a n hi lo v s).rootRecs = s.rootRecs := rfl
@[simp] theorem wrBits_comp (a n hi lo v : Nat) : (wrBits a n hi lo v s).comp = s.comp := rfl
@[simp] theorem wrBits_xe (a n hi lo v : Nat) : (wrBits a n hi lo v s).xe = s.xe := rfl
@[simp] theorem wrBits_gl (a n hi lo v : Nat) : (wrBits a n hi lo v s).gl = s.gl := rfl
@[simp] theorem wrBits_ta (a n hi lo v : Nat) : (wrBits a n hi lo v s).ta = s.ta := rfl
@[simp] theorem wrBits_plc (a n hi lo v : Nat) : (wrBits a n hi lo v s).plc = s.plc := rfl
@[simp] theorem wrBits_snap (a n hi lo v : Nat) : (wrBits a n hi lo v s).snap = s.snap := rfl
@[simp] theorem wrBits_str (a n hi lo v : Nat) : (wrBits a n hi lo v s).str = s.str := rfl
@[simp] theorem wrBits_host (a n hi lo v : Nat) : (wrBits a n hi lo v s).host = s.host := rfl
@[simp] theorem wrBits_rx (a n hi lo v : Nat) : (wrBits a n hi lo v s).rx = s.rx := rfl
@[simp] theorem wrBits_sw (a n hi lo v : Nat) : (wrBits a n hi lo v s).sw = s.sw := rfl
@[simp] theorem wrBits_rekey (a n hi lo v : Nat) : (wrBits a n hi lo v s).rekey = s.rekey := rfl
@[simp] theorem wrBits_rst (a n hi lo v : Nat) : (wrBits a n hi lo v s).rst = s.rst := rfl
@[simp] theorem wrBits_pwr (a n hi lo v : Nat) : (wrBits a n hi lo v s).pwr = s.pwr := rfl
@[simp] theorem wrBits_boot (a n hi lo v : Nat) : (wrBits a n hi lo v s).boot = s.boot := rfl
@[simp] theorem wrBits_upd (a n hi lo v : Nat) : (wrBits a n hi lo v s).upd = s.upd := rfl
@[simp] theorem wrBits_board (a n hi lo v : Nat) : (wrBits a n hi lo v s).board = s.board := rfl

/-! ### wrFree -/

@[simp] theorem wrFree_mem (a n : Nat) : (wrFree a n s).mem = mwrite s.mem a (freeBytes s n) := rfl
@[simp] theorem wrFree_free (a n : Nat) : (wrFree a n s).free = s.free + n := rfl
@[simp] theorem wrFree_pending (a n : Nat) : (wrFree a n s).pending = s.pending := rfl
@[simp] theorem wrFree_csr (a n : Nat) : (wrFree a n s).csr = s.csr := rfl
@[simp] theorem wrFree_dtime (a n : Nat) : (wrFree a n s).dtime = s.dtime := rfl
@[simp] theorem wrFree_out (a n : Nat) : (wrFree a n s).out = s.out := rfl
@[simp] theorem wrFree_ddrcSize (a n : Nat) : (wrFree a n s).ddrcSize = s.ddrcSize := rfl
@[simp] theorem wrFree_ctxs (a n : Nat) : (wrFree a n s).ctxs = s.ctxs := rfl
@[simp] theorem wrFree_seqs (a n : Nat) : (wrFree a n s).seqs = s.seqs := rfl
@[simp] theorem wrFree_sched (a n : Nat) : (wrFree a n s).sched = s.sched := rfl
@[simp] theorem wrFree_weight (a n : Nat) : (wrFree a n s).weight = s.weight := rfl
@[simp] theorem wrFree_stews (a n : Nat) : (wrFree a n s).stews = s.stews := rfl
@[simp] theorem wrFree_jobs (a n : Nat) : (wrFree a n s).jobs = s.jobs := rfl
@[simp] theorem wrFree_nextJob (a n : Nat) : (wrFree a n s).nextJob = s.nextJob := rfl
@[simp] theorem wrFree_nextOrd (a n : Nat) : (wrFree a n s).nextOrd = s.nextOrd := rfl
@[simp] theorem wrFree_cel (a n : Nat) : (wrFree a n s).cel = s.cel := rfl
@[simp] theorem wrFree_bung (a n : Nat) : (wrFree a n s).bung = s.bung := rfl
@[simp] theorem wrFree_ctxWait (a n : Nat) : (wrFree a n s).ctxWait = s.ctxWait := rfl
@[simp] theorem wrFree_partner (a n : Nat) : (wrFree a n s).partner = s.partner := rfl
@[simp] theorem wrFree_me (a n : Nat) : (wrFree a n s).me = s.me := rfl
@[simp] theorem wrFree_mc (a n : Nat) : (wrFree a n s).mc = s.mc := rfl
@[simp] theorem wrFree_rootRecs (a n : Nat) : (wrFree a n s).rootRecs = s.rootRecs := rfl
@[simp] theorem wrFree_comp (a n : Nat) : (wrFree a n s).comp = s.comp := rfl
@[simp] theorem wrFree_xe (a n : Nat) : (wrFree a n s).xe = s.xe := rfl
@[simp] theorem wrFree_gl (a n : Nat) : (wrFree a n s).gl = s.gl := rfl
@[simp] theorem wrFree_ta (a n : Nat) : (wrFree a n s).ta = s.ta := rfl
@[simp] theorem wrFree_plc (a n : Nat) : (wrFree a n s).plc = s.plc := rfl
@[simp] theorem wrFree_snap (a n : Nat) : (wrFree a n s).snap = s.snap := rfl
@[simp] theorem wrFree_str (a n : Nat) : (wrFree a n s).str = s.str := rfl
@[simp] theorem wrFree_host (a n : Nat) : (wrFree a n s).host = s.host := rfl
@[simp] theorem wrFree_rx (a n : Nat) : (wrFree a n s).rx = s.rx := rfl
@[simp] theorem wrFree_sw (a n : Nat) : (wrFree a n s).sw = s.sw := rfl
@[simp] theorem wrFree_rekey (a n : Nat) : (wrFree a n s).rekey = s.rekey := rfl
@[simp] theorem wrFree_rst (a n : Nat) : (wrFree a n s).rst = s.rst := rfl
@[simp] theorem wrFree_pwr (a n : Nat) : (wrFree a n s).pwr = s.pwr := rfl
@[simp] theorem wrFree_boot (a n : Nat) : (wrFree a n s).boot = s.boot := rfl
@[simp] theorem wrFree_upd (a n : Nat) : (wrFree a n s).upd = s.upd := rfl
@[simp] theorem wrFree_board (a n : Nat) : (wrFree a n s).board = s.board := rfl

/-! ### wipe -/

@[simp] theorem wipe_pending (lo hi : Nat) : (wipe lo hi s).pending = s.pending := rfl
@[simp] theorem wipe_csr (lo hi : Nat) : (wipe lo hi s).csr = s.csr := rfl
@[simp] theorem wipe_dtime (lo hi : Nat) : (wipe lo hi s).dtime = s.dtime := rfl
@[simp] theorem wipe_free (lo hi : Nat) : (wipe lo hi s).free = s.free := rfl
@[simp] theorem wipe_out (lo hi : Nat) : (wipe lo hi s).out = s.out := rfl
@[simp] theorem wipe_ddrcSize (lo hi : Nat) : (wipe lo hi s).ddrcSize = s.ddrcSize := rfl
@[simp] theorem wipe_ctxs (lo hi : Nat) : (wipe lo hi s).ctxs = s.ctxs := rfl
@[simp] theorem wipe_seqs (lo hi : Nat) : (wipe lo hi s).seqs = s.seqs := rfl
@[simp] theorem wipe_sched (lo hi : Nat) : (wipe lo hi s).sched = s.sched := rfl
@[simp] theorem wipe_weight (lo hi : Nat) : (wipe lo hi s).weight = s.weight := rfl
@[simp] theorem wipe_stews (lo hi : Nat) : (wipe lo hi s).stews = s.stews := rfl
@[simp] theorem wipe_jobs (lo hi : Nat) : (wipe lo hi s).jobs = s.jobs := rfl
@[simp] theorem wipe_nextJob (lo hi : Nat) : (wipe lo hi s).nextJob = s.nextJob := rfl
@[simp] theorem wipe_nextOrd (lo hi : Nat) : (wipe lo hi s).nextOrd = s.nextOrd := rfl
@[simp] theorem wipe_cel (lo hi : Nat) : (wipe lo hi s).cel = s.cel := rfl
@[simp] theorem wipe_bung (lo hi : Nat) : (wipe lo hi s).bung = s.bung := rfl
@[simp] theorem wipe_ctxWait (lo hi : Nat) : (wipe lo hi s).ctxWait = s.ctxWait := rfl
@[simp] theorem wipe_partner (lo hi : Nat) : (wipe lo hi s).partner = s.partner := rfl
@[simp] theorem wipe_me (lo hi : Nat) : (wipe lo hi s).me = s.me := rfl
@[simp] theorem wipe_mc (lo hi : Nat) : (wipe lo hi s).mc = s.mc := rfl
@[simp] theorem wipe_rootRecs (lo hi : Nat) : (wipe lo hi s).rootRecs = s.rootRecs := rfl
@[simp] theorem wipe_comp (lo hi : Nat) : (wipe lo hi s).comp = s.comp := rfl
@[simp] theorem wipe_xe (lo hi : Nat) : (wipe lo hi s).xe = s.xe := rfl
@[simp] theorem wipe_gl (lo hi : Nat) : (wipe lo hi s).gl = s.gl := rfl
@[simp] theorem wipe_ta (lo hi : Nat) : (wipe lo hi s).ta = s.ta := rfl
@[simp] theorem wipe_plc (lo hi : Nat) : (wipe lo hi s).plc = s.plc := rfl
@[simp] theorem wipe_snap (lo hi : Nat) : (wipe lo hi s).snap = s.snap := rfl
@[simp] theorem wipe_str (lo hi : Nat) : (wipe lo hi s).str = s.str := rfl
@[simp] theorem wipe_host (lo hi : Nat) : (wipe lo hi s).host = s.host := rfl
@[simp] theorem wipe_rx (lo hi : Nat) : (wipe lo hi s).rx = s.rx := rfl
@[simp] theorem wipe_sw (lo hi : Nat) : (wipe lo hi s).sw = s.sw := rfl
@[simp] theorem wipe_rekey (lo hi : Nat) : (wipe lo hi s).rekey = s.rekey := rfl
@[simp] theorem wipe_rst (lo hi : Nat) : (wipe lo hi s).rst = s.rst := rfl
@[simp] theorem wipe_pwr (lo hi : Nat) : (wipe lo hi s).pwr = s.pwr := rfl
@[simp] theorem wipe_boot (lo hi : Nat) : (wipe lo hi s).boot = s.boot := rfl
@[simp] theorem wipe_upd (lo hi : Nat) : (wipe lo hi s).upd = s.upd := rfl
@[simp] theorem wipe_board (lo hi : Nat) : (wipe lo hi s).board = s.board := rfl

/-! ### wr -/

@[simp] theorem wr_csr (r : RegName) (v : Word) (i j : Nat) : (wr r v s i j).csr = kput s.csr (r.addr i j) v := rfl
@[simp] theorem wr_pending (r : RegName) (v : Word) (i j : Nat) : (wr r v s i j).pending = s.pending := rfl
@[simp] theorem wr_mem (r : RegName) (v : Word) (i j : Nat) : (wr r v s i j).mem = s.mem := rfl
@[simp] theorem wr_dtime (r : RegName) (v : Word) (i j : Nat) : (wr r v s i j).dtime = s.dtime := rfl
@[simp] theorem wr_free (r : RegName) (v : Word) (i j : Nat) : (wr r v s i j).free = s.free := rfl
@[simp] theorem wr_out (r : RegName) (v : Word) (i j : Nat) : (wr r v s i j).out = s.out := rfl
@[simp] theorem wr_ddrcSize (r : RegName) (v : Word) (i j : Nat) : (wr r v s i j).ddrcSize = s.ddrcSize := rfl
@[simp] theorem wr_ctxs (r : RegName) (v : Word) (i j : Nat) : (wr r v s i j).ctxs = s.ctxs := rfl
@[simp] theorem wr_seqs (r : RegName) (v : Word) (i j : Nat) : (wr r v s i j).seqs = s.seqs := rfl
@[simp] theorem wr_sched (r : RegName) (v : Word) (i j : Nat) : (wr r v s i j).sched = s.sched := rfl
@[simp] theorem wr_weight (r : RegName) (v : Word) (i j : Nat) : (wr r v s i j).weight = s.weight := rfl
@[simp] theorem wr_stews (r : RegName) (v : Word) (i j : Nat) : (wr r v s i j).stews = s.stews := rfl
@[simp] theorem wr_jobs (r : RegName) (v : Word) (i j : Nat) : (wr r v s i j).jobs = s.jobs := rfl
@[simp] theorem wr_nextJob (r : RegName) (v : Word) (i j : Nat) : (wr r v s i j).nextJob = s.nextJob := rfl
@[simp] theorem wr_nextOrd (r : RegName) (v : Word) (i j : Nat) : (wr r v s i j).nextOrd = s.nextOrd := rfl
@[simp] theorem wr_cel (r : RegName) (v : Word) (i j : Nat) : (wr r v s i j).cel = s.cel := rfl
@[simp] theorem wr_bung (r : RegName) (v : Word) (i j : Nat) : (wr r v s i j).bung = s.bung := rfl
@[simp] theorem wr_ctxWait (r : RegName) (v : Word) (i j : Nat) : (wr r v s i j).ctxWait = s.ctxWait := rfl
@[simp] theorem wr_partner (r : RegName) (v : Word) (i j : Nat) : (wr r v s i j).partner = s.partner := rfl
@[simp] theorem wr_me (r : RegName) (v : Word) (i j : Nat) : (wr r v s i j).me = s.me := rfl
@[simp] theorem wr_mc (r : RegName) (v : Word) (i j : Nat) : (wr r v s i j).mc = s.mc := rfl
@[simp] theorem wr_rootRecs (r : RegName) (v : Word) (i j : Nat) : (wr r v s i j).rootRecs = s.rootRecs := rfl
@[simp] theorem wr_comp (r : RegName) (v : Word) (i j : Nat) : (wr r v s i j).comp = s.comp := rfl
@[simp] theorem wr_xe (r : RegName) (v : Word) (i j : Nat) : (wr r v s i j).xe = s.xe := rfl
@[simp] theorem wr_gl (r : RegName) (v : Word) (i j : Nat) : (wr r v s i j).gl = s.gl := rfl
@[simp] theorem wr_ta (r : RegName) (v : Word) (i j : Nat) : (wr r v s i j).ta = s.ta := rfl
@[simp] theorem wr_plc (r : RegName) (v : Word) (i j : Nat) : (wr r v s i j).plc = s.plc := rfl
@[simp] theorem wr_snap (r : RegName) (v : Word) (i j : Nat) : (wr r v s i j).snap = s.snap := rfl
@[simp] theorem wr_str (r : RegName) (v : Word) (i j : Nat) : (wr r v s i j).str = s.str := rfl
@[simp] theorem wr_host (r : RegName) (v : Word) (i j : Nat) : (wr r v s i j).host = s.host := rfl
@[simp] theorem wr_rx (r : RegName) (v : Word) (i j : Nat) : (wr r v s i j).rx = s.rx := rfl
@[simp] theorem wr_sw (r : RegName) (v : Word) (i j : Nat) : (wr r v s i j).sw = s.sw := rfl
@[simp] theorem wr_rekey (r : RegName) (v : Word) (i j : Nat) : (wr r v s i j).rekey = s.rekey := rfl
@[simp] theorem wr_rst (r : RegName) (v : Word) (i j : Nat) : (wr r v s i j).rst = s.rst := rfl
@[simp] theorem wr_pwr (r : RegName) (v : Word) (i j : Nat) : (wr r v s i j).pwr = s.pwr := rfl
@[simp] theorem wr_boot (r : RegName) (v : Word) (i j : Nat) : (wr r v s i j).boot = s.boot := rfl
@[simp] theorem wr_upd (r : RegName) (v : Word) (i j : Nat) : (wr r v s i j).upd = s.upd := rfl
@[simp] theorem wr_board (r : RegName) (v : Word) (i j : Nat) : (wr r v s i j).board = s.board := rfl

/-! ### setF -/

@[simp] theorem setF_pending (f : Fld) (v i j : Nat) : (setF f v s i j).pending = s.pending := rfl
@[simp] theorem setF_mem (f : Fld) (v i j : Nat) : (setF f v s i j).mem = s.mem := rfl
@[simp] theorem setF_dtime (f : Fld) (v i j : Nat) : (setF f v s i j).dtime = s.dtime := rfl
@[simp] theorem setF_free (f : Fld) (v i j : Nat) : (setF f v s i j).free = s.free := rfl
@[simp] theorem setF_out (f : Fld) (v i j : Nat) : (setF f v s i j).out = s.out := rfl
@[simp] theorem setF_ddrcSize (f : Fld) (v i j : Nat) : (setF f v s i j).ddrcSize = s.ddrcSize := rfl
@[simp] theorem setF_ctxs (f : Fld) (v i j : Nat) : (setF f v s i j).ctxs = s.ctxs := rfl
@[simp] theorem setF_seqs (f : Fld) (v i j : Nat) : (setF f v s i j).seqs = s.seqs := rfl
@[simp] theorem setF_sched (f : Fld) (v i j : Nat) : (setF f v s i j).sched = s.sched := rfl
@[simp] theorem setF_weight (f : Fld) (v i j : Nat) : (setF f v s i j).weight = s.weight := rfl
@[simp] theorem setF_stews (f : Fld) (v i j : Nat) : (setF f v s i j).stews = s.stews := rfl
@[simp] theorem setF_jobs (f : Fld) (v i j : Nat) : (setF f v s i j).jobs = s.jobs := rfl
@[simp] theorem setF_nextJob (f : Fld) (v i j : Nat) : (setF f v s i j).nextJob = s.nextJob := rfl
@[simp] theorem setF_nextOrd (f : Fld) (v i j : Nat) : (setF f v s i j).nextOrd = s.nextOrd := rfl
@[simp] theorem setF_cel (f : Fld) (v i j : Nat) : (setF f v s i j).cel = s.cel := rfl
@[simp] theorem setF_bung (f : Fld) (v i j : Nat) : (setF f v s i j).bung = s.bung := rfl
@[simp] theorem setF_ctxWait (f : Fld) (v i j : Nat) : (setF f v s i j).ctxWait = s.ctxWait := rfl
@[simp] theorem setF_partner (f : Fld) (v i j : Nat) : (setF f v s i j).partner = s.partner := rfl
@[simp] theorem setF_me (f : Fld) (v i j : Nat) : (setF f v s i j).me = s.me := rfl
@[simp] theorem setF_mc (f : Fld) (v i j : Nat) : (setF f v s i j).mc = s.mc := rfl
@[simp] theorem setF_rootRecs (f : Fld) (v i j : Nat) : (setF f v s i j).rootRecs = s.rootRecs := rfl
@[simp] theorem setF_comp (f : Fld) (v i j : Nat) : (setF f v s i j).comp = s.comp := rfl
@[simp] theorem setF_xe (f : Fld) (v i j : Nat) : (setF f v s i j).xe = s.xe := rfl
@[simp] theorem setF_gl (f : Fld) (v i j : Nat) : (setF f v s i j).gl = s.gl := rfl
@[simp] theorem setF_ta (f : Fld) (v i j : Nat) : (setF f v s i j).ta = s.ta := rfl
@[simp] theorem setF_plc (f : Fld) (v i j : Nat) : (setF f v s i j).plc = s.plc := rfl
@[simp] theorem setF_snap (f : Fld) (v i j : Nat) : (setF f v s i j).snap = s.snap := rfl
@[simp] theorem setF_str (f : Fld) (v i j : Nat) : (setF f v s i j).str = s.str := rfl
@[simp] theorem setF_host (f : Fld) (v i j : Nat) : (setF f v s i j).host = s.host := rfl
@[simp] theorem setF_rx (f : Fld) (v i j : Nat) : (setF f v s i j).rx = s.rx := rfl
@[simp] theorem setF_sw (f : Fld) (v i j : Nat) : (setF f v s i j).sw = s.sw := rfl
@[simp] theorem setF_rekey (f : Fld) (v i j : Nat) : (setF f v s i j).rekey = s.rekey := rfl
@[simp] theorem setF_rst (f : Fld) (v i j : Nat) : (setF f v s i j).rst = s.rst := rfl
@[simp] theorem setF_pwr (f : Fld) (v i j : Nat) : (setF f v s i j).pwr = s.pwr := rfl
@[simp] theorem setF_boot (f : Fld) (v i j : Nat) : (setF f v s i j).boot = s.boot := rfl
@[simp] theorem setF_upd (f : Fld) (v i j : Nat) : (setF f v s i j).upd = s.upd := rfl
@[simp] theorem setF_board (f : Fld) (v i j : Nat) : (setF f v s i j).board = s.board := rfl

/-! ### bumpBy -/

@[simp] theorem bumpBy_pending (n : Nat) (r : RegName) (i : Nat) : (bumpBy n r s i).pending = s.pending := rfl
@[simp] theorem bumpBy_mem (n : Nat) (r : RegName) (i : Nat) : (bumpBy n r s i).mem = s.mem := rfl
@[simp] theorem bumpBy_dtime (n : Nat) (r : RegName) (i : Nat) : (bumpBy n r s i).dtime = s.dtime := rfl
@[simp] theorem bumpBy_free (n : Nat) (r : RegName) (i : Nat) : (bumpBy n r s i).free = s.free := rfl
@[simp] theorem bumpBy_out (n : Nat) (r : RegName) (i : Nat) : (bumpBy n r s i).out = s.out := rfl
@[simp] theorem bumpBy_ddrcSize (n : Nat) (r : RegName) (i : Nat) : (bumpBy n r s i).ddrcSize = s.ddrcSize := rfl
@[simp] theorem bumpBy_ctxs (n : Nat) (r : RegName) (i : Nat) : (bumpBy n r s i).ctxs = s.ctxs := rfl
@[simp] theorem bumpBy_seqs (n : Nat) (r : RegName) (i : Nat) : (bumpBy n r s i).seqs = s.seqs := rfl
@[simp] theorem bumpBy_sched (n : Nat) (r : RegName) (i : Nat) : (bumpBy n r s i).sched = s.sched := rfl
@[simp] theorem bumpBy_weight (n : Nat) (r : RegName) (i : Nat) : (bumpBy n r s i).weight = s.weight := rfl
@[simp] theorem bumpBy_stews (n : Nat) (r : RegName) (i : Nat) : (bumpBy n r s i).stews = s.stews := rfl
@[simp] theorem bumpBy_jobs (n : Nat) (r : RegName) (i : Nat) : (bumpBy n r s i).jobs = s.jobs := rfl
@[simp] theorem bumpBy_nextJob (n : Nat) (r : RegName) (i : Nat) : (bumpBy n r s i).nextJob = s.nextJob := rfl
@[simp] theorem bumpBy_nextOrd (n : Nat) (r : RegName) (i : Nat) : (bumpBy n r s i).nextOrd = s.nextOrd := rfl
@[simp] theorem bumpBy_cel (n : Nat) (r : RegName) (i : Nat) : (bumpBy n r s i).cel = s.cel := rfl
@[simp] theorem bumpBy_bung (n : Nat) (r : RegName) (i : Nat) : (bumpBy n r s i).bung = s.bung := rfl
@[simp] theorem bumpBy_ctxWait (n : Nat) (r : RegName) (i : Nat) : (bumpBy n r s i).ctxWait = s.ctxWait := rfl
@[simp] theorem bumpBy_partner (n : Nat) (r : RegName) (i : Nat) : (bumpBy n r s i).partner = s.partner := rfl
@[simp] theorem bumpBy_me (n : Nat) (r : RegName) (i : Nat) : (bumpBy n r s i).me = s.me := rfl
@[simp] theorem bumpBy_mc (n : Nat) (r : RegName) (i : Nat) : (bumpBy n r s i).mc = s.mc := rfl
@[simp] theorem bumpBy_rootRecs (n : Nat) (r : RegName) (i : Nat) : (bumpBy n r s i).rootRecs = s.rootRecs := rfl
@[simp] theorem bumpBy_comp (n : Nat) (r : RegName) (i : Nat) : (bumpBy n r s i).comp = s.comp := rfl
@[simp] theorem bumpBy_xe (n : Nat) (r : RegName) (i : Nat) : (bumpBy n r s i).xe = s.xe := rfl
@[simp] theorem bumpBy_gl (n : Nat) (r : RegName) (i : Nat) : (bumpBy n r s i).gl = s.gl := rfl
@[simp] theorem bumpBy_ta (n : Nat) (r : RegName) (i : Nat) : (bumpBy n r s i).ta = s.ta := rfl
@[simp] theorem bumpBy_plc (n : Nat) (r : RegName) (i : Nat) : (bumpBy n r s i).plc = s.plc := rfl
@[simp] theorem bumpBy_snap (n : Nat) (r : RegName) (i : Nat) : (bumpBy n r s i).snap = s.snap := rfl
@[simp] theorem bumpBy_str (n : Nat) (r : RegName) (i : Nat) : (bumpBy n r s i).str = s.str := rfl
@[simp] theorem bumpBy_host (n : Nat) (r : RegName) (i : Nat) : (bumpBy n r s i).host = s.host := rfl
@[simp] theorem bumpBy_rx (n : Nat) (r : RegName) (i : Nat) : (bumpBy n r s i).rx = s.rx := rfl
@[simp] theorem bumpBy_sw (n : Nat) (r : RegName) (i : Nat) : (bumpBy n r s i).sw = s.sw := rfl
@[simp] theorem bumpBy_rekey (n : Nat) (r : RegName) (i : Nat) : (bumpBy n r s i).rekey = s.rekey := rfl
@[simp] theorem bumpBy_rst (n : Nat) (r : RegName) (i : Nat) : (bumpBy n r s i).rst = s.rst := rfl
@[simp] theorem bumpBy_pwr (n : Nat) (r : RegName) (i : Nat) : (bumpBy n r s i).pwr = s.pwr := rfl
@[simp] theorem bumpBy_boot (n : Nat) (r : RegName) (i : Nat) : (bumpBy n r s i).boot = s.boot := rfl
@[simp] theorem bumpBy_upd (n : Nat) (r : RegName) (i : Nat) : (bumpBy n r s i).upd = s.upd := rfl
@[simp] theorem bumpBy_board (n : Nat) (r : RegName) (i : Nat) : (bumpBy n r s i).board = s.board := rfl

/-! ### bump -/

@[simp] theorem bump_pending (r : RegName) (i : Nat) : (bump r s i).pending = s.pending := rfl
@[simp] theorem bump_mem (r : RegName) (i : Nat) : (bump r s i).mem = s.mem := rfl
@[simp] theorem bump_dtime (r : RegName) (i : Nat) : (bump r s i).dtime = s.dtime := rfl
@[simp] theorem bump_free (r : RegName) (i : Nat) : (bump r s i).free = s.free := rfl
@[simp] theorem bump_out (r : RegName) (i : Nat) : (bump r s i).out = s.out := rfl
@[simp] theorem bump_ddrcSize (r : RegName) (i : Nat) : (bump r s i).ddrcSize = s.ddrcSize := rfl
@[simp] theorem bump_ctxs (r : RegName) (i : Nat) : (bump r s i).ctxs = s.ctxs := rfl
@[simp] theorem bump_seqs (r : RegName) (i : Nat) : (bump r s i).seqs = s.seqs := rfl
@[simp] theorem bump_sched (r : RegName) (i : Nat) : (bump r s i).sched = s.sched := rfl
@[simp] theorem bump_weight (r : RegName) (i : Nat) : (bump r s i).weight = s.weight := rfl
@[simp] theorem bump_stews (r : RegName) (i : Nat) : (bump r s i).stews = s.stews := rfl
@[simp] theorem bump_jobs (r : RegName) (i : Nat) : (bump r s i).jobs = s.jobs := rfl
@[simp] theorem bump_nextJob (r : RegName) (i : Nat) : (bump r s i).nextJob = s.nextJob := rfl
@[simp] theorem bump_nextOrd (r : RegName) (i : Nat) : (bump r s i).nextOrd = s.nextOrd := rfl
@[simp] theorem bump_cel (r : RegName) (i : Nat) : (bump r s i).cel = s.cel := rfl
@[simp] theorem bump_bung (r : RegName) (i : Nat) : (bump r s i).bung = s.bung := rfl
@[simp] theorem bump_ctxWait (r : RegName) (i : Nat) : (bump r s i).ctxWait = s.ctxWait := rfl
@[simp] theorem bump_partner (r : RegName) (i : Nat) : (bump r s i).partner = s.partner := rfl
@[simp] theorem bump_me (r : RegName) (i : Nat) : (bump r s i).me = s.me := rfl
@[simp] theorem bump_mc (r : RegName) (i : Nat) : (bump r s i).mc = s.mc := rfl
@[simp] theorem bump_rootRecs (r : RegName) (i : Nat) : (bump r s i).rootRecs = s.rootRecs := rfl
@[simp] theorem bump_comp (r : RegName) (i : Nat) : (bump r s i).comp = s.comp := rfl
@[simp] theorem bump_xe (r : RegName) (i : Nat) : (bump r s i).xe = s.xe := rfl
@[simp] theorem bump_gl (r : RegName) (i : Nat) : (bump r s i).gl = s.gl := rfl
@[simp] theorem bump_ta (r : RegName) (i : Nat) : (bump r s i).ta = s.ta := rfl
@[simp] theorem bump_plc (r : RegName) (i : Nat) : (bump r s i).plc = s.plc := rfl
@[simp] theorem bump_snap (r : RegName) (i : Nat) : (bump r s i).snap = s.snap := rfl
@[simp] theorem bump_str (r : RegName) (i : Nat) : (bump r s i).str = s.str := rfl
@[simp] theorem bump_host (r : RegName) (i : Nat) : (bump r s i).host = s.host := rfl
@[simp] theorem bump_rx (r : RegName) (i : Nat) : (bump r s i).rx = s.rx := rfl
@[simp] theorem bump_sw (r : RegName) (i : Nat) : (bump r s i).sw = s.sw := rfl
@[simp] theorem bump_rekey (r : RegName) (i : Nat) : (bump r s i).rekey = s.rekey := rfl
@[simp] theorem bump_rst (r : RegName) (i : Nat) : (bump r s i).rst = s.rst := rfl
@[simp] theorem bump_pwr (r : RegName) (i : Nat) : (bump r s i).pwr = s.pwr := rfl
@[simp] theorem bump_boot (r : RegName) (i : Nat) : (bump r s i).boot = s.boot := rfl
@[simp] theorem bump_upd (r : RegName) (i : Nat) : (bump r s i).upd = s.upd := rfl
@[simp] theorem bump_board (r : RegName) (i : Nat) : (bump r s i).board = s.board := rfl

/-! ### emit -/

@[simp] theorem emit_out (o : Out) : (emit o s).out = s.out ++ [o] := rfl
@[simp] theorem emit_pending (o : Out) : (emit o s).pending = s.pending := rfl
@[simp] theorem emit_mem (o : Out) : (emit o s).mem = s.mem := rfl
@[simp] theorem emit_csr (o : Out) : (emit o s).csr = s.csr := rfl
@[simp] theorem emit_dtime (o : Out) : (emit o s).dtime = s.dtime := rfl
@[simp] theorem emit_free (o : Out) : (emit o s).free = s.free := rfl
@[simp] theorem emit_ddrcSize (o : Out) : (emit o s).ddrcSize = s.ddrcSize := rfl
@[simp] theorem emit_ctxs (o : Out) : (emit o s).ctxs = s.ctxs := rfl
@[simp] theorem emit_seqs (o : Out) : (emit o s).seqs = s.seqs := rfl
@[simp] theorem emit_sched (o : Out) : (emit o s).sched = s.sched := rfl
@[simp] theorem emit_weight (o : Out) : (emit o s).weight = s.weight := rfl
@[simp] theorem emit_stews (o : Out) : (emit o s).stews = s.stews := rfl
@[simp] theorem emit_jobs (o : Out) : (emit o s).jobs = s.jobs := rfl
@[simp] theorem emit_nextJob (o : Out) : (emit o s).nextJob = s.nextJob := rfl
@[simp] theorem emit_nextOrd (o : Out) : (emit o s).nextOrd = s.nextOrd := rfl
@[simp] theorem emit_cel (o : Out) : (emit o s).cel = s.cel := rfl
@[simp] theorem emit_bung (o : Out) : (emit o s).bung = s.bung := rfl
@[simp] theorem emit_ctxWait (o : Out) : (emit o s).ctxWait = s.ctxWait := rfl
@[simp] theorem emit_partner (o : Out) : (emit o s).partner = s.partner := rfl
@[simp] theorem emit_me (o : Out) : (emit o s).me = s.me := rfl
@[simp] theorem emit_mc (o : Out) : (emit o s).mc = s.mc := rfl
@[simp] theorem emit_rootRecs (o : Out) : (emit o s).rootRecs = s.rootRecs := rfl
@[simp] theorem emit_comp (o : Out) : (emit o s).comp = s.comp := rfl
@[simp] theorem emit_xe (o : Out) : (emit o s).xe = s.xe := rfl
@[simp] theorem emit_gl (o : Out) : (emit o s).gl = s.gl := rfl
@[simp] theorem emit_ta (o : Out) : (emit o s).ta = s.ta := rfl
@[simp] theorem emit_plc (o : Out) : (emit o s).plc = s.plc := rfl
@[simp] theorem emit_snap (o : Out) : (emit o s).snap = s.snap := rfl
@[simp] theorem emit_str (o : Out) : (emit o s).str = s.str := rfl
@[simp] theorem emit_host (o : Out) : (emit o s).host = s.host := rfl
@[simp] theorem emit_rx (o : Out) : (emit o s).rx = s.rx := rfl
@[simp] theorem emit_sw (o : Out) : (emit o s).sw = s.sw := rfl
@[simp] theorem emit_rekey (o : Out) : (emit o s).rekey = s.rekey := rfl
@[simp] theorem emit_rst (o : Out) : (emit o s).rst = s.rst := rfl
@[simp] theorem emit_pwr (o : Out) : (emit o s).pwr = s.pwr := rfl
@[simp] theorem emit_boot (o : Out) : (emit o s).boot = s.boot := rfl
@[simp] theorem emit_upd (o : Out) : (emit o s).upd = s.upd := rfl
@[simp] theorem emit_board (o : Out) : (emit o s).board = s.board := rfl

/-! ### nextFree -/

@[simp] theorem nextFree_free : (nextFree s).free = s.free + 1 := rfl
@[simp] theorem nextFree_pending : (nextFree s).pending = s.pending := rfl
@[simp] theorem nextFree_mem : (nextFree s).mem = s.mem := rfl
@[simp] theorem nextFree_csr : (nextFree s).csr = s.csr := rfl
@[simp] theorem nextFree_dtime : (nextFree s).dtime = s.dtime := rfl
@[simp] theorem nextFree_out : (nextFree s).out = s.out := rfl
@[simp] theorem nextFree_ddrcSize : (nextFree s).ddrcSize = s.ddrcSize := rfl
@[simp] theorem nextFree_ctxs : (nextFree s).ctxs = s.ctxs := rfl
@[simp] theorem nextFree_seqs : (nextFree s).seqs = s.seqs := rfl
@[simp] theorem nextFree_sched : (nextFree s).sched = s.sched := rfl
@[simp] theorem nextFree_weight : (nextFree s).weight = s.weight := rfl
@[simp] theorem nextFree_stews : (nextFree s).stews = s.stews := rfl
@[simp] theorem nextFree_jobs : (nextFree s).jobs = s.jobs := rfl
@[simp] theorem nextFree_nextJob : (nextFree s).nextJob = s.nextJob := rfl
@[simp] theorem nextFree_nextOrd : (nextFree s).nextOrd = s.nextOrd := rfl
@[simp] theorem nextFree_cel : (nextFree s).cel = s.cel := rfl
@[simp] theorem nextFree_bung : (nextFree s).bung = s.bung := rfl
@[simp] theorem nextFree_ctxWait : (nextFree s).ctxWait = s.ctxWait := rfl
@[simp] theorem nextFree_partner : (nextFree s).partner = s.partner := rfl
@[simp] theorem nextFree_me : (nextFree s).me = s.me := rfl
@[simp] theorem nextFree_mc : (nextFree s).mc = s.mc := rfl
@[simp] theorem nextFree_rootRecs : (nextFree s).rootRecs = s.rootRecs := rfl
@[simp] theorem nextFree_comp : (nextFree s).comp = s.comp := rfl
@[simp] theorem nextFree_xe : (nextFree s).xe = s.xe := rfl
@[simp] theorem nextFree_gl : (nextFree s).gl = s.gl := rfl
@[simp] theorem nextFree_ta : (nextFree s).ta = s.ta := rfl
@[simp] theorem nextFree_plc : (nextFree s).plc = s.plc := rfl
@[simp] theorem nextFree_snap : (nextFree s).snap = s.snap := rfl
@[simp] theorem nextFree_str : (nextFree s).str = s.str := rfl
@[simp] theorem nextFree_host : (nextFree s).host = s.host := rfl
@[simp] theorem nextFree_rx : (nextFree s).rx = s.rx := rfl
@[simp] theorem nextFree_sw : (nextFree s).sw = s.sw := rfl
@[simp] theorem nextFree_rekey : (nextFree s).rekey = s.rekey := rfl
@[simp] theorem nextFree_rst : (nextFree s).rst = s.rst := rfl
@[simp] theorem nextFree_pwr : (nextFree s).pwr = s.pwr := rfl
@[simp] theorem nextFree_boot : (nextFree s).boot = s.boot := rfl
@[simp] theorem nextFree_upd : (nextFree s).upd = s.upd := rfl
@[simp] theorem nextFree_board : (nextFree s).board = s.board := rfl

/-! ### modCtx -/

@[simp] theorem modCtx_ctxs (n : Nat) (f : Ctx → Ctx) : (modCtx n f s).ctxs = kmod s.ctxs n f := rfl
@[simp] theorem modCtx_pending (n : Nat) (f : Ctx → Ctx) : (modCtx n f s).pending = s.pending := rfl
@[simp] theorem modCtx_mem (n : Nat) (f : Ctx → Ctx) : (modCtx n f s).mem = s.mem := rfl
@[simp] theorem modCtx_csr (n : Nat) (f : Ctx → Ctx) : (modCtx n f s).csr = s.csr := rfl
@[simp] theorem modCtx_dtime (n : Nat) (f : Ctx → Ctx) : (modCtx n f s).dtime = s.dtime := rfl
@[simp] theorem modCtx_free (n : Nat) (f : Ctx → Ctx) : (modCtx n f s).free = s.free := rfl
@[simp] theorem modCtx_out (n : Nat) (f : Ctx → Ctx) : (modCtx n f s).out = s.out := rfl
@[simp] theorem modCtx_ddrcSize (n : Nat) (f : Ctx → Ctx) : (modCtx n f s).ddrcSize = s.ddrcSize := rfl
@[simp] theorem modCtx_seqs (n : Nat) (f : Ctx → Ctx) : (modCtx n f s).seqs = s.seqs := rfl
@[simp] theorem modCtx_sched (n : Nat) (f : Ctx → Ctx) : (modCtx n f s).sched = s.sched := rfl
@[simp] theorem modCtx_weight (n : Nat) (f : Ctx → Ctx) : (modCtx n f s).weight = s.weight := rfl
@[simp] theorem modCtx_stews (n : Nat) (f : Ctx → Ctx) : (modCtx n f s).stews = s.stews := rfl
@[simp] theorem modCtx_jobs (n : Nat) (f : Ctx → Ctx) : (modCtx n f s).jobs = s.jobs := rfl
@[simp] theorem modCtx_nextJob (n : Nat) (f : Ctx → Ctx) : (modCtx n f s).nextJob = s.nextJob := rfl
@[simp] theorem modCtx_nextOrd (n : Nat) (f : Ctx → Ctx) : (modCtx n f s).nextOrd = s.nextOrd := rfl
@[simp] theorem modCtx_cel (n : Nat) (f : Ctx → Ctx) : (modCtx n f s).cel = s.cel := rfl
@[simp] theorem modCtx_bung (n : Nat) (f : Ctx → Ctx) : (modCtx n f s).bung = s.bung := rfl
@[simp] theorem modCtx_ctxWait (n : Nat) (f : Ctx → Ctx) : (modCtx n f s).ctxWait = s.ctxWait := rfl
@[simp] theorem modCtx_partner (n : Nat) (f : Ctx → Ctx) : (modCtx n f s).partner = s.partner := rfl
@[simp] theorem modCtx_me (n : Nat) (f : Ctx → Ctx) : (modCtx n f s).me = s.me := rfl
@[simp] theorem modCtx_mc (n : Nat) (f : Ctx → Ctx) : (modCtx n f s).mc = s.mc := rfl
@[simp] theorem modCtx_rootRecs (n : Nat) (f : Ctx → Ctx) : (modCtx n f s).rootRecs = s.rootRecs := rfl
@[simp] theorem modCtx_comp (n : Nat) (f : Ctx → Ctx) : (modCtx n f s).comp = s.comp := rfl
@[simp] theorem modCtx_xe (n : Nat) (f : Ctx → Ctx) : (modCtx n f s).xe = s.xe := rfl
@[simp] theorem modCtx_gl (n : Nat) (f : Ctx → Ctx) : (modCtx n f s).gl = s.gl := rfl
@[simp] theorem modCtx_ta (n : Nat) (f : Ctx → Ctx) : (modCtx n f s).ta = s.ta := rfl
@[simp] theorem modCtx_plc (n : Nat) (f : Ctx → Ctx) : (modCtx n f s).plc = s.plc := rfl
@[simp] theorem modCtx_snap (n : Nat) (f : Ctx → Ctx) : (modCtx n f s).snap = s.snap := rfl
@[simp] theorem modCtx_str (n : Nat) (f : Ctx → Ctx) : (modCtx n f s).str = s.str := rfl
@[simp] theorem modCtx_host (n : Nat) (f : Ctx → Ctx) : (modCtx n f s).host = s.host := rfl
@[simp] theorem modCtx_rx (n : Nat) (f : Ctx → Ctx) : (modCtx n f s).rx = s.rx := rfl
@[simp] theorem modCtx_sw (n : Nat) (f : Ctx → Ctx) : (modCtx n f s).sw = s.sw := rfl
@[simp] theorem modCtx_rekey (n : Nat) (f : Ctx → Ctx) : (modCtx n f s).rekey = s.rekey := rfl
@[simp] theorem modCtx_rst (n : Nat) (f : Ctx → Ctx) : (modCtx n f s).rst = s.rst := rfl
@[simp] theorem modCtx_pwr (n : Nat) (f : Ctx → Ctx) : (modCtx n f s).pwr = s.pwr := rfl
@[simp] theorem modCtx_boot (n : Nat) (f : Ctx → Ctx) : (modCtx n f s).boot = s.boot := rfl
@[simp] theorem modCtx_upd (n : Nat) (f : Ctx → Ctx) : (modCtx n f s).upd = s.upd := rfl
@[simp] theorem modCtx_board (n : Nat) (f : Ctx → Ctx) : (modCtx n f s).board = s.board := rfl

/-! ### modStew -/

@[simp] theorem modStew_stews (k : Nat) (f : Stew → Stew) : (modStew k f s).stews = kmod s.stews k f := rfl
@[simp] theorem modStew_pending (k : Nat) (f : Stew → Stew) : (modStew k f s).pending = s.pending := rfl
@[simp] theorem modStew_mem (k : Nat) (f : Stew → Stew) : (modStew k f s).mem = s.mem := rfl
@[simp] theorem modStew_csr (k : Nat) (f : Stew → Stew) : (modStew k f s).csr = s.csr := rfl
@[simp] theorem modStew_dtime (k : Nat) (f : Stew → Stew) : (modStew k f s).dtime = s.dtime := rfl
@[simp] theorem modStew_free (k : Nat) (f : Stew → Stew) : (modStew k f s).free = s.free := rfl
@[simp] theorem modStew_out (k : Nat) (f : Stew → Stew) : (modStew k f s).out = s.out := rfl
@[simp] theorem modStew_ddrcSize (k : Nat) (f : Stew → Stew) : (modStew k f s).ddrcSize = s.ddrcSize := rfl
@[simp] theorem modStew_ctxs (k : Nat) (f : Stew → Stew) : (modStew k f s).ctxs = s.ctxs := rfl
@[simp] theorem modStew_seqs (k : Nat) (f : Stew → Stew) : (modStew k f s).seqs = s.seqs := rfl
@[simp] theorem modStew_sched (k : Nat) (f : Stew → Stew) : (modStew k f s).sched = s.sched := rfl
@[simp] theorem modStew_weight (k : Nat) (f : Stew → Stew) : (modStew k f s).weight = s.weight := rfl
@[simp] theorem modStew_jobs (k : Nat) (f : Stew → Stew) : (modStew k f s).jobs = s.jobs := rfl
@[simp] theorem modStew_nextJob (k : Nat) (f : Stew → Stew) : (modStew k f s).nextJob = s.nextJob := rfl
@[simp] theorem modStew_nextOrd (k : Nat) (f : Stew → Stew) : (modStew k f s).nextOrd = s.nextOrd := rfl
@[simp] theorem modStew_cel (k : Nat) (f : Stew → Stew) : (modStew k f s).cel = s.cel := rfl
@[simp] theorem modStew_bung (k : Nat) (f : Stew → Stew) : (modStew k f s).bung = s.bung := rfl
@[simp] theorem modStew_ctxWait (k : Nat) (f : Stew → Stew) : (modStew k f s).ctxWait = s.ctxWait := rfl
@[simp] theorem modStew_partner (k : Nat) (f : Stew → Stew) : (modStew k f s).partner = s.partner := rfl
@[simp] theorem modStew_me (k : Nat) (f : Stew → Stew) : (modStew k f s).me = s.me := rfl
@[simp] theorem modStew_mc (k : Nat) (f : Stew → Stew) : (modStew k f s).mc = s.mc := rfl
@[simp] theorem modStew_rootRecs (k : Nat) (f : Stew → Stew) : (modStew k f s).rootRecs = s.rootRecs := rfl
@[simp] theorem modStew_comp (k : Nat) (f : Stew → Stew) : (modStew k f s).comp = s.comp := rfl
@[simp] theorem modStew_xe (k : Nat) (f : Stew → Stew) : (modStew k f s).xe = s.xe := rfl
@[simp] theorem modStew_gl (k : Nat) (f : Stew → Stew) : (modStew k f s).gl = s.gl := rfl
@[simp] theorem modStew_ta (k : Nat) (f : Stew → Stew) : (modStew k f s).ta = s.ta := rfl
@[simp] theorem modStew_plc (k : Nat) (f : Stew → Stew) : (modStew k f s).plc = s.plc := rfl
@[simp] theorem modStew_snap (k : Nat) (f : Stew → Stew) : (modStew k f s).snap = s.snap := rfl
@[simp] theorem modStew_str (k : Nat) (f : Stew → Stew) : (modStew k f s).str = s.str := rfl
@[simp] theorem modStew_host (k : Nat) (f : Stew → Stew) : (modStew k f s).host = s.host := rfl
@[simp] theorem modStew_rx (k : Nat) (f : Stew → Stew) : (modStew k f s).rx = s.rx := rfl
@[simp] theorem modStew_sw (k : Nat) (f : Stew → Stew) : (modStew k f s).sw = s.sw := rfl
@[simp] theorem modStew_rekey (k : Nat) (f : Stew → Stew) : (modStew k f s).rekey = s.rekey := rfl
@[simp] theorem modStew_rst (k : Nat) (f : Stew → Stew) : (modStew k f s).rst = s.rst := rfl
@[simp] theorem modStew_pwr (k : Nat) (f : Stew → Stew) : (modStew k f s).pwr = s.pwr := rfl
@[simp] theorem modStew_boot (k : Nat) (f : Stew → Stew) : (modStew k f s).boot = s.boot := rfl
@[simp] theorem modStew_upd (k : Nat) (f : Stew → Stew) : (modStew k f s).upd = s.upd := rfl
@[simp] theorem modStew_board (k : Nat) (f : Stew → Stew) : (modStew k f s).board = s.board := rfl

/-! ### setSeq -/

@[simp] theorem setSeq_seqs (n : Nat) (q : Seq) : (setSeq n q s).seqs = kput s.seqs n q := rfl
@[simp] theorem setSeq_pending (n : Nat) (q : Seq) : (setSeq n q s).pending = s.pending := rfl
@[simp] theorem setSeq_mem (n : Nat) (q : Seq) : (setSeq n q s).mem = s.mem := rfl
@[simp] theorem setSeq_csr (n : Nat) (q : Seq) : (setSeq n q s).csr = s.csr := rfl
@[simp] theorem setSeq_dtime (n : Nat) (q : Seq) : (setSeq n q s).dtime = s.dtime := rfl
@[simp] theorem setSeq_free (n : Nat) (q : Seq) : (setSeq n q s).free = s.free := rfl
@[simp] theorem setSeq_out (n : Nat) (q : Seq) : (setSeq n q s).out = s.out := rfl
@[simp] theorem setSeq_ddrcSize (n : Nat) (q : Seq) : (setSeq n q s).ddrcSize = s.ddrcSize := rfl
@[simp] theorem setSeq_ctxs (n : Nat) (q : Seq) : (setSeq n q s).ctxs = s.ctxs := rfl
@[simp] theorem setSeq_sched (n : Nat) (q : Seq) : (setSeq n q s).sched = s.sched := rfl
@[simp] theorem setSeq_weight (n : Nat) (q : Seq) : (setSeq n q s).weight = s.weight := rfl
@[simp] theorem setSeq_stews (n : Nat) (q : Seq) : (setSeq n q s).stews = s.stews := rfl
@[simp] theorem setSeq_jobs (n : Nat) (q : Seq) : (setSeq n q s).jobs = s.jobs := rfl
@[simp] theorem setSeq_nextJob (n : Nat) (q : Seq) : (setSeq n q s).nextJob = s.nextJob := rfl
@[simp] theorem setSeq_nextOrd (n : Nat) (q : Seq) : (setSeq n q s).nextOrd = s.nextOrd := rfl
@[simp] theorem setSeq_cel (n : Nat) (q : Seq) : (setSeq n q s).cel = s.cel := rfl
@[simp] theorem setSeq_bung (n : Nat) (q : Seq) : (setSeq n q s).bung = s.bung := rfl
@[simp] theorem setSeq_ctxWait (n : Nat) (q : Seq) : (setSeq n q s).ctxWait = s.ctxWait := rfl
@[simp] theorem setSeq_partner (n : Nat) (q : Seq) : (setSeq n q s).partner = s.partner := rfl
@[simp] theorem setSeq_me (n : Nat) (q : Seq) : (setSeq n q s).me = s.me := rfl
@[simp] theorem setSeq_mc (n : Nat) (q : Seq) : (setSeq n q s).mc = s.mc := rfl
@[simp] theorem setSeq_rootRecs (n : Nat) (q : Seq) : (setSeq n q s).rootRecs = s.rootRecs := rfl
@[simp] theorem setSeq_comp (n : Nat) (q : Seq) : (setSeq n q s).comp = s.comp := rfl
@[simp] theorem setSeq_xe (n : Nat) (q : Seq) : (setSeq n q s).xe = s.xe := rfl
@[simp] theorem setSeq_gl (n : Nat) (q : Seq) : (setSeq n q s).gl = s.gl := rfl
@[simp] theorem setSeq_ta (n : Nat) (q : Seq) : (setSeq n q s).ta = s.ta := rfl
@[simp] theorem setSeq_plc (n : Nat) (q : Seq) : (setSeq n q s).plc = s.plc := rfl
@[simp] theorem setSeq_snap (n : Nat) (q : Seq) : (setSeq n q s).snap = s.snap := rfl
@[simp] theorem setSeq_str (n : Nat) (q : Seq) : (setSeq n q s).str = s.str := rfl
@[simp] theorem setSeq_host (n : Nat) (q : Seq) : (setSeq n q s).host = s.host := rfl
@[simp] theorem setSeq_rx (n : Nat) (q : Seq) : (setSeq n q s).rx = s.rx := rfl
@[simp] theorem setSeq_sw (n : Nat) (q : Seq) : (setSeq n q s).sw = s.sw := rfl
@[simp] theorem setSeq_rekey (n : Nat) (q : Seq) : (setSeq n q s).rekey = s.rekey := rfl
@[simp] theorem setSeq_rst (n : Nat) (q : Seq) : (setSeq n q s).rst = s.rst := rfl
@[simp] theorem setSeq_pwr (n : Nat) (q : Seq) : (setSeq n q s).pwr = s.pwr := rfl
@[simp] theorem setSeq_boot (n : Nat) (q : Seq) : (setSeq n q s).boot = s.boot := rfl
@[simp] theorem setSeq_upd (n : Nat) (q : Seq) : (setSeq n q s).upd = s.upd := rfl
@[simp] theorem setSeq_board (n : Nat) (q : Seq) : (setSeq n q s).board = s.board := rfl

/-! ### modJob -/

@[simp] theorem modJob_jobs (id : Nat) (f : Job → Job) : (modJob id f s).jobs = kmod s.jobs id f := rfl
@[simp] theorem modJob_pending (id : Nat) (f : Job → Job) : (modJob id f s).pending = s.pending := rfl
@[simp] theorem modJob_mem (id : Nat) (f : Job → Job) : (modJob id f s).mem = s.mem := rfl
@[simp] theorem modJob_csr (id : Nat) (f : Job → Job) : (modJob id f s).csr = s.csr := rfl
@[simp] theorem modJob_dtime (id : Nat) (f : Job → Job) : (modJob id f s).dtime = s.dtime := rfl
@[simp] theorem modJob_free (id : Nat) (f : Job → Job) : (modJob id f s).free = s.free := rfl
@[simp] theorem modJob_out (id : Nat) (f : Job → Job) : (modJob id f s).out = s.out := rfl
@[simp] theorem modJob_ddrcSize (id : Nat) (f : Job → Job) : (modJob id f s).ddrcSize = s.ddrcSize := rfl
@[simp] theorem modJob_ctxs (id : Nat) (f : Job → Job) : (modJob id f s).ctxs = s.ctxs := rfl
@[simp] theorem modJob_seqs (id : Nat) (f : Job → Job) : (modJob id f s).seqs = s.seqs := rfl
@[simp] theorem modJob_sched (id : Nat) (f : Job → Job) : (modJob id f s).sched = s.sched := rfl
@[simp] theorem modJob_weight (id : Nat) (f : Job → Job) : (modJob id f s).weight = s.weight := rfl
@[simp] theorem modJob_stews (id : Nat) (f : Job → Job) : (modJob id f s).stews = s.stews := rfl
@[simp] theorem modJob_nextJob (id : Nat) (f : Job → Job) : (modJob id f s).nextJob = s.nextJob := rfl
@[simp] theorem modJob_nextOrd (id : Nat) (f : Job → Job) : (modJob id f s).nextOrd = s.nextOrd := rfl
@[simp] theorem modJob_cel (id : Nat) (f : Job → Job) : (modJob id f s).cel = s.cel := rfl
@[simp] theorem modJob_bung (id : Nat) (f : Job → Job) : (modJob id f s).bung = s.bung := rfl
@[simp] theorem modJob_ctxWait (id : Nat) (f : Job → Job) : (modJob id f s).ctxWait = s.ctxWait := rfl
@[simp] theorem modJob_partner (id : Nat) (f : Job → Job) : (modJob id f s).partner = s.partner := rfl
@[simp] theorem modJob_me (id : Nat) (f : Job → Job) : (modJob id f s).me = s.me := rfl
@[simp] theorem modJob_mc (id : Nat) (f : Job → Job) : (modJob id f s).mc = s.mc := rfl
@[simp] theorem modJob_rootRecs (id : Nat) (f : Job → Job) : (modJob id f s).rootRecs = s.rootRecs := rfl
@[simp] theorem modJob_comp (id : Nat) (f : Job → Job) : (modJob id f s).comp = s.comp := rfl
@[simp] theorem modJob_xe (id : Nat) (f : Job → Job) : (modJob id f s).xe = s.xe := rfl
@[simp] theorem modJob_gl (id : Nat) (f : Job → Job) : (modJob id f s).gl = s.gl := rfl
@[simp] theorem modJob_ta (id : Nat) (f : Job → Job) : (modJob id f s).ta = s.ta := rfl
@[simp] theorem modJob_plc (id : Nat) (f : Job → Job) : (modJob id f s).plc = s.plc := rfl
@[simp] theorem modJob_snap (id : Nat) (f : Job → Job) : (modJob id f s).snap = s.snap := rfl
@[simp] theorem modJob_str (id : Nat) (f : Job → Job) : (modJob id f s).str = s.str := rfl
@[simp] theorem modJob_host (id : Nat) (f : Job → Job) : (modJob id f s).host = s.host := rfl
@[simp] theorem modJob_rx (id : Nat) (f : Job → Job) : (modJob id f s).rx = s.rx := rfl
@[simp] theorem modJob_sw (id : Nat) (f : Job → Job) : (modJob id f s).sw = s.sw := rfl
@[simp] theorem modJob_rekey (id : Nat) (f : Job → Job) : (modJob id f s).rekey = s.rekey := rfl
@[simp] theorem modJob_rst (id : Nat) (f : Job → Job) : (modJob id f s).rst = s.rst := rfl
@[simp] theorem modJob_pwr (id : Nat) (f : Job → Job) : (modJob id f s).pwr = s.pwr := rfl
@[simp] theorem modJob_boot (id : Nat) (f : Job → Job) : (modJob id f s).boot = s.boot := rfl
@[simp] theorem modJob_upd (id : Nat) (f : Job → Job) : (modJob id f s).upd = s.upd := rfl
@[simp] theorem modJob_board (id : Nat) (f : Job → Job) : (modJob id f s).board = s.board := rfl

/-! ### finish -/

@[simp] theorem finish_pending (id : Nat) (r : JobResult) : (finish id r s).pending = s.pending := rfl
@[simp] theorem finish_mem (id : Nat) (r : JobResult) : (finish id r s).mem = s.mem := rfl
@[simp] theorem finish_csr (id : Nat) (r : JobResult) : (finish id r s).csr = s.csr := rfl
@[simp] theorem finish_dtime (id : Nat) (r : JobResult) : (finish id r s).dtime = s.dtime := rfl
@[simp] theorem finish_free (id : Nat) (r : JobResult) : (finish id r s).free = s.free := rfl
@[simp] theorem finish_out (id : Nat) (r : JobResult) : (finish id r s).out = s.out := rfl
@[simp] theorem finish_ddrcSize (id : Nat) (r : JobResult) : (finish id r s).ddrcSize = s.ddrcSize := rfl
@[simp] theorem finish_ctxs (id : Nat) (r : JobResult) : (finish id r s).ctxs = s.ctxs := rfl
@[simp] theorem finish_seqs (id : Nat) (r : JobResult) : (finish id r s).seqs = s.seqs := rfl
@[simp] theorem finish_sched (id : Nat) (r : JobResult) : (finish id r s).sched = s.sched := rfl
@[simp] theorem finish_weight (id : Nat) (r : JobResult) : (finish id r s).weight = s.weight := rfl
@[simp] theorem finish_stews (id : Nat) (r : JobResult) : (finish id r s).stews = s.stews := rfl
@[simp] theorem finish_nextJob (id : Nat) (r : JobResult) : (finish id r s).nextJob = s.nextJob := rfl
@[simp] theorem finish_nextOrd (id : Nat) (r : JobResult) : (finish id r s).nextOrd = s.nextOrd := rfl
@[simp] theorem finish_cel (id : Nat) (r : JobResult) : (finish id r s).cel = s.cel := rfl
@[simp] theorem finish_bung (id : Nat) (r : JobResult) : (finish id r s).bung = s.bung := rfl
@[simp] theorem finish_ctxWait (id : Nat) (r : JobResult) : (finish id r s).ctxWait = s.ctxWait := rfl
@[simp] theorem finish_partner (id : Nat) (r : JobResult) : (finish id r s).partner = s.partner := rfl
@[simp] theorem finish_me (id : Nat) (r : JobResult) : (finish id r s).me = s.me := rfl
@[simp] theorem finish_mc (id : Nat) (r : JobResult) : (finish id r s).mc = s.mc := rfl
@[simp] theorem finish_rootRecs (id : Nat) (r : JobResult) : (finish id r s).rootRecs = s.rootRecs := rfl
@[simp] theorem finish_comp (id : Nat) (r : JobResult) : (finish id r s).comp = s.comp := rfl
@[simp] theorem finish_xe (id : Nat) (r : JobResult) : (finish id r s).xe = s.xe := rfl
@[simp] theorem finish_gl (id : Nat) (r : JobResult) : (finish id r s).gl = s.gl := rfl
@[simp] theorem finish_ta (id : Nat) (r : JobResult) : (finish id r s).ta = s.ta := rfl
@[simp] theorem finish_plc (id : Nat) (r : JobResult) : (finish id r s).plc = s.plc := rfl
@[simp] theorem finish_snap (id : Nat) (r : JobResult) : (finish id r s).snap = s.snap := rfl
@[simp] theorem finish_str (id : Nat) (r : JobResult) : (finish id r s).str = s.str := rfl
@[simp] theorem finish_host (id : Nat) (r : JobResult) : (finish id r s).host = s.host := rfl
@[simp] theorem finish_rx (id : Nat) (r : JobResult) : (finish id r s).rx = s.rx := rfl
@[simp] theorem finish_sw (id : Nat) (r : JobResult) : (finish id r s).sw = s.sw := rfl
@[simp] theorem finish_rekey (id : Nat) (r : JobResult) : (finish id r s).rekey = s.rekey := rfl
@[simp] theorem finish_rst (id : Nat) (r : JobResult) : (finish id r s).rst = s.rst := rfl
@[simp] theorem finish_pwr (id : Nat) (r : JobResult) : (finish id r s).pwr = s.pwr := rfl
@[simp] theorem finish_boot (id : Nat) (r : JobResult) : (finish id r s).boot = s.boot := rfl
@[simp] theorem finish_upd (id : Nat) (r : JobResult) : (finish id r s).upd = s.upd := rfl
@[simp] theorem finish_board (id : Nat) (r : JobResult) : (finish id r s).board = s.board := rfl

end Sys2Proof.Machine
end

