-- ==== Sys2Proof/Laws/Ops.lean ====
section
/-! SUPPORT. What the shared operations over registers, the cellar log, the event queues, the counters and the register files can do. -/

namespace Sys2Proof.Machine

/-! ### Registers -/

/-- A register reads as what was stored in it. -/
@[simp] theorem rd_wr_self (r : RegName) (v : Word) (s : State) (i j : Nat) : rd (wr r v s i j) r i j = v := kgetD_kput_self _ _ _ _

/-- Storing a register leaves every register at another address. -/
theorem rd_wr_of_addr_ne {r q : RegName} {i j k l : Nat} (h : q.addr k l ≠ r.addr i j) (v : Word) (s : State) :
    rd (wr r v s i j) q k l = rd s q k l := kgetD_kput_ne _ h _ _

/-- Registers read the same in states with the same stored registers. -/
theorem rd_of_csr {s t : State} (h : t.csr = s.csr) (r : RegName) (i j : Nat) : rd t r i j = rd s r i j := by rw [rd, rd, h]

/-- Fields read the same in states with the same stored registers. -/
theorem getF_of_csr {s t : State} (h : t.csr = s.csr) (f : Fld) (i j : Nat) : getF t f i j = getF s f i j := by rw [getF, getF, rd_of_csr h]

/-- A field reads as what was stored in it, cut to its width. -/
theorem getF_setF_self {f : Fld} (h : f.hi < 64) (v : Nat) (s : State) (i j : Nat) : getF (setF f v s i j) f i j = v % 2 ^ (f.hi + 1 - f.lo) := by
  rw [getF, setF, rd_wr_self, bits_setBits_self _ h]

/-- Storing a field leaves the other fields of its register. -/
theorem getF_setF_of_disjoint {f g : Fld} (hr : g.reg = f.reg) (h : g.hi < f.lo ∨ f.hi + 1 ≤ g.lo) (v : Nat) (s : State) (i j : Nat) :
    getF (setF f v s i j) g i j = getF s g i j := by
  rw [getF, setF, hr, rd_wr_self, bits_setBits_of_disjoint _ _ h, getF, hr]

/-- Storing a field leaves every register at another address. -/
theorem getF_setF_of_addr_ne {f g : Fld} {i j k l : Nat} (h : g.reg.addr k l ≠ f.reg.addr i j) (v : Nat) (s : State) :
    getF (setF f v s i j) g k l = getF s g k l := by
  rw [getF, setF, rd_wr_of_addr_ne h, getF]

/-- A counter advances by the amount added and wraps at 2^48. -/
theorem bumpBy_count (n : Nat) (r : RegName) (s : State) (i : Nat) :
    bits (rd (bumpBy n r s i) r i) 47 0 = (bits (rd s r i) 47 0 + n) % 2 ^ 48 := by
  rw [bumpBy, rd_wr_self, bits_setBits_self _ (by decide)]

/-! ### Event sources, the cellar log and the counters: they change the stored registers and the log and nothing else -/

/-- Two states that agree outside the registers and the log. -/
def SameButLog (s t : State) : Prop := t = { s with csr := t.csr, cel := t.cel }

theorem SameButLog.refl (s : State) : SameButLog s s := rfl

theorem SameButLog.trans {s t u : State} (h : SameButLog s t) (k : SameButLog t u) : SameButLog s u := by
  unfold SameButLog at *
  rw [k, h]

theorem SameButLog.mem {s t : State} (h : SameButLog s t) : t.mem = s.mem := by rw [h]

theorem sameButLog_raise (src param : Nat) (s : State) : SameButLog s (raise src param s) := by
  unfold raise
  split
  · rfl
  · split <;> rfl

theorem raise_csr (src param : Nat) (s : State) : (raise src param s).csr = s.csr := by
  unfold raise
  split
  · rfl
  · split <;> rfl

theorem sameButLog_setF (f : Fld) (v : Nat) (s : State) (i j : Nat) : SameButLog s (setF f v s i j) := rfl

theorem sameButLog_wr (r : RegName) (v : Word) (s : State) (i j : Nat) : SameButLog s (wr r v s i j) := rfl

theorem sameButLog_celLoss (s : State) : SameButLog s (celLoss s) := by
  simp only [celLoss]
  split
  · exact SameButLog.trans (t := { alert 7 s with cel := { (alert 7 s).cel with armed := false } }) rfl (sameButLog_raise _ _ _)
  · rfl

theorem sameButLog_celPush (r : CelRec) (s : State) : SameButLog s (celPush r s) := by
  unfold celPush
  split
  · rfl
  · exact SameButLog.trans (sameButLog_setF _ _ _ 0 0) (sameButLog_celLoss _)

theorem sameButLog_cel (code unit sev p0 p1 p2 : Nat) (s : State) : SameButLog s (cel code unit sev p0 p1 p2 s) := sameButLog_celPush _ _

theorem sameButLog_celIgnored (a : Nat) (v : Word) (s : State) : SameButLog s (celIgnored a v s) := sameButLog_cel _ _ _ _ _ _ _

theorem sameButLog_celRefused (r : RegName) (v : Word) (s : State) (i j : Nat) : SameButLog s (celRefused r v s i j) := sameButLog_celIgnored _ _ _

theorem sameButLog_celAddress (u a : Nat) (w : Bool) (s : State) : SameButLog s (celAddress u a w s) := sameButLog_cel _ _ _ _ _ _ _

theorem sameButLog_pmcAdd (fuel n k : Nat) (s : State) : SameButLog s (pmcAdd fuel n k s) := by
  induction fuel generalizing n k s with
  | zero => rfl
  | succ fuel ih =>
    simp only [pmcAdd]
    split
    · rfl
    · generalize hw : wr RegName.PMC_OVF _ _ _ _ = w
      have h1 : SameButLog s w := by
        subst hw
        exact sameButLog_wr _ _ _ _ _
      have h2 : SameButLog s (if isF w F.PMC_SEL_OVFEV n then raise 0x0510 n w else w) := by
        split
        · exact h1.trans (sameButLog_raise _ _ _)
        · exact h1
      generalize (if isF w F.PMC_SEL_OVFEV n then raise 0x0510 n w else w) = v at h2 ⊢
      split
      · split
        · exact h2.trans (ih _ _ _)
        · exact h2
      · exact h2

theorem sameButLog_foldl {α : Type} (f : State → α → State) (hf : ∀ t x, SameButLog t (f t x)) (l : List α) (s : State) :
    SameButLog s (l.foldl f s) := by
  induction l generalizing s with
  | nil => rfl
  | cons x l ih => exact (hf s x).trans (ih _)

theorem sameButLog_pmc (ev inst k : Nat) (s : State) : SameButLog s (pmc ev inst k s) := by
  unfold pmc
  split
  · rfl
  · refine sameButLog_foldl _ (fun t n => ?_) _ _
    split
    · exact sameButLog_pmcAdd _ _ _ _
    · rfl

theorem sameButLog_govRecord (kind object new old : Nat) (s : State) : SameButLog s (govRecord kind object new old s) :=
  (sameButLog_cel _ _ _ _ _ _ _).trans (sameButLog_pmc _ _ _ _)

/-! ### Register files -/

/-- Retiring an instruction of a steward core counts nothing. -/
@[simp] theorem retire_stew (k : Nat) (s t : State) : retire (.stew k) s t = t := rfl

/-- Register 0 reads as zero. -/
@[simp] theorem RegFile.get_zero (f : RegFile) : f.get 0 = 0 := rfl

/-- A write of register 0 is discarded. -/
@[simp] theorem RegFile.set_zero (f : RegFile) (v : Word) : f.set 0 v = f := rfl

/-- A register that was written leaves the others. -/
theorem RegFile.get_set_ne (f : RegFile) {r q : Nat} (h : q ≠ r) (v : Word) : (f.set r v).get q = f.get q := by
  unfold RegFile.set RegFile.get
  split
  · rfl
  · split
    · rfl
    · exact kgetD_kputD_ne _ h _

/-! ### Jobs -/

/-- A listed job that finishes holds its result. -/
theorem finish_phase {s : State} {id : Nat} {j : Job} (h : kget s.jobs id = some j) (r : JobResult) :
    kget (finish id r s).jobs id = some { j with phase := .done r } := kget_kmod_self h _

/-- Finishing a job leaves every other job. -/
theorem finish_of_ne {id k : Nat} (h : k ≠ id) (r : JobResult) (s : State) : kget (finish id r s).jobs k = kget s.jobs k := kget_kmod_ne _ h _

end Sys2Proof.Machine
end

