-- ==== Sys2Proof/WellFormed.lean ====
section
/-! DEFINITION. What a command must be to be one that the device can be given: byte lists have the length, and numbers the range, that the
spec's layouts give them. Operands whose type already bounds them need no check. -/

namespace Sys2Proof

/-- A submission queue entry is 64 bytes (R45). -/
def wfSqe (l : List Byte) : Bool := decide (l.length = 64)

/-- A cell is 256 bytes (R407). -/
def wfCell (l : List Byte) : Bool := decide (l.length = 256)

/-- The fields of a frame's header have 10 bits each (R407). -/
def wfFrame (f : LinkFrame) : Bool :=
  decide (f.fseq < 1024) && decide (f.ackseq < 1024) && decide (f.credsum < 1024) && wfCell f.cell

/-- A heartbeat is 64 bytes (R421), and so is what a tap record takes of a cell (R405). -/
def wfHeartbeat (l : List Byte) : Bool := decide (l.length = 64)

/-- A queue pair number and a PSN have 24 bits, an opcode 8 (R362, R376). -/
def wfBth (h : Bth) : Bool := decide (h.qpn < 2 ^ 24) && decide (h.psn < 2 ^ 24) && decide (h.op < 256)

/-- The fields of a replication message header (R310). -/
def wfStrHdr (h : StrHdr) : Bool :=
  decide (h.stream < 4096) && decide (h.seq < 2 ^ 64) && decide (h.prev < 2 ^ 64) && decide (h.epoch < 2 ^ 32) && decide (h.oldlast < 2 ^ 64)

/-- A message has at most 64 entries (R310), each with a fingerprint of 32 bytes and a block number of 32 bits (R311). -/
def wfEntries (l : List StrEnt) : Bool :=
  decide (l.length ≤ 64) && l.all fun e => decide (e.fp.length = 32) && decide (e.lba < 2 ^ 32) && decide (e.flags < 256)

/-- A drive block is 4,096 data bytes with 64 metadata bytes (R231). -/
def wfAns : DriveAns → Bool
  | .block data md => decide (data.length = 4096) && decide (md.length = 64)
  | .media => true
  | .timeout => true

/-- A slot read from the drives is 1 to 4 KiB with its trailer of 16 bytes (R232, R233). -/
def wfSlot : Option (List Byte × List Byte) → Bool
  | some (d, t) => decide (d.length % 1024 = 0) && decide (0 < d.length) && decide (d.length ≤ 4096) && decide (t.length = 16)
  | none => true

/-- A record is a whole number of 64-byte units and starts at a 64-byte-aligned offset (R251), and its slot copies are of at most 4 KiB
(R252). -/
def wfRec (r : Rec) : Bool := decide (r.off % 64 = 0) && decide (r.bytes.length % 64 = 0) && r.copies.all fun c => decide (c.2.2.length ≤ 4096)

/-- Twelve channels carry a DIMM (R23); a copy of the configuration is copy 0 or 1, and a block of the vault has 4,096 bytes and 64 of metadata (R461,
R497). -/
def wfBoot : BootStep → Bool
  | .memory dimms => decide (dimms.length = 12)
  | .finish ring => ring.all wfRec
  | .rom _ _ => true
  | .restore _ cfg tbl spare => cfg.all (fun c => decide (c.1 < 2)) && tbl.all (fun c => decide (c.1 < 2)) &&
      spare.all fun x => decide (x.2.length = 3) && x.2.all fun y => decide (y.1.length = 4096) && decide (y.2.length = 64)
  | .tables .. => true
  | .image .. => true
  | .steward => true
  | .fail _ _ => true

/-- A command that the device can be given. -/
def Instr.wellFormed : Instr → Bool
  | .ioCapsuleReceived _ sqe _ _ => wfSqe sqe
  | .forwardedCommandReceived _ _ _ cmd => wfSqe cmd.sqe
  | .pageInComplete ctx => decide (ctx < 2 ^ 22)
  | .memoryLoadReturn ctx => decide (ctx < 2 ^ 22)
  | .storePerformed ctx _ => decide (ctx < 2 ^ 22)
  | .parkWake ctx => decide (ctx < 2 ^ 22)
  | .faultDrainDone ctx => decide (ctx < 2 ^ 22)
  | .fpxLookup _ read => wfSlot read
  | .fpRemoval read => wfSlot read
  | .slotrd _ reads => reads.all wfAns
  | .blkrd _ reads => reads.all wfAns
  | .blkwr _ ans => wfAns ans
  | .slotrec _ reads => reads.all wfAns
  | .mirrorRecordReceived r _ => wfRec r
  | .journalReplay _ recs => recs.all wfRec
  | .segmentMove _ _ reads => reads.all fun x => wfAns x.2
  | .rebuildPosition _ rows => rows.all fun l => l.all wfAns
  | .copybackStrip _ _ rows => rows.all fun l => l.all wfAns
  | .spargeVisit _ rows _ => rows.all fun l => l.all wfAns
  | .offer h ents => wfStrHdr h && wfEntries ents
  | .data h ents _ => wfStrHdr h && wfEntries ents
  | .mark h => wfStrHdr h
  | .flush _ sqe => wfSqe sqe
  | .getLogPage _ _ _ _ _ sqe _ => wfSqe sqe
  | .namespaceManagement _ sqe => wfSqe sqe
  | .namespaceAttachment _ sqe _ => wfSqe sqe
  | .formatNvm _ sqe _ => wfSqe sqe
  | .sanitize _ sqe _ => wfSqe sqe
  | .reservationCommand _ sqe _ => wfSqe sqe
  | .rdmaSendReceived h _ => wfBth h
  | .rdmaWriteRequest h _ _ _ _ => wfBth h
  | .rdmaReadRequest h _ _ _ => wfBth h
  | .rdmaAckReceived h _ => wfBth h
  | .rdmaNakReceived h _ => wfBth h
  | .cnpReceived h => wfBth h
  | .ethernetFrameReceived _ _ _ cells => cells.all wfCell
  | .tapCapture _ _ _ bytes _ _ => wfHeartbeat bytes
  | .cellFrame _ f => wfFrame f
  | .retryFrame _ f => wfFrame f
  | .idleFrame _ f => wfFrame f
  | .heartbeat _ bytes => wfHeartbeat bytes
  | .boot b => wfBoot b
  | .csrWrite .. | .rcRead .. | .csrUnmappedAccess .. | .contextAllocation | .forwardedResultReceived .. | .governorDecision ..
    | .contextAdmission .. | .quantumExpired .. | .budgetExhausted .. | .ticketAgeExpiry .. | .sequencerHang .. | .add .. | .sub ..
    | .and .. | .or .. | .xor .. | .andn .. | .sll .. | .srl .. | .sra .. | .slt .. | .sltu .. | .min .. | .max .. | .minu .. | .maxu ..
    | .mul .. | .mulhu .. | .divu .. | .remu .. | .clz .. | .ctz .. | .popc .. | .bswap .. | .addi .. | .andi .. | .ori .. | .xori ..
    | .slti .. | .sltiu .. | .slli .. | .srli .. | .srai .. | .lui .. | .ld .. | .lw .. | .lws .. | .lh .. | .lb .. | .sd .. | .sw ..
    | .sh .. | .sb .. | .amoadd .. | .amoswap .. | .amocas .. | .amoand .. | .amoor .. | .amomaxu .. | .beq .. | .bne .. | .blt ..
    | .bge .. | .bltu .. | .bgeu .. | .j .. | .jal .. | .jr .. | .jalr .. | .endFlow .. | .yield .. | .park .. | .ctxid .. | .seqid ..
    | .dtime .. | .fence .. | .fenceL .. | .fenceS .. | .icinv .. | .dld .. | .dst .. | .dclr .. | .mfs .. | .mts .. | .eret .. | .trap ..
    | .eventDelivery .. | .submit .. | .wait .. | .poll .. | .waitany .. | .drop .. | .jobAccepted .. | .heldJobRelease ..
    | .jobComplete .. | .deadlineExpired .. | .dmovCopy .. | .dmovCompare .. | .dmovFill .. | .fsqCtlWrite .. | .fsqPsetCtlWrite ..
    | .bungGo .. | .bungDrainDone | .bungPrepare .. | .bungAck | .bungNak | .bungCommit | .bungAbort | .bungPrepareTimeout
    | .bungResendTimer | .volumeRecount .. | .mapLookup .. | .mapUpdate .. | .srtinc .. | .srtdec .. | .genres .. | .prefetch ..
    | .snapCut .. | .snapDelete .. | .snapClone .. | .snapRelease .. | .diff .. | .wbvol .. | .pageInstalled .. | .writebackStart ..
    | .writebackHomed .. | .frameEvict .. | .mcCtlWrite .. | .mcDisableDone | .mcClean .. | .mcInvalidate .. | .mcLockfill ..
    | .mcFillLanded .. | .mcMaintDone | .gristFp .. | .secBorrow .. | .glEnable .. | .lauterProbe .. | .lauterInsert .. | .lauterDelete ..
    | .filterBuild | .admissionWindowEnd .. | .fpxInsert .. | .fpxRemove .. | .fpxCensus .. | .fpxSweep .. | .fpxReset .. | .fpInsertion
    | .compCode .. | .decompDecode .. | .skipTrialEnd .. | .keyGenerate .. | .keyWrap .. | .keyLoad .. | .keyClear .. | .keyErase ..
    | .keyPurgeDone | .cipherEnc .. | .cipherDec .. | .cipherSenc .. | .cipherSdec .. | .allocSlot .. | .allocFlush .. | .allocMove ..
    | .sealTimer .. | .tunSealingDurable .. | .tunParityDone .. | .tunStripsWritten .. | .stripWriteFail .. | .parityGen .. | .parityRec ..
    | .drvioPass .. | .jrnlAppend .. | .jrnlMark .. | .jrnlRecordDone | .appendUnblocked .. | .recordRetire .. | .leesSelect ..
    | .placementLoad .. | .memberStateWrite .. | .linkRetrainTimeout .. | .controllerFatal .. | .memberCommandTimeout .. | .mediaResult ..
    | .smartPoll .. | .readAroundStart .. | .slowMark .. | .rebuildScan .. | .lostSlotResolve .. | .rackingGo .. | .bandDrain ..
    | .rackingSwitchover .. | .cutApply | .snapshotReady .. | .deleteWalk | .pairCutReady .. | .pairCutGo .. | .pairCutCut ..
    | .pairCutAbort .. | .pairCutTimeout | .streamCycleGo .. | .streamContextStart .. | .streamHoldTimeout .. | .streamEpochRaise ..
    | .streamEpochMessage .. | .connect .. | .propertySet .. | .propertyGet .. | .disconnect .. | .queueFreeze .. | .katoExpiry ..
    | .identify .. | .abort .. | .setFeatures .. | .getFeatures .. | .asyncEventRequest .. | .keepAlive .. | .serviceCompletion ..
    | .discoveryGenctrWrite .. | .anaHoldTimeout .. | .anaStateChange .. | .hostOk .. | .hostErr .. | .hostBadlen .. | .hostPigen ..
    | .hostStatus .. | .drainTimeout | .cmReq .. | .cmRtu .. | .cmDreq .. | .tcpConnect | .tcpPduReceived .. | .rdmaAckTimeout ..
    | .rnrTimer .. | .ccTimer .. | .qpQuietExpiry .. | .qpCreate .. | .qpModify .. | .qpQuery .. | .qpDestroy .. | .rdmaRead ..
    | .rdmaWrite .. | .rdmaCmd .. | .windowRegister .. | .windowRevoke .. | .windowQuery .. | .revokeDrainDone .. | .schedulerParityError
    | .syncMark .. | .replayTimeout .. | .retryResendTimeout .. | .cellLinkEnable .. | .cellLinkTrained .. | .cellLinkDown ..
    | .heartbeatSend | .heartbeatPeriodEnd | .healthTimeout | .arbiterAnswer .. | .arbiterRetry | .fenceIn | .takeover
    | .partnerReadTimeout .. | .slotRefMessage .. | .syncStart .. | .syncComplete | .syncPartnerTimeout | .failbackSettle
    | .handoverStart .. | .handoverWaitExpiry .. | .rekeyGo .. | .rekey .. | .rekeyAck | .rekeyNak | .rekeySwitch .. | .pfailInput ..
    | .powerFailStart .. | .powerReturn | .vaultDriveTimeout .. | .avsStep .. | .avsAckTimeout | .droopTrip .. | .droopRelease ..
    | .sensorConversion | .sensorResult .. | .rstN | .headReset | .coldPowerOn | .coreBrownOut | .memoryEcc | .switchEcc | .refclkLoss ..
    | .clockLoss | .pwrgoodChange .. | .coreRelease .. | .swdtWrite .. | .swdtExpiry | .resetRequest .. | .checkpointGo ..
    | .standbyRequest .. | .standbyDrainTimeout | .standbyExit .. | .parkRequest .. | .parkWakeRequest | .autowakeTimer | .stage ..
    | .arm .. | .disarm .. | .commit .. | .enroll .. | .seal .. | .ukexp .. | .activationTime | .activationWaitExpiry
    | .activationAnnounce .. | .ringDrained | .ringDrainTimeout | .attestQuote .. | .celEvraiseWrite .. | .eventPop .. | .cellarRecord
    | .celWin0Read | .celWin3Read | .stewardRecordSubmit .. | .cellarFlush .. | .cellarFlushDone .. | .pmcFreeze .. | .pmcSnap ..
    | .pmcCounterWrite .. | .counterOverflow .. | .smbId | .smbState | .smbReset | .smbAlerts | .smbAlertclr .. | .smbHottest | .smbAvs
    | .smbTemp .. | .smbCelcnt | .smbCelrec | .smbCelrst .. | .smbCellost | .smbWake | .alertResponseAddress | .ppsInEdge | .ppsOutSecond
    | .tapBypass | .tapIdcode | .tapSample .. | .tapExtest | .tapClamp | .tapHighz | .rstNRelease | .fenceInRelease | .vddAonLoss
    | .refclkReturn .. | .partnerHealthEdge | .rootPortLinkDown .. | .rootPortLinkRetrained .. | .pairCutResendTimer | .pairCutConfirm
    | .bungConfirm | .unassignedEncoding .. | .ptpMessage .. => true

end Sys2Proof
end

