-- ==== Sys2Proof/Tests/Slice0.lean ====
section
/-! SUPPORT. Tests: what no command may be, states and operands that meet the hypotheses of each statement, and small results worked out
by hand from the rules. -/

namespace Sys2Proof.Tests
open Sys2Proof Sys2Proof.Machine

set_option Elab.async false

/-! ### Small states -/

/-- A register file with g1 to g3 set. -/
def rf0 : RegFile := ⟨[(1, 0x6000001000), (2, 5), (3, 7)], 0x100, []⟩

/-- A RUNNING context of sequencer 5 in frame 3. -/
def ctx0 : Ctx :=
  { st := .running, cls := 2, vol := 1, hq := 4, cid := 9, seq := 5, frame := 3, rf := rf0, sbuf := [], fences := 0, dsts := 0, used := 0
    epoch := 0, posted := true, fwd := false }

/-- A device on which context 7 is as given, and runs on sequencer 5. -/
def flowS (x : Ctx) : State := { State.reset with ctxs := [(7, x)], seqs := [(5, ⟨some 7, [], 0, false⟩)] }

/-- A device on which context 7 is as given, and no context runs. -/
def idleS (x : Ctx) : State := { State.reset with ctxs := [(7, x)] }

/-- A steward core in P mode in its boot ROM, with the registers of `rf0` and its vector base in its local store. -/
def stew0 : Stew := { startCore 0 with rf := rf0, evbase := 0x21800000 }

/-- A device with a steward core 0. -/
def stewS (x : Stew) : State := { State.reset with stews := [(0, x)] }

/-- What g-registers a flow holds. -/
def flowG (g : KMap Word) : State := flowS { ctx0 with rf := { rf0 with g := g } }

/-- What g-registers steward core 0 holds. -/
def stewG (g : KMap Word) : State := stewS { stew0 with rf := { rf0 with g := g } }

theorem issues_flow : Issues (.fsq 5) (.ctx 7) 4 (flowS ctx0) ∧ Issues (.fsq 5) (.ctx 7) 12 (flowS ctx0) :=
  ⟨⟨by decide +kernel, by decide +kernel, _, rfl, by decide +kernel, by decide +kernel⟩, ⟨by decide +kernel, by decide +kernel, _, rfl, by decide +kernel, by decide +kernel⟩⟩

theorem issues_stew : Issues (.stew 0) (.stew 0) 4 (stewS stew0) ∧ Issues (.stew 0) (.stew 0) 12 (stewS stew0) :=
  ⟨⟨by decide +kernel, _, rfl, by decide +kernel, by decide +kernel⟩, ⟨by decide +kernel, _, rfl, by decide +kernel, by decide +kernel⟩⟩

/-- The state after a command. -/
def after (i : Instr) (s : State) : State :=
  match exec i s with
  | .next t => t
  | .fault _ => s
  | .refused _ => s

/-! ### The queue and every step -/

theorem test_stepKeepsMemory_premises : Memory.wf (wrB 0x6000000000 [1, 0, 2] State.reset).mem = true ∧
    ∃ t, step (wrB 0x6000000000 [1, 0, 2] State.reset) = .next t := ⟨by decide +kernel, _, rfl⟩

theorem test_idleStep_premises : State.reset.pending = [] ∧ State.reset.boot.aon = true ∧
    isF State.reset F.SWC_TAP_CTL_EN = false := by decide +kernel

theorem test_commandsLeaveTheQueue_premises : ∃ t, exec .smbId { State.reset with pending := [.contextAllocation] } = .next t ∧
    t.pending = [.contextAllocation] := ⟨_, rfl, rfl⟩

/-! ### GFI instructions -/

theorem test_registerResults_premises : Issues (.fsq 5) (.ctx 7) 4 (flowS ctx0) ∧ badDest (.fsq 5) 4 = false ∧
    Issues (.stew 0) (.stew 0) 4 (stewS stew0) ∧ badDest (.stew 0) 29 = false :=
  ⟨issues_flow.1, by decide +kernel, issues_stew.1, by decide +kernel⟩

theorem test_add : reg (after (.add (.fsq 5) 4 2 3) (flowS ctx0)) (.ctx 7) 4 = 12 := by decide +kernel

theorem test_div_by_zero : reg (after (.divu (.stew 0) 4 2 0) (stewS stew0)) (.stew 0) 4 = 0xFFFFFFFFFFFFFFFF := by decide +kernel

theorem test_g29_is_barred_on_a_flow : badDest (.fsq 5) 29 = true := by decide +kernel

theorem test_immediateResults_premises : Issues (.fsq 5) (.ctx 7) (immLen (.long 0x80000000)) (flowS ctx0) ∧
    Issues (.fsq 5) (.ctx 7) 4 (flowS ctx0) ∧ badDest (.fsq 5) 31 = false ∧ (63 : BitVec 16).toNat < 64 ∧
    Issues (.fsq 5) (.ctx 7) 12 (flowS ctx0) := ⟨issues_flow.2, issues_flow.1, by decide +kernel, by decide +kernel, issues_flow.2⟩

theorem test_lui_sign : reg (after (.lui (.fsq 5) 4 0 (.short 0x8000)) (flowS ctx0)) (.ctx 7) 4 = 0xFFFFFFFF80000000 := by decide +kernel

theorem test_branches_premises : Issues (.fsq 5) (.ctx 7) (immLen (.short 2)) (flowS ctx0) ∧
    fetchOk (flowS ctx0) (.ctx 7) (pcOf (flowS ctx0) (.ctx 7) + immS (.short 2) * 4) 4 = true := ⟨issues_flow.1, by decide +kernel⟩

theorem test_branch_back : pcOf (after (.bne (.fsq 5) 2 3 (.short 0xFFFF)) (flowS ctx0)) (.ctx 7) = 0xFC := by decide +kernel

theorem test_jumps_premises : Issues (.fsq 5) (.ctx 7) 4 (flowS ctx0) ∧
    fetchOk (flowS ctx0) (.ctx 7) (pcOf (flowS ctx0) (.ctx 7) + (3 : BitVec 26).signExtend 64 * 4) 4 = true ∧
    fetchOk (flowG [(1, 0x200)]) (.ctx 7) (reg (flowG [(1, 0x200)]) (.ctx 7) 1) 4 = true ∧ badDest (.fsq 5) 1 = false :=
  ⟨issues_flow.1, by decide +kernel⟩

theorem test_badTarget_premises : Issues (.fsq 5) (.ctx 7) (immLen (.short 0x8000)) (flowS ctx0) ∧
    fetchOk (flowS ctx0) (.ctx 7) (pcOf (flowS ctx0) (.ctx 7) + immS (.short 0x8000) * 4) 4 = false ∧
    Issues (.stew 0) (.stew 0) (immLen (.short 0x8000)) (stewS stew0) ∧
    fetchOk (stewS stew0) (.stew 0) (pcOf (stewS stew0) (.stew 0) + immS (.short 0x8000) * 4) 4 = false ∧
    kget (stewS stew0).stews 0 = some stew0 ∧ stew0.inev = false := ⟨issues_flow.1, by decide +kernel, issues_stew.1, by decide +kernel⟩

/-- The frame of `ctx0`: its first free word, R46. -/
def frame0 : Nat := frameAddr 5 3 + 0x80

theorem test_loads_premises :
    (let s := stewG [(1, 0x6000001000)]
     Issues (.stew 0) (.stew 0) (immLen (.short 0)) s ∧ badDest (.stew 0) 4 = false ∧ (reg s (.stew 0) 1 + immS (.short 0)).toNat % 8 = 0 ∧
      kget s.stews 0 = some { stew0 with rf := { rf0 with g := [(1, 0x6000001000)] } } ∧ stew0.mayRegion 0x6000001000 8 0 = true ∧
      regionOf s 0x6000001000 = .hbm) ∧
    (let s := flowG [(1, BitVec.ofNat 64 frame0)]
     Issues (.fsq 5) (.ctx 7) (immLen (.short 0)) s ∧ badDest (.fsq 5) 4 = false ∧ (reg s (.ctx 7) 1 + immS (.short 0)).toNat = frame0 ∧
      inFrame ctx0 frame0 8 = true) ∧
    (let s := flowG [(1, 0x6000001000)]
     Issues (.fsq 5) (.ctx 7) (immLen (.short 0)) s ∧ flowNear s ctx0 0x6000001000 8 = false ∧ inHbmDdr s 0x6000001000 8 = true ∧
      windowOk s false 0x6000001000 8 = true) := by
  refine ⟨⟨⟨by decide +kernel, _, rfl, by decide +kernel, by decide +kernel⟩, by decide +kernel⟩, ⟨⟨by decide +kernel, by decide +kernel, _, rfl, by decide +kernel, by decide +kernel⟩, by decide +kernel⟩,
    ⟨by decide +kernel, by decide +kernel, _, rfl, by decide +kernel, by decide +kernel⟩, by decide +kernel⟩

theorem test_load_signed_word : reg (after (.lws (.stew 0) 4 1 (.short 4)) (wrB 0x6000001004 [0xFE, 0xFF, 0xFF, 0xFF] (stewS stew0))) (.stew 0) 4 =
    0xFFFFFFFFFFFFFFFE := by decide +kernel

/-- `ctx0` waiting for a load. -/
def ctxLoad : Ctx := { ctx0 with st := .waiting (.memory (.load 4 0x6000001000 8 false)) }

/-- `ctx0` waiting for an atomic. -/
def ctxAmo : Ctx := { ctx0 with st := .waiting (.memory (.amo .maxu 4 0x6000001000 9 0)) }

theorem test_memoryReturn_premises : Memory.wf (idleS ctxLoad).mem = true ∧ kget (idleS ctxLoad).ctxs 7 = some ctxLoad ∧
    ctxLoad.st = .waiting (.memory (.load 4 0x6000001000 8 false)) ∧ kget (idleS ctxAmo).ctxs 7 = some ctxAmo ∧
    ctxAmo.st = .waiting (.memory (.amo .maxu 4 0x6000001000 9 0)) ∧ ctxAmo.sbuf = [] := by decide +kernel

theorem test_amomaxu_returns_old : let t := after (.memoryLoadReturn 7) (wrN 0x6000001000 8 4 (idleS ctxAmo))
    reg t (.ctx 7) 4 = 4 ∧ rdN t 0x6000001000 8 = 9 := by decide +kernel

theorem test_stores_premises : Memory.wf (stewS stew0).mem = true ∧ Issues (.stew 0) (.stew 0) (immLen (.short 0)) (stewS stew0) ∧
    (reg (stewS stew0) (.stew 0) 1 + immS (.short 0)).toNat = 0x6000001000 ∧ stew0.mayRegion 0x6000001000 8 1 = true ∧
    regionOf (stewS stew0) 0x6000001000 = .hbm ∧ Issues (.fsq 5) (.ctx 7) (immLen (.short 0)) (flowG [(1, BitVec.ofNat 64 frame0)]) ∧
    frameWrites ctx0 frame0 8 = true ∧ (reg (flowG [(1, BitVec.ofNat 64 frame0)]) (.ctx 7) 1 + immS (.short 0)).toNat = frame0 ∧ frame0 % 8 = 0 :=
  ⟨by decide +kernel, issues_stew.1, by decide +kernel, by decide +kernel, by decide +kernel, ⟨by decide +kernel, by decide +kernel, _, rfl, by decide +kernel, by decide +kernel⟩, by decide +kernel⟩

theorem test_store_halfword : rdB (after (.sh (.stew 0) 2 1 (.short 2)) (stewG [(1, 0x6000001000), (2, 0x12345)])) 0x6000001000 8 =
    [0, 0, 0x45, 0x23, 0, 0, 0, 0] := by decide +kernel

/-- `ctx0` with a store in its buffer. -/
def ctxStore : Ctx := { ctx0 with sbuf := [.store 0x6000001000 8 0x1122334455667788 0 0] }

theorem test_bufferedStores_premises :
    (let s := flowS ctx0
     Issues (.fsq 5) (.ctx 7) (immLen (.short 0)) s ∧ kget s.ctxs 7 = some ctx0 ∧ ctx0.sbuf.length < 8 ∧
      (reg s (.ctx 7) 1 + immS (.short 0)).toNat = 0x6000001000 ∧ frameWrites ctx0 0x6000001000 8 = false ∧
      inHbmDdr s 0x6000001000 8 = true ∧ windowOk s true 0x6000001000 8 = true) ∧
    (let s := idleS ctxStore
     Memory.wf s.mem = true ∧ kget s.ctxs 7 = some ctxStore ∧ ctxStore.sbuf[0]? = some (.store 0x6000001000 8 0x1122334455667788 0 0) ∧
      (ctxStore.sbuf.take 0).any (mustPrecede · (.store 0x6000001000 8 0x1122334455667788 0 0)) = false) :=
  ⟨⟨issues_flow.1, by decide +kernel⟩, by decide +kernel⟩

theorem test_atomics_premises :
    (let s := stewS stew0
     Issues (.stew 0) (.stew 0) 4 s ∧ badDest (.stew 0) 4 = false ∧ (reg s (.stew 0) 1).toNat % 8 = 0 ∧
      inHbmDdr s (reg s (.stew 0) 1).toNat 8 = true ∧ kget s.stews 0 = some stew0 ∧ stew0.mayRegion (reg s (.stew 0) 1).toNat 8 0 = true ∧
      stew0.mayRegion (reg s (.stew 0) 1).toNat 8 1 = true) ∧
    (let s := flowS ctx0
     Issues (.fsq 5) (.ctx 7) 4 s ∧ badDest (.fsq 5) 4 = false ∧ inHbmDdr s (reg s (.ctx 7) 1).toNat 8 = true ∧
      windowOk s false (reg s (.ctx 7) 1).toNat 8 = true ∧ windowOk s true (reg s (.ctx 7) 1).toNat 8 = true) :=
  ⟨⟨issues_stew.1, by decide +kernel⟩, ⟨issues_flow.1, by decide +kernel⟩⟩

theorem test_amocas_compares : rdN (after (.amocas (.stew 0) 2 1 3) (stewS stew0)) 0x6000001000 8 = 0 ∧
    rdN (after (.amocas (.stew 0) 4 1 3) (stewS stew0)) 0x6000001000 8 = 7 := by decide +kernel

theorem test_badAddresses_premises :
    (let s := stewG [(1, 0x6000001004)]
     Issues (.stew 0) (.stew 0) (immLen (.short 0)) s ∧ stew0.inev = false ∧ (reg s (.stew 0) 1 + immS (.short 0)).toNat % 8 ≠ 0 ∧
      regionOf s 0x6000001004 ≠ .csr) ∧
    (let s := stewG [(1, 0x200000)]
     Issues (.stew 0) (.stew 0) (immLen (.short 0)) s ∧ (reg s (.stew 0) 1 + immS (.short 0)).toNat % 8 = 0 ∧
      stewReads s stew0 0x200000 8 = false ∧ regionOf s 0x200000 ≠ .csr) :=
  ⟨⟨⟨by decide +kernel, _, rfl, by decide +kernel, by decide +kernel⟩, by decide +kernel⟩, ⟨by decide +kernel, _, rfl, by decide +kernel, by decide +kernel⟩, by decide +kernel⟩

theorem test_descriptors_premises : Memory.wf (stewS stew0).mem = true ∧ Issues (.stew 0) (.stew 0) 4 (stewS stew0) ∧ (7 : Byte).toNat < 8 ∧
    (reg (stewS stew0) (.stew 0) 1).toNat % 64 = 0 ∧ regionOf (stewS stew0) (reg (stewS stew0) (.stew 0) 1).toNat = .hbm ∧
    stew0.mayRegion (reg (stewS stew0) (.stew 0) 1).toNat 64 0 = true ∧ stew0.mayRegion (reg (stewS stew0) (.stew 0) 1).toNat 64 1 = true :=
  ⟨by decide +kernel, issues_stew.1, by decide +kernel⟩

theorem test_specialRegisters_premises : Issues (.stew 0) (.stew (0 : BitVec 4).toNat) 4 (stewS stew0) ∧
    kget (stewS stew0).stews (0 : BitVec 4).toNat = some stew0 ∧ stew0.p = true := ⟨issues_stew.1, by decide +kernel⟩

theorem test_region_base_keeps_its_bits : reg (after (.mfs (.stew 0) 4 0 0x7F)
    (after (.mts (.stew 0) 0 1 0x7F) (stewG [(1, 0xFFFFFFFFFFFFFFFF)]))) (.stew 0) 4 = 0x0000FFFFFFFFF07F := by decide +kernel

/-- Steward core 0 taking events. -/
def stewEven : Stew := { stew0 with mode := 5 }

/-- Steward core 0 with an event in its queue 0. -/
def eventS : State := { setF F.CEL_EVQ_CTL_EN 1 (stewS stewEven) with cel := { State.reset.cel with evq := [(0, [0x1B00])], pend := [(0x1B00, ⟨1, 0⟩)] } }

theorem test_handlerEntry_premises : Issues (.stew 0) (.stew 0) 4 (stewS stew0) ∧ stew0.inev = false ∧ stew0.p = true ∧
    kget eventS.stews 0 = some stewEven ∧ stewEven.run = true ∧ stewEven.even = true ∧ stewEven.inev = false ∧ eventQueue eventS 0 = some 0 :=
  ⟨issues_stew.1, by decide +kernel⟩

theorem test_trap_enters_vector_2 : let t := after (.trap (.stew 0) 0 0 0xFF) (stewS stew0)
    (kget t.stews 0).map (fun x => (x.rf.pc, x.epc, x.ecause)) = some (0x21800200, 0x104, 0xFF0021) := by decide +kernel

/-- Steward core 0 inside its handler. -/
def stewInev : Stew := { stew0 with mode := 3 }

theorem test_doubleFault_premises : Issues (.stew 0) (.stew (0 : BitVec 4).toNat) 4 (stewS stewInev) ∧
    kget (stewS stewInev).stews (0 : BitVec 4).toNat = some stewInev ∧ stewInev.inev = true :=
  ⟨⟨by decide +kernel, _, rfl, by decide +kernel, by decide +kernel⟩, by decide +kernel⟩

/-- Steward core 0 in U mode, in its local store, which a region lets it run. -/
def stewU : Stew :=
  { stew0 with mode := 0, rf := { rf0 with pc := 0x21800000 }, rgnb := [(0, 0x2180007F)], rgnl := [(0, 0x218FF000)] }

theorem test_privilege_premises : Issues (.stew 0) (.stew (0 : BitVec 4).toNat) 4 (stewS stewU) ∧
    kget (stewS stewU).stews (0 : BitVec 4).toNat = some stewU ∧ stewU.p = false ∧ stewU.inev = false ∧
    Issues (.fsq 5) (.ctx 7) 4 (flowS ctx0) ∧ kget (flowS ctx0).ctxs 7 = some ctx0 :=
  ⟨⟨by decide +kernel, _, rfl, by decide +kernel, by decide +kernel⟩, by decide +kernel, by decide +kernel, by decide +kernel, issues_flow.1, rfl⟩

theorem test_illegal_premises : Issues (.fsq 5) (.ctx 7) (if (0xFC000000 : BitVec 32).toNat / 2 ^ 26 = 0x3F then 12 else 4) (flowS ctx0) ∧
    unassigned 0xFC000000 0 = true ∧
    Issues (.fsq 5) (.ctx 7) (if (0xDC000000 : BitVec 32).toNat / 2 ^ 26 = 0x3F then 12 else 4) (flowS ctx0) ∧
    unassigned 0xDC000000 0 = true := ⟨issues_flow.2, by decide +kernel, issues_flow.1, by decide +kernel⟩

/-- A context whose ticket 15 is READY and ticket 2 PENDING. -/
def ctxTk : Ctx := { ctx0 with rf := { rf0 with g := [(1, 0x8004), (2, 4)], tk := [(2, ⟨false, 1, 0⟩), (15, ⟨true, 0, 0⟩)] } }

theorem test_tickets_premises : Issues (.fsq 5) (.ctx 7) 4 (flowS ctxTk) ∧ badDest (.fsq 5) 4 = false ∧
    (kget (rfOf (flowS ctxTk) (.ctx 7)).tk 15 = some ⟨true, 0, 0⟩ ∧ (reg (flowS ctxTk) (.ctx 7) 1).toNat.testBit 15 = true ∧
      ∀ i < 15, (reg (flowS ctxTk) (.ctx 7) 1).toNat.testBit i = true → ((kget ctxTk.rf.tk i).all fun j => !j.ready) = true) ∧
    kget (rfOf (flowS ctxTk) (.ctx 7)).tk 2 = some ⟨false, 1, 0⟩ ∧ (reg (flowS ctxTk) (.ctx 7) 2).toNat % 65536 = 2 ^ 2 :=
  ⟨⟨by decide +kernel, by decide +kernel, _, rfl, by decide +kernel, by decide +kernel⟩, by decide +kernel⟩

theorem test_freeTickets_premises : Issues (.fsq 5) (.ctx 7) 4 (flowS ctx0) ∧ kget (flowS ctx0).ctxs 7 = some ctx0 ∧ (4 : RegNo) ≠ 29 ∧
    kget ctx0.rf.tk (15 : BitVec 4).toNat = none ∧
    ∀ j < 16, (reg (flowS ctx0) (.ctx 7) 2).toNat.testBit j = true → kget ctx0.rf.tk j = none := ⟨issues_flow.1, by decide +kernel⟩

theorem test_submit_premises : Issues (.fsq 5) (.ctx 7) 4 (flowS ctx0) ∧ 1 ≤ (14 : BitVec 6).toNat ∧ (14 : BitVec 6).toNat ≤ 14 ∧
    kget (rfOf (flowS ctx0) (.ctx 7)).tk (15 : BitVec 4).toNat = none ∧ ctx0.sbuf.length < 8 := ⟨issues_flow.1, by decide +kernel⟩

theorem test_submit_takes_a_ticket : let t := after (.submit (.fsq 5) 15 7 14 0) (flowS ctx0)
    (kget t.ctxs 7).map (fun x => (x.rf.tk, x.sbuf)) = some ([(15, ⟨false, 0, 0⟩)], [.submit 0]) := by decide +kernel

theorem test_flowReads_premises : Issues (.fsq 5) (.ctx 7) 4 (flowS ctx0) ∧ badDest (.fsq 5) 0 = false ∧
    Issues (.stew 0) (.stew 0) 4 (stewS stew0) ∧ kget (stewS stew0).stews 0 = some stew0 ∧ stew0.p = true :=
  ⟨issues_flow.1, by decide +kernel, issues_stew.1, by decide +kernel⟩

theorem test_contextInstructions_premises : Memory.wf (flowS ctx0).mem = true ∧ Issues (.fsq 5) (.ctx 7) 4 (flowS ctx0) ∧
    kget (flowS ctx0).ctxs 7 = some ctx0 ∧ ctx0.seq = (5 : BitVec 8).toNat ∧ ctx0.rf.tk = [] ∧ ctx0.sbuf = [] ∧
    (ctx0.rf.get (1 : RegNo).toNat).ule (flowS ctx0).dtime = false ∧ ctx0.posted = true ∧ kget (flowS ctx0).str.ctxs 7 = none :=
  ⟨by decide +kernel, issues_flow.1, by decide +kernel⟩

theorem test_park_saves_g1 : rdN (after (.park (.fsq 5) 0 1 0) (flowS ctx0)) (0x6800000000 + 128 * 7 + 80) 8 = 0x6000001000 := by decide +kernel

/-- A state with fields set one after the other. -/
def withF (l : List (Fld × Nat)) (s : State) : State := l.foldl (fun t x => setF x.1 x.2 t) s

/-- `ctx0` before its page-in. -/
def ctxPaging : Ctx := { ctx0 with st := .paging, seq := 255, frame := 255 }

/-- A device whose class 2 has context 7 waiting to be admitted. -/
def admitS : State :=
  { withF [(F.FSQ_CTL_EN, 1)] State.reset with ctxs := [(7, { ctx0 with st := .queued })], sched := ⟨[(2, [7])], 2, 1⟩ }

theorem test_admission_premises : isF admitS F.FSQ_CTL_EN = true ∧ admitS.pwr.want = none ∧ admitClass admitS = some (2, 1) ∧
    kgetD admitS.sched.fifo 2 [] = [7] ∧ (freestSeq admitS (List.range 256)).isSome = true ∧ (freeFrame admitS 0).isSome = true ∧
    (kget admitS.ctxs 7).isSome = true ∧
    Memory.wf (idleS ctxPaging).mem = true ∧ kget (idleS ctxPaging).ctxs 7 = some ctxPaging ∧ ctxPaging.st = .paging ∧
    ctxPaging.seq < 256 ∧ ctxPaging.frame < 256 := by decide +kernel

/-- A command that waits for a context. -/
def wait0 : WaitCmd := { hq := 3, cid := 8, cls := 63, vol := 0x3FFFF, pc := 0x40, epoch := 0, sqe := List.replicate 64 0xA5, fwd := true }

theorem test_allocation_premises : let s := { State.reset with ctxWait := [wait0] }
    Memory.wf s.mem = true ∧ s.ctxWait = [wait0] ∧ s.host.unfetched = [] ∧ freeCtxNo s = some 0 ∧ wait0.sqe.length = 64 := by decide +kernel

/-- `ctx0` parked. -/
def ctxParked : Ctx := { ctx0 with st := .parked 1000 }

theorem test_preemptionAndWake_premises : (seqOf (flowS ctx0) (5 : BitVec 8).toNat).running = some 7 ∧ kget (flowS ctx0).ctxs 7 = some ctx0 ∧
    ctx0.seq = (5 : BitVec 8).toNat ∧ ctxParked.st = .parked 1000 ∧
    (1000 : Word).toNat ≤ ({ idleS ctxParked with dtime := 1000 } : State).dtime.toNat ∧
    ({ idleS ctxParked with dtime := 999 } : State).dtime.toNat < (1000 : Word).toNat := by decide +kernel

/-- A flow fault. -/
def fault0 : FlowFault := ⟨5, 255, 0xFFFFFFFF, 0x3FFFC, 0xFFFFFFFFFFFF⟩

/-- `ctx0` at the end of its budget, and after a fault. -/
def ctxSpent : Ctx := { ctx0 with used := 0x4000000 }
@[inherit_doc ctxSpent] def ctxFaulted : Ctx := { ctx0 with st := .faulted fault0 }

theorem test_faults_premises :
    (seqOf (flowS ctxSpent) (5 : BitVec 8).toNat).running = some 7 ∧ budget (flowS ctxSpent) ≤ ctxSpent.used ∧
    (let s := idleS ctxFaulted
     kget s.ctxs 7 = some ctxFaulted ∧ ctxFaulted.st = .faulted fault0 ∧ ctxFaulted.rf.tk.all (fun kv => kv.2.ready) = true ∧
      ctxFaulted.posted = true ∧ keysFrom 0 s.ctxs = true ∧ isF s F.FSQ_FLT_STAT_VALID = false ∧ fault0.code < 256 ∧ fault0.seq < 256 ∧
      fault0.pc < 2 ^ 32 ∧ fault0.insn < 2 ^ 32 ∧ fault0.addr < 2 ^ 48) := by decide +kernel

theorem test_watchdogs_premises : kget (rfOf (flowS ctxTk) (.ctx 7)).tk (2 : BitVec 4).toNat = some ⟨false, 1, 0⟩ ∧
    (seqOf { State.reset with seqs := [(255, ⟨none, [7], 0, false⟩)] } (255 : BitVec 8).toNat).readyQ ≠ [] := by decide +kernel

/-- A job of steward core 0 with ticket 3: its class, operation and descriptor fields as offset, and value. -/
def job0 (cls op : Nat) (ph : JobPhase) (fs : List (Nat × Nat)) : Job :=
  { owner := .stew 0, tk := 3, cls := cls, desc := BitVec.ofNat 512 ((fs.map fun f => f.2 * 256 ^ f.1).sum + op * 256 + cls), phase := ph, predCode := none, inst := 0 }

/-- A state with a job numbered 1. -/
def withJob (j : Job) (s : State) : State := { s with jobs := [(1, j)] }

/-- A COPY of 4,096 bytes. -/
def copyFields : List (Nat × Nat) := [(8, 0x6000001000), (16, 0x6000003000), (24, 4096)]

theorem test_acceptance_premises :
    (let s := withJob (job0 0x0D 1 (.issued none) copyFields) State.reset
     kget s.jobs 1 = some (job0 0x0D 1 (.issued none) copyFields) ∧ checkDmov (job0 0x0D 1 (.issued none) copyFields) s = none ∧ hasRoom s 0x0D = true) ∧
    (let s := withJob (job0 0x0D 1 (.issued none) []) State.reset
     (checkDmov (job0 0x0D 1 (.issued none) []) s).isSome = true ∧ hasRoom s 0x0D = true) := by decide +kernel

/-- The COPY held for job 0. -/
def heldJob (code : Nat) : Job := { job0 0x0D 1 (.held 0 false) copyFields with predCode := some code }

theorem test_heldJobs_premises : let s := withJob (heldJob 0) State.reset
    kget s.jobs 1 = some (heldJob 0) ∧ (heldJob 0).owner = .stew 0 ∧ (heldJob 0).cls = 0x0D ∧ (heldJob 0).phase = .held 0 false ∧
      (heldJob 4).predCode = some 4 ∧ (heldJob 0).predCode = some 0 ∧ hasRoom s 0x0D = true ∧ checkDmov (heldJob 0) s = none := by decide +kernel

/-- A finished job. -/
def doneJob : Job := job0 0x0D 1 (.done ⟨0x0C, 1, 512, 77⟩) copyFields

/-- Steward core 0 waiting for it. -/
def stewTk : Stew := { stew0 with rf := { rf0 with tk := [(3, ⟨false, 1, 0⟩)] } }

theorem test_completion_premises : let s := withJob doneJob (stewS stewTk)
    Memory.wf s.mem = true ∧ keysFrom 0 s.jobs = true ∧ kget s.jobs 1 = some doneJob ∧ doneJob.phase = .done ⟨0x0C, 1, 512, 77⟩ ∧
      kget s.stews 0 = some stewTk ∧ kget stewTk.rf.tk doneJob.tk = some ⟨false, 1, 0⟩ ∧ kget s.comp.outcomes 1 = none ∧ mayComplete s doneJob = true := by decide +kernel

theorem test_completion_record : rdB (after (.jobComplete 1) (withJob doneJob (stewS stewTk))) (slotAddr State.reset (.stew 0) 3) 16 =
    [0x0C, 1, 0, 0, 0, 2, 0, 0, 77, 0, 0, 0, 0, 0, 0, 0] := by decide +kernel

/-- An accepted job of steward core 0. -/
def acc (cls op : Nat) (fs : List (Nat × Nat)) : State := withJob (job0 cls op .accepted fs) State.reset

theorem test_dataMover_premises : Memory.wf (acc 0x0D 1 copyFields).mem = true ∧ (accepted (acc 0x0D 1 copyFields) 1 0x0D 1).isSome = true ∧
    (accepted (acc 0x0D 2 copyFields) 1 0x0D 2).isSome = true ∧ (accepted (acc 0x0D 3 copyFields) 1 0x0D 3).isSome = true := by decide +kernel

theorem test_fill_repeats_its_pattern :
    let s := withJob (job0 0x0D 3 .accepted [(16, 0x6000003000), (24, 10), (32, 0x0807060504030201)]) State.reset
    rdB (after (.dmovFill 1) s) 0x6000003000 11 = [1, 2, 3, 4, 5, 6, 7, 8, 1, 2, 0] := by decide +kernel

/-- A FILL of ten bytes with a deadline. -/
def fillJob : Job := job0 0x0D 3 .accepted [(4, 100), (16, 0x6000003000), (24, 10), (32, 0x0807060504030201)]

theorem test_deadline_premises : Memory.wf (withJob fillJob State.reset).mem = true ∧
    accepted (withJob fillJob State.reset) 1 0x0D 3 = some fillJob ∧ fillJob.deadline ≠ 0 ∧ 10 ≤ fillJob.n 24 4 := by decide +kernel

theorem test_programSet_premises :
    isF (withF [(F.FSQ_PSET_CTL_ACTIVE, 1)] State.reset) F.FSQ_PSET_CTL_ACTIVE = true ∧ isF State.reset F.FSQ_PSET_CTL_ACTIVE = false ∧
    bit (0x10001 : Word) 0 = true ∧ bits (0x10001 : Word) 28 16 ≠ 0 ∧
    bits (0x10001 : Word) 28 16 ≠ getF (withF [(F.FSQ_PSET_CTL_ACTIVE, 1)] State.reset) F.FSQ_PSET_CTL_ENTRIES := by decide +kernel

/-- A device during a bung with no old context. -/
def bungS : State := { withF [(F.FSQ_BUNG_STAT_BUSY, 1)] State.reset with bung := { epoch := 1 } }

theorem test_localBung_premises : bit (1 : Word) 0 = true ∧ bit (1 : Word) 1 = false ∧ bungRefusal State.reset = none ∧
    bungRefusal bungS = some 1 ∧ isF bungS F.FSQ_BUNG_STAT_BUSY = true ∧ oldCtx bungS = 0 := by decide +kernel

theorem test_pairBung_premises :
    (let s := withF [(F.FSQ_BUNG_CTL_STAGED, 1)] State.reset
     getF s F.FSQ_BUNG_STAT_PSTATE = 0 ∧ isF s F.FSQ_BUNG_CTL_STAGED = true ∧ isF s F.FSQ_BUNG_STAT_BUSY = false ∧
      bankValid s (inactiveBank s) = true) ∧
    getF (withF [(F.FSQ_BUNG_STAT_PSTATE, 1)] State.reset) F.FSQ_BUNG_STAT_PSTATE = 1 ∧
    getF (withF [(F.FSQ_BUNG_STAT_PSTATE, 2)] State.reset) F.FSQ_BUNG_STAT_PSTATE = 2 ∧
    (let s := { State.reset with bung := { State.reset.bung with resend := some .bungCommit } }
     s.bung.resend = some .bungCommit ∧ s.partner.dead = false) := by decide +kernel

/-- A cellar record. -/
def rec0 : CelRec := ⟨0x0C10, 5, 2, 7000, 1, 2, 3, false⟩

/-- A device whose log holds `rec0` once and whose input queue holds it again. -/
def logS : State :=
  { withF [(F.CEL_STAT_WPOS, 1), (F.CEL_STAT_UNREAD, 1)] (wrB celBase (recBytes rec0 1 0 false) State.reset) with
    cel := { State.reset.cel with inq := [rec0], total := 1 } }

theorem test_log_premises :
    (let s := { State.reset with cel := { State.reset.cel with inq := [rec0] } }
     Memory.wf s.mem = true ∧ s.cel.inq = [rec0] ∧ rec0.sev % 8 < 3 ∧ getF s F.CEL_STAT_UNREAD = 0 ∧ s.cel.total < 16384) ∧
    (let s := logS
     let last := celAddr ((getF s F.CEL_STAT_WPOS + 16383) % 16384)
     Memory.wf s.mem = true ∧ s.cel.inq = [rec0] ∧ getF s F.CEL_STAT_UNREAD ≠ 0 ∧ sameRecord rec0 (rdB s last 32) = true ∧
      (rec0.first - rdN s (last + 8) 8) / 1000 < 2 ^ 32) := by decide +kernel

theorem test_record_layout : rdB (after .cellarRecord { State.reset with cel := { State.reset.cel with inq := [rec0] } }) celBase 32 =
    [0x10, 0x0C, 5, 2, 1, 0, 0, 0, 0x58, 0x1B, 0, 0, 0, 0, 0, 0, 0, 0, 0, 0, 1, 0, 0, 0, 2, 0, 0, 0, 3, 0, 0, 0] := by decide +kernel

theorem test_logReads_premises : getF logS F.CEL_STAT_UNREAD ≠ 0 ∧ logS.cel.inq.length < 64 ∧ keysFrom 0 logS.cel.swrec = true := by decide +kernel

theorem test_flush_premises : (6 : BitVec 3) ≠ 0 ∧ (6 : BitVec 3) ≠ 7 ∧ State.reset.cel.flush = none ∧ (after (.cellarFlush 6) State.reset).cel.flush.isSome = true ∧
    (after (.cellarFlush 6) State.reset).cel.flushReq = none := by decide +kernel

/-- A device whose source 0x1B00 goes to queue 15. -/
def routeS : State := setF F.CEL_EVRT_QUEUE 15 (setF F.CEL_EVRT_EN 1 State.reset 0x1B00) 0x1B00

theorem test_events_premises : 0x1B00 ≤ bits (0x1B00 : Word) 12 0 ∧ isF routeS F.CEL_EVRT_EN (bits (0x1B00 : Word) 12 0) = true ∧
    kget routeS.cel.pend 0x1B00 = none ∧ bits (0x1AFF : Word) 12 0 < 0x1B00 ∧
    (let t := after (.celEvraiseWrite 0x700001B00) routeS
     kget t.cel.pend 0x1B00 = some ⟨1, 7⟩ ∧ kgetD t.cel.evq (15 : BitVec 4).toNat [] = [0x1B00]) := by decide +kernel

theorem test_counters_premises :
    (let s := setF F.PMC_CNT_COUNT (2 ^ 48 - 1) (setF F.PMC_SEL_EN 1 State.reset 1023) 1023
     isF s F.PMC_SEL_EN (1023 : BitVec 10).toNat = true ∧ isF s F.PMC_FREEZE_FROZEN = false ∧
      getF s F.PMC_CNT_COUNT (1023 : BitVec 10).toNat = 2 ^ 48 - 1 ∧ isF s F.PMC_SEL_CHAIN (1023 : BitVec 10).toNat = false ∧
      kget s.csr ((RegName.PMC_CNT).addr 1023 0) = some (BitVec.ofNat 64 (2 ^ 48 - 1))) ∧
    bit (3 : Word) 1 = true ∧ bit (3 : Word) 0 = true := by decide +kernel

theorem test_bmc_premises : alertsByte { State.reset with cel := { State.reset.cel with alerts := 0x80 } } ≠ 0 ∧
    logS.cel.bmcUnread = 0 ∧ ({ State.reset.cel with bmcUnread := 1 } : Cellar).bmcUnread ≠ 0 := by decide +kernel

/-- The pages of volume 1: a root, two inner pages and a leaf that maps block 5 with GEN 2 and RSV 3. -/
def pgRoot : Page := { ty := 1, level := 3, owner := 1, index := 0, epoch := 0, kid := [(0, 2)], st := .clean, frame := 1 }
@[inherit_doc pgRoot] def pgTwo : Page := { ty := 1, level := 2, owner := 1, index := 0, epoch := 0, kid := [(0, 3)], st := .clean, frame := 2 }
@[inherit_doc pgRoot] def pgOne : Page := { ty := 1, level := 1, owner := 1, index := 0, epoch := 0, kid := [(0, 4)], st := .clean, frame := 3 }
@[inherit_doc pgRoot] def pgLeaf : Page :=
  { ty := 1, level := 0, owner := 1, index := 0, epoch := 0, ent := [(5, (2 ^ 50 + 9, 2 + 3 * 2 ^ 32))], st := .clean, frame := 4 }

/-- A device with them. -/
def mapS : State :=
  { withF [(F.SYS_GRP_OWNER, 0), (F.SYS_GRP_POS, 0)] State.reset with
    me := { pages := [(1, pgRoot), (2, pgTwo), (3, pgOne), (4, pgLeaf)], nextPage := 5, root := [(1, 1)], srt := [(9, 5)] } }

/-- A map job of steward core 0 for block 5 of volume 1, with a buffer. -/
def mapJob (op : Nat) : Job := job0 0x0A op .accepted [(8, 5), (16, 2 ^ 50 + 9), (24, 1), (28, 1), (32, 0x6000001000)]

theorem test_mapRuns : let s := withJob (mapJob 1) mapS
    Memory.wf s.mem = true ∧ accepted s 1 0x0A 1 = some (mapJob 1) ∧ ownsVol s (mapVol s (mapJob 1)) = true ∧
      firstAbsent s (mapPages s (mapVol s (mapJob 1)) (mapLbas (mapJob 1))) = none ∧ (mapJob 1).n 32 8 ≠ 0 := by decide +kernel

theorem ownPath_of {s : State} (h : volPath s 1 5 = [1, 2, 3, 4]) (hm : s.me = mapS.me) (he : volEpoch s 1 = 0) :
    OwnPath s 1 5 1 2 3 4 pgLeaf := by
  refine ⟨h, by decide, by rw [pageOf, hm]; rfl, by decide, by rw [hm]; decide, ?_⟩
  intro i q hi hq
  rw [pageOf, hm] at hq
  rw [he]
  simp only [List.mem_cons, List.not_mem_nil, or_false] at hi
  rcases hi with rfl | rfl | rfl | rfl <;> cases hq <;> exact ⟨rfl, rfl, Nat.zero_le _⟩

theorem test_delta_premises : OwnPath mapS 1 5 1 2 3 4 pgLeaf ∧
    (let s := withJob (mapJob 2) mapS
     accepted s 1 0x0A 2 = some (mapJob 2) ∧ ownsVol s (mapVol s (mapJob 2)) = true ∧
      firstAbsent s (deltaPages s (mapVol s (mapJob 2)) [⟨0, 0, 0⟩]) = none) := ⟨ownPath_of (by decide +kernel) rfl (by decide +kernel), by decide +kernel⟩

theorem test_genres_premises : OwnPath (withJob (mapJob 5) mapS) (mapVol (withJob (mapJob 5) mapS) (mapJob 5)) ((mapJob 5).n 8 4) 1 2 3 4 pgLeaf ∧
    (mapJob 5).n 28 4 = 1 ∧ (mapJob 5).n 32 8 ≠ 0 ∧ (pgLeaf.entry ((mapJob 5).n 8 4 % 256)).2 / 2 ^ 32 < 0xFFFF_FFFF ∧
    accepted (withJob (mapJob 5) mapS) 1 0x0A 5 = some (mapJob 5) ∧ ownsVol (withJob (mapJob 5) mapS) 1 = true ∧
    firstAbsent (withJob (mapJob 5) mapS) (mapPages mapS 1 [5]) = none := by
  have h1 : mapVol (withJob (mapJob 5) mapS) (mapJob 5) = 1 := by decide +kernel
  have h2 : (mapJob 5).n 8 4 = 5 := by decide +kernel
  refine ⟨?_, by decide +kernel⟩
  rw [h1, h2]
  exact ownPath_of (by decide +kernel) (by rw [withJob]) (by decide +kernel)

theorem test_genres_gives_the_next_number : rdN (after (.genres 1) (withJob (mapJob 5) mapS)) 0x6000001000 4 = 4 := by decide +kernel

theorem test_slotReferences_premises : let slot := swSlot (resolve mapS ((mapJob 3).n 16 8))
    slot = 9 ∧ accepted (withJob (mapJob 3) mapS) 1 0x0A 3 = some (mapJob 3) ∧ srtLost (srt mapS slot) = false ∧ 0 < srtCount (srt mapS slot) ∧
      srtCount (srt mapS slot) < 0xFF_FFFF ∧ 1 < srtCount (srt mapS slot) ∧ accepted (withJob (mapJob 4) mapS) 1 0x0A 4 = some (mapJob 4) ∧
      ownsVol (withJob (mapJob 3) mapS) (mapVol mapS (mapJob 3)) = true ∧ resolve mapS ((mapJob 3).n 16 8) ≠ lostSlotWord ∧
      firstAbsent (withJob (mapJob 3) mapS) (srtPages mapS [slot]) = none ∧
      srtCount (srt State.reset slot) = 0 ∧ srtLost (srt State.reset slot) = false ∧ srtIndexed (srt State.reset slot) = false ∧
      latchOf State.reset (mapJob 3).owner = none ∧
      srtLost (srt { mapS with me := { mapS.me with srt := [(9, 2 ^ 43)] } } slot) = true := by decide +kernel

/-- A tun of pool 0 that holds segment 0. -/
def tun0 : Tun := { pool := 0, kind := 0, seg := 0, frame := 0, k := 2, ck := 1, seq := 1 }

/-- A volume of one page, DIRTY. -/
def pgDirty : Page := { pgLeaf with st := .dirty }
@[inherit_doc pgDirty] def dirtyS : State :=
  { mapS with me := { State.reset.me with pages := [(4, pgDirty)], nextPage := 5 } }

theorem test_pageJobs_premises : accepted (withJob (mapJob 6) mapS) 1 0x0A 6 = some (mapJob 6) ∧ accepted (withJob (mapJob 9) mapS) 1 0x0A 9 = some (mapJob 9) ∧
    (∀ e ∈ volPages mapS 1, e.2.changed = false) ∧ volPages dirtyS 1 = [(4, pgDirty)] ∧ pgDirty.st = .dirty ∧ dirtyS.plc.fwd = [] ∧
    pageOf dirtyS 4 = some pgDirty ∧ (4 < dirtyS.me.nextPage ∧ dirtyS.me.srtPage = []) ∧ ownsVol mapS 1 = true ∧ firstAbsent mapS (mapPages mapS 1 [5]) = none ∧
    (findPlace 0 1 3 { dirtyS with ta := { State.reset.ta with tuns := [(6, { tun0 with kind := 1 })] } }).isSome = true ∧ pagePool dirtyS pgDirty = 0 := by decide +kernel

/-- A page that is read, one that moves from DDR, and one whose copy is in flight. -/
def pgReading : Page := { pgLeaf with st := .reading, ent := [], home := 4 }
@[inherit_doc pgReading] def pgMoving : Page := { pgLeaf with st := .reading, move := true }
@[inherit_doc pgReading] def pgWriting : Page := { pgLeaf with st := .writing true }

/-- A clean page with a home copy. -/
def pgHome : Page := { pgLeaf with home := 4 }

/-- A working buffer reads back what was just written, and elsewhere what it read before. -/
theorem tun_read_write (t : Tun) (h : Memory.wf t.buf = true) (a : Nat) (l : List Byte) : (t.write a l).read a l.length = l := mread_mwrite h a l

@[inherit_doc tun_read_write] theorem tun_read_write_of_out (t : Tun) (a : Nat) (l : List Byte) {x n : Nat} (h : x + n ≤ a ∨ a + l.length ≤ x) :
    (t.write a l).read x n = t.read x n := mread_mwrite_of_out _ _ _ h

/-- The bytes, the metadata and the META tun of a block of zeros that is the home of `pgReading`. -/
def pageData : List Byte := tun0.read (slotData 4) 4096
@[inherit_doc pageData] def pageRest : List Byte := (newTrailer 4 0 3 true false).drop 8 ++ pageHeader pgReading
@[inherit_doc pageData] def pageTun : Tun := tun0.write (slotTrailer 4) (leBytes 8 (crc64 pageData) ++ pageRest)
@[inherit_doc pageData] def pageS : State := { State.reset with me := { State.reset.me with pages := [(4, pgReading)] }, ta := { State.reset.ta with tuns := [(6, pageTun)] } }

theorem test_pageInstalled_premises : ∃ b, (pageTries pageS pgReading []).find? (pageGood pageS pgReading) = some b ∧ fieldN (b.drop 4096) 21 1 = 1 := by
  have hl : (leBytes 8 (crc64 pageData) ++ pageRest).length = 64 := by rw [List.length_append, leBytes_length]; decide +kernel
  have h1 : pageTun.read (slotTrailer 4) 64 = leBytes 8 (crc64 pageData) ++ pageRest := by
    have h := tun_read_write tun0 (by decide) (slotTrailer 4) (leBytes 8 (crc64 pageData) ++ pageRest)
    rwa [hl] at h
  have h2 : pageTun.read (slotData 4) 4096 = pageData :=
    tun_read_write_of_out tun0 _ _ (Or.inl (by decide +kernel))
  have h3 : heldBlock pageS 4 = some (pageData ++ (leBytes 8 (crc64 pageData) ++ pageRest)) := by
    have ht : tunOf pageS (slotPool 4) (slotSeg 4) = some (6, pageTun) := List.find?_cons_of_pos (by rfl)
    have hp : pageTun.phase ≠ .sealed := by intro h; cases h
    rw [heldBlock, ht]
    simp only [if_neg hp]
    rw [show slotOff 4 = 4 from rfl, h1, h2]
  have h4 : pageTries pageS pgReading [] = [pageData ++ (leBytes 8 (crc64 pageData) ++ pageRest)] := by
    rw [pageTries, show pgReading.home = 4 from rfl, h3]
  have hd : pageData.length = 4096 := mread_length _ _ _
  have f : ∀ i n, fieldN (leBytes 8 (crc64 pageData) ++ pageRest) (8 + i) n = fieldN pageRest i n := fun i n => by
    have := fieldN_append (leBytes 8 (crc64 pageData)) pageRest i n
    rwa [leBytes_length] at this
  have g : fieldN (leBytes 8 (crc64 pageData) ++ pageRest) 0 8 = crc64 pageData := by
    have h := fieldN_left (leBytes 8 (crc64 pageData)) pageRest
    rw [leBytes_length, leNat_leBytes] at h
    rw [h]; exact Nat.mod_eq_of_lt (crc64_lt _)
  have ht : (leBytes 8 (crc64 pageData) ++ pageRest).take 16 = leBytes 8 (crc64 pageData) ++ pageRest.take 8 := by
    rw [List.take_append, leBytes_length, List.take_of_length_le (by rw [leBytes_length]; decide)]
  have hr : rtagOk 4 ((leBytes 8 (crc64 pageData) ++ pageRest).take 16) = true := by
    have h := fieldN_append (leBytes 8 (crc64 pageData)) (pageRest.take 8) 4 4
    rw [leBytes_length] at h
    rw [ht, rtagOk, h, List.any_append]
    simp only [Bool.and_eq_true, Bool.or_eq_true]
    exact ⟨by decide +kernel, Or.inr (by decide +kernel)⟩
  have hx : (leBytes 8 (crc64 pageData) ++ pageRest).drop 16 = pageRest.drop 8 := by
    rw [show 16 = (leBytes 8 (crc64 pageData)).length + 8 by rw [leBytes_length], List.drop_length_add_append]
  have good : pageGood pageS pgReading (pageData ++ (leBytes 8 (crc64 pageData) ++ pageRest)) = true := by
    rw [pageGood]
    simp only [List.drop_left' hd, List.take_left' hd, show pgReading.home = 4 from rfl, hr, g, hx]
    rw [show ∀ n, fieldN _ 56 n = _ from f 48, show ∀ n, fieldN _ 20 n = _ from f 12, show ∀ n, fieldN _ 21 n = _ from f 13, show ∀ n, fieldN _ 22 n = _ from f 14,
      show ∀ n, fieldN _ 24 n = _ from f 16, show ∀ n, fieldN _ 28 n = _ from f 20, show ∀ n, fieldN _ 16 n = _ from f 8]
    decide +kernel
  exact ⟨_, by rw [h4]; exact List.find?_cons_of_pos good, by rw [List.drop_left' hd]; exact (f 13 1).trans (by decide +kernel)⟩

theorem test_paging_premises :
    (let s := { State.reset with me := { State.reset.me with pages := [(4, pgReading)] } }
     pageOf s 4 = some pgReading ∧ pgReading.st = .reading ∧ pgReading.move = false ∧ pgReading.ty ≤ 2 ∧ pgReading.waiters = [] ∧ s.plc.fwd = [] ∧ s.ta.mrecs = [] ∧
      (pageTries s pgReading []).find? (pageGood s pgReading) = none) ∧
    pgMoving.st = .reading ∧ pgMoving.move = true ∧ pgMoving.pre = false ∧
    pageMine dirtyS pgDirty = true ∧ pgDirty.ck = none ∧ pgDirty.pck = none ∧
    (let s := { mapS with me := { mapS.me with pages := [(3, pgOne), (4, pgWriting)] } }
     pgWriting.st = .writing true ∧ destSealed s pgWriting = true ∧ 4 < s.me.nextPage ∧ s.me.srtPage = [] ∧ parentsOf s 4 = [(3, 0)] ∧ (3 : Nat) ≠ 4 ∧ pageOf s 3 = some pgOne ∧
      pgOne.resident = true ∧ pgOne.ddr = false) ∧
    (let s := { mapS with me := { mapS.me with pages := [(4, pgHome)] } }
     clockVictim s false = some (4, pgHome) ∧ ddrFrames s = 0) ∧ clockVictim State.reset true = none := by decide +kernel

theorem test_recount_premises : Memory.wf mapS.mem = true ∧ kget mapS.me.root (1 : BitVec 18).toNat = some 1 ∧ pageOf mapS 1 = some pgRoot ∧
    pageOf mapS 2 = some pgTwo ∧ pageOf mapS 3 = some pgOne ∧ pageOf mapS 4 = some pgLeaf ∧ pgRoot.kid = [(0, 2)] ∧ pgTwo.kid = [(0, 3)] ∧
    pgOne.kid = [(0, 4)] ∧ pgRoot.level ≠ 0 ∧ pgTwo.level ≠ 0 ∧ pgOne.level ≠ 0 ∧ pgRoot.kids = [(0, 2)] ∧ pgTwo.kids = [(0, 3)] ∧ pgOne.kids = [(0, 4)] ∧
    pgLeaf.level = 0 ∧ pgLeaf.ents.length ≤ 256 ∧ kget mapS.me.root 0x3FFFF = none := by decide +kernel

theorem test_mcControl_premises : 12 < waysSet (bits (0x1FFF0000 : Word) 31 16) ∧ waysSet (bits (0x0FFF0001 : Word) 31 16) ≤ 12 ∧
    bit (0x0FFF0001 : Word) 0 = true ∧ isF State.reset F.MC_CTL_EN = false ∧ isF (withF [(F.MC_STAT_INVOK, 1)] State.reset) F.MC_STAT_INVOK = true ∧
    isF (withF [(F.MC_STAT_INVOK, 0)] State.reset) F.MC_STAT_INVOK = false ∧ isF (withF [(F.MC_CTL_EN, 1)] State.reset) F.MC_CTL_EN = true ∧
    isF (withF [(F.MC_STAT_DISBUSY, 1)] State.reset) F.MC_STAT_DISBUSY = true := by decide +kernel

/-- A metadata cache with one way locked, and a fill of line 256 doomed or not. -/
def mcS (doomed : Bool) : State :=
  { withF [(F.MC_CTL_WAYLOCK, 1), (F.MC_MAINT_BASE_BASE, 512), (F.MC_MAINT_LEN_LEN, 1)] State.reset with
    mc := { fills := [(256, ⟨false, doomed, true⟩)], maint := some (1, true) } }

theorem test_mcMaintenance_premises : isF (mcS false) F.MC_STAT_DISBUSY = false ∧ isF (mcS false) F.MC_MAINT_BUSY = false ∧
    bits (1 : Word) 2 0 = 1 ∧ bits (3 : Word) 2 0 = 3 ∧ bits (5 : Word) 3 0 = 5 ∧ getF (mcS false) F.MC_MAINT_LEN_LEN = 1 ∧
    (freeWay (mcS false) 512 true).isSome = true ∧ kget (mcS false).mc.lines 512 = none ∧
    kget (mcS false).mc.fills 256 = some ⟨false, false, true⟩ ∧ (freeWay (mcS false) 256 false).isSome = true ∧
    kget (mcS true).mc.fills 256 = some ⟨false, true, true⟩ ∧ isF (mcS false) F.MC_CTL_EN = false ∧
    isF (setF F.MC_CTL_EN 1 (mcS false)) F.MC_CTL_EN = true ∧ (mcS false).mc.maint = some (1, true) ∧ (mcS false).mc.fills.any (fun kv => kv.2.doomed) = false ∧
    getF (mcS false) F.MC_MAINT_SKIPPED_COUNT = 0 := by decide +kernel

/-- A CODE job and a DECODE job of one block. -/
def codeJob : Job := job0 0x04 1 .accepted [(8, 0x6000001000), (16, 0x6000003000), (32, 1), (48, 1)]
@[inherit_doc codeJob] def decodeJob : Job := { job0 0x05 1 .accepted [(8, 0x6000001000), (16, 0x6000003000), (32, 1), (48, 1)] with cap := 4096 }

theorem test_compression_premises : let s := withJob codeJob State.reset
    Memory.wf s.mem = true ∧ accepted s 1 0x04 1 = some codeJob ∧ codeJob.n 32 4 ≤ 1 ∧ volFlag s (jobVol s codeJob 48) 3 = false ∧
      codeJob.n 52 1 < 4 ∧ 3072 ≤ compDstLen codeJob := by decide +kernel

theorem test_decompression_premises : let s := withJob decodeJob State.reset
    accepted s 1 0x05 1 = some decodeJob ∧ decodeJob.n 32 4 ≤ 1 ∧ decodeJob.n 24 8 = 0 ∧
      classSize (fmtClass (rdB s (decodeJob.n 8 8) 1)) ≤ decodeJob.cap := by decide +kernel

/-- A volume whose trial is full. -/
def trialS (n : Nat) : State :=
  { withF [(F.CE_SKIP_EN, 1)] State.reset with comp := { skip := [(0x3FFFF, { count := skipProbe State.reset, noshrink := n, par := skipPar State.reset })] } }

theorem test_skipTrials_premises : Memory.wf (trialS 0).mem = true ∧ trialFull (trialS 0) (0x3FFFF : BitVec 18).toNat = true ∧
    trialFull (trialS (skipThresh State.reset)) 0x3FFFF = true ∧
    (skipOf (trialS (skipThresh State.reset)) 0x3FFFF).par.thresh ≤ (skipOf (trialS (skipThresh State.reset)) 0x3FFFF).noshrink ∧
    (skipOf (trialS (skipThresh State.reset)) 0x3FFFF).opened = false ∧ (skipOf (trialS 0) 0x3FFFF).noshrink < (skipOf (trialS 0) 0x3FFFF).par.thresh ∧
    (skipOf { trialS 0 with comp := { skip := [(0x3FFFF, { n := 4, opened := true, par := skipPar State.reset })] } } 0x3FFFF).opened = true := by decide +kernel

/-- A device with a key in slot 4095, whose key commands are idle. -/
def keyS : State := { State.reset with xe := { keys := [(4095, ⟨List.replicate 32 1, 0, 0⟩)] } }

theorem test_keyCommands_premises : isF keyS F.SEC_KEYSTAT_BUSY = false ∧ kget keyS.xe.keys (0 : BitVec 16).toNat = none ∧
    kget keyS.xe.keys (4095 : BitVec 16).toNat ≠ none ∧ keysFrom 0 keyS.xe.keys = true := by decide +kernel

/-- A key that a job holds. -/
def xe0 : XeJob := ⟨4095, List.replicate 32 1, 1, 0, 0, false, false⟩

theorem test_keyPurge_premises :
    (let s := { State.reset with xe := { State.reset.xe with drain := some 4095, held := [(1, xe0)] } }
     s.xe.drain = some 4095 ∧ (1, xe0) ∈ s.xe.held ∧ xe0.slot = 4095) ∧
    (let s := { State.reset with xe := { State.reset.xe with drain := some 4094, held := [(1, xe0)] } }
     s.xe.drain = some 4094 ∧ ∀ e ∈ s.xe.held, e.2.slot ≠ 4094) := by decide +kernel

/-- A stream job of a record of 20 bytes, 4 of them open. -/
def strJob (op : Nat) : Job := job0 0x06 op .accepted [(8, 0x6000001000), (16, 0x6000003000), (42, 4), (52, 20)]

/-- A state in which a cipher job holds `xe0`. -/
def xeS (j : Job) : State := { withJob j State.reset with xe := { State.reset.xe with held := [(1, xe0)] } }

theorem test_streamCipher_premises : Memory.wf (xeS (strJob 3)).mem = true ∧ kget (xeS (strJob 3)).xe.held 1 = some xe0 ∧ xe0.key.length = 32 ∧
    xAad (strJob 3) ≤ xLen (strJob 3) ∧ accepted (xeS (strJob 3)) 1 0x06 3 = some (strJob 3) ∧
    accepted (xeS (strJob 4)) 1 0x06 4 = some (strJob 4) := by decide +kernel

theorem test_counterMode_premises : ((List.replicate 15 (List.replicate 16 0) : List (List Nat)).getD 14 []).length = 16 := by decide +kernel

/-- A slot cipher job for slot 4 of it, class 3. -/
def slotJob (op : Nat) : Job := job0 0x06 op .accepted [(8, 0x6000001000), (16, 0x6000003000), (24, 3 * 2 ^ 48 + 2 ^ 50 + 4)]

theorem test_slotCipher_premises :
    (let s := { xeS (slotJob 1) with ta := { State.reset.ta with tuns := [(6, tun0)] } }
     let w := (slotJob 1).n 24 8
     Memory.wf s.mem = true ∧ kget s.xe.held 1 = some xe0 ∧ accepted s 1 0x06 1 = some (slotJob 1) ∧ xe0.key.length = 32 ∧ xe0.sealed = false ∧ swClass w = 3 ∧
      slotOff (swSlot w) % 4 = 0 ∧ tunOf s (slotPool (swSlot w)) (slotSeg (swSlot w)) = some (6, tun0) ∧ kget s.ta.tuns 6 = some tun0 ∧ canonical 0 tun0.buf = true) ∧
    accepted (xeS (slotJob 2)) 1 0x06 2 = some (slotJob 2) := by decide +kernel

/-- An APPEND of one entry, and a MARK of 100 bytes, for volume 1. -/
def appendJob : Job := job0 0x0C 1 .accepted [(8, 0x6000001000), (16, 1), (20, 1)]
@[inherit_doc appendJob] def markJob : Job := job0 0x0C 2 .accepted [(8, 0x6000001000), (16, 100)]

/-- A head that owns every group that was not given away. -/
def ownS (j : Job) : State := withJob j (withF [(F.SYS_GRP_OWNER, 0), (F.SYS_GRP_POS, 0)] State.reset)

theorem test_journalAppends_premises : let s := ownS appendJob
    Memory.wf s.mem = true ∧ accepted s 1 0x0C 1 = some appendJob ∧ s.rekey.draining = false ∧ s.ta.recs = [] ∧ getF s F.PWR_PF_STEP < 3 ∧
      mayAppend s (jobVol s appendJob 20) = true ∧ appendJob.n 16 4 ≤ 4096 ∧ appendJob.n 16 4 ≤ 262144 ∧
      slotCopies s (deltasOf (rdB s (appendJob.n 8 8) 16) 1) = [] ∧ s.ta.woff + 64 * 2 ≤ ringSize s ∧ ringUsed s + 64 * 2 ≤ ringSize s ∧
      getF s F.TA_JSEQ_NEXT < 0xFFFF_FFFF_FFFF_FFFF ∧ s.ta.waiting = [] := by decide +kernel

theorem test_journalMark_premises : let s := ownS markJob
    accepted s 1 0x0C 2 = some markJob ∧ markJob.n 16 4 ≤ 262144 ∧ slotCopies s [] = [] ∧ s.ta.woff + 64 * 3 ≤ ringSize s ∧
      ringUsed s + 64 * 3 ≤ ringSize s := by decide +kernel

/-- A MARK record and a DELTA record that are not DONE; the DELTA unmaps block 5 of volume 1. -/
def markRec : JRec := { seq := 1, len := 2, ty := 6, arg := 0, nent := 0, body := [], job := some 1 }
@[inherit_doc markRec] def deltaRec : JRec := { seq := 2, len := 2, ty := 1, arg := 1, nent := 1, body := leBytes 4 5 ++ zeros 12 }

/-- The pages of volume 1, which is VALID and has six blocks, with the DELTA in the ring. -/
def deltaS : State :=
  { wrN (volAddr 1 + 8) 8 6 (wrN (volAddr 1 + 19) 1 1 mapS) with ta := { State.reset.ta with recs := [deltaRec] } }

theorem test_recordsDone_premises :
    (let s := { ownS markJob with ta := { State.reset.ta with recs := [markRec, deltaRec] } }
     s.ta.recs = [markRec, deltaRec] ∧ markRec.done = false ∧ markRec.acts = [] ∧ s.rootRecs = [] ∧ s.partner.failback = false ∧
      s.snap.fence = false ∧ handing s = false ∧ (∀ x ∈ [deltaRec], x.seq ≠ markRec.seq ∧ x.job ≠ markRec.job) ∧ markRec.ty = 6 ∧ markRec.job = some 1 ∧
      kget s.jobs 1 = some markJob) ∧
    (let s := deltaS
     s.ta.recs = [deltaRec] ∧ deltaRec.ty = 1 ∧ s.snap.cuts = [] ∧ deltasOf deltaRec.body deltaRec.nent = [⟨5, 0, 0⟩] ∧ kget s.plc.fwd 0 = none ∧
      bitsN deltaRec.arg 17 0 = 1 ∧ deltaRec.acts = [] ∧ s.rootRecs = [] ∧ s.partner.failback = false ∧ s.snap.fence = false ∧ handing s = false ∧
      updateOk s 1 [⟨5, 0, 0⟩] = true ∧ mayUpdate s 1 = true ∧ 4 ∉ reflecting s ⟨false, deltaRec.seq⟩) ∧
    OwnPath deltaS 1 5 1 2 3 4 pgLeaf :=
  ⟨by decide +kernel, by decide +kernel, ownPath_of (by decide +kernel) rfl (by decide +kernel)⟩

/-- A MARK record of the partner as it is received, with a number and no body. -/
def recvRec (seq : Nat) : Rec := { off := 0, bytes := recordBytes { seq := seq, len := 1, ty := 6, arg := 0, nent := 0, body := [] } 0, acts := [], copies := [] }

/-- A device whose mirror has accepted record 8. -/
def mirrorS : State := withF [(F.SYS_PTR_SEQ_MACC, 8)] State.reset

theorem test_mirror_premises : Memory.wf mirrorS.mem = true ∧ mirrorS.ta.mstop = false ∧ mirrorS.ta.mrecs = [] ∧ mirrorS.ta.mheld = [] ∧
    (recordOf (recvRec 9)).seq = getF mirrorS F.SYS_PTR_SEQ_MACC + 1 ∧ (recordOf (recvRec 9)).ty = 6 ∧ (recvRec 9).acts = [] ∧ (recvRec 9).copies = [] ∧
    getF mirrorS F.SYS_PTR_SEQ_MACC + 1 < (recordOf (recvRec 10)).seq ∧ (recordOf (recvRec 8)).seq ≤ getF mirrorS F.SYS_PTR_SEQ_MACC ∧
    keysFrom 0 mirrorS.me.srt = true := by decide +kernel

/-- A DELTA that is DONE. -/
def doneRec : JRec := { deltaRec with done := true, ckpt := true }

theorem test_recordsRetire_premises :
    (let s := { State.reset with ta := { State.reset.ta with recs := [doneRec] } }
     s.ta.recs = [doneRec] ∧ doneRec.done = true ∧ doneRec.ty = 1 ∧ doneRec.tun = none ∧ doneRec.seq < ckptSeq s false ∧ doneRec.seq < s.ta.plow ∧
      (∀ i ∈ doneRec.imgs, tunSealed s i = true) ∧ s.str.ctxs = [] ∧ s.str.waits = []) ∧
    deltaRec.done = false ∧
    (let s := { State.reset with ta := { State.reset.ta with mrecs := [doneRec] } }
     s.ta.mrecs = [doneRec] ∧ doneRec.seq < ckptSeq s true) := by decide +kernel

theorem test_replay_premises : Memory.wf State.reset.mem = true ∧ State.reset.ta.ptuns = [] ∧ State.reset.ta.recs = [] ∧ (recvRec 9).off % 64 = 0 ∧ (recordOf (recvRec 9)).ty = 6 ∧
    recordGood (recvRec 9).bytes (recordOf (recvRec 9)).seq = true ∧ (recordOf (recvRec 9)).seq < 0xFFFF_FFFF_FFFF_FFFF ∧
    recordGood ((recvRec 9).bytes.set 60 0) (recordOf { recvRec 9 with bytes := (recvRec 9).bytes.set 60 0 }).seq = false := by decide +kernel

/-- A SLOT and a MOVE job of class 2 for volume 1, which lies in pool 0. -/
def slotAlloc : Job := job0 0x0B 1 .accepted [(8, 2), (12, 1)]
@[inherit_doc slotAlloc] def moveAlloc : Job := job0 0x0B 3 .accepted [(12, 1), (16, 2 ^ 50 + 2 * 2 ^ 48)]

/-- A device with an open tun of each kind in pool 0. -/
def tunS (j : Job) : State := { ownS j with ta := { State.reset.ta with tuns := [(6, tun0), (7, { tun0 with kind := 2, seg := 1, frame := 1 })] } }

theorem test_slotAllocation_premises :
    (let s := tunS slotAlloc
     ownsVol s (jobVol s slotAlloc 12) = true ∧ accepted s 1 0x0B 1 = some slotAlloc ∧ 1 ∉ s.ta.held ∧ slotAlloc.fromStew = true ∧
      (findPlace (volPool s (jobVol s slotAlloc 12)) 0 (slotAlloc.n 8 1) s).map (fun x => (x.1, (kget x.2.2.ta.tuns x.1).isSome)) = some (6, true)) ∧
    (let s := tunS moveAlloc
     accepted s 1 0x0B 3 = some moveAlloc ∧
      (findPlace (swPool (moveAlloc.n 16 8)) 2 (swClass (moveAlloc.n 16 8)) s).map (fun x => (x.1, (kget x.2.2.ta.tuns x.1).isSome)) = some (7, true)) := by
  decide +kernel

/-- A pool 0 of one frame. -/
def tinyPool (s : State) : State :=
  let s := withF [(F.PLC_GEOM_EN, 1), (F.PLC_GEOM_K, 0), (F.PLC_GEOM_MEMBERS, 2), (F.PLC_GEOM_EPOCHCH, 2), (F.PLC_MEM_CHUNKS, 1)] s
  { setF F.PLC_MEM_CHUNKS 1 s 0 1 with plc := { s.plc with place := [(0, 0), (1, 1)], frames := [(0, 3)] } }

/-- A pool with a frame, one of them in use, is below 100 percent. -/
theorem below_of {s : State} {p : Nat} (h1 : poolEn s p = true) (h2 : 0 < frameBound s p) (h3 : frameExists s p 0 = true)
    (h4 : 0 < kcount s.plc.frames fun k _ => decide (k / 2 ^ 26 = p)) : belowPercent s p 100 = true := by
  have h5 : 0 < totalFrames s p := by
    rw [totalFrames, if_pos h1]
    exact List.countP_pos_iff.mpr ⟨0, List.mem_range.mpr h2, h3⟩
  rw [belowPercent, freePoolFrames]
  exact decide_eq_true (by omega)

/-- A SLOT job of a context while the pool is below HARD. -/
def heldAlloc : Job := { slotAlloc with owner := .ctx 7 }

/-- A device where it is held. -/
def heldS : State := tinyPool (withF [(F.TA_LEES_HARD, 100)] { ownS heldAlloc with ctxs := [(7, ctx0)] })

theorem test_heldAllocation_premises :
    (accepted heldS 1 0x0B 1 = some heldAlloc ∧ heldAlloc.fromStew = false ∧ ownsVol heldS (jobVol heldS heldAlloc 12) = true ∧ 1 ∉ heldS.ta.held) ∧
      belowPercent heldS (volPool heldS (jobVol heldS heldAlloc 12)) (getF heldS F.TA_LEES_HARD) = true := by
  have h1 : volPool heldS (jobVol heldS heldAlloc 12) = 0 := by decide +kernel
  have h2 : getF heldS F.TA_LEES_HARD = 100 := by decide +kernel
  rw [h1, h2]
  exact ⟨by decide +kernel, below_of (by decide +kernel) (by decide +kernel) (by decide +kernel) (by decide +kernel)⟩

theorem test_places_premises : (∀ h ∈ [(1023 - 4, 1)], h.1 / 1024 < 2 ∧ h.1 % 1024 / 4 < 255 ∧ h.1 % 4 + h.2 ≤ 4) ∧
    (({ tun0 with holes := [(1023 - 4, 1)] } : Tun).place 0).isSome = true ∧ (tun0.place 3).isSome = true := by decide +kernel

/-- A FLUSH of pool 0. -/
def flushAlloc : Job := job0 0x0B 2 .accepted []

/-- A device with a tun in each phase. -/
def phaseS : State :=
  { withF [] (ownS flushAlloc) with ta := { State.reset.ta with
    recs := [{ seq := 1, len := 2, ty := 3, arg := 0, nent := 1, body := [], done := true, acts := [.tun 2 0 0 0 0 sSealing 0] }]
    tuns := [(1, { tun0 with used := true }), (2, { tun0 with phase := .sealing }), (3, { tun0 with phase := .parity }), (4, { tun0 with phase := .writing, left := [3] })] } }

theorem test_tuns_premises : Memory.wf phaseS.mem = true ∧ keysFrom 0 phaseS.ta.tuns = true ∧ accepted phaseS 1 0x0B 2 = some flushAlloc ∧
    tun0.frame < 2 ^ 26 ∧ tun0.pool < 8 ∧
    (kget phaseS.ta.tuns 1).map (fun x => (x.phase, x.used)) = some (.opened, true) ∧ (kget phaseS.ta.tuns 2).map Tun.phase = some .sealing ∧
    (kget phaseS.ta.tuns 3).map Tun.phase = some .parity ∧ (kget phaseS.ta.tuns 4).map Tun.phase = some .writing ∧
    (kget phaseS.ta.tuns 2).map (sealingDurable phaseS 2) = some true ∧ (kget phaseS.ta.tuns 4).map Tun.left = some [3] ∧
    (kget phaseS.ta.tuns 4).map (fun x => decide (stripMember phaseS x 3 < 256)) = some true := by decide +kernel

/-- A pool 0 of 5 active members. -/
def poolS : State := (List.range 5).foldl (fun t m => setF F.PLC_MEM_STATE 1 t 0 m) (setF F.PLC_MEM_STATE 1 (withF [(F.PLC_GEOM_K, 3), (F.PLC_GEOM_MEMBERS, 5)] State.reset) 0 255)

theorem test_parityStrips_premises : ∀ pos < tun0.k + 2, memState poolS 0 (posMember poolS 0 tun0.frame pos) = 1 := by decide +kernel

/-- Parity jobs over strips of 8 bytes, whose addresses are listed in memory. -/
def parityJob (op : Nat) : Job := job0 0x07 op .accepted [(8, 0x6000001000), (16, 2), (20, 8), (24, 1)]

/-- The strips: two of data and the two parity ones. -/
def stripsS (j : Job) : State :=
  (List.range 4).foldl (fun t i => wrN (0x6000001000 + 8 * i) 8 (0x6000002000 + 8 * i) t) (wrB 0x6000002000 [1, 2, 3, 4, 5, 6, 7, 8, 16, 32, 48, 64, 80, 96, 112, 0x81] (withJob j State.reset))

theorem test_parity_premises :
    (let s := stripsS (parityJob 1)
     Memory.wf s.mem = true ∧ (parityJob 1).n 16 1 ≤ 30 ∧ accepted s 1 0x07 1 = some (parityJob 1) ∧
      rdN s (0x6000001000 + 16) 8 + 8 ≤ rdN s (0x6000001000 + 24) 8) ∧
    (let s := stripsS (parityJob 2)
     accepted s 1 0x07 2 = some (parityJob 2) ∧ 0 < (parityJob 2).n 16 1 ∧ (parityJob 2).n 24 4 = 2 ^ 0) := by decide +kernel

theorem test_parity_p_and_q : let t := after (.parityGen 1) (stripsS (parityJob 1))
    rdB t 0x6000002010 2 = [0x11, 0x22] ∧ rdB t 0x6000002018 2 = [0x21, 0x42] := by decide +kernel

theorem test_placementLoads_premises :
    poolEn (setF F.PLC_GEOM_EN 1 State.reset 7) (7 : BitVec 3).toNat = true ∧ poolEn State.reset (7 : BitVec 3).toNat = false ∧
    keysFrom 0 State.reset.plc.place = true ∧
    (badRow poolS 0 (getF poolS F.PLC_GEOM_K 0) (poolMembers poolS 0) (getF poolS F.PLC_GEOM_EPOCHCH 0)).isSome = true := by decide +kernel

/-- A pool 0 whose segment 3 is SEALED, below LOW. -/
def leesS : State :=
  let s := tinyPool (wrBits (0x4000001000 + 24) 8 29 26 3 (withF [(F.PLC_SST_BASE, 0x4000001), (F.TA_LEES_EN, 1), (F.TA_LEES_LOW, 100), (F.TA_LEES_HARD, 0)] State.reset))
  { s with plc := { s.plc with low := [0] } }

theorem test_lees_premises : (Memory.wf leesS.mem = true ∧ keysFrom 0 leesS.plc.frames = true ∧ isF leesS F.TA_LEES_EN = true ∧
      (0 : BitVec 3).toNat ∈ leesS.plc.low ∧ (0, 3) ∈ leesS.plc.frames ∧
      segState leesS (0 : BitVec 3).toNat 3 = 3 ∧ segMeta leesS 0 3 = false ∧ leesS.plc.picked = [] ∧ leesCount leesS 0 < leesRateOf leesS 0 ∧ segSlots leesS 0 3 = [] ∧ leesS.plc.fwd = [] ∧
      segAddr leesS 0 3 + 8 ≤ ownRing ∧ 0 * 2 ^ 26 + (3 : BitVec 26).toNat ∈ ({ leesS.plc with picked := [3] } : PlcSt).picked) ∧
    belowPercent leesS 0 (getF leesS F.TA_LEES_LOW) = true ∧
    belowPercent leesS 0 (getF leesS F.TA_LEES_HARD) = leesS.plc.hard.contains 0 := by
  have h1 : getF leesS F.TA_LEES_LOW = 100 := by decide +kernel
  have h2 : getF leesS F.TA_LEES_HARD = 0 := by decide +kernel
  rw [h1, h2]
  refine ⟨by decide +kernel, below_of (by decide +kernel) (by decide +kernel) (by decide +kernel) (by decide +kernel), ?_⟩
  have h3 : leesS.plc.hard.contains 0 = false := by decide +kernel
  rw [h3, belowPercent, Nat.zero_mul]
  exact decide_eq_false (Nat.not_lt_zero _)

/-- A drive job: of slot 4 of pool 0 and segment 0, or of one block of member 255 of pool 0. -/
def slotRd (op : Nat) : Job := job0 0x08 op .accepted [(8, 2 ^ 50 + 4), (16, 0x6000003000)]
@[inherit_doc slotRd] def blkJob (op : Nat) : Job :=
  job0 0x08 op .accepted [(16, 0x6000003000), (24, 0x6000008000), (32, 77), (40, 255), (44, 1), (48, 0x6000004000)]

/-- What a drive answers for the block of that slot: zeros, and a trailer with its RTAG. -/
def ansMeta : List Byte := zeros 12 ++ leBytes 4 4 ++ zeros 48

theorem test_slotReads_premises :
    (let s := withJob (slotRd 1) poolS
     let w := resolve s (dvSlot (slotRd 1))
     let pl := dvPlace s w
     Memory.wf s.mem = true ∧ accepted s 1 0x08 1 = some (slotRd 1) ∧ w ≠ lostSlotWord ∧ srtLost (srt s (swSlot w)) = false ∧ fromHbm s 1 w = none ∧
      posRead s pl.1 pl.2.1 pl.2.2.2 = some (255, 65535) ∧ s.plc.around = [] ∧
      rtagOk w (slotInBlock (slotOff (swSlot w)) (swClass w) (zeros 4096) ansMeta).2 = true ∧
      rtagOk w (slotInBlock (slotOff (swSlot w)) (swClass w) (zeros 4096) (zeros 64)).2 = false) ∧
    (let s := withJob (slotRd 1) State.reset
     let w := resolve s (dvSlot (slotRd 1))
     let pl := dvPlace s w
     fromHbm s 1 w = none ∧ posRead s pl.1 pl.2.1 pl.2.2.2 = none) ∧
    (let s := { withJob (slotRd 1) State.reset with ta := { State.reset.ta with tuns := [(6, tun0.write (slotTrailer 4) (zeros 12 ++ leBytes 4 4))] } }
     (fromHbm s 1 (dvSlot (slotRd 1))).map (fun x => rtagOk (dvSlot (slotRd 1)) x.2) = some true) := by decide +kernel

theorem test_slotRecovery_premises : let s := withJob (slotRd 4) poolS
    accepted s 1 0x08 4 = some (slotRd 4) ∧ resolve s (dvSlot (slotRd 4)) ≠ lostSlotWord := by decide +kernel

/-- A PASS job of 4 bytes to the device. -/
def passJob : Job := job0 0x08 6 .accepted [(8, 0x6000001000), (16, 4), (20, 2), (24, 1)]

theorem test_blockJobs_premises : Memory.wf (withJob (blkJob 2) State.reset).mem = true ∧ accepted (withJob (blkJob 2) State.reset) 1 0x08 2 = some (blkJob 2) ∧
    dvNblk (blkJob 2) = 1 ∧ (zeros 4096).length = 4096 ∧ (zeros 64).length = 64 ∧ (blkJob 2).n 16 8 + 4096 * 1 ≤ (blkJob 2).n 24 8 ∧
    accepted (withJob (blkJob 3) State.reset) 1 0x08 3 = some (blkJob 3) ∧ accepted (ownS passJob) 1 0x08 6 = some passJob ∧
    ownsVol (ownS passJob) (passVol (ownS passJob) passJob) = true ∧ passJob.n 20 1 = 2 ∧ ([1, 2, 3, 4] : List Byte).length = passJob.n 16 4 := by decide +kernel

/-- A pool 0 whose four positions of frame 0 lie on members 0 to 3, of which 0 is slow, with reads in this millisecond. -/
def slowS : State :=
  let s := (List.range 4).foldl (fun t m => setF F.PLC_MEM_STATE 1 t 0 m) (withF [(F.PLC_GEOM_K, 2), (F.PLC_GEOM_MEMBERS, 4), (F.DRV_RA_BUDGET, 10)] (withJob (slotRd 1) State.reset))
  { s with plc := { s.plc with place := [(0, 0), (1, 1), (2, 2), (3, 3)], slow := [0], raWin := [(0, 0, 100, 0)] } }

theorem test_slowMembers_premises :
    (let s := slowS
     let w := resolve s (dvSlot (slotRd 1))
     let pl := dvPlace s w
     accepted s 1 0x08 1 = some (slotRd 1) ∧ posRead s pl.1 pl.2.1 pl.2.2.2 = some (0, 0) ∧ w ≠ lostSlotWord ∧ fromHbm s 1 w = none ∧
      s.plc.slow = [pl.1 * 256 + 0] ∧ s.plc.around = [] ∧
      (∀ q ∈ positions s pl.1 pl.2.1, q ≠ pl.2.2.2 → (posRead s pl.1 pl.2.1 q).any (fun x => decide (x.1 ≠ 0)) = true) ∧
      ((raWindow s pl.1).2 + 1) * 100 ≤ getF s F.DRV_RA_BUDGET * (raWindow s pl.1).1 ∧
      isF (setF F.DRV_RA_EN 1 s) F.DRV_RA_EN = true ∧ isF (setF F.DRV_RA_EN 0 s) F.DRV_RA_EN = false) ∧
    (let s := withF [(F.DRV_RA_MAXSLOW, 1)] State.reset
     s.plc.lat = [] ∧ s.plc.slow = [] ∧ 0 < getF s F.DRV_RA_MAXSLOW ∧ getF s F.DRV_RA_SLOWUS < getF s F.DRV_RA_SLOWUS + 1) := by decide +kernel

theorem test_membersFail_premises : memState poolS (0 : BitVec 3).toNat (255 : Byte).toNat = 1 ∧
    (let s := { poolS with plc := { poolS.plc with media := [(255, [0, 0, 0])], tmo := [(255, 65535)], down := [0] } }
     getF (withF [(F.DRV_HEALTH_MEDIAMAX, 3)] s) F.DRV_HEALTH_MEDIAMAX ≤ ((kgetD s.plc.media 255 []).filter fun x => decide (s.dtime.toNat < x + 86400000000000)).length ∧
      max 1 (getF s F.DRV_HEALTH_TMOMAX) ≤ kgetD s.plc.tmo 255 0 + 1 ∧ getF s F.PLC_MEM_PORT 0 255 = (0 : Byte).toNat ∧ (0 : Byte).toNat ∈ s.plc.down) ∧
    0 < getF (withF [(F.DRV_HEALTH_MEDIAMAX, 3)] poolS) F.DRV_HEALTH_MEDIAMAX ∧
    kgetD poolS.plc.tmo 255 0 + 1 < max 1 (getF (withF [(F.DRV_HEALTH_TMOMAX, 2)] poolS) F.DRV_HEALTH_TMOMAX) ∧
    (8 : Byte) &&& 0x0D ≠ 0 ∧ (2 : Byte) &&& 0x0D = 0 ∧ (0 : Byte).toNat ∉ poolS.plc.down ∧
    flightStrips poolS 0 = [] ∧
    (let s := { poolS with ta := { State.reset.ta with tuns := [(6, { tun0 with phase := .writing, left := [0] })] }, plc := { poolS.plc with down := [0] } }
     flightStrips s 0 = [({ tun0 with phase := .writing, left := [0] }, 0)] ∧ (0 : Byte).toNat ∈ s.plc.down ∧
      stripMember s { tun0 with phase := .writing, left := [0] } 0 = posMember s 0 0 0) := by decide +kernel

theorem test_memberWrites_premises : poolEn poolS (0 : BitVec 3).toNat = false ∧ memState poolS 0 255 = 1 ∧ bits (0x300 : Word) 11 8 = 3 ∧ ¬ bits (0x700 : Word) 11 8 < 7 ∧
    (let s := withF [(F.PLC_GEOM_EN, 1)] poolS
     poolEn s (0 : BitVec 3).toNat = true ∧ memState s 0 255 = 1 ∧ bits (0x200 : Word) 11 8 = 2 ∧ bits (0x400 : Word) 11 8 ≠ memState s 0 255) := by decide +kernel

/-- A pool 0 of four members with a SEALED frame 0, whose member 1 has FAILED, and a scan of it. -/
def rebuildS : State :=
  let s := withF [(F.PLC_GEOM_EN, 1), (F.PLC_RBCTL_EN, 1), (F.PLC_RBCTL_MAPBASE, 1), (F.PLC_SST_BASE, 0x4000001)] (setF F.PLC_MEM_STATE 2 slowS 0 1)
  let s := wrBits 0x4000001000 8 29 26 3 s
  { s with plc := { s.plc with slow := [], frames := [(0, 0)], scan := [(0, [(0, 1)])] } }

theorem test_rebuild_premises : rebuildOn rebuildS (0 : BitVec 3).toNat = true ∧ getF rebuildS F.PLC_RBCTL_MAPBASE 0 ≠ 0 ∧
    getF (setF F.PLC_RBCTL_MAPBASE 0 rebuildS) F.PLC_RBCTL_MAPBASE 0 = 0 ∧ keysFrom 0 rebuildS.plc.scan = true ∧
    scanOf rebuildS (0 : BitVec 3).toNat = [(0, 1)] ∧ 0 ∈ sealedFrames rebuildS (0 : BitVec 3).toNat true ∧
    memState rebuildS 0 (posMember rebuildS 0 0 1) ≠ 3 ∧ dueList rebuildS 0 = [(0, 1)] ∧ stillDue rebuildS 0 0 1 = true ∧
    stillDue { rebuildS with plc := { rebuildS.plc with frames := [] } } 0 0 1 = false := by decide +kernel

/-- The same with member 1 being copied back, its position relocated or not. -/
def backS (l : KMap Reloc) : State := let s := setF F.PLC_MEM_STATE 4 rebuildS 0 1; { s with plc := { s.plc with scan := [], reloc := l } }

theorem test_copyback_premises : poolEn (backS [(1, ⟨2, 9, 0⟩)]) (0 : BitVec 3).toNat = true ∧ memState (backS [(1, ⟨2, 9, 0⟩)]) 0 (1 : Byte).toNat = 4 ∧
    nextBack (backS [(1, ⟨2, 9, 0⟩)]) 0 1 true = some (0, 1) ∧
    keysFrom 0 (backS [(1, ⟨2, 9, 0⟩)]).plc.reloc = true ∧
    (let s := { backS [] with plc := { (backS []).plc with frames := [] } }
     nextBack s 0 1 true = none ∧ nextBack s 0 1 false = none) := by decide +kernel

/-- The same with sparge passes, and the member ACTIVE again. -/
def spargeS : State := let s := withF [(F.PLC_SPG_EN, 1)] (setF F.PLC_MEM_STATE 1 rebuildS 0 1); { s with plc := { s.plc with scan := [] } }

theorem test_sparge_premises : poolEn spargeS (0 : BitVec 3).toNat = true ∧ isF spargeS F.PLC_SPG_EN = true ∧ spargePaused spargeS 0 = false ∧
    spargeFrame spargeS 0 (getF spargeS F.PLC_SPGSTAT_NEXT) = some 0 ∧ bandOn spargeS 0 = false ∧ (∀ e ∈ spargeS.plc.reloc, e.2.member < 256) ∧
    spargePaused (withF [(F.PLC_SPG_EN, 1)] rebuildS) 0 = true ∧ kget rebuildS.plc.paused 0 = none ∧
    spargeFrame (withF [(F.PLC_SPGSTAT_NEXT, 1)] spargeS) 0 1 = none := by decide +kernel

/-- A pool 0 that is racked, with its band table at 2^38, and the last band of it VALID or not. -/
def rackS (m : List Host.Cell) : State :=
  let s := withF [(F.PLC_BAND_BASE, 0x4000000)] State.reset
  { s with mem := m, plc := { s.plc with rack := some 0, target := [(0, 0)] } }

/-- Bytes that all read as zero are the number zero. -/
theorem leNat_mread_zero {m : List Host.Cell} {a n : Nat} (h : ∀ i < n, mget m (a + i) = 0) : leNat (mread m a n) = 0 := by
  have h1 : mread m a n = List.replicate n 0 := by
    rw [mread, List.eq_replicate_iff]
    refine ⟨by simp, fun c hc => ?_⟩
    obtain ⟨i, hi, rfl⟩ := List.mem_map.mp hc
    exact h i (List.mem_range.mp hi)
  have h2 : ∀ k, leNat (List.replicate k 0) = 0 := by
    intro k
    induction k with
    | zero => rfl
    | succ k ih => rw [List.replicate_succ, leNat, ih]; rfl
  rw [h1, h2]

/-- The one band. -/
def rackMem : List Host.Cell := [(0x4000000000 + 8 * 16383 + 4, 2)]

theorem test_racking_premises : (rackS rackMem).plc.rack = some 0 ∧ isF (rackS rackMem) F.PLC_RKCTL_PAUSE = false ∧
    isF (rackS rackMem) F.PLC_RKSTAT_PAUSED = false ∧ Memory.wf (rackS rackMem).mem = true ∧ bandEmpty (rackS rackMem) 0 16383 false = true ∧
    bandAddr (rackS rackMem) 0 16384 ≤ ownRing ∧ soloMode (rackS rackMem) = false ∧ isF (rackS rackMem) F.PLC_RKSTAT_WAITP = false ∧
    targetMembers (rackS rackMem) 0 ≠ [] := by decide +kernel

theorem test_racking_band : 16383 ∈ bandsOf (rackS rackMem) 0 false :=
  List.mem_filter.mpr ⟨List.mem_range.mpr (by omega), by decide +kernel⟩

theorem test_racking_lowest (e : Nat) (he : e ∈ bandsOf (rackS rackMem) 0 false) : e = 16383 := by
  refine Decidable.byContradiction fun hn => ?_
  have hb : getF (rackS rackMem) F.PLC_BAND_BASE 0 = 0x4000000 := by decide +kernel
  obtain ⟨h1, h2⟩ := List.mem_filter.mp he
  rw [List.mem_range] at h1
  have h3 : bandOf (rackS rackMem) 0 e = 0 := by
    rw [bandOf, bandAddr, hb]
    refine leNat_mread_zero fun i hi => ?_
    show kgetD rackMem _ 0 = 0
    rw [rackMem, kgetD, kget_cons, if_neg (by omega)]
    rfl
  rw [h3] at h2
  simp at h2

theorem test_rackingEnds_premises : (rackS []).plc.rack = some 0 ∧ isF (rackS []) F.PLC_RKSTAT_PAUSED = false := by decide +kernel

theorem test_rackingEnds_bands : bandsOf (rackS []) 0 false = [] := by
  rw [bandsOf, List.filter_eq_nil_iff]
  intro e _
  have h : bandOf (rackS []) 0 e = 0 := by
    have hb : getF (rackS []) F.PLC_BAND_BASE 0 = 0x4000000 := by decide +kernel
    rw [bandOf, bandAddr, hb]
    exact leNat_mread_zero fun _ _ => rfl
  rw [h]
  simp

/-- A GRIST job of one block. -/
def gristJob : Job := job0 0x01 1 .accepted [(8, 0x6000001000), (16, 0x6000003000), (24, 1)]

theorem test_fingerprint_premises : Memory.wf (withJob gristJob State.reset).mem = true ∧ accepted (withJob gristJob State.reset) 1 0x01 1 = some gristJob ∧
    instLoad State.reset 0x01 0 = 0 ∧ instLoad (withJob gristJob State.reset) 0x01 0 ≠ 0 := by decide +kernel

/-- A device with 2^39 bytes of DDR5, and one whose builds are queued. -/
def ddrS : State := { State.reset with ddrcSize := 2 ^ 39 }
@[inherit_doc ddrS] def buildS : State := { State.reset with gl := { builds := [0] } }

theorem test_filterEnable_premises : ddrS.gl.builds = [] ∧ ddrS.gl.building = none ∧ bit (1 : Word) 0 = true ∧ bit (2 : Word) 0 = false ∧
    isF ddrS F.GL_CTL_EN = false ∧ 4 ≤ ddrS.ddrcSize ∧ ddrS.ddrcSize < 2 ^ 41 ∧ buildS.gl.builds ≠ [] ∧
    b2n (bit (1 : Word) 0) ≠ getF buildS F.GL_CTL_EN := by decide +kernel

/-- A LAUTER job of volume 1 for the fingerprint of zeros. -/
def glJob (op : Nat) : Job := job0 0x02 op .accepted [(8, 0x6000001000), (16, 1)]

/-- The bucket of it with a number of entries, all zero. -/
def glS (op n : Nat) : State := wrN 0x3800000000 8 n (withJob (glJob op) State.reset)

theorem test_filterJobs_premises : Memory.wf (glS 1 64).mem = true ∧ fcap (glS 1 64) ≤ 39 ∧ accepted (glS 1 64) 1 0x02 1 = some (glJob 1) ∧
    dedups (glS 1 64) (jobVol (glS 1 64) (glJob 1) 16) = true ∧ accepted (glS 2 64) 1 0x02 2 = some (glJob 2) ∧
    (let f := rdB (glS 3 2) ((glJob 3).n 8 8) 32
     let b := bucketOf (glS 3 2) (volGroup (glS 3 2) 1) f
     b = 0 ∧ remOf f = 0 ∧ sumCount (glS 2 63) b < 64 ∧ sumCount (glS 2 64) b = 64 ∧ accepted (glS 3 2) 1 0x02 3 = some (glJob 3) ∧
      sumCount (glS 3 2) b ≤ 64 ∧ heldOf (glS 3 2) b = [0] ++ 0 :: [] ∧ 0 ∉ heldOf (glS 3 0) b) := by decide +kernel

/-- A volume that does not deduplicate. -/
def noDedupS : State := wrB (volAddr 1 + 19) [4] (glS 1 0)

theorem test_noDedupe_premises : dedups noDedupS (jobVol noDedupS (glJob 1) 16) = false ∧ keysFrom 0 noDedupS.gl.latch = true := by decide +kernel

/-- A device in which a volume's window has had its probes. -/
def admitWinS (n : Nat) : State :=
  { withF [(F.GL_CTL_ADMITEN, 1), (F.GL_ADMIT_WINDOW, 1024)] State.reset with gl := { admission := [(0x3FFFF, { probes := n, hits := 1 })] } }

theorem test_admissionWindows_premises : keysFrom 0 (admitWinS 1024).gl.admission = true ∧ isF (admitWinS 1024) F.GL_CTL_ADMITEN = true ∧
    max 1024 (getF (admitWinS 1024) F.GL_ADMIT_WINDOW) ≤ (admitOf (admitWinS 1024) (0x3FFFF : BitVec 18).toNat).probes ∧
    (admitOf (admitWinS 1023) (0x3FFFF : BitVec 18).toNat).probes < max 1024 (getF (admitWinS 1023) F.GL_ADMIT_WINDOW) := by decide +kernel

/-- An index entry of the fingerprint of zeros for slot 9. -/
def ixEnt : Nat × Nat := (0, 2 ^ 47 + 9)

theorem test_indexPages_premises : ixValid ixEnt.2 = true ∧ ixFind [] ixEnt.1 = none ∧ (ixAdd [] ixEnt).isSome = true := by decide +kernel

/-- An index page of the domain of volume 1, empty or with `ixEnt`, and a device with it. -/
def ixPg (ent : KMap (Nat × Nat)) : Page := { ty := 3, level := 0, owner := 0, index := 0, epoch := 0, ent := ent, st := .clean, frame := 9 }
@[inherit_doc ixPg] def ixS (ent : KMap (Nat × Nat)) (j : Job) : State :=
  { ownS j with me := { pages := [(8, ixPg ent)], nextPage := 9, srt := [(9, 2 ^ 44 + 1)] }, gl := { ixPage := [(ixKey 0 0, 8)] } }

/-- An FPX job for it. -/
def fxJob (op : Nat) : Job := job0 0x03 op .accepted [(8, 0x6000001000), (16, 2 ^ 50 + 9), (24, 1), (32, 0x6000003000)]

theorem test_indexJobs_premises :
    (let s := ixS [(0, ixEnt)] (fxJob 1)
     let v := fxVol s (fxJob 1)
     let d := volDom s v
     let f := rdB s ((fxJob 1).n 8 8) 32
     owns s (domGroup d) = true ∧ accepted s 1 0x03 1 = some (fxJob 1) ∧ dedups s v = true ∧ firstAbsent s (fpPages s d f) = none ∧
      ixLookup s d f ≠ 0 ∧ fxCompare (wr .GL_BCMP 0xFFFFFFFFFFFFFFFF s) (fxJob 1) = true ∧ fxCompare (wr .GL_BCMP 0 s) (fxJob 1) = false ∧
      ixPageId s d (pageNo (domOf s d) (fpH f)) = some 8 ∧ pageOf s 8 = some (ixPg [(0, ixEnt)]) ∧ (ixPg [(0, ixEnt)]).resident = true ∧ (ixPg [(0, ixEnt)]).ddr = false ∧
      (domOf { s with gl := { s.gl with dom := [(0, { keyset := true })] } } d).keyset = true ∧ ixFind [(0, ixEnt)] (fxNum f) = some 0 ∧ accepted (ixS [(0, ixEnt)] (fxJob 2)) 1 0x03 2 = some (fxJob 2) ∧
      accepted (ixS [(0, ixEnt)] (fxJob 3)) 1 0x03 3 = some (fxJob 3) ∧
      swSlot (resolve s (ixSlotWord (domPool d) (kgetD [(0, ixEnt)] 0 (0, 0)).2)) = swSlot (resolve s ((fxJob 3).n 16 8))) ∧
    ixFind [] (fxNum (zeros 32)) = none ∧ (ixRun [] (fprStart (fxNum (zeros 32))) 128).length < 128 := by decide +kernel

theorem test_fpxWithoutDedupe_premises : let s := wrB (volAddr 1 + 19) [4] (ixS [] (fxJob 1))
    dedups s (fxVol s (fxJob 1)) = false ∧ owns s (domGroup (volDom s (fxVol s (fxJob 1)))) = true := by decide +kernel

/-- A CENSUS of two slots from slot 9, and the map of volume 1, whose leaf names slot 9 once. -/
def censusJob : Job := job0 0x03 4 .accepted [(16, 2 ^ 50 + 9), (28, 2), (40, 0x6000001000)]
@[inherit_doc censusJob] def censusS (n : Nat) : State := { withJob censusJob mapS with me := { mapS.me with srt := [(9, n)] } }

theorem test_census_premises :
    let d := fxDom (censusS 1) censusJob
    let pages := domMapPages (censusS 1) d
    Memory.wf (censusS 1).mem = true ∧ keysFrom 0 (censusS 1).me.srt = true ∧ accepted (censusS 1) 1 0x03 4 = some censusJob ∧
      owns (censusS 1) (domGroup d) = true ∧ (censusS 1).me.srtPage = [] ∧ (censusS 1).plc.fwd = [] ∧ 0 < censusJob.n 28 4 ∧
      censusSlots (censusS 1) pages (swSlot (censusJob.n 16 8)) 2 = [9] ∧ srtCount (srt (censusS 1) 9) = leafCount (censusS 1) pages 9 ∧
      censusSlots (censusS 5) (domMapPages (censusS 5) d) (swSlot (censusJob.n 16 8)) 2 = [9] ∧
      srtCount (srt (censusS 5) 9) ≠ leafCount (censusS 5) (domMapPages (censusS 5) d) 9 ∧ 0 < leafCount (censusS 5) (domMapPages (censusS 5) d) 9 ∧
      srtLost (srt (censusS 5) 9) = false ∧ srtUnj (srt (censusS 5) 9) = false := by decide +kernel

/-- A SWEEP or RESET job of that domain. -/
def swJob (op : Nat) : Job := job0 0x03 op .accepted []

theorem test_sweep_premises :
    (let s := ixS [(0, ixEnt)] (swJob 5)
     let d := fxDom s (swJob 5)
     owns s (domGroup d) = true ∧ accepted s 1 0x03 5 = some (swJob 5) ∧ s.plc.fwd = [] ∧ firstAbsent s (allIxPages s d) = none ∧
      (∀ p ∈ allIxPages s d, deadEntries s d p = []) ∧ allIxPages s d = [8] ∧
      accepted (ixS [(0, ixEnt)] (swJob 6)) 1 0x03 6 = some (swJob 6) ∧ keysFrom 0 s.gl.dom = true) ∧
    (let s := { ixS [(0, ixEnt)] (swJob 5) with me := { (ixS [(0, ixEnt)] (swJob 5)).me with srt := [(9, 2 ^ 44)] } }
     deadEntries s 0 8 = [ixEnt] ∧ ixFind [(0, ixEnt)] ixEnt.1 = some 0 ∧ keysFrom 0 s.me.srt = true ∧ (ixPg [(0, ixEnt)]).resident = true ∧ (ixPg [(0, ixEnt)]).ddr = false ∧
      8 < s.me.nextPage ∧ s.me.srtPage = []) := by decide +kernel

/-- An insertion that waits, and a device with it whose domain has its keys. -/
def ins0 : FpIns := ⟨2 ^ 50 + 9, zeros 32, 1⟩
@[inherit_doc ins0] def insS : State :=
  { ixS [] (fxJob 1) with gl := { ixPage := [(ixKey 0 0, 8)], ins := [ins0], dom := [(0, { keyset := true })] } }

theorem test_indexQueues_premises :
    (buildS.gl.building = none ∧ buildS.gl.builds = [0]) ∧
    (let s := { ixS [] (fxJob 1) with gl := { (ixS [] (fxJob 1)).gl with building := some (0, 1) } }
     (allIxPages s 0).length ≤ 1 ∧ 0 < (allIxPages s 0).length) ∧
    (insS.gl.ins = [ins0] ∧ owns insS (domGroup (volDom insS ins0.vol)) = true ∧ (domOf insS (volDom insS ins0.vol)).keyset = true ∧
      ixPageId insS (volDom insS ins0.vol) (pageNo (domOf insS (volDom insS ins0.vol)) (fpH ins0.fp)) = some 8 ∧
      pageOf insS 8 = some (ixPg []) ∧ (ixPg []).resident = true ∧ ixFind (ixPg []).ent (fxNum ins0.fp) = none ∧
      (ixRun (ixPg []).ent (fprStart (fxNum ins0.fp)) 128).length < 128) ∧
    owns (setF F.SYS_GRP_POS 1 insS) (domGroup (volDom insS ins0.vol)) = false ∧
    keysFrom 0 insS.me.srt = true ∧
    (let w := 9 + srtClass (srt insS 9) * 2 ^ 48 + 2 ^ 50
     let known (dt : List Byte × List Byte) := (slotDoms insS 9).findSome? fun d => (domBlock insS d w dt).map fun b => (d, sha512t256 b)
     ownRead insS w none = none ∧ ownRead insS w (some ([], [])) = some ([], []) ∧ known ([], []) = none ∧ indexNames insS 9 = false) ∧
    indexNames { insS with me := { insS.me with pages := [(8, ixPg [(0, ixEnt)])] } } 9 = true := by decide +kernel

/-- A SNAP job of one entry: volume 1, snapshot 2, new volume 3; its VALUE word gives the operation, PAIR and CGID. -/
def snapJob (sub pair : Nat) : Job := job0 0x0A 7 .accepted [(28, 1), (32, 0x6000001000), (40, sub + 16 * pair + 77 * 2 ^ 32)]

/-- A device with the map of volume 1, which is VALID, its snapshot table, and that entry in memory. -/
def snapS (j : Job) : State :=
  wrN 0x6000001008 8 3 (wrN 0x6000001000 8 (1 + 2 * 2 ^ 32) (wrN (volAddr 1 + 19) 1 1 (withF [(F.ME_SNAPTAB_BASE, 0x4100000)] (withJob j mapS))))

/-- The same with snapshot 2 READY. -/
def readyS (j : Job) : State := wrN (0x4100000000 + 64 * 2 + 16) 1 2 (snapS j)

theorem test_snapshotCuts_premises :
    (let s := snapS (snapJob 1 0)
     let j := snapJob 1 0
     accepted s 1 0x0A 7 = some j ∧ snSub j = 1 ∧ snEnts s j = [⟨1, 2, 3⟩] ∧ (∀ e ∈ snEnts s j, ownsVol s e.vol = true) ∧ cutPending s (1, 2) = false ∧
      (∀ e ∈ snEnts s j, snRefused s 1 e = false) ∧ s.snap.pair.job ≠ some 1 ∧
      snPair j = false ∧ s.ta.recs = [] ∧ s.rekey.draining = false ∧ s.ta.woff + 128 ≤ ringSize s ∧ ringUsed s + 128 ≤ ringSize s) ∧
    cutPending { snapS (snapJob 1 0) with snap := { State.reset.snap with cutting := [(2, 1)] } } (1, 2) = true ∧
    snPair (snapJob 1 1) = true ∧ snCgid (snapJob 1 1) = 77 ∧ getF (snapS (snapJob 1 1)) F.ME_CGSTAT_PSTATE = 0 := by decide +kernel

theorem test_cutApplied_premises :
    (let s := { snapS (snapJob 1 0) with snap := { State.reset.snap with cuts := [⟨1, [(1, 2)], 77, true⟩] } }
     Memory.wf s.mem = true ∧ snapAddr s 2 + 64 ≤ ownRing ∧ volEpoch s 1 < 0xFFFF_FFFF ∧ 0x2100_0000 ≤ snapAddr s 2 ∧
      (s.snap.cuts.map CutRec.ents) = [[(1, 2)]]) ∧
    (let s := { snapS (snapJob 1 0) with snap := { State.reset.snap with cutting := [(2, 1)] } }
     kget s.snap.cutting 2 = some 1 ∧ ownsVol s (snapVol s 2) = true ∧ keysFrom 0 s.snap.cutting = true ∧ ∀ e ∈ s.me.pages, e.2.pin ≠ some 2) ∧
    (∃ e ∈ [(4, { pgLeaf with pin := some 2 })], (e : Nat × Page).2.pin = some 2) := by decide +kernel

theorem test_snapshotJobs_premises : accepted (snapS (snapJob 2 0)) 1 0x0A 7 = some (snapJob 2 0) ∧ snEnts (snapS (snapJob 2 0)) (snapJob 2 0) = [⟨1, 2, 3⟩] ∧
    snSub (snapJob 2 0) = 2 ∧ snapAddr (snapS (snapJob 2 0)) 2 + 64 ≤ ownRing ∧ kget (snapS (snapJob 2 0)).me.snapRoot 2 = none ∧
    snapState (readyS (snapJob 2 0)) 2 = 2 ∧ liveSnaps (snapS (snapJob 4 0)) 1 = [] ∧ ownsVol (readyS (snapJob 3 0)) 3 = true ∧
    mayClone (readyS (snapJob 3 0)) ⟨1, 2, 3⟩ = true ∧ accepted (readyS (snapJob 3 0)) 1 0x0A 7 = some (snapJob 3 0) ∧
    snSub (snapJob 4 0) = 4 ∧ snSub (snapJob 3 0) = 3 ∧ snEnts (snapS (snapJob 3 0)) (snapJob 3 0) = [⟨1, 2, 3⟩] ∧ (3 : Nat) < 2 ^ 18 := by decide +kernel

/-- A walk of snapshot 2 that has pages to visit or not. -/
def walk0 (l : List Nat) : Walk := ⟨true, 2, l⟩
@[inherit_doc walk0] def walkS (l : List Nat) : State :=
  { snapS (snapJob 2 0) with snap := { State.reset.snap with walks := [walk0 l] }, me := { pages := [(8, pgLeaf), (9, { pgLeaf with home := 12 })], srt := [(12, 1)] } }

theorem test_deleteWalks_premises : (walkS []).snap.walks = [walk0 []] ∧ keysFrom 0 (walkS []).me.pages = true ∧ Memory.wf (walkS []).mem = true ∧
    walkMine (walkS []) (walk0 []) = true ∧ snapAddr (walkS []) 2 + 64 ≤ ownRing ∧ pageOf (walkS [8]) 8 = some pgLeaf ∧ pageDead (dropRoot true 2 (walkS [8])) 8 = true ∧
    ringTakes (walkS [8]) 2 = true ∧ ringTakes { walkS [8] with rekey := { State.reset.rekey with draining := true } } 2 = false ∧ (walkS [8]).ta.waiting = [] ∧ pageDead (dropRoot true 2 (walkS [9])) 9 = false ∧ walkMine (setF F.SYS_GRP_POS 1 (walkS [])) (walk0 []) = false := by decide +kernel

/-- A DIFF job from snapshot 2 to snapshot 3, or from nothing, over trees of one level less. -/
def diffJob (base : Nat) : Job := job0 0x0A 8 .accepted [(28, 16), (32, 0x6000003000), (40, base + 3 * 2 ^ 32)]
@[inherit_doc diffJob] def diffS (base : Nat) : State :=
  { withF [(F.ME_SNAPTAB_BASE, 0x4100000)] (withJob (diffJob base) mapS) with me := { mapS.me with snapRoot := [(2, 1), (3, 1)] } }

theorem test_diff_premises : Memory.wf (diffS 2).mem = true ∧ accepted (diffS 2) 1 0x0A 8 = some (diffJob 2) ∧
    ownsVol (diffS 2) (snapVol (diffS 2) (dfTarget (diffJob 2))) = true ∧ dfBase (diffJob 2) = some 2 ∧
    snapTree (diffS 2) 2 = snapTree (diffS 2) (dfTarget (diffJob 2)) ∧ dfBase (diffJob (2 ^ 24)) = none ∧
    firstAbsent (diffS 2) (diffPages (diffS 2) 3 0 (snapTree (diffS 2) 2) (snapTree (diffS 2) 2)) = none := by decide +kernel

theorem test_diffLeaf_premises : (diffLeaf mapS 0 256 (0, .absent, .page 4)).length = 1 := by decide +kernel

theorem test_pairCuts_premises :
    getF (withF [(F.ME_CGSTAT_PSTATE, 1)] State.reset) F.ME_CGSTAT_PSTATE = 1 ∧ getF (withF [(F.ME_CGSTAT_PSTATE, 2)] State.reset) F.ME_CGSTAT_PSTATE = 2 ∧
    getF State.reset F.ME_CGSTAT_PSTATE = 0 ∧ headB State.reset = false ∧ headB (withF [(F.SYS_HEAD_ID, 1)] State.reset) = true ∧
    State.reset.snap.pair.cgid = (0 : BitVec 32).toNat ∧ State.reset.partner.dead = false ∧
    ({ State.reset.partner with dead := true } : Partner).dead = true := by decide +kernel

/-- A stream table at 2^38 with stream 4095: its first byte, and its volume 1. -/
def strS (b0 : Nat) : State :=
  wrN (0x4200000000 + 128 * 4095 + 8) 4 1 (wrN (0x4200000000 + 128 * 4095) 1 b0 (withF [(F.TA_STRBASE_BASE, 0x4200000), (F.ME_SNAPTAB_BASE, 0x4100000), (F.TA_STRCTL_EN, 1)] mapS))

/-- The same with snapshot 0 READY, from no base. -/
def strSnapS : State := wrBits (0x4200000000 + 128 * 4095 + 48) 4 24 24 1 (wrN (0x4100000000 + 16) 1 2 (strS 8))

theorem test_streams_premises :
    (let s := strSnapS
     Memory.wf s.mem = true ∧ bits (0x10FFF : Word) 11 0 = 4095 ∧ bit (0x10FFF : Word) 16 = true ∧ strMode s 4095 = 0 ∧ strState s 4095 = 0 ∧
      strValid s 4095 = true ∧ strRecv s 4095 = false ∧ snapState s (strTarget s 4095) = 2 ∧ strBaseSnap s 4095 = none) ∧
    (let s := strS 9
     strMode s 4095 ≠ 0 ∧ strMode s 4095 = 1 ∧ strValid s 4095 = true ∧ strRecv s 4095 = false ∧ unsentRecs s 4095 = [] ∧
      isF s F.TA_STRCTL_EN = true ∧ freeCtxNo s = some 0 ∧
      (bindingOf (wr .FSQ_BIND 0xFFFFFFFFFFFFFFFF s 0 0) (volClass s (strVol s 4095)) 0).isSome = true) := by decide +kernel

/-- A message to stream 4095. -/
def hdr0 : StrHdr := { stream := 4095, seq := 1, prev := 0, epoch := 0, oldlast := 0 }

theorem test_streamReceiver_premises :
    (let s := strS 13
     Memory.wf s.mem = true ∧ strValid s 4095 = true ∧ strRecv s 4095 = true ∧ strAddr s 4095 + 128 ≤ ownRing ∧ hdr0.epoch = strEpoch s 4095 ∧
      strMode s 4095 ≠ 0 ∧ strLast s 4095 < hdr0.seq ∧ hdr0.prev = strLast s 4095 ∧ s.str.held = [] ∧ offerOf s 4095 hdr0.seq = none) ∧
    dedups (wrB (volAddr 1 + 19) [4] (strS 13)) (strVol (strS 13) 4095) = false ∧
    offerOf { strS 13 with str := { State.reset.str with offers := [(4095, [(1, (3, []))])] } } 4095 1 = some (3, []) ∧
    (let s := strS 12
     strMode s 4095 = 0 ∧ ({ hdr0 with seq := 0 } : StrHdr).seq = strNext s 4095 ∧ winBit s 4095 0 = false) := by decide +kernel

/-- An admin controller of host 77, and its queues. -/
def ctl1 : Ctrl := { disc := false, nqn := [1], hostid := 77, kato := 120000, cc := 1 }
@[inherit_doc ctl1] def admQ : HQueue := { ctrl := 1, qid := 0, size := 8, tcp := false, conn := 9 }
@[inherit_doc ctl1] def ioQ : HQueue := { ctrl := 1, qid := 1, size := 4, tcp := false, conn := 9 }

/-- A device with it, and with namespace 1, attached to it, on volume 1 of 100 blocks. -/
def hostS : State :=
  let s := withF [(F.HFE_NSTAB_BASE, 0x6000100), (F.HFE_ATTACH_BASE, 0x6001000), (F.HFE_RESVTAB_BASE, 0x6080000), (F.HFE_SVC_BASE, 0x6100000)] mapS
  let s := { s with host := { s.host with ctrls := [(1, ctl1)], queues := [(3, ioQ), (65537, admQ)] } }
  let s := wrN 0x6000100000 8 (1 + 2 ^ 20) (wrB 0x6001008000 [1] s)
  wr .FSQ_BIND 0xFFFFFFFFFFFFFFFF (wrB (volAddr 1 + 19) [1] (wrN (volAddr 1 + 8) 8 100 s)) 0 0

/-- Changes the controller, and the queues, of `hostS`. -/
def withCtl (c : Ctrl) : State := { hostS with host := { hostS.host with ctrls := [(1, c)] } }
@[inherit_doc withCtl] def withQs (qs : KMap HQueue) : State := { hostS with host := { hostS.host with queues := qs } }

theorem test_adminCommands_premises : Takes hostS (0x10001 : BitVec 17).toNat admQ ctl1 ∧ admQ.qid = 0 ∧ ctl1.aers.length < 8 ∧
    Takes (withCtl { ctl1 with aers := [1, 2, 3, 4, 5, 6, 7, 8] }) (0x10001 : BitVec 17).toNat admQ { ctl1 with aers := [1, 2, 3, 4, 5, 6, 7, 8] } ∧
    8 ≤ ({ ctl1 with aers := [1, 2, 3, 4, 5, 6, 7, 8] } : Ctrl).aers.length ∧ (5 : BitVec 32) ≠ 0 ∧ ctrlQueues hostS admQ.ctrl true ≠ [] ∧ ctl1.disc = false ∧
    Takes (withCtl { ctl1 with disc := true }) (0x10001 : BitVec 17).toNat admQ { ctl1 with disc := true } := by
  decide +kernel

theorem test_associationsEnd_premises : keysFrom 0 hostS.host.ctrls = true ∧ keysFrom 0 hostS.host.queues = true ∧
    Takes hostS (0x10001 : BitVec 17).toNat admQ ctl1 ∧ admQ.qid = 0 ∧ ctl1.cc.testBit 0 = true ∧ bit (0 : Word) 0 = false ∧
    Takes (withCtl { ctl1 with cc := 0 }) (0x10001 : BitVec 17).toNat admQ { ctl1 with cc := 0 } ∧ ({ ctl1 with cc := 0 } : Ctrl).cc.testBit 0 = false ∧
    queueOf hostS (0x10001 : BitVec 17).toNat = some admQ ∧ admQ.frozen = false ∧ admQ.ctrl = (1 : BitVec 16).toNat ∧
    (ctrlOf hostS (1 : BitVec 16).toNat).isSome = true ∧ queueOf hostS (3 : BitVec 17).toNat = some ioQ ∧ ioQ.frozen = false ∧ ioQ.qid ≠ 0 := by
  decide +kernel

theorem test_identify_premises : nsValid hostS (1 : BitVec 32).toNat = true ∧ attachedTo hostS admQ.ctrl (1 : BitVec 32).toNat = true ∧
    nsValid hostS (262144 : BitVec 32).toNat = false ∧ ctl1.disc = false ∧
    Takes (withCtl { ctl1 with disc := true }) (0x10001 : BitVec 17).toNat admQ { ctl1 with disc := true } := by decide +kernel

/-- An admin and an I/O Connect. -/
def admConn : ConnArgs := { conn := 9, cid := 4, tcp := false, disc := false, qid := 0, cntlid := 0xFFFF, size := 128, kato := 0, host := 77, nqn := [1] }
@[inherit_doc admConn] def ioConn : ConnArgs := { admConn with qid := 128, cntlid := 1, size := 1024 }

theorem test_connect_premises : let s := { setF F.HFE_RXPOOL_GIB 1 hostS with rx := { State.reset.rx with qps := [(8, { kind := 0, st := 3, attr := zeros 64 })] } }
    connOpen s { admConn with conn := 8 } = true ∧ connOpen s { ioConn with conn := 8 } = true ∧ connOpen s admConn = false ∧
      connOpen { s with host := { s.host with tcpOpen := 1 } } { admConn with tcp := true } = true ∧
        decide (getF s F.HFE_RXPOOL_GIB * 2 ^ 30 < poolUsed s + 1088 * admConn.size) = false ∧ freeCtrl s = some 2 ∧ admConn.size ≤ 128 ∧ 2 ≤ admConn.size ∧
      128 < ({ admConn with size := 129 } : ConnArgs).size ∧ ({ admConn with cntlid := 1 } : ConnArgs).cntlid ≠ 0xFFFF ∧
      decide (getF s F.HFE_RXPOOL_GIB * 2 ^ 30 < poolUsed s + 1088 * ioConn.size) = false ∧ ioConnectOk s ioConn = true ∧
      ioConn.size ≤ min 1024 (getF s F.HFE_CTL_MQES + 1) ∧ freeHq s = some 0 ∧ ioConnectOk s { ioConn with qid := 129 } = false := by decide +kernel

/-- A submission queue entry of an opcode for namespace 1, with one block at an LBA and a keyed SGL for it. -/
def sqe1 (opc nsid lba : Nat) : List Byte :=
  leBytes 1 opc ++ [0x40, 9, 0] ++ leBytes 4 nsid ++ zeros 24 ++ [0, 0x10, 0, 1, 0, 0, 0, 0x40] ++ leBytes 8 lba ++ zeros 16

theorem test_ioCapsules_premises : Takes hostS (3 : BitVec 16).toNat ioQ ctl1 ∧ ioQ.qid ≠ 0 ∧
    (let q := sqe1 2 1 99
     let v := nsVol hostS (sqNsid q)
     resvOpc (sqOpc q) = false ∧ sqOpc q = 2 ∧ (nsValid hostS (sqNsid q) && attachedTo hostS ioQ.ctrl (sqNsid q) && decide (sanitizeStatus hostS = none) && volValid hostS v) = true ∧
      sqLba q + sqNlb q ≤ volSize hostS v ∧ resvForbids hostS v ctl1.hostid 2 = false ∧ sglCheck hostS ioQ.tcp (volFlag hostS v 4) q [] = none ∧
      groupChip hostS (volGroup hostS v) = gangChip hostS ∧ anaState hostS (volGroup hostS v) = 1 ∧
      bindingOf hostS (volClass hostS v) 2 = some 0 ∧ hostS.ctxWait = [] ∧ freeCtxNo hostS = some 0) ∧
    volSize hostS (nsVol hostS 1) < sqLba (sqe1 2 1 100) + sqNlb (sqe1 2 1 100) ∧ nsValid hostS (sqNsid (sqe1 2 2 0)) = false ∧
    sqOpc (sqe1 0 1 0) = 0 ∧ nsPass hostS (sqNsid (sqe1 0 1 0)) = false ∧
    queueOf (withQs [(3, { ioQ with used := 3 })]) (3 : BitVec 16).toNat = some { ioQ with used := 3 } ∧
    ({ ioQ with used := 3 } : HQueue).size ≤ ({ ioQ with used := 3 } : HQueue).used + 1 ∧ ctrlOf (withQs []) ioQ.ctrl = some ctl1 ∧
    bitsN ctl1.cc 15 14 = 0 ∧ getF (withQs []) F.SYS_HEAD_STATE < 4 ∧ fetchStops hostS (3 : BitVec 16).toNat = false ∧
    (let s := { hostS with ctxWait := [{ wait0 with fwd := false }] }
     fetchStops s (3 : BitVec 16).toNat = true ∧ ioQ.used + 1 + s.host.unfetched.countP (fun x => decide (x.hq = 3)) < ioQ.size) := by decide +kernel

/-- A command that the partner forwarded, and one of this head's. -/
def theirCmd : HostCmd := ⟨3, 9, 77, sqe1 2 1 0, true, 1⟩
@[inherit_doc theirCmd] def ourCmd : HostCmd := { theirCmd with fwd := false }

/-- `hostS` with volume 1 reserved for host 5 by exclusive access. -/
def resvS : State := wrB (0x6080000000 + 2048) [2, 0, 0, 1] (wrN (0x6080000000 + 2048 + 64) 8 5 hostS)

theorem test_forwarded_premises :
    resvForbids resvS 1 77 2 = true ∧ resvForbids hostS 1 77 2 = false ∧
    anaState hostS (volGroup hostS 1) = 1 ∧ bindingOf hostS (volClass hostS 1) 2 = some 0 ∧
    (let s := withF [(F.SYS_GRP_OWNER, 1)] hostS
     resvForbids s 1 77 2 = false ∧ anaState s (volGroup s 1) = 2) ∧
    queueOf hostS (3 : BitVec 16).toNat = some ioQ ∧ ioQ.frozen = false ∧ ourCmd.hq = (3 : BitVec 16).toNat ∧ ourCmd.cid = (9 : BitVec 16).toNat ∧ sqOpc theirCmd.sqe ∉ [0xC4, 0xC8, 0xCC] ∧ hostS.ctxWait = [] ∧ freeCtxNo hostS = some 0 ∧
    ((sglOf false ((ourCmd.sqe.drop 24).take 16) []).any fun x => match x with | .keyed l => decide (stageEnts ourCmd l [(0, [1])] ≠ []) | _ => false) = true ∧
    ourCmd.fwd = false ∧
    hostS.host.held = [] ∧ kgetD hostS.host.anaSeen (0 : BitVec 10).toNat 15 ≠ anaState hostS (0 : BitVec 10).toNat ∧
    (let s := { hostS with host := { hostS.host with anaSeen := [(1023, 15)] } }
     kgetD s.host.anaSeen (1023 : BitVec 10).toNat 15 = anaState (setF F.SYS_GRP_POS 1 s 1023) (1023 : BitVec 10).toNat) := by decide +kernel

theorem test_serviceRing_premises : Memory.wf hostS.mem = true ∧ (sqe1 0x0D 1 0).length = 64 ∧ svcFull hostS = false ∧
    svcFull (setF F.HFE_SVCIDX_TAIL 4095 hostS) = true ∧ (3 : BitVec 16).toNat = (3 : BitVec 17).toNat ∧ Takes hostS (3 : BitVec 17).toNat ioQ ctl1 ∧
    resvOpc (sqOpc (sqe1 0x0D 1 0)) = true ∧ nsValid hostS (sqNsid (sqe1 0x0D 1 0)) = true ∧ attachedTo hostS ioQ.ctrl 1 = true ∧
    sanitizeStatus hostS = none ∧ volValid hostS (nsVol hostS 1) = true ∧ fetchStops hostS (3 : BitVec 17).toNat = false ∧
    getF hostS F.HFE_SANSTAT_SSTAT ≠ 2 ∧ sanitizeRefusal (leBytes 40 0x84 ++ [2] ++ zeros 23) (setF F.HFE_CTL_SANEN 1 hostS) = none := by
  decide +kernel

/-- `hostS` with a Format or Sanitize of the admin queue at entry 4095 of the service ring. -/
def svcEnt (lbaf : Byte) : SvcEnt := ⟨65537, 9, 1, leBytes 4 0x80 ++ leBytes 4 1 ++ zeros 32 ++ [lbaf] ++ zeros 23⟩
@[inherit_doc svcEnt] def svcS (lbaf : Byte) : State := { hostS with host := { hostS.host with svc := [(4095, svcEnt lbaf)] } }

theorem test_stewardCommands_premises : Memory.wf (svcS 1).mem = true ∧ kget (svcS 1).host.svc 4095 = some (svcEnt 1) ∧
    keysFrom 0 (svcS 1).host.svc = true ∧ (queueOf (svcS 1) (svcEnt 1).hq = some admQ ∧ admQ.frozen = false) ∧
    1 < bitsN (fieldN (svcEnt 2).sqe 40 4) 3 0 ∧
    (let c := fieldN (svcEnt 1).sqe 40 4
     bitsN c 3 0 ≤ 1 ∧ bitsN c 7 5 ≤ 1 ∧ bitsN c 11 9 ≠ 2 ∧ 0 < sqNsid (svcEnt 1).sqe ∧ sqNsid (svcEnt 1).sqe ≤ 262144) ∧
    ({ entry := 4095, vol := 1, kind := 0, table := none, status := 0, dw0 := 0, notices := [] } : ResvArgs).entry = 4095 := by decide +kernel

theorem test_service_completes : (after (.serviceCompletion 0x500000FFF) (svcS 1)).out = [.completion 65537 9 0 5 0 none] := by decide +kernel

/-- A posting operation of context 0, which owes queue 3 a completion. -/
def postJob (op : Nat) : Job := { job0 0x0E op .accepted [(28, 6), (32, 7)] with owner := .ctx 0 }
@[inherit_doc postJob] def postCtx : Ctx := { ctx0 with hq := 3, posted := false }
@[inherit_doc postJob] def postS (op : Nat) (x : Ctx) : State := { withJob (postJob op) hostS with ctxs := [(0, x)] }

theorem test_posting_premises :
    (∀ op ∈ [1, 2, 3, 5], accepted (postS op postCtx) 1 0x0E op = some (postJob op) ∧ (postJob op).owner = .ctx 0) ∧
    kget (postS 1 postCtx).ctxs 0 = some postCtx ∧ postCtx.cancelled = false ∧ postCtx.hq ≠ 0xFFFF ∧ postCtx.posted = false ∧ postCtx.fwd = false ∧
    (queueOf (postS 1 postCtx) postCtx.hq = some ioQ ∧ ioQ.frozen = false) ∧ syncHolds (postS 1 postCtx) 0 postCtx = false ∧ (postJob 2).n 32 1 = 0x07 ∧
    ({ postCtx with cancelled := true } : Ctx).cancelled = true ∧ ({ postCtx with posted := true } : Ctx).posted = true := by decide +kernel

theorem test_err_bounds_is_lba_out : (after (.hostErr 1) (postS 2 postCtx)).out = [.completion 3 9 0x4281 0 0 none] := by decide +kernel

/-- A PIGEN of a steward for the block at LBA 5. -/
def piJob : Job := job0 0x0E 4 .accepted [(3, 1), (8, 0x6000001000), (24, 1), (48, 5)]

theorem test_pigen_premises : Memory.wf (withJob piJob State.reset).mem = true ∧ accepted (withJob piJob State.reset) 1 0x0E 4 = some piJob ∧
    hePi (withJob piJob State.reset) piJob = true ∧ heLbax piJob = true ∧ piJob.n 40 8 = 0 := by decide +kernel

theorem test_drain_premises :
    (let s := { withF [(F.SYS_HEAD_STATE, 4)] hostS with upd := { State.reset.upd with draining := true } }
     getF s F.SYS_HEAD_STATE = 4 ∧ s.upd.draining = true) ∧ getF hostS F.SYS_HEAD_STATE ≠ 4 ∧
    (let s := { hostS with plc := { hostS.plc with lost := [2 ^ 50 + 5 * 2 ^ 45] } }
     s.plc.lost = [2 ^ 50 + 5 * 2 ^ 45] ∧ poolVols s (swPool (2 ^ 50 + 5 * 2 ^ 45)) = []) := by decide +kernel

/-- A queue pair in RTS, of a PMTU of 1,024 bytes and ORD 16, with three retries of each kind. -/
def qp0 : Qp := { st := 3, kind := 1, attr := [3, 1] ++ zeros 33 ++ [3, 0, 0x33, 16, 16] ++ zeros 24, spsn := 2 ^ 24 - 1, epsn := 2 ^ 24 - 1, rate := 800000, target := 800000 }

/-- `hostS` with queue pair 9, with the engine and RDMA enabled. -/
def rxS (x : Qp) : State :=
  let s := withF [(F.HFE_CTL_EN, 1), (F.HFE_CTL_RDMAEN, 1), (F.RXE_CTL_EN, 1), (F.RXE_CTL_STEWQP, 64)] hostS
  { s with rx := { s.rx with qps := [(9, x)] } }

/-- A connection request. -/
def cm0 : CmReq := { group := 0, mac := 0, rqpn := 5, psn := 7, rip := 1, vlan := 0, dscp := 0, pmtu := 5, sip := 1, dmac := 2, resources := 4, ioq := false }

theorem test_connectionManager_premises : isF (rxS qp0) F.HFE_CTL_EN = true ∧ isF (rxS qp0) F.HFE_CTL_RDMAEN = true ∧ isF (rxS qp0) F.RXE_CTL_EN = true ∧
    cm0.ioq = false ∧ freeQp (rxS qp0) = some 64 ∧ isF hostS F.HFE_CTL_RDMAEN = false ∧ qpOf (rxS { qp0 with st := 2 }) (9 : BitVec 17).toNat = some { qp0 with st := 2 } := by
  decide +kernel

/-- The attribute registers hold a record. -/
def withAttr (a : List Byte) (s : State) : State := (List.range 8).foldl (fun t i => wr .RXE_QPATTR (BitVec.ofNat 64 (fieldN a (8 * i) 8)) t i) s

theorem test_queuePairs_premises : bit (0x0000000A00000003 : Word) 0 = true ∧ isF (rxS qp0) F.RXE_QPCMD_BUSY = false ∧
    (let s := withAttr (putBytes qp0.attr 0 [1, 2]) (rxS qp0)
     bits (0x0000000A00000003 : Word) 3 1 = 1 ∧ qpOf s (bits (0x0000000A00000003 : Word) 48 32) = none ∧ 10 < getF s F.RXE_CTL_STEWQP ∧ qpAttrOk s (qpAttr s) = true ∧
      getF s F.SYS_HEAD_STATE < 2 ∧ getF s F.RXE_CTL_STEWQP ≤ bits (0x0000004000000003 : Word) 48 32) ∧
    (let s := withAttr qp0.attr (rxS { qp0 with st := 2 })
     bits (0x0000000900000005 : Word) 3 1 = 2 ∧ qpOf s (bits (0x0000000900000005 : Word) 48 32) = some { qp0 with st := 2 } ∧ (qpState s 9, fieldN (qpAttr s) 0 1) = (2, 3)) ∧
    fieldN (qpAttr (withAttr (putBytes qp0.attr 0 [4]) (rxS qp0))) 0 1 = 4 ∧
    qpState (withAttr qp0.attr (rxS { qp0 with st := 1 })) 9 < 2 ∧ (qpState (rxS { qp0 with st := 2, kind := 0 }) 9) = 2 ∧
    bits (0x0000000900000007 : Word) 3 1 = 3 ∧ bits (0x0000000900000009 : Word) 3 1 = 4 ∧
    qpEnded (rxS { qp0 with st := 4 }) (9 : BitVec 17).toNat { qp0 with st := 4 } = true ∧ qp0.kind ≠ 2 ∧ qp0.kind ≠ 0 := by decide +kernel

/-- A window of two pages on queue pair 9, and `rxS` with it as window 65535. -/
def win0 : Win := { base := 0x6000010000, pages := 2, rrd := true, rwr := true, qp := 9, tag := 5 }
@[inherit_doc win0] def winS (w : Win) : State := { rxS qp0 with rx := { (rxS qp0).rx with wins := [(65535, w)] } }

theorem test_windows_premises : bit (0x0000FFFF00000003 : Word) 0 = true ∧ isF (rxS qp0) F.RXE_WINCMD_BUSY = false ∧ bits (0x0000FFFF00000003 : Word) 2 1 = 1 ∧
    (let s := withF [(F.RXE_WINATTR1_QP, 9), (F.RXE_WINATTR1_PAGES, 2), (F.RXE_WINATTR0_BASE, 0x6000010)] (rxS qp0)
     kget s.rx.wins 65535 = none ∧ getF s F.RXE_WINATTR1_PAGES ≠ 0 ∧ inHbmDdr s (getF s F.RXE_WINATTR0_BASE * 4096) (4096 * getF s F.RXE_WINATTR1_PAGES) = true ∧
      qpState s (getF s F.RXE_WINATTR1_QP) = 3 ∧ winOf s (getF s F.RXE_WINATTR1_QP) = none ∧ qpOf s (getF s F.RXE_WINATTR1_QP) = some qp0) ∧
    getF (rxS qp0) F.RXE_WINATTR1_PAGES = 0 ∧ bits (0x0000FFFF00000005 : Word) 2 1 = 2 ∧ kget (winS win0).rx.wins (bits (0x0000FFFF00000005 : Word) 47 32) = some win0 ∧
    win0.revoking = false ∧ bits (0x0000FFFF00000007 : Word) 2 1 = 3 ∧ win0.pages < 2 ^ 28 ∧ win0.qp < 2 ^ 17 ∧ win0.base < 2 ^ 48 ∧ winKey 65535 win0 < 2 ^ 32 ∧
    (let s := winS { win0 with revoking := true }
     kget s.rx.wins (65535 : BitVec 16).toNat = some { win0 with revoking := true } ∧ keysFrom 0 s.rx.wins = true ∧ ∀ e ∈ s.rx.qps, e.2.inWrite = none) := by decide +kernel

/-- A packet of an opcode and PSN to queue pair 9. -/
def bth (op psn : Nat) : Bth := { qpn := 0x20009, op := op, psn := psn, icrcOk := true, ce := false }

theorem test_packets_premises : Reaches (winS win0) (bth 4 0) 9 qp0 ∧ ({ bth 4 0 with icrcOk := false } : Bth).icrcOk = false ∧ qpIndex ({ bth 4 0 with qpn := 0x40000 } : Bth).qpn = none ∧
    qp0.st = 3 ∧ (let d := ((bth 4 0).psn + 2 ^ 24 - qp0.epsn % 2 ^ 24) % 2 ^ 24
      d ≠ 0 ∧ d < 2 ^ 23) ∧ ({ qp0 with nakked := true } : Qp).nakked = true ∧ 2 ^ 23 ≤ ((bth 4 0xFFFFFE).psn + 2 ^ 24 - qp0.epsn % 2 ^ 24) % 2 ^ 24 :=
  ⟨⟨rfl, rfl, by decide +kernel, rfl, by decide +kernel⟩, by decide +kernel⟩

/-- `winS` where CID 5 is the CMD job 1 of steward core 0 on queue pair 9. -/
def cmdS : State :=
  let s := { winS win0 with jobs := [(1, job0 0x09 3 .accepted [(28, 9)])] }
  { s with rx := { s.rx with qps := [(9, { qp0 with cmds := [(5, 1)] })] } }

theorem test_inbound_premises : Memory.wf (winS win0).mem = true ∧ Reaches (winS win0) (bth 0x0A 0xFFFFFF) 9 qp0 ∧ (bth 0x0A 0xFFFFFF).psn = qp0.epsn ∧
    winCheck (winS win0) 9 (0xFFFF0005 : BitVec 32).toNat (0x1FFE : Word).toNat (2 : BitVec 32).toNat true = some (65535, win0) ∧ [0, 1].length = (2 : BitVec 32).toNat ∧
    winCheck (winS win0) 9 (0xFFFF0005 : BitVec 32).toNat (0x1FFE : Word).toNat (3 : BitVec 32).toNat true = none ∧ pathJobs (winS win0) (.qp 9) = [] ∧
    winCheck (winS win0) 9 (0xFFFF0005 : BitVec 32).toNat (0x1FFE : Word).toNat (2 : BitVec 32).toNat false = some (65535, win0) ∧
    winCheck (winS win0) 9 (0xFFFF0006 : BitVec 32).toNat 0 0 false = none ∧
    qpQueue (rxS { qp0 with kind := 0 }) 9 = some 3 ∧
    qp0.kind = 1 ∧ kget ({ qp0 with cmds := [(5, 1)] } : Qp).cmds (fieldN (zeros 12 ++ [5, 0, 0, 0]) 12 2) = some 1 ∧ (kget cmdS.jobs 1).isSome = true :=
  ⟨by decide +kernel, ⟨rfl, rfl, by decide +kernel, rfl, by decide +kernel⟩, by decide +kernel⟩

theorem test_write_lands : rdB (after (.rdmaWriteRequest (bth 0x0A 0xFFFFFF) 0x1FFE 0xFFFF0005 2 [7, 8]) (winS win0)) 0x6000011FFE 2 = [7, 8] ∧
    (after (.rdmaWriteRequest (bth 0x0A 0xFFFFFF) 0x1FFE 0xFFFF0005 2 [7, 8]) (winS win0)).out = [.rdma 9 (.ack 0xFFFFFF)] := by decide +kernel

/-- An RDMA job of steward core 0 over queue pair 9 with one keyed block of 8,192 bytes. -/
def rxJob (op : Nat) : Job := job0 0x09 op .accepted [(8, 0x1000), (16, 0x2000), (19, 77), (23, 0x40), (24, 4096), (28, 9), (32, 0x6000003000), (40, 4096)]
@[inherit_doc rxJob] def rxJobS (op : Nat) : State := { winS win0 with jobs := [(1, rxJob op)] }

/-- An RDMA job of context 0, whose command came on queue 3, with an SGL of a type and length. -/
def ctxRx (op sgl len : Nat) : Job := { job0 0x09 op .accepted [(16, len), (23, sgl), (24, len), (32, 0x6000003000)] with owner := .ctx 0 }
@[inherit_doc ctxRx] def ctxRxS (tcp : Bool) (j : Job) : State :=
  let s := { rxS qp0 with jobs := [(1, j)], ctxs := [(0, postCtx)], host := { hostS.host with queues := [(3, { ioQ with tcp := tcp })] } }
  { s with rx := { s.rx with capsule := [(3 * 65536 + 9, [1, 2, 3, 4])] } }

/-- The job of a forwarded command whose four bytes of host data the partner staged. -/
def peerRxS (op : Nat) : State :=
  let s := ctxRxS false (ctxRx op 1 4)
  { s with ctxs := [(0, { postCtx with fwd := true })], rx := { s.rx with staged := [(cmdKey 3 9, [1, 2, 3, 4])] } }

theorem test_rdmaJobs_premises :
    (∀ op ∈ [1, 2, 3], accepted (rxJobS op) 1 0x09 op = some (rxJob op) ∧ rdmaPath (rxJobS op) (rxJob op) = .qp 9 ∧ kget (rxJobS op).rx.got 1 = none) ∧
    qpOf (rxJobS 1) 9 = some qp0 ∧ qp0.st = 3 ∧ qp0.rnrHold = false ∧ qp0.sq = [] ∧ 0 < qp0.ord ∧ Memory.wf (rxJobS 1).mem = true ∧
    (match jobSgl (rxJobS 1) (rxJob 1) with
     | some (.keyed l) => decide (sliceKeyed l (rxOffset (rxJob 1)) (rxRlen (rxJobS 1) (rxJob 1)) = [(0x2000, 77, 4096)])
     | _ => false) = true ∧
    kfree qp0.cmds 65536 = some 0 ∧ winOf (rxJobS 3) 9 = some (65535, win0) ∧
    (let j := ctxRx 1 1 4
     let s := ctxRxS false j
     accepted s 1 0x09 1 = some j ∧ rdmaPath s j = .qp 9 ∧ rxPi s j = false ∧ (match jobSgl s j with | some (.capsule d) => d | _ => []) = [1, 2, 3, 4] ∧ rxLen j = 4) ∧
    (let j := ctxRx 1 0x5A 4096
     let s := ctxRxS true j
     accepted s 1 0x09 1 = some j ∧ rdmaPath s j = .tcp 3 ∧ queueOf s 3 = some { ioQ with tcp := true } ∧ rxCtx s j = some postCtx ∧
      (match jobSgl s j with | some (.transport n) => n | _ => 0) = 4096 ∧ kget s.rx.r2t 1 = none) ∧ ({ ioQ with tcp := true } : HQueue).frozen = false ∧
    (∀ op ∈ [1, 2], accepted (peerRxS op) 1 0x09 op = some (ctxRx op 1 4) ∧ rdmaPath (peerRxS op) (ctxRx op 1 4) = .peer ∧ rxPi (peerRxS op) (ctxRx op 1 4) = false ∧
      rxOffset (ctxRx op 1 4) + rxLen (ctxRx op 1 4) ≤ (rxStaged (peerRxS op) (ctxRx op 1 4)).length ∧ rxCtx (peerRxS op) (ctxRx op 1 4) = some { postCtx with fwd := true }) ∧
    accepted (ctxRxS true (ctxRx 2 0x5A 4096)) 1 0x09 2 = some (ctxRx 2 0x5A 4096) ∧ ({ qp0 with st := 4 } : Qp).st = 4 := by decide +kernel

theorem test_read_is_sent : (after (.rdmaRead 1 0) (rxJobS 1)).out = [.rdma 9 (.readReq 0xFFFFFF 0x2000 77 4096)] ∧
    (qpOf (after (.rdmaRead 1 0) (rxJobS 1)) 9).map (·.spsn) = some 3 := by decide +kernel

/-- `rxJobS` where the job's one entry has been sent. -/
def sentE (k : SendKind) : SendEnt := { kind := k, job := some 1, addr := 0x2000, rkey := 77, len := 2048, psn := 0xFFFFFE, sent := true }
@[inherit_doc sentE] def sentQp (k : SendKind) : Qp := { qp0 with sq := [sentE k] }
@[inherit_doc sentE] def sentJob (op : Nat) : Job := job0 0x09 op .accepted [(8, 0x1000), (16, 2048), (19, 77), (23, 0x40), (24, 2048), (28, 9), (32, 0x6000003000)]
@[inherit_doc sentE] def sentS (op : Nat) (x : Qp) : State := { rxS x with jobs := [(1, sentJob op)], rx := { (rxS x).rx with got := [(1, [])] } }

theorem test_acks_premises : Memory.wf (sentS 2 (sentQp .write)).mem = true ∧ Reaches (sentS 2 (sentQp .write)) (bth 0x11 0xFFFFFF) 9 (sentQp .write) ∧
    (sentQp .write).sq = [sentE .write] ∧ kget (sentS 2 (sentQp .write)).jobs 1 = some (sentJob 2) ∧
    psnCovers (bth 0x11 0xFFFFFF).psn ((sentE .write).psn + (sentE .write).packets (sentQp .write).pmtu - 1) = true ∧
    (sentE .read).len = rxLen (sentJob 1) ∧ (zeros 2048).length = (sentE .read).len ∧ zeros 2048 ≠ [] ∧ (sentE .read).psn < 2 ^ 24 ∧
    rxPi (sentS 1 (sentQp .read)) (sentJob 1) = false ∧ kget (sentS 1 (sentQp .read)).rx.got 1 = some [] ∧
    psnEntry (sentQp .write) (bth 0x11 0xFFFFFF).psn = some (sentE .write) ∧ pathJobs (sentS 2 (sentQp .write)) (.qp 9) = [(1, sentJob 2)] ∧
    ackSplit (sentQp .write) ((bth 0x11 0xFFFFFE).psn + 2 ^ 24 - 1) (sentQp .write).sq = ([], (sentQp .write).sq) ∧ (sentQp .write).rnr < (sentQp .write).rnrRetries ∧
    (9 : BitVec 17).toNat = 9 ∧ oldest (sentQp .write) = some (sentE .write) ∧ (sentQp .write).retry < (sentQp .write).retries ∧
    ({ sentQp .write with retry := 3 } : Qp).retries ≤ 3 :=
  ⟨by decide +kernel, ⟨rfl, rfl, by decide +kernel, rfl, by decide +kernel⟩, by decide +kernel⟩

theorem test_write_is_acknowledged : (kget (after (.rdmaAckReceived (bth 0x11 0xFFFFFF) []) (sentS 2 (sentQp .write))).jobs 1).map (·.phase) =
    some (.done (JobResult.done 2048 0)) := by decide +kernel

/-- `rxS` with congestion control. -/
def ccS : State := withF [(F.RXE_CC_EN, 1), (F.RXE_CC_MINGAP, 50)] (rxS qp0)

theorem test_congestion_premises : qpOf ccS 9 = some qp0 ∧ isF ccS F.RXE_CC_EN = true ∧ qpIndex (bth 0x81 0).qpn = some 9 ∧ qp0.react = none ∧ qp0.cnp = none ∧
    ccS.dtime.toNat < 0 + 1000 * getF ccS F.RXE_CC_MINGAP ∧ qp0.react ≠ some ccS.dtime.toNat := by decide +kernel

theorem test_cnp_halves_the_rate : (qpOf (after (.cnpReceived (bth 0x81 0)) ccS) 9).map (fun x => (x.rate, x.target, x.alpha)) = some (400000, 800000, 1024) := by decide +kernel

/-- A READ job of TCP queue 3 that awaits four bytes. -/
def tcpS : State :=
  let s := ctxRxS true (ctxRx 1 0x5A 4)
  { s with rx := { s.rx with r2t := [(1, 4)], got := [(1, [])] } }

theorem test_tcp_premises : Memory.wf tcpS.mem = true ∧ queueOf tcpS (3 : BitVec 17).toNat = some { ioQ with tcp := true } ∧
    queueOf (ctxRxS false (ctxRx 1 1 4)) (3 : BitVec 17).toNat = some ioQ ∧ accepted tcpS 1 0x09 1 = some (ctxRx 1 0x5A 4) ∧ rdmaPath tcpS (ctxRx 1 0x5A 4) = .tcp (3 : BitVec 17).toNat ∧
    rxPi tcpS (ctxRx 1 0x5A 4) = false ∧ kget tcpS.rx.r2t 1 = some (rxLen (ctxRx 1 0x5A 4)) ∧ kget tcpS.rx.got 1 = some [] ∧ ([9, 8, 7, 6] : List Byte).length = rxLen (ctxRx 1 0x5A 4) ∧
    ({ ioQ with tcp := true } : HQueue).qid ≠ 0 := by decide +kernel

/-- A cell from Ethernet port 48 of this chip to port 76, of traffic class 3 and SEQ 9. -/
def cell0 : List Byte := [76, 48, 0x30, 0, 9, 0] ++ zeros 250

theorem test_ethernet_premises : macPort (0 : BitVec 7).toNat = false ∧ macPort (48 : BitVec 7).toNat = true ∧ cellOutput State.reset cell0 = some 76 ∧
    ingressOf State.reset 48 76 = [] ∧ admitPool State.reset 76 (cTc cell0) = some 0 ∧
    admitPool { State.reset with sw := { State.reset.sw with min := 0 } } 76 (cTc cell0) = some 2 := by decide +kernel

/-- A device whose one waiting cell goes from port 0 to port 76. -/
def cellS (next : Nat) : State :=
  { State.reset with sw := { State.reset.sw with buf := [(76 * 768 + 3, [⟨cell0, 0, 0⟩])], reseq := [(76 * 32 + 2, { next := next })] } }

theorem test_cells_premises : linkPort 0 = false ∧ linkPort 76 = false ∧ (cellS 9).sw.buf = [((76 * 96 + 0) * 8 + 3, [⟨cell0, 0, 0⟩])] ∧ (cellS 9).sw.ingress = [] ∧ (cellS 9).sw.xfers = [] ∧
    (cellS 9).sw.discard = false ∧ isF (cellS 9) F.SWC_STAT_DEGRADED = false ∧ isF (cellS 9) F.SWC_TAP_CTL_EN = false ∧
    (kgetD (cellS 9).sw.reseq ((76 * 4 + cSchip cell0) * 8 + portGroup (cSport cell0)) {}) = { next := 9 } ∧ (cellS 9).sw.start < 96 ∧ cSeq cell0 = 9 ∧ 9 < 0 + 256 ∧
    isF (setF F.SWC_STAT_DEGRADED 1 State.reset) F.SWC_STAT_DEGRADED = true ∧ State.reset.rst.asserted = none ∧ State.reset.rst.held = false ∧
    getF State.reset F.PWR_PF_STEP = 0 := by decide +kernel

/-- A device that taps the cells that leave at port 76, into a ring of four entries. -/
def tapS : State :=
  withF [(F.SWC_TAP_CTL_PORT, 76), (F.SWC_TAP_CTL_DIR, 1), (F.SWC_TAP_CTL_N, 1), (F.SWC_TAP_LEN_ENTRIES, 4), (F.SWC_TAP_BASE_BASE, 0x6000010), (F.SWC_TAP_HEAD_HEAD, 3),
    (F.SWC_TAP_TAIL_TAIL, 2), (F.SWC_TAP_CTL_EN, 1)] State.reset

theorem test_tap_premises : Memory.wf tapS.mem = true ∧ (cell0.take 64).length = 64 ∧ isF State.reset F.SWC_TAP_CTL_EN = false ∧ isF tapS F.SWC_TAP_CTL_EN = true ∧
    getF tapS F.SWC_TAP_CTL_PORT = (76 : BitVec 7).toNat ∧ isF tapS F.SWC_TAP_CTL_DIR = true ∧
    (BitVec.ofNat 64 (fieldN cell0 0 8)) &&& rd tapS .SWC_TAP_MASK = rd tapS .SWC_TAP_MATCH ∧ getF tapS F.SWC_TAP_CTL_N = 1 ∧ getF tapS F.SWC_TAP_LEN_ENTRIES ≠ 0 ∧
    (getF tapS F.SWC_TAP_HEAD_HEAD + 1) % 4 ≠ getF tapS F.SWC_TAP_TAIL_TAIL ∧
    (getF (setF F.SWC_TAP_HEAD_HEAD 1 tapS) F.SWC_TAP_HEAD_HEAD + 1) % 4 = getF tapS F.SWC_TAP_TAIL_TAIL := by decide +kernel

/-- A chip whose link 2 is in a state. -/
def linkS (st : Nat) (x : CellLink) : State := { setF F.GANG_LNK_STAT_STATE st State.reset 2 with sw := { State.reset.sw with links := [(2, x)] } }

/-- A link that expects FSEQ 1023 and has frame 5 to replay, and a frame for it. -/
def link0 : CellLink := { expect := 1023, kept := [(5, cell0)] }
@[inherit_doc link0] def lframe (fseq : Nat) : LinkFrame := { fseq := fseq, ackseq := 4, credsum := 0, crcOk := true, cell := cell0 }

theorem test_linkFrames_premises : let s := linkS 4 link0
    linkState s (2 : Fin 3).val = 4 ∧ linkOf s 2 = link0 ∧ (lframe 1023).crcOk = true ∧ (lframe 1023).fseq = link0.expect ∧ link0.expect < 1024 ∧ cellOutput s (lframe 1023).cell = some 76 ∧
      ingressOf s (83 + 2 * 2) 76 = [] ∧ admitPool s 76 (cTc cell0) = some 0 ∧ isF s F.SWC_TAP_CTL_EN = false ∧
      ((lframe 0).fseq + 1024 - link0.expect) % 1024 = 1 ∧ link0.asked = false ∧ 512 ≤ ((lframe 1022).fseq + 1024 - link0.expect) % 1024 ∧ s.host.held = [] ∧
      link0.kept ≠ [] ∧ ({ link0 with asked := true } : CellLink).asked = true ∧ ({ lframe 0 with crcOk := false } : LinkFrame).crcOk = false := by decide +kernel

/-- The last cell of the descriptor of job 1, and a chip whose link 2 is its only path. -/
def descCell : List Byte := [76, 48, 0x30, 0, 9, 0, 3, 0, 1, 0, 0, 0, 0, 0] ++ zeros 242
@[inherit_doc descCell] def lostS : State := { linkS 4 { queue := [descCell] } with jobs := [(1, job0 0x09 3 .accepted [])] }

theorem test_linkStates_premises : bit (1 : Word) 0 = true ∧ isF State.reset F.GANG_LNK_CTL_EN 2 = false ∧ linkState State.reset 2 = 0 ∧ bit (0 : Word) 0 = false ∧
    linkState (linkS 1 {}) 2 = 1 ∧ linkState (linkS 2 {}) 2 = 2 ∧ linkState (linkS 3 {}) 2 = 3 ∧ (linkOf (linkS 3 { confirm := 2 }) 2).confirm < 3 ∧
    3 ≤ (linkOf (linkS 3 { confirm := 3 }) 2).confirm ∧ (linkOf (linkS 3 { confirm := 3 }) 2).begun = false ∧ (linkOf (linkS 3 { confirm := 3, begun := true }) 2).begun = true ∧
    linkState lostS 2 ≠ 0 ∧ lostS.host.fwds = [] ∧ (linkOf lostS 2).kept = [] ∧ (linkOf lostS 2).queue = [descCell] ∧ (∀ k < 3, k ≠ 2 → linkState lostS k ≠ 4) ∧ cellJob lostS descCell = some 1 ∧ (3 : BitVec 7).toNat ≤ 3 ∧ 3 < (4 : BitVec 7).toNat ∧
    getF (setF F.GANG_LNK_STAT_MISS 2 (linkS 4 {}) 2) F.GANG_LNK_STAT_MISS 2 = 2 := by decide +kernel

/-- A heartbeat of head B in a state. -/
def hb0 (st : Byte) : List Byte := [0x4E, 0x5A, 0x42, 0x48, 1, st] ++ zeros 58

theorem test_heartbeat_premises : State.reset.rst.asserted = none ∧ ({ State.reset.rst with idle := false }).idle = false ∧ headState State.reset ≠ 6 ∧
    fieldN (zeros 64) 0 4 ≠ 0x4842_5A4E ∧ fieldN (hb0 4) 0 4 = 0x4842_5A4E ∧ fieldN (hb0 4) 4 1 = 1 - headNo State.reset ∧ State.reset.partner.dead = false ∧ State.reset.host.held = [] ∧
    partnerState State.reset ≠ 4 ∧ grpPos (setF F.SYS_GRP_POS 3 State.reset 1023) 1023 = 3 ∧ 1023 ∉ State.reset.partner.expired ∧ 1 < fieldN (hb0 4) 5 1 % 8 ∧
    ({ State.reset.partner with dead := true } : Partner).dead = true ∧ ({ State.reset.partner with hb := true } : Partner).hb = true ∧ State.reset.partner.hb = false ∧
    getF State.reset F.SYS_PTR_STAT_MISSED ≠ 3 := by decide +kernel

/-- An ACTIVE head that has missed three heartbeats, and one with a race. -/
def lonelyS (hlth : Nat) : State := withF [(F.SYS_HEAD_STATE, 2), (F.SYS_PTR_STAT_MISSED, 3), (F.SYS_PTR_STAT_HLTH, hlth)] State.reset
@[inherit_doc lonelyS] def raceS (tries : Nat) : State := { lonelyS 1 with partner := { (lonelyS 1).partner with race := true, tries := tries } }

theorem test_races_premises :
    (∀ h ∈ [0, 1], getF (lonelyS h) F.FSQ_BUNG_STAT_PSTATE = 0 ∧ (lonelyS h).pwr.degraded = false ∧ watches (lonelyS h) = true ∧ (lonelyS h).partner.hb = false ∧
      getF (lonelyS h) F.SYS_PTR_STAT_MISSED = 3) ∧ isF (lonelyS 0) F.SYS_PTR_STAT_HLTH = false ∧ isF (lonelyS 1) F.SYS_PTR_STAT_HLTH = true ∧
    4 ≤ getF (setF F.SYS_PTR_STAT_MISSED 4 (lonelyS 1)) F.SYS_PTR_STAT_MISSED ∧
    (raceS 4).partner.race = true ∧ (raceS 4).partner.dead = false ∧ (raceS 3).partner.tries < 4 ∧ 4 ≤ (raceS 4).partner.tries ∧ (raceS 4).rst.asserted = none ∧ (raceS 4).rst.held = false ∧
    getF (raceS 4) F.PWR_PF_STEP = 0 ∧ headState (lonelyS 1) ≠ 0 ∧ (lonelyS 1).partner.fenceIn = false ∧ headState State.reset = 0 ∧ State.reset.boot.waits = false ∧
    ({ State.reset.boot with waits := true }).waits = true ∧ headState (withF [(F.SYS_HEAD_STATE, 1)] State.reset) = 1 := by decide +kernel

/-- A head that takes over group 0 of its dead partner. -/
def takeS : State :=
  { withF [(F.SYS_HEAD_STATE, 1), (F.SYS_PTR_STAT_TAKE, 1), (F.SYS_GRP_POS, 2), (F.SYS_GRP_OWNER, 1)] State.reset with
    dtime := 10000
    partner := { State.reset.partner with dead := true } }

theorem test_takeover_premises : takeS.partner.dead = true ∧ isF takeS F.SYS_PTR_STAT_TAKE = true ∧ takeS.ta.mrecs = [] ∧ takeS.partner.t0 + 10000 ≤ takeS.dtime.toNat ∧ takeS.ta.ptuns = [] ∧ getF takeS F.ME_CGSTAT_PSTATE = 0 ∧
    takeS.host.held = [] ∧ takeS.host.fwds = [] ∧ headState takeS = 1 ∧ grpPos takeS 0 = 2 ∧ grpPos takeS 1023 ≠ 2 := by decide +kernel

/-- A survivor whose partner is in SYNC, and a head in SYNC. -/
def surviveS : State := { State.reset with partner := { State.reset.partner with dead := true, hb := true } }
@[inherit_doc surviveS] def syncS : State :=
  let s := withF [(F.SYS_HEAD_STATE, 1), (F.SYS_PTR_STAT_PSTATE, 2)] State.reset
  { s with partner := { s.partner with hb := true } }

theorem test_sync_premises : surviveS.partner.dead = true ∧ partnerState surviveS ≤ 1 ∧ surviveS.partner.hb = true ∧ isF surviveS F.SYS_PTR_STAT_TAKE = false ∧
    syncS.partner.dead = false ∧ headState syncS = 1 ∧ syncS.partner.hb = true ∧ syncS.partner.race = false ∧ partnerState syncS = 2 ∧
    ({ words := [], setHash := [], mem := [], place := [], acts := [], ring := [] } : SyncCopy).ring = [] ∧
    ({ words := [], setHash := [], mem := [], place := [], acts := [], ring := [] } : SyncCopy).acts = [] ∧
    ({ syncS.partner with syncing := true } : Partner).syncing = true ∧ applyLag syncS ≤ lagMax syncS ∧ syncS.host.held = [] ∧ syncS.partner.syncing = false := by decide +kernel

/-- An ACTIVE head with an ACTIVE partner that owns group 0, whose HOME is the partner. -/
def giveS (pos : Nat) : State :=
  withF [(F.SYS_HEAD_STATE, 2), (F.SYS_PTR_STAT_PSTATE, 2), (F.SYS_PTR_STAT_LINK, 1), (F.SYS_PTR_CTL_FBEN, 1), (F.SYS_GRP_POS, pos), (F.SYS_GRP_OWNER, 0), (F.SYS_GRP_HOME, 1)] State.reset

theorem test_handover_premises : (giveS 0).host.held = [] ∧ partnerActive (giveS 0) = true ∧ grpPos (giveS 0) (0 : BitVec 10).toNat = 0 ∧ grpOwner (giveS 0) (0 : BitVec 10).toNat = headNo (giveS 0) ∧
    (groups fun k => grpPos (giveS 0) k = 3) = [] ∧ getF (giveS 0) F.PWR_PF_STEP = 0 ∧ grpOwner (setF F.SYS_HEAD_ID 1 (giveS 0)) (0 : BitVec 10).toNat ≠ headNo (setF F.SYS_HEAD_ID 1 (giveS 0)) ∧
    grpPos (giveS 3) (0 : BitVec 10).toNat = 3 ∧ 0 ∉ (giveS 3).partner.expired ∧ 0 ∈ ({ (giveS 3).partner with expired := [0] } : Partner).expired ∧
    headState (giveS 0) = 2 ∧ isF (giveS 0) F.SYS_PTR_CTL_FBEN = true ∧ ((ownedGroups (giveS 0)).find? fun k => getF (giveS 0) F.SYS_GRP_HOME k ≠ headNo (giveS 0)) = some 0 := by decide +kernel

/-- A head with the link up and a link key staged, and with its rekey under way. -/
def keyedS : State := withF [(F.SYS_PTR_STAT_LINK, 1), (F.XE_PLINK_NEXT_STAGED, 1), (F.XE_PLINK_NEXT_EPOCH, 6), (F.XE_PLINK_NEXT_EN, 1)] State.reset
@[inherit_doc keyedS] def rekeyS (r : Rekey) : State := { setF F.XE_PLINK_NEXT_BUSY 1 keyedS with rekey := r }

theorem test_linkRekey_premises : bit (0x0000000600000005 : Word) 0 = true ∧ bit (0x0000000600000005 : Word) 2 = true ∧ headB keyedS = false ∧ linkUp keyedS = true ∧ isF keyedS F.XE_PLINK_NEXT_BUSY = false ∧
    bit (0x0000000600000001 : Word) 2 = false ∧ isF keyedS F.XE_PLINK_NEXT_STAGED = true ∧ getF keyedS F.XE_PLINK_NEXT_EPOCH = (6 : BitVec 32).toNat ∧ isF keyedS F.XE_PLINK_NEXT_EN = true ∧
    isF State.reset F.XE_PLINK_NEXT_STAGED = false ∧ isF (rekeyS {}) F.XE_PLINK_NEXT_BUSY = true ∧ (rekeyS {}).rekey.draining = false ∧ (rekeyS {}).rekey.qps = [] ∧
    (rekeyS {}).rekey.switched = false ∧ (rekeyS { qps := [5], switched := true }).rekey.qps = [(5 : BitVec 17).toNat] ∧
    (rekeyS { qps := [5], switched := true }).rekey.switched = true ∧ (rekeyS { qps := [5], switched := true }).rekey.draining = false ∧ (rekeyS { qps := [5], draining := true }).rekey.qps ≠ [] ∧
    (rekeyS { qps := [5], draining := true }).rekey.draining = true ∧ (rekeyS { qps := [5], draining := true }).rekey.got = [] := by decide +kernel

theorem test_partnerWindow_premises : regionOf State.reset (0x180000000000 : Word).toNat = .partner ∧ kget (stewS stew0).stews (0 : BitVec 4).toNat = some stew0 ∧ stew0.run = true ∧
    regionOf State.reset (0x6000000000 : Word).toNat ≠ .partner := by decide +kernel

/-- A device with both supplies, the power-fail sequence at a step. -/
def psuS (step : Nat) : State := withF [(F.PWR_PSU_PRESA, 1), (F.PWR_PSU_PRESB, 1), (F.PWR_PF_STEP, step)] State.reset

theorem test_supplies_premises : isF (psuS 0) F.PWR_PSU_PFA = false ∧ isF (psuS 0) F.PWR_PSU_PRESA = true ∧ isF (psuS 0) F.PWR_PSU_PRESB = true ∧ (psuS 7).rst.asserted = none ∧
    (psuS 7).rst.held = false ∧ getF (psuS 7) F.PWR_PF_STEP = 7 ∧ getF (psuS 4) F.PWR_PF_STEP = 4 ∧ getF (psuS 0) F.PWR_PF_STEP = 0 := by decide +kernel

/-- A device whose supplies both fail, at a step, with vault drives 0 to 2. -/
def failS (step : Nat) : State :=
  withF [(F.PWR_PSU_PFA, 1), (F.PWR_PSU_PFB, 1), (F.SYS_HEAD_STATE, 2), (F.PWR_VAULT_EN, 1), (F.PWR_VSTAT_FAILED, 8)]
    { psuS step with boot := { State.reset.boot with cold := false }, pwr := { State.reset.pwr with images := 3 } }

theorem test_powerFail_premises : (5 : BitVec 3).toNat ≠ getF (failS 3) F.PWR_PF_STEP + 1 ∧ getF (failS 0) F.PWR_PF_STEP = 0 ∧ allFail (failS 0) = true ∧ headState (failS 0) = 2 ∧
    (4 : BitVec 3).toNat = getF (failS 3) F.PWR_PF_STEP + 1 ∧ getF (failS 3) F.PWR_PF_STEP = 3 ∧ journalHere (failS 3) = true ∧ soloMode (failS 3) = false ∧ vaultDrives (failS 3) = [0, 1, 2] ∧
    getF (failS 6) F.PWR_PF_STEP = 6 ∧ (failS 6).pwr.images = 3 ∧ getF (failS 2) F.PWR_PF_STEP = 2 ∧ getF (setF F.PWR_PF_HOMS 0 (failS 2)) F.PWR_PF_HOMS = 0 ∧ getF (setF F.PWR_PF_HOMS 0 (failS 2)) F.PWR_PF_STEP = 2 ∧ (failS 6).pwr.later = none ∧ isF (failS 6) F.PWR_PF_RETURN = false ∧ isF (failS 6) F.PWR_VAULT_EN = true := by decide +kernel

/-- A device whose voltage steps are enabled, with a step sent. -/
def avsS (v : Option Nat) : State := { withF [(F.PWR_AVS_EN, 1), (F.PWR_AVS_TARGET, 700), (F.PWR_DROOP_EN, 1)] State.reset with pwr := { State.reset.pwr with avsSent := v } }

theorem test_voltage_premises : isF (avsS none) F.PWR_AVS_EN = true ∧ (avsS (some 705)).pwr.avsSent = some 705 ∧ (avsS none).pwr.avsSent = none ∧ isF (avsS none) F.PWR_DROOP_EN = true ∧
    (getF (avsS none) F.PWR_DROOPSTAT_ACTIVE).testBit (31 : BitVec 5).toNat = false := by decide +kernel

/-- A device that converts its sensors, with limits in whole degrees. -/
def hotS : State :=
  { withF [(F.THM_LIM_THROT, 90), (F.THM_LIM_HOT, 100), (F.THM_LIM_STOP, 110), (F.THM_LIM_TRIP, 120), (F.THM_CTL_XCHK, 0)] State.reset with
    pwr := { State.reset.pwr with converting := List.range 32 } }

theorem test_sensors_premises : hotS.pwr.converting.contains (31 : BitVec 5).toNat = true ∧ (2400 : BitVec 16).toNat ≤ 2400 ∧ hotS.rst.asserted = none ∧ hotS.rst.held = false ∧
    getF hotS F.PWR_PF_STEP = 0 ∧ (1600 : BitVec 16).toNat < 16 * getF hotS F.THM_LIM_STOP ∧ 16 * getF hotS F.THM_LIM_HOT ≤ (1600 : BitVec 16).toNat ∧
    16 * getF hotS F.THM_LIM_THROT ≤ (1552 : BitVec 16).toNat ∧ (1552 : BitVec 16).toNat + 48 ≤ 16 * getF hotS F.THM_LIM_HOT ∧ (1392 : BitVec 16).toNat + 48 ≤ 16 * getF hotS F.THM_LIM_THROT ∧
    16 * getF hotS F.THM_LIM_THROT ≤ 16 * getF hotS F.THM_LIM_HOT ∧ isF hotS F.THM_SEN_BROKEN 31 = false ∧ isF hotS F.THM_CTL_XCHK = false ∧ isF hotS F.THM_STAT_STOPPING = false ∧
    16 * getF hotS F.THM_LIM_STOP ≤ (1760 : BitVec 16).toNat ∧ (1760 : BitVec 16).toNat < 16 * getF hotS F.THM_LIM_TRIP ∧ getF hotS F.PWR_PSTATE_CUR ≠ 2 ∧
    partnerActive hotS = false ∧ partnerActive (withF [(F.SYS_PTR_STAT_PSTATE, 2), (F.SYS_PTR_STAT_LINK, 1)] hotS) = true ∧ 16 * getF hotS F.THM_LIM_TRIP ≤ (1920 : BitVec 16).toNat := by decide +kernel

/-- An ACTIVE head with an ACTIVE partner and no group of its own, with a request under way; and one in PARK. -/
def standS (w : Option Nat) : State :=
  { withF [(F.SYS_HEAD_STATE, 2), (F.SYS_PTR_STAT_PSTATE, 2), (F.SYS_PTR_STAT_LINK, 1), (F.SYS_HEAD_ID, 1)] State.reset with pwr := { State.reset.pwr with want := w } }
@[inherit_doc standS] def parkS : State :=
  { withF [(F.PWR_PSTATE_CUR, 2), (F.PWR_PSTATE_AUTOWAKE, 1), (F.THM_LIM_THROT, 90)] State.reset with pwr := { State.reset.pwr with orderly := true } }

theorem test_powerStates_premises : bits (1 : Word) 1 0 = 1 ∧ bits (2 : Word) 1 0 = 2 ∧ headState (standS none) = 2 ∧ (standS none).pwr.want = none ∧ partnerActive (standS none) = true ∧
    partnerActive (withF [(F.SYS_PTR_STAT_LINK, 0)] (standS none)) = false ∧ headState State.reset ≠ 2 ∧ (standS (some 1)).pwr.want = some 1 ∧ drained (standS (some 1)) = true ∧
    (standS (some 2)).pwr.want = some 2 ∧ drained (standS (some 2)) = true ∧ getF (withF [(F.PWR_PSTATE_CUR, 1)] State.reset) F.PWR_PSTATE_CUR = 1 ∧
    getF parkS F.PWR_PSTATE_CUR = 2 ∧ parkS.pwr.want = none ∧ parkS.boot.pwrgood = true ∧ parkS.rst.asserted = none ∧ parkS.rst.held = false ∧ getF parkS F.PWR_PF_STEP = 0 ∧
    (∀ n < 32, regionReading parkS n = none ∧ sensorValid parkS n = false) ∧ parkS.pwr.orderly = true ∧ isF parkS F.PWR_PSTATE_AUTOWAKE = true ∧
    (let s := setF F.THM_SEN_TEMP 1440 (setF F.THM_SEN_VALID 1 parkS 31) 31
     regionReading s 31 = some 1440 ∧ limit s F.THM_LIM_THROT ≤ 1440) := by decide +kernel

/-- A device that has a head reset asserted, by an earlier source. -/
def assertS (code : Nat) : State := { setF F.SYS_SWDT_PERIOD 5 State.reset with rst := { State.reset.rst with asserted := some code }, dtime := 20 }

theorem test_resetSources_premises : (assertS 2).rst.asserted = some 2 ∧ (assertS 2).rst.t0 ≠ (assertS 2).dtime.toNat ∧ getF State.reset F.PWR_PSTATE_CUR ≠ 2 ∧
    ({ State.reset.boot with holdover := true }).holdover = true ∧ State.reset.rst.rstn = false ∧ State.reset.boot.aon = true ∧ getF (assertS 2) F.SYS_SWDT_PERIOD ≠ 0 ∧
    (psuS 4).rst.asserted = none ∧ (psuS 4).pwr.later = none ∧ bits (0x4845414400000001 : Word) 63 32 = 0x48454144 ∧ bit (0x4845414400000001 : Word) 0 = true ∧
    bits (1 : Word) 63 32 ≠ 0x48454144 ∧ getF State.reset F.SYS_SWDT_PERIOD = 0 ∧ bits (0x0000000700000000 : Word) 47 32 ≠ 0 ∧ bits (1 : Word) 47 32 = 0 := by decide +kernel

theorem test_headReset_premises : (assertS 2).rst.asserted = some 2 ∧ (assertS 2).cel.inq = [] ∧ regionOf (assertS 2) 0x4800000000 = .hbm ∧ regionOf (assertS 2) 0x47FFFFFFFF = .hbm ∧ regionOf (assertS 2) 0x37FFFFFFFF = .hbm ∧ regionOf (assertS 2) 0x3800000000 = .hbm ∧ (assertS 2).rst.rstn = false ∧
    tripHolds (after .headReset (assertS 2)) = false ∧ ({ (assertS 2).rst with rstn := true }).rstn = true := by decide +kernel

theorem test_powerOn_premises : State.reset.boot.aon = true ∧ ({ State.reset.boot with aon := false }).aon = false ∧ State.reset.rst.rstn = false ∧ tripHolds State.reset = false ∧
    State.reset.boot.pwrgood = true ∧ ({ State.reset.rst with held := true }).held = true ∧ ({ State.reset.boot with pwrgood := false, cold := true }).pwrgood = false ∧
    ({ State.reset.boot with cold := false }).cold = false ∧ (State.reset.boot.pwrgood = true) := by decide +kernel

theorem test_clocks_premises : refLost State.reset (b2n false) = false ∧ getF State.reset F.CLK_REF_ACTIVE = b2n false ∧ refLost State.reset (1 - b2n false) = false ∧
    refLost (markRef 1 1 State.reset) (1 - b2n false) = true ∧ refLost (markRef 1 1 State.reset) 0 = false ∧ ({ State.reset.boot with holdover := true }).holdover = true := by decide +kernel

/-- A flow program set of one entry point, whose two bank images are the same zeros, and of one instruction: its header and entry table, and the whole. -/
def tinyHead : List Byte :=
  leBytes 4 0x53504647 ++ leBytes 4 1 ++ leBytes 4 4 ++ leBytes 4 1 ++ leBytes 4 64 ++ leBytes 4 68 ++ leBytes 4 68 ++ leBytes 4 32836 ++ zeros 36
@[inherit_doc tinyHead] def tinySet : List Byte := tinyHead ++ (zeros 32768 ++ leBytes 4 0xFFFF)

/-- Cutting zeros gives zeros. -/
theorem cutN_zeros (n : Nat) : ∀ fuel m, ∀ e ∈ cutN n fuel (List.replicate m (0 : Byte)), e = 0 := by
  have z : ∀ k, leNat (List.replicate k (0 : Byte)) = 0 := by
    intro k; induction k with
    | zero => rfl
    | succ k ih => rw [List.replicate_succ, leNat, ih]; rfl
  intro fuel
  induction fuel with
  | zero => intro m e h; cases m <;> simp [cutN] at h
  | succ f ih =>
    intro m e h
    cases m with
    | zero => simp [cutN] at h
    | succ m =>
      rw [List.replicate_succ, cutN, ← List.replicate_succ, List.take_replicate, List.drop_replicate] at h
      rcases List.mem_cons.mp h with h | h
      · rw [h]; exact z _
      · exact ih _ _ h

theorem tinySet_bank (b : Nat) (h : psOffBank tinySet b = 68) : psBank tinySet b = List.replicate 32768 0 := by
  have l : tinyHead.length = 68 := by decide +kernel
  have e : tinySet.drop 68 = zeros 32768 ++ leBytes 4 0xFFFF := by
    show (tinyHead ++ (zeros 32768 ++ leBytes 4 0xFFFF)).drop 68 = _
    rw [← l]; exact List.drop_left
  rw [psBank, h, e]
  show (List.replicate 32768 0 ++ leBytes 4 0xFFFF).take 32768 = _
  exact List.take_left' (List.length_replicate ..)

theorem tinySet_length : tinySet.length = 32840 := by
  show (tinyHead ++ (zeros 32768 ++ leBytes 4 0xFFFF)).length = _
  rw [List.length_append, List.length_append, show tinyHead.length = 68 by decide +kernel, show (zeros 32768).length = 32768 from List.length_replicate ..]; rfl

theorem test_setChecks_premises : setChecks State.reset tinySet = true ∧ setChecks State.reset [] = false := by
  refine ⟨?_, by decide +kernel⟩
  have hb : ∀ b, b = 0 ∨ b = 1 → (bankEntries (psBank tinySet b)).all (fun e => !decide (0x8000 ≤ e) || decide (e % 4096 < psEntries tinySet)) = true := by
    intro b hb
    have : psOffBank tinySet b = 68 := by rcases hb with rfl | rfl <;> decide +kernel
    rw [tinySet_bank b this, bankEntries, List.all_eq_true]
    intro e he
    rw [List.take_replicate] at he
    rw [cutN_zeros _ _ _ e he]; rfl
  have h : ([0, 1].all fun b => (bankEntries (psBank tinySet b)).all fun e => !decide (0x8000 ≤ e) || decide (e % 4096 < psEntries tinySet)) = true := by
    simp only [List.all_cons, List.all_nil, hb 0 (.inl rfl), hb 1 (.inr rfl), Bool.and_true]
  unfold setChecks
  simp only [tinySet_length, h, Bool.and_true]
  decide +kernel

/-- A manifest of a NONREV bank that writes FMTVER 3 of family CFG, a device that boots such a bank in TRIAL, and a copy of a kind that fits it. -/
def nonrev : List Byte := zeros 7 ++ [1] ++ zeros 20 ++ [3] ++ zeros 99
@[inherit_doc nonrev] def nonrevS : State := { State.reset with boot := { State.reset.boot with step := 4 }, upd := { State.reset.upd with banks := [(0, { state := 2, manifest := nonrev })] } }
@[inherit_doc nonrev] def convCopy (kind : Byte) : List Byte := [0x56, 0x43, 0x46, 0x47, 3, kind]

/-- A device whose boot has done some steps. -/
def bootS (n : Nat) : State := { State.reset with boot := { State.reset.boot with step := n }, partner := { State.reset.partner with hb := true } }

theorem test_boot_premises : (∀ n < 7, headState (bootS n) = 0 ∧ (bootS n).boot.stopped = false ∧ (bootS n).rst.held = false ∧ (bootS n).rst.asserted = none ∧ (bootS n).boot.aon = true ∧ (bootS n).boot.step = n) ∧
    (bankOf (bootS 0) 0).state = 3 ∧ (bankOf (bootS 0) 1).state = 0 ∧ 0 < 128 ∧ (bootS 6).partner.hb = true ∧ (bootS 6).partner.fenceIn = false ∧
    (bankOf (bootS 3) (activeBank (bootS 3))).state = 3 ∧ (bankOf (bootS 4) (activeBank (bootS 4))).state ≠ 2 ∧ (bootS 3).boot.cold = true ∧ cfgBinding (bootS 3).boot.cfg = none ∧
    ({ (bootS 2).boot with cold := false }).cold = false ∧ getF (bootS 2) F.PWR_VSTAT_FAILED = 0 ∧ isF (setF F.PWR_VAULT_EN 0 (bootS 2)) F.PWR_VAULT_EN = false ∧
    isF (setF F.PWR_VAULT_EN 1 (bootS 2)) F.PWR_VAULT_EN = true ∧ newestCopy [] = none ∧
    nonrevS.boot.step = 4 ∧ (bankOf nonrevS (activeBank nonrevS)).state = 2 ∧ mNonrev (bankOf nonrevS (activeBank nonrevS)).manifest = true ∧
    convGood nonrevS 2 (convCopy 2) = true ∧ convGood nonrevS 1 (convCopy 1) = true ∧ headState nonrevS = 0 ∧ nonrevS.boot.stopped = false ∧ nonrevS.rst.held = false ∧ nonrevS.boot.aon = true := by
  decide +kernel

/-- A device with four vault drives and a checkpoint under way, and one with none. -/
def ckptS : State := withF [(F.PWR_VAULT_EN, 1), (F.SYS_CKPTSTAT_BUSY, 1)] State.reset

theorem test_cores_premises : bit (6 : Word) 2 = true ∧ (getF State.reset F.SYS_CORE_RUN).testBit 2 = false ∧ (getF State.reset F.SYS_CORE_RUN).testBit 0 = true ∧
    bit (0x6000010001 : Word) 0 = true ∧ bits (0x6000010001 : Word) 2 1 = 0 ∧ isF State.reset F.SYS_CKPTSTAT_BUSY = false ∧
    ckptBytes (rdB State.reset (bits (0x6000010001 : Word) 47 12 * 4096) 4096) ≤ 0x2000_0000 ∧
    isF ckptS F.SYS_CKPTSTAT_BUSY = true ∧ ((vaultDrives ckptS).filter fun d => !(3 : BitVec 4).toNat.testBit d).length ≤ 2 ∧
    2 < ((vaultDrives ckptS).filter fun d => !(1 : BitVec 4).toNat.testBit d).length ∧ getF ckptS F.SYS_CKPT_AREA = 0 := by decide +kernel

theorem test_stage_premises : bit (3 : Word) 0 = true ∧ bits (3 : Word) 3 1 = 1 ∧ 3 ≤ (vaultDrives ckptS).length := by decide +kernel

/-- A device whose active bank is on TRIAL and whose other bank is STAGED, with maker slot 0 enrolled. -/
def banksS : State :=
  { withF [(F.UPD_ACT_TIME, 5), (F.UPD_FUSE_ENROLLED, 1)] State.reset with
    upd := { State.reset.upd with banks := [(0, { gen := 4, state := 2, manifest := zeros 192 }), (1, { gen := 3, state := 1 })] } }

theorem test_update_premises : bit (5 : Word) 0 = true ∧ bits (5 : Word) 3 1 = 2 ∧ (bankOf banksS (otherBank banksS)).state = 1 ∧ getF banksS F.UPD_ACT_TIME ≠ 0 ∧
    getF State.reset F.UPD_ACT_TIME = 0 ∧ bits (7 : Word) 3 1 = 3 ∧ bits (9 : Word) 3 1 = 4 ∧ (bankOf banksS (activeBank banksS)).state = 2 ∧ mNonrev (bankOf banksS (activeBank banksS)).manifest = false ∧
    bits (0x30B : Word) 3 1 = 5 ∧ isF banksS F.UPD_FUSE_SEALED = false ∧ bits (0x30B : Word) 15 8 < 4 ∧ isF (setF F.UPD_FUSE_SEALED 1 banksS) F.UPD_FUSE_SEALED = true ∧
    bits (0xD : Word) 3 1 = 6 ∧ slotLive banksS 0 = true ∧ bits (0xF : Word) 3 1 = 7 := by decide +kernel

/-- An ACTIVE head that is armed, and with groups SETTLED. -/
def armedS : State :=
  { withF [(F.UPD_STAT_ARMED, 1), (F.UPD_ACT_TIME, 5), (F.SYS_HEAD_STATE, 2), (F.SYS_PTR_STAT_PSTATE, 2), (F.SYS_PTR_STAT_LINK, 1), (F.SYS_HEAD_ID, 1)] banksS with dtime := 5 }
@[inherit_doc armedS] def settle : List Nat → State → State
  | [], s => s
  | g :: l, s => setF F.SYS_GRP_POS 0 (settle l s) g

theorem grp_addr (g : Nat) : (RegName.SYS_GRP).addr g 0 = (RegName.SYS_GRP).addr 0 0 + 8 * g := by
  rw [RegName.addr, RegName.addr]; show csrBase + 0 * 0x100_0000 + 0x1000 + g * 8 + 0 * 0 = csrBase + 0 * 0x100_0000 + 0x1000 + 0 * 8 + 0 * 0 + 8 * g; omega

theorem settle_pos (l : List Nat) (s : State) : ∀ g ∈ l, grpPos (settle l s) g = 0 := by
  induction l with
  | nil => intro g h; cases h
  | cons k l ih =>
    intro g h
    rcases Nat.decEq g k with hk | rfl
    · have ne : (RegName.SYS_GRP).addr g 0 ≠ (RegName.SYS_GRP).addr k 0 := by
        have a := grp_addr g
        have b := grp_addr k
        omega
      exact (getF_setF_of_addr_ne (f := F.SYS_GRP_POS) (g := F.SYS_GRP_POS) ne 0 _).trans (ih g ((List.mem_cons.mp h).resolve_left hk))
    · exact (getF_setF_self (f := F.SYS_GRP_POS) (by decide) 0 _ _ _).trans rfl

theorem settle_other (f : Fld) (h : ∀ g, f.reg.addr 0 0 ≠ (RegName.SYS_GRP).addr g 0) (l : List Nat) (s : State) : getF (settle l s) f = getF s f := by
  induction l with
  | nil => rfl
  | cons k l ih => exact (getF_setF_of_addr_ne (f := F.SYS_GRP_POS) (g := f) (h k) 0 _).trans ih

theorem addr_ne_grp {r : RegName} (h : r.addr 0 0 < (RegName.SYS_GRP).addr 0 0) (g : Nat) : r.addr 0 0 ≠ (RegName.SYS_GRP).addr g 0 := by
  rw [grp_addr]; omega

theorem settle_mayStart (l : List Nat) (s : State) (hl : ∀ g, g < 1024 → g ∈ l) (h : headState s = 2) (hp : partnerActive s = true) :
    mayStart (settle l s) = true := by
  have pos : groups (fun g => decide (grpPos (settle l s) g ≠ 0)) = [] := by
    rw [groups, List.filter_eq_nil_iff]
    intro g hg
    rw [settle_pos l s g (hl g (List.mem_range.mp hg))]; decide
  have hs : headState (settle l s) = headState s := settle_other _ (addr_ne_grp (by decide +kernel)) _ _
  have hq : partnerState (settle l s) = partnerState s := settle_other _ (addr_ne_grp (by decide +kernel)) _ _
  have hk : linkUp (settle l s) = linkUp s := by
    rw [linkUp, linkUp, isF, isF, settle_other _ (addr_ne_grp (by decide +kernel))]
  rw [partnerActive] at hp
  rw [mayStart, partnerActive, pos, hs, hq, hk, h, hp]; rfl

theorem test_mayStart_premises : mayStart (settle (List.range 1024) armedS) = true :=
  settle_mayStart _ _ (fun _ h => List.mem_range.mpr h) (by decide +kernel) (by decide +kernel)

theorem test_activation_premises : isF armedS F.UPD_STAT_ARMED = true ∧ getF armedS F.UPD_ACT_TIME ≤ armedS.dtime.toNat ∧ getF armedS F.PWR_PF_STEP = 0 ∧ headState armedS = 2 ∧
    partnerActive armedS = true ∧ armedS.upd.theirs = false ∧ armedS.upd.announced = false ∧ ({ armedS.upd with announced := true }).announced = true ∧
    ({ armedS with dtime := 4 } : State).dtime.toNat < getF armedS F.UPD_ACT_TIME ∧ ({ armedS.upd with due := true }).due = true ∧ armedS.upd.draining = false ∧
    ({ armedS.upd with draining := true }).draining = true ∧ ownedGroups armedS = [] ∧ armedS.ta.recs = [] ∧ armedS.pwr.parkNext = false ∧ armedS.rst.asserted = none ∧ armedS.rst.held = false := by
  decide +kernel

theorem test_attest_premises : bit (1 : Word) 0 = true ∧ isF State.reset F.SEC_ATTCMD_BUSY = false ∧ Memory.wf State.reset.mem = true ∧ (quote State.reset).length ≤ 1408 ∧
    inHbmDdr State.reset (getF (withF [(F.SEC_ATTBUF_BASE, 0x6000010)] State.reset) F.SEC_ATTBUF_BASE * 4096) 1408 = true ∧
    inHbmDdr State.reset (getF State.reset F.SEC_ATTBUF_BASE * 4096) 1408 = false := by decide +kernel

theorem test_pps_and_tap_premises : ({ State.reset.rst with rstn := true }).rstn = true ∧ State.reset.rst.rstn = false := by decide +kernel

theorem test_idcode : (after .tapIdcode State.reset).out = [.tap [true, true, true, true, true, false, false, false, false, true, false, true, false, false, true, false,
    false, true, false, false, false, false, false, false, true, false, false, true, true, false, false, false]] := by decide +kernel

/-- A register's address as steward core 0 gives it. -/
def regA (r : RegName) : Word := BitVec.ofNat 64 (r.addr 0 0)

theorem test_registerAccess_premises : kget (stewS stew0).stews (0 : BitVec 4).toNat = some stew0 ∧ stew0.run = true ∧ stew0.p = true ∧ regionOf (stewS stew0) (regA .SYS_PTR_CTL).toNat = .csr ∧
    (regA .SYS_PTR_CTL).toNat = (RegName.SYS_PTR_CTL).addr 0 0 ∧ (regA .SYS_ID).toNat = (RegName.SYS_ID).addr 0 0 ∧ (regA .HFE_KATO_CNT).toNat = (RegName.HFE_KATO_CNT).addr 0 0 ∧
    regionOf (stewS stew0) (regA .HFE_KATO_CNT).toNat = .csr ∧ (regA .HFE_KATO_CNT).toNat % 8 = 0 ∧ regionOf (stewS stew0) ((regA .SYS_PTR_CTL).toNat + 4) = .csr ∧
    ((regA .SYS_PTR_CTL).toNat + 4) % 8 ≠ 0 ∧ stewU.p = false ∧ stewU.run = true ∧ regAt ((regA .SYS_ID).toNat + 0xFF_FFF8) = none ∧
    regAt (regA .HFE_KATO_CNT).toNat = some (.HFE_KATO_CNT, 0, 0) := by decide +kernel

theorem test_counter_reads_and_clears : let s := bumpBy 3 .HFE_KATO_CNT (stewS stew0)
    (after (.rcRead 0 (regA .HFE_KATO_CNT)) s).out = [.csrRead (regA .HFE_KATO_CNT).toNat 3] ∧ rd (after (.rcRead 0 (regA .HFE_KATO_CNT)) s) .HFE_KATO_CNT = 0 := by decide +kernel

/-- A device whose governor holds clock modes, with region 31 between WARN and THROT. -/
def warmS : State :=
  setF F.THM_SEN_TEMP 1360 (setF F.THM_SEN_VALID 1 (withF [(F.THM_CTL_GOVEN, 1), (F.THM_CTL_GOVMAXM, 3), (F.THM_LIM_WARN, 80), (F.THM_LIM_THROT, 90)] State.reset) 31) 31

theorem test_governor_premises : keysFrom 0 State.reset.weight = true ∧ (1 : BitVec 32) ≠ 0 ∧ State.reset.plc.slow.Nodup ∧
    (let s := setF F.SYS_GRP_POS 0 (trialS (skipThresh State.reset))
     trialFull s 0x3FFFF = true ∧ trialOpens s 0x3FFFF = true ∧ ownsVol s 0x3FFFF = true ∧ windowSize s 0x3FFFF = (64 : BitVec 32).toNat) ∧
    isF warmS F.THM_CTL_GOVEN = true ∧ (31 : BitVec 32).toNat < 32 ∧ getF warmS F.THM_LVL_FLOOR 31 = 0 ∧ regionReading warmS 31 = some 1360 ∧
    limit warmS F.THM_LIM_WARN ≤ 1360 ∧ 1360 < limit warmS F.THM_LIM_THROT ∧ (3 : BitVec 32).toNat ≤ getF warmS F.THM_CTL_GOVMAXM ∧ (0 : BitVec 32).toNat ≤ getF warmS F.THM_CTL_GOVMAXM := by
  decide +kernel

theorem test_illegalForms_premises : Issues (.fsq 5) (.ctx 7) 4 (flowS ctx0) ∧ kget (flowS ctx0).ctxs 7 = some ctx0 ∧ (1 : RegNo) ≠ 0 ∧ 64 ≤ (64 : BitVec 16).toNat :=
  ⟨issues_flow.1, by decide +kernel⟩

theorem test_badPackets_premises : ({ bth 4 0 with icrcOk := false } : Bth).icrcOk = false ∧ (bth 4 0).icrcOk = true ∧ qpIndex (bth 4 0).qpn = some 9 ∧ qpState State.reset 9 = 0 ∧
    qpIndex ({ bth 4 0 with qpn := 0x1FFFF } : Bth).qpn = none := by decide +kernel

theorem test_registers_premises : MayAccess (stewS stew0) 0 (regA .SYS_GRP) ∧ MayAccess (stewS stew0) 0 (regA .GANG_CFG) ∧ MayAccess (stewS stew0) 0 (regA .PWR_PSU) ∧
    (let a : Word := regA .SYS_ID + 0xFF_FFF8
     MayAccess (stewS stew0) 0 a ∧ regAt a.toNat = none) :=
  ⟨⟨stew0, by decide +kernel⟩, ⟨stew0, by decide +kernel⟩, ⟨stew0, by decide +kernel⟩, ⟨stew0, by decide +kernel⟩, by decide +kernel⟩

theorem test_groupWrites_premises : (regA .SYS_GRP).toNat = (RegName.SYS_GRP).addr 0 0 ∧ (1 : Word).toNat < 2 ∧ grpPos (stewS stew0) 0 ≠ 0 ∧ grpPos (setF F.SYS_GRP_POS 0 (stewS stew0)) 0 = 0 := by
  decide +kernel

theorem test_gangWrites_premises : (regA .GANG_CFG).toNat = (RegName.GANG_CFG).addr 0 0 ∧ bits (0x31 : Word) 63 6 = 0 ∧ bits (0x31 : Word) 3 2 = 0 ∧
    (∀ l < 3, isF (stewS stew0) F.GANG_LNK_CTL_EN l = false) ∧ isF (setF F.GANG_LNK_CTL_EN 1 (stewS stew0) 2) F.GANG_LNK_CTL_EN 2 = true := by decide +kernel

theorem test_supplyWrites_premises : (regA .PWR_PSU).toNat = (RegName.PWR_PSU).addr 0 0 ∧ bits (3 : Word) 1 0 ≠ 0 ∧ getF (psuS 4) F.PWR_PF_STEP ≠ 0 ∧
    ({ (assertS 2).pwr with psuLater := some 3 }).psuLater = some 3 ∧ (assertS 2).rst.asserted = some 2 := by decide +kernel

/-! ### Commands that the device cannot be given -/

theorem test_illFormed_commands : Instr.wellFormed (.ioCapsuleReceived 3 (zeros 63) [] false) = false ∧ Instr.wellFormed (.flush 3 (zeros 65)) = false ∧
    Instr.wellFormed (.forwardedCommandReceived 3 9 0 ⟨1, [], []⟩) = false ∧ Instr.wellFormed (.sanitize 0 (zeros 63) none) = false ∧
    Instr.wellFormed (.pageInComplete (2 ^ 22)) = false ∧ Instr.wellFormed (.storePerformed (2 ^ 22) 0) = false ∧
    Instr.wellFormed (.ethernetFrameReceived 48 false 0 [zeros 255]) = false ∧ Instr.wellFormed (.cellFrame 0 { lframe 1024 with cell := cell0 }) = false ∧
    Instr.wellFormed (.idleFrame 0 { lframe 0 with cell := [] }) = false ∧ Instr.wellFormed (.heartbeat 76 (zeros 63)) = false ∧
    Instr.wellFormed (.tapCapture true 0 0 (zeros 80) 0 0) = false := by decide +kernel

theorem test_illFormed_packets : Instr.wellFormed (.cnpReceived { bth 0x81 0 with qpn := 2 ^ 24 }) = false ∧ Instr.wellFormed (.rdmaAckReceived (bth 0x11 (2 ^ 24)) []) = false ∧
    Instr.wellFormed (.rdmaNakReceived (bth 256 0) 0x60) = false ∧ Instr.wellFormed (.mark { hdr0 with stream := 4096 }) = false ∧
    Instr.wellFormed (.offer hdr0 (List.replicate 65 ⟨zeros 32, 0, 0⟩)) = false ∧ Instr.wellFormed (.offer hdr0 [⟨zeros 31, 0, 0⟩]) = false ∧
    Instr.wellFormed (.offer hdr0 [⟨zeros 32, 2 ^ 32, 0⟩]) = false ∧ Instr.wellFormed (.offer hdr0 [⟨zeros 32, 0, 0⟩]) = true := by decide +kernel

theorem test_illFormed_reads : wfAns (.block (zeros 4095) (zeros 64)) = false ∧ wfAns (.block (zeros 4096) (zeros 63)) = false ∧ wfSlot (some (zeros 1000, zeros 16)) = false ∧
    wfSlot (some ([], zeros 16)) = false ∧ wfSlot (some (zeros 5120, zeros 16)) = false ∧ wfSlot (some (zeros 1024, zeros 15)) = false ∧
    wfRec { recvRec 9 with off := 32 } = false ∧ wfRec { recvRec 9 with bytes := zeros 63 } = false ∧ wfRec { recvRec 9 with copies := [(0, 0, zeros 4097)] } = false ∧ wfRec (recvRec 9) = true := by
  decide +kernel

theorem test_illFormed_boot : Instr.wellFormed (.boot (.memory (List.replicate 11 64))) = false ∧ Instr.wellFormed (.boot (.memory (List.replicate 12 64))) = true ∧
    Instr.wellFormed (.blkwr 1 (.block [] [])) = false ∧ Instr.wellFormed (.fpRemoval (some ([], []))) = false ∧
    Instr.wellFormed (.boot (.restore [] [(2, [])] [] [])) = false ∧ Instr.wellFormed (.boot (.restore [] [] [(2, [])] [])) = false ∧
    Instr.wellFormed (.boot (.restore [] [(1, [])] [(1, [])] [])) = true ∧ Instr.wellFormed (.boot (.restore [] [] [] [(0, [])])) = false ∧
    Instr.wellFormed (.boot (.restore [] [] [] [(0, List.replicate 3 ([], zeros 64))])) = false ∧
    Instr.wellFormed (.boot (.restore [] [] [] [(0, List.replicate 3 (zeros 4096, []))])) = false ∧
    Instr.wellFormed (.boot (.finish [{ recvRec 9 with off := 32 }])) = false := by decide +kernel

/-! ### The words of the instructions, each written out field by field from its format (R65 to R67) -/

theorem test_words_of_every_format : let c : Core := .fsq 0
    gfiDecode c 0b000000_00001_00010_00011_00000000001 0 0 = some (.sub c 1 2 3) ∧ gfiDecode c 0b100000_11111_00010_00011_00000000010 0 0 = some (.amocas c 31 2 3) ∧
    gfiDecode c 0b000001_00001_11111_1000000000000001 0 0 = some (.addi c 1 31 (.short 0x8001)) ∧ gfiDecode c 0b001001_00001_00010_0000000000111111 0 0 = some (.srai c 1 2 63) ∧
    gfiDecode c 0b011011_00001_00010_0000000000000100 0 0 = some (.sb c 1 2 (.short 4)) ∧ gfiDecode c 0b101101_00001_00010_1111111111111111 0 0 = some (.bgeu c 1 2 (.short 0xFFFF)) ∧
    gfiDecode c 0b110001_10000000000000000000000001 0 0 = some (.jal c 0x2000001) ∧ gfiDecode c 0b110101_00001_00010_00000011_00000001 0 0 = some (.drop c 1 2 1) ∧
    gfiDecode c 0b111100_00001_00000_00000000_00000101 0 0 = some (.mfs c 1 0 5) ∧
    gfiDecode c 0b111111_00000000000000000000000000 0b000001_00001_00010_0000000000000000 0xFFFFFFFF = some (.addi c 1 2 (.long 0xFFFFFFFF)) ∧
    gfiDecode c 0b111111_00000000000000000000000001 0b000001_00001_00010_0000000000000000 0 = none ∧
    gfiDecode c 0b111111_00000000000000000000000000 0b000001_00001_00010_0000000000000001 0 = none ∧ gfiDecode c 0b000000_00001_00010_00011_00000001111 0 0 = none := by decide +kernel

theorem test_submit_word : gfiDecode (.fsq 0) 0b110100_0011_101_001100_1000000000001 0 0 = some (.submit (.fsq 0) 3 5 12 0x1001) := by decide +kernel

/-! ### The table gives no bits -/

theorem test_no_word_spells_a_command (n w : Nat) : decodeTableWord n w = none := rfl

end Sys2Proof.Tests
end

section
/-! SUPPORT. What reads and writes do to a register bit by bit and field by field (R9, R11), and what a record of the log and a count of
occurrences leave of the stored registers. -/

namespace Sys2Proof.Machine

/-! ### Fields of a word -/

/-- A field is its bits. -/
theorem bits_congr {w v : Word} {hi lo : Nat} (h : ∀ i, i < hi + 1 - lo → w.getLsbD (lo + i) = v.getLsbD (lo + i)) : bits w hi lo = bits v hi lo := by
  apply Nat.eq_of_testBit_eq
  intro i
  rw [bits, bits, bitsN_eq_testBit, bitsN_eq_testBit, ← BitVec.getLsbD, ← BitVec.getLsbD]
  by_cases hi' : i < hi + 1 - lo
  · rw [h i hi']
  · simp [hi']

@[simp] theorem bits_zero (hi lo : Nat) : bits 0 hi lo = 0 := by simp [bits, bitsN]

/-- Keeping the bits from 0 up to `hi` keeps the value of that field. -/
theorem and_maskW_zero (w : Word) (hi : Nat) : w &&& maskW hi 0 = BitVec.ofNat 64 (bits w hi 0) := by
  apply BitVec.eq_of_getLsbD_eq
  intro i hi'
  rw [BitVec.getLsbD_and, getLsbD_maskW, BitVec.getLsbD_ofNat, bits, bitsN_eq_testBit, Nat.zero_add, ← BitVec.getLsbD, Bool.and_comm]
  simp [Bool.and_assoc]

theorem getLsbD_maskW_of_mem {hi lo i : Nat} (h : lo + i < 64) (h' : i < hi + 1 - lo) : (maskW hi lo).getLsbD (lo + i) = true := by
  rw [getLsbD_maskW]
  simp only [Bool.and_eq_true, decide_eq_true_eq]
  omega

/-! ### The implemented bits of a register, and what a read clears -/

theorem getLsbD_implemented (r : RegName) (i : Nat) : r.implemented.getLsbD i = r.info.fields.any fun f => (maskW f.hi f.lo).getLsbD i := by
  have fold (l : List FieldDef) (w : Word) :
      (l.foldl (fun w f => w ||| maskW f.hi f.lo) w).getLsbD i = (w.getLsbD i || l.any fun f => (maskW f.hi f.lo).getLsbD i) := by
    induction l generalizing w with
    | nil => simp
    | cons f l ih => rw [List.foldl_cons, ih, BitVec.getLsbD_or, List.any_cons, Bool.or_assoc]
  rw [RegName.implemented, fold]
  simp

/-- The value of a field is not touched by the reserved bits that a write ignores (R11). -/
theorem bits_and_implemented {r : RegName} {f : FieldDef} (hf : f ∈ r.info.fields) (hw : f.hi < 64) (v : Word) :
    bits (v &&& r.implemented) f.hi f.lo = bits v f.hi f.lo :=
  bits_congr fun i hi => by
    have hm : (maskW f.hi f.lo).getLsbD (f.lo + i) = true := getLsbD_maskW_of_mem (by omega) hi
    have hr : r.implemented.getLsbD (f.lo + i) = true := by
      rw [getLsbD_implemented, List.any_eq_true]
      exact ⟨f, hf, hm⟩
    rw [BitVec.getLsbD_and, hr, Bool.and_true]

/-- A read clears the bits of the RC fields and no others. -/
theorem getLsbD_clearRc (w : Word) (l : List FieldDef) (i : Nat) :
    (clearRc w l).getLsbD i = (w.getLsbD i && l.all fun f => decide (f.ty ≠ .rc) || !(maskW f.hi f.lo).getLsbD i) := by
  induction l generalizing w with
  | nil => simp [clearRc]
  | cons f l ih =>
    unfold clearRc
    cases hty : f.ty with
    | rc =>
      have hn : (w &&& ~~~(maskW f.hi f.lo)).getLsbD i = (w.getLsbD i && !(maskW f.hi f.lo).getLsbD i) := by
        rw [BitVec.getLsbD_and, BitVec.getLsbD_not]
        by_cases h : i < 64
        · simp [h]
        · simp [BitVec.getLsbD_of_ge w i (by omega)]
      simp [ih, hn, hty, Bool.and_assoc]
    | ro | rw | wo | w1c | w1s => simp [ih, hty]

/-- An RC field is zero once it has been read (R9). -/
theorem bits_clearRc_of_mem {l : List FieldDef} {f : FieldDef} (hf : f ∈ l) (hty : f.ty = .rc) (w : Word) : bits (clearRc w l) f.hi f.lo = 0 := by
  rw [← bits_zero f.hi f.lo]
  apply bits_congr
  intro i hi
  rw [getLsbD_clearRc]
  by_cases h : f.lo + i < 64
  · have hm : (maskW f.hi f.lo).getLsbD (f.lo + i) = true := getLsbD_maskW_of_mem h hi
    have hall : (l.all fun g => decide (g.ty ≠ .rc) || !(maskW g.hi g.lo).getLsbD (f.lo + i)) = false :=
      List.all_eq_false.mpr ⟨f, hf, by simp [hty, hm]⟩
    rw [hall, Bool.and_false]
    simp
  · simp [BitVec.getLsbD_of_ge w _ (Nat.le_of_not_lt h)]

/-! ### What a write stores in the fields of a register -/

/-- A write leaves the bits that no field covers (R11). -/
theorem bits_writeFields_of_apart {hi lo : Nat} {l : List FieldDef} (h : ∀ f ∈ l, hi < f.lo ∨ f.hi + 1 ≤ lo) (old v : Word) :
    bits (writeFields old v l) hi lo = bits old hi lo := by
  induction l generalizing old with
  | nil => rfl
  | cons f l ih =>
    have hf := h f List.mem_cons_self
    unfold writeFields
    rw [ih fun g hg => h g (List.mem_cons_of_mem f hg)]
    cases f.ty with
    | rw | w1c | w1s => exact bits_setBits_of_disjoint _ _ hf
    | ro | wo | rc => rfl

/-- A write stores an RW field (R9): the fields of a register do not overlap. -/
theorem bits_writeFields_of_rw {l : List FieldDef} (hl : l.Pairwise fun f g => f.hi < g.lo ∨ g.hi + 1 ≤ f.lo) {f : FieldDef} (hf : f ∈ l) (hty : f.ty = .rw)
    (hw : f.hi < 64) (old v : Word) : bits (writeFields old v l) f.hi f.lo = bits v f.hi f.lo := by
  induction l generalizing old with
  | nil => cases hf
  | cons g l ih =>
    obtain ⟨hg, hl⟩ := List.pairwise_cons.mp hl
    unfold writeFields
    rcases List.mem_cons.mp hf with rfl | hf
    · rw [bits_writeFields_of_apart hg, hty]
      exact (bits_setBits_self old hw _).trans (Nat.mod_eq_of_lt (bits_lt _ _ _))
    · exact ih hl hf _

/-- A write leaves a register of RO fields (R9). -/
theorem writeFields_of_ro {l : List FieldDef} (h : ∀ f ∈ l, f.ty = .ro) (old v : Word) : writeFields old v l = old := by
  induction l with
  | nil => rfl
  | cons f l ih =>
    unfold writeFields
    rw [h f List.mem_cons_self]
    exact ih fun g hg => h g (List.mem_cons_of_mem f hg)

/-! ### The registers that the log and the performance counters change -/

/-- A register reads the same in states that store the same at its address. -/
theorem rd_of_kget {s t : State} {r : RegName} {i j : Nat} (h : kget t.csr (r.addr i j) = kget s.csr (r.addr i j)) : rd t r i j = rd s r i j := by
  rw [rd, rd, kgetD, kgetD, h]

theorem celLoss_csr (s : State) : (celLoss s).csr = s.csr := by
  unfold celLoss
  dsimp only
  split
  · exact raise_csr _ _ _
  · rfl

/-- A record changes no register but the count of lost records. -/
theorem sameRegsBut_celPush (r : CelRec) (s : State) : SameRegsBut [(RegName.CEL_LOST).addr 0 0] s (celPush r s) := by
  intro a ha
  rw [List.mem_singleton] at ha
  unfold celPush
  split
  · rfl
  · rw [celLoss_csr]
    exact kget_kput_ne _ ha _

theorem rd_celIgnored {r : RegName} {i j : Nat} (h : r.addr i j ≠ (RegName.CEL_LOST).addr 0 0) (a : Nat) (v : Word) (s : State) :
    rd (celIgnored a v s) r i j = rd s r i j :=
  rd_of_kget (sameRegsBut_celPush _ s _ (by simpa using h))

/-- A register that no counter changes is not the count of a counter. -/
theorem ne_addr_pmcCnt {a : Nat} (ha : isPmcReg a = false) {n : Nat} (hn : n < 1024) : a ≠ (RegName.PMC_CNT).addr n 0 := by
  have first : (RegName.PMC_CNT).addr 0 0 = 0x105002000 := rfl
  have last : (RegName.PMC_CNT).addr 1023 0 = 0x105002000 + 1023 * 8 := rfl
  have this : (RegName.PMC_CNT).addr n 0 = 0x105002000 + n * 8 := rfl
  simp only [isPmcReg, Bool.or_eq_false_iff, Bool.and_eq_false_iff, decide_eq_false_iff_not] at ha
  omega

/-- A register that no counter changes holds no overflow bits. -/
theorem ne_addr_pmcOvf {a : Nat} (ha : isPmcReg a = false) {n : Nat} (hn : n < 16) : a ≠ (RegName.PMC_OVF).addr n 0 := by
  have first : (RegName.PMC_OVF).addr 0 0 = 0x105000100 := rfl
  have last : (RegName.PMC_OVF).addr 15 0 = 0x105000100 + 15 * 8 := rfl
  have this : (RegName.PMC_OVF).addr n 0 = 0x105000100 + n * 8 := rfl
  simp only [isPmcReg, Bool.or_eq_false_iff, Bool.and_eq_false_iff, decide_eq_false_iff_not] at ha
  omega

/-- A counter that adds changes only counts and overflow bits, its own or those of a counter to which it passes its overflow on (R540, R541). -/
theorem kget_pmcAdd {a : Nat} (ha : isPmcReg a = false) (fuel : Nat) {n : Nat} (hn : n < 1024) (k : Nat) (s : State) :
    kget (pmcAdd fuel n k s).csr a = kget s.csr a := by
  induction fuel generalizing n k s with
  | zero => rfl
  | succ fuel ih =>
    have count (v : Nat) (t : State) : kget (setF F.PMC_CNT_COUNT v t n).csr a = kget t.csr a := kget_kput_ne _ (ne_addr_pmcCnt ha hn) _
    have ovf (v : Word) (t : State) : kget (wr .PMC_OVF v t (n / 64)).csr a = kget t.csr a := kget_kput_ne _ (ne_addr_pmcOvf ha (by omega)) _
    unfold pmcAdd
    dsimp only
    split
    · exact count _ _
    · generalize hw : wr .PMC_OVF _ _ _ _ = w
      have hovf : kget w.csr a = kget s.csr a := by rw [← hw, ovf, count]
      have hevent : kget (if isF w F.PMC_SEL_OVFEV n then raise 0x0510 n w else w).csr a = kget s.csr a := by
        split
        · rw [raise_csr, hovf]
        · exact hovf
      generalize (if isF w F.PMC_SEL_OVFEV n then raise 0x0510 n w else w) = t at hevent ⊢
      split
      · next hchain =>
        rw [Bool.and_eq_true, decide_eq_true_eq] at hchain
        split
        · exact (ih (by omega) 1 t).trans hevent
        · exact hevent
      · exact hevent

/-- The counters that an occurrence may reach are counters of the device. -/
theorem lt_of_mem_pmcListed {s : State} {n : Nat} (h : n ∈ pmcListed s) : n < 1024 := by
  obtain ⟨kv, hkv, rfl⟩ := List.mem_map.mp h
  have hle := (List.mem_filter.mp hkv).2
  have first : (RegName.PMC_SEL).addr 0 0 = 0x105006000 := rfl
  have last : (RegName.PMC_SEL).addr 1023 0 = 0x105006000 + 1023 * 8 := rfl
  simp only [Bool.and_eq_true, decide_eq_true_eq] at hle
  omega

/-- An occurrence changes no register but the counts and overflow bits of the performance counters (R538 to R540). -/
theorem kget_pmc {a : Nat} (ha : isPmcReg a = false) (ev inst k : Nat) (s : State) : kget (pmc ev inst k s).csr a = kget s.csr a := by
  have fold (l : List Nat) (hl : ∀ n ∈ l, n < 1024) (t : State) :
      kget (l.foldl (fun t n => if pmcSelects s ev inst n then pmcAdd 1024 n k t else t) t).csr a = kget t.csr a := by
    induction l generalizing t with
    | nil => rfl
    | cons n l ih =>
      rw [List.foldl_cons, ih fun m hm => hl m (List.mem_cons_of_mem n hm)]
      split
      · exact kget_pmcAdd ha 1024 (hl n List.mem_cons_self) k t
      · rfl
  unfold pmc
  split
  · rfl
  · exact fold _ (fun n hn => lt_of_mem_pmcListed hn) s

/-- A decision of the governor is counted and recorded (R42): no other register changes. -/
theorem rd_govRecord {r : RegName} {i j : Nat} (hp : isPmcReg (r.addr i j) = false) (hc : r.addr i j ≠ (RegName.CEL_LOST).addr 0 0)
    (kind object new old : Nat) (s : State) : rd (govRecord kind object new old s) r i j = rd s r i j :=
  rd_of_kget ((kget_pmc hp _ _ _ _).trans (sameRegsBut_celPush _ s _ (by simpa using hc)))

end Sys2Proof.Machine
end

section
/-! SUPPORT and PROOFS. Accesses of steward cores to the registers (R9 to R14, R27, R79). -/

namespace Sys2Proof.Machine

/-! ### The guard of an access -/

theorem exec_rcRead (k : BitVec 4) (addr : Word) (s : State) : exec (.rcRead k addr) s = execRcRead k addr s := rfl

theorem exec_csrUnmappedAccess (addr : Word) (acc : CsrAccess) (s : State) :
    exec (.csrUnmappedAccess addr acc) s = execCsrUnmappedAccess addr acc s := rfl

section
variable {k a : Nat} {c : Stew} {s : State} (hc : kget s.stews k = some c) (hrun : c.run = true) (hcsr : regionOf s a = .csr) (f : State → State)
include hc hrun hcsr

/-- An access in U mode is a PRIV fault (R79). -/
theorem csrAccess_of_user (hp : c.p = false) : csrAccess k a f s = raiseFault (.stew k) 0 fPriv a s := by
  simp [csrAccess, hc, hrun, hcsr, hp]

/-- A misaligned access in P mode is an ALIGN fault (R10). -/
theorem csrAccess_of_misaligned (hp : c.p = true) (ha : a % 8 ≠ 0) : csrAccess k a f s = raiseFault (.stew k) 0 fAlign a s := by
  simp [csrAccess, hc, hrun, hcsr, hp, ha]

/-- An aligned access in P mode is performed. -/
theorem csrAccess_of_aligned (hp : c.p = true) (ha : a % 8 = 0) : csrAccess k a f s = f s := by
  simp [csrAccess, hc, hrun, hcsr, hp, ha]

end

section
variable {k : BitVec 4} {addr : Word} {s : State}

/-- Where the guard answers one state whatever the access is, every form of access ends in it. -/
theorem exec_access_of_guard {t : State} (hguard : ∀ f, csrAccess k.toNat addr.toNat f s = t) (v : Word) :
    exec (.csrWrite k addr v) s = .next t ∧ exec (.rcRead k addr) s = .next t ∧
      (regAt addr.toNat = none → exec (.csrUnmappedAccess addr ⟨k, some v⟩) s = .next t ∧ exec (.csrUnmappedAccess addr ⟨k, none⟩) s = .next t) := by
  refine ⟨congrArg ok (hguard _), congrArg ok (hguard _), fun hnone => ⟨?_, ?_⟩⟩
  · rw [exec_csrUnmappedAccess, execCsrUnmappedAccess, hnone, if_neg (by simp), hguard]
    rfl
  · rw [exec_csrUnmappedAccess, execCsrUnmappedAccess, hnone, if_neg (by simp), hguard]
    rfl

variable (hgo : ∀ f, csrAccess k.toNat addr.toNat f s = f s)
include hgo

/-- A write that is performed. -/
theorem exec_csrWrite_performed (v : Word) : exec (.csrWrite k addr v) s = .next (csrWriteBy k.toNat addr.toNat v s) := congrArg ok (hgo _)

/-- A read that is performed sends its value out. -/
theorem exec_rcRead_performed {w : Word} {t : State} (h : csrRead addr.toNat s = (w, t)) :
    exec (.rcRead k addr) s = .next (emit (.csrRead addr.toNat w) t) := by
  rw [exec_rcRead, execRcRead, hgo, h]
  rfl

end

/-! ### Addresses that hold no register (R12)

The kernel must not compute `regAt` of an unknown address, so the definitions that look a register up are unfolded as functions, before their arguments. -/

section
variable {a : Nat} (h : regAt a = none) (s : State)
include h

theorem csrRead_unmapped : csrRead a s = (0, celAddress (unitOf a) a false s) := by
  conv_lhs => fun; fun; delta csrRead
  rw [h]

theorem csrWrite_unmapped (v : Word) : csrWrite a v s = celAddress (unitOf a) a true s := by
  conv_lhs => fun; fun; fun; delta csrWrite
  rw [h]

theorem csrWriteBy_unmapped (k : Nat) (v : Word) : csrWriteBy k a v s = celAddress (unitOf a) a true s := by
  conv_lhs => fun; fun; fun; fun; delta csrWriteBy
  rw [h]
  exact csrWrite_unmapped h s v

end

section
variable {k : BitVec 4} {addr : Word} {s : State} (hgo : ∀ f, csrAccess k.toNat addr.toNat f s = f s) (h : regAt addr.toNat = none)
include hgo h

/-- CSR_UNMAPPED_ACCESS with a write writes the record that names the address. -/
theorem exec_csrUnmappedAccess_write (v : Word) :
    exec (.csrUnmappedAccess addr ⟨k, some v⟩) s = .next (celAddress (unitOf addr.toNat) addr.toNat true s) := by
  rw [exec_csrUnmappedAccess, execCsrUnmappedAccess, h, if_neg (by simp), hgo, ← csrWrite_unmapped h s v]
  rfl

/-- CSR_UNMAPPED_ACCESS with a read writes the record and returns zero. -/
theorem exec_csrUnmappedAccess_read :
    exec (.csrUnmappedAccess addr ⟨k, none⟩) s = .next (emit (.csrRead addr.toNat 0) (celAddress (unitOf addr.toNat) addr.toNat false s)) := by
  rw [exec_csrUnmappedAccess, execCsrUnmappedAccess, h, if_neg (by simp), hgo, csrRead_unmapped h]
  rfl

end

/-- The record that names an address: its code is *uu*02, and its words are the address and whether the access was a write (R537). -/
theorem celAddress_eq_celPush (u a : Nat) (w : Bool) (s : State) :
    celAddress u a w s = celPush ⟨u * 256 + 2, 0, 2, s.dtime.toNat, a % 2 ^ 32, a / 2 ^ 32 % 65536, b2n w, false⟩ s := by
  have hlow : a % 2 ^ 32 % 2 ^ 32 = a % 2 ^ 32 := Nat.mod_mod _ _
  have hhigh : a / 2 ^ 32 % 65536 % 2 ^ 32 = a / 2 ^ 32 % 65536 := by omega
  have hw : b2n w % 2 ^ 32 = b2n w := Nat.mod_eq_of_lt (Nat.lt_trans (b2n_lt_two w) (by decide))
  rw [celAddress, cel, hlow, hhigh, hw]

theorem SameButLog.withLogOf_eq {s t : State} (h : SameButLog s t) : withLogOf s t = s := by rw [h]; rfl

/-! ### Writes of plain registers -/

section
variable {a i j : Nat} {r : RegName} (h : regAt a = some (r, i, j)) (hkey : r ≠ .SEC_KEYCMD) (hplain : ∀ v s, writeReg r v i j s = wrPlain r v i j s)
include h hkey hplain

/-- A write of a plain register stores its implemented bits, and is recorded where a reserved bit is one (R11). -/
theorem csrWriteBy_plain (k : Nat) (v : Word) (s : State) : csrWriteBy k a v s =
    if v &&& ~~~r.implemented = 0 then wrPlain r (v &&& r.implemented) i j s else celIgnored a v (wrPlain r (v &&& r.implemented) i j s) := by
  have hwrite : csrWriteBy k a v s = csrWrite a v s := by
    conv_lhs => fun; fun; fun; fun; delta csrWriteBy
    rw [h]
    split
    · next heq => exact absurd (congrArg Prod.fst (Option.some.inj heq)) hkey
    · rfl
  rw [hwrite]
  conv_lhs => fun; fun; fun; delta csrWrite
  rw [h]
  simp only [hplain]

theorem rd_csrWriteBy_plain (hlost : r.addr i j ≠ (RegName.CEL_LOST).addr 0 0) (k : Nat) (v : Word) (s : State) :
    rd (csrWriteBy k a v s) r i j = writeFields (rd s r i j) (v &&& r.implemented) r.info.fields := by
  rw [csrWriteBy_plain h hkey hplain]
  split
  · exact rd_wr_self _ _ _ _ _
  · exact (rd_celIgnored hlost _ _ _).trans (rd_wr_self _ _ _ _ _)

theorem mem_csrWriteBy_plain (k : Nat) (v : Word) (s : State) : (csrWriteBy k a v s).mem = s.mem := by
  rw [csrWriteBy_plain h hkey hplain]
  split
  · rfl
  · exact (sameButLog_celIgnored _ _ _).mem

end

/-! ### Reads of registers -/

/-- The state after a read of a register: its RC fields are cleared (R9), and a register without such bits is not stored. -/
def cleared (r : RegName) (i j : Nat) (s : State) : State :=
  if clearRc (rd s r i j) r.info.fields = rd s r i j then s else wr r (clearRc (rd s r i j) r.info.fields) s i j

/-- A read of a register that is neither the window of the log nor an event queue returns its fields, and clears those of type RC. -/
theorem csrRead_register {a i j : Nat} {r : RegName} (h : regAt a = some (r, i, j)) (hwin : r ≠ .CEL_WIN) (hpop : r ≠ .CEL_EVQ_POP) (s : State) :
    csrRead a s = (readFields (liveValue r i s (rd s r i j)) r.info.fields, cleared r i j s) := by
  have hread : csrRead a s = readReg r i j s := by
    conv_lhs => fun; fun; delta csrRead
    rw [h]
  rw [hread]
  unfold readReg
  split
  · exact absurd rfl hwin
  · exact absurd rfl hwin
  · exact absurd rfl hwin
  · exact absurd rfl hpop
  · rfl

@[simp] theorem cleared_out (r : RegName) (i j : Nat) (s : State) : (cleared r i j s).out = s.out := by unfold cleared; split <;> rfl

@[simp] theorem cleared_mem (r : RegName) (i j : Nat) (s : State) : (cleared r i j s).mem = s.mem := by unfold cleared; split <;> rfl

theorem rd_cleared (r : RegName) (i j : Nat) (s : State) : rd (cleared r i j s) r i j = clearRc (rd s r i j) r.info.fields := by
  unfold cleared
  split
  · next hc => exact hc.symm
  · exact rd_wr_self _ _ _ _ _

/-- An RC field is zero after a read of its register. -/
theorem bits_cleared_of_rc {r : RegName} {f : FieldDef} (hf : f ∈ r.info.fields) (hty : f.ty = .rc) (i j : Nat) (s : State) :
    bits (rd (cleared r i j s) r i j) f.hi f.lo = 0 := by
  rw [rd_cleared]
  exact bits_clearRc_of_mem hf hty _

/-! ### The registers that the statements name -/

/-- SYS_PTR_CTL takes what is written to its RW fields, and its reserved bits stay. -/
theorem write_sysPtrCtl {a : Nat} (ha : a = (RegName.SYS_PTR_CTL).addr 0 0) (k : Nat) (v : Word) (s : State) :
    let t := csrWriteBy k a v s
    getF t F.SYS_PTR_CTL_LAGMAX = bits v 47 32 ∧ getF t F.SYS_PTR_CTL_ARBMS = bits v 55 48 ∧ getF t F.SYS_PTR_CTL_SETTLE = bits v 27 16 ∧
      getF t F.SYS_PTR_CTL_FBEN = bits v 0 0 ∧ bits (rd t .SYS_PTR_CTL) 15 1 = bits (rd s .SYS_PTR_CTL) 15 1 ∧ t.mem = s.mem := by
  have hreg : regAt a = some (.SYS_PTR_CTL, 0, 0) := by rw [ha]; decide +kernel
  have hrd := rd_csrWriteBy_plain hreg (by decide) (fun _ _ => rfl) (by decide +kernel) k v s
  have hapart : (RegName.SYS_PTR_CTL).info.fields.Pairwise fun f g => f.hi < g.lo ∨ g.hi + 1 ≤ f.lo := by decide
  have field (f : FieldDef) (hf : f ∈ (RegName.SYS_PTR_CTL).info.fields) (hty : f.ty = .rw) (hw : f.hi < 64) :
      bits (rd (csrWriteBy k a v s) .SYS_PTR_CTL) f.hi f.lo = bits v f.hi f.lo := by
    rw [hrd, bits_writeFields_of_rw hapart hf hty hw, bits_and_implemented hf hw]
  refine ⟨field ⟨47, 32, .rw, 0x40, .V⟩ (by decide) rfl (by decide), field ⟨55, 48, .rw, 0x1, .V⟩ (by decide) rfl (by decide),
    field ⟨27, 16, .rw, 0x1e, .V⟩ (by decide) rfl (by decide), field ⟨0, 0, .rw, 0x1, .V⟩ (by decide) rfl (by decide), ?_,
    mem_csrWriteBy_plain hreg (by decide) (fun _ _ => rfl) k v s⟩
  rw [hrd]
  exact bits_writeFields_of_apart (by decide) _ _

/-- SYS_ID is read-only. -/
theorem write_sysId {a : Nat} (ha : a = (RegName.SYS_ID).addr 0 0) (k : Nat) (v : Word) (s : State) :
    rd (csrWriteBy k a v s) .SYS_ID = rd s .SYS_ID ∧ (csrWriteBy k a v s).mem = s.mem := by
  have hreg : regAt a = some (.SYS_ID, 0, 0) := by rw [ha]; decide +kernel
  have hrd := rd_csrWriteBy_plain hreg (by decide) (fun _ _ => rfl) (by decide +kernel) k v s
  exact ⟨hrd.trans (writeFields_of_ro (by decide) _ _), mem_csrWriteBy_plain hreg (by decide) (fun _ _ => rfl) k v s⟩

/-- HFE_KATO_CNT reads as its count. -/
theorem readFields_hfeKatoCnt (s : State) :
    readFields (liveValue .HFE_KATO_CNT 0 s (rd s .HFE_KATO_CNT)) (RegName.HFE_KATO_CNT).info.fields = BitVec.ofNat 64 (getF s ⟨.HFE_KATO_CNT, 47, 0⟩) := by
  rw [getF, ← and_maskW_zero]
  exact BitVec.zero_or

/-! ### The statements -/

/-- Register accesses: the faults of the guard, the writes of an RW and an RO register, the reads of RC fields, and the addresses without a register. -/
theorem registerAccess : Claim.RegisterAccess := by
  intro k addr v c s hc hrun hcsr
  refine ⟨fun hp => ?_, fun hp ha => ?_, fun hp ha => ?_⟩
  · exact exec_access_of_guard (fun f => csrAccess_of_user hc hrun hcsr f hp) v
  · exact exec_access_of_guard (fun f => csrAccess_of_misaligned hc hrun hcsr f hp ha) v
  · have hgo := fun f => csrAccess_of_aligned hc hrun hcsr f hp ha
    refine ⟨fun hr => ⟨_, exec_csrWrite_performed hgo v, write_sysPtrCtl hr _ v s⟩, fun hr => ⟨_, exec_csrWrite_performed hgo v, write_sysId hr _ v s⟩,
      fun hr => ?_, fun r i j hr hwin hpop => ?_, fun hnone => ⟨?_, ?_⟩⟩
    · have hreg : regAt addr.toNat = some (.HFE_KATO_CNT, 0, 0) := by rw [hr]; decide +kernel
      refine ⟨_, exec_rcRead_performed hgo (csrRead_register hreg (by decide) (by decide) s), ?_, ?_, ?_⟩
      · rw [readFields_hfeKatoCnt, emit_out, cleared_out]
      · exact bits_cleared_of_rc (f := ⟨47, 0, .rc, 0x0, .H⟩) (by decide) rfl 0 0 s
      · exact cleared_mem _ _ _ _
    · refine ⟨_, exec_rcRead_performed hgo (csrRead_register hr hwin hpop s), ?_, cleared_mem _ _ _ _, fun f hf hty => bits_cleared_of_rc hf hty i j s⟩
      rw [emit_out, cleared_out]
    · refine ⟨_, exec_csrUnmappedAccess_write hgo hnone v, ?_⟩
      exact (sameButLog_celAddress _ _ _ _).withLogOf_eq
    · refine ⟨_, exec_csrUnmappedAccess_read hgo hnone, ?_⟩
      exact congrArg (emit _) (sameButLog_celAddress _ _ _ _).withLogOf_eq

/-- Settles O57: either access of an address that holds no register is the record that names it, and a read returns zero beside. -/
theorem unmappedRegistersReadAsZero : Obligations.UnmappedRegistersReadAsZero := by
  intro k addr v s ⟨c, hc, hrun, hp, hcsr, ha⟩ hnone
  have hgo := fun f => csrAccess_of_aligned hc hrun hcsr f hp ha
  constructor
  · rw [exec_csrWrite_performed hgo, csrWriteBy_unmapped hnone, celAddress_eq_celPush]
  · rw [exec_rcRead_performed hgo (csrRead_unmapped hnone s), celAddress_eq_celPush]
    rfl

end Sys2Proof.Machine
end

section
/-! SUPPORT and PROOFS. The decisions of the governor (R42, R204, R259, R471). -/

namespace Sys2Proof.Machine

/-! ### A decision is counted and recorded -/

/-- What counting and recording a decision leaves: all but the registers and the log, and every register but the performance counters and the count
of lost records. -/
structure OnlyRecorded (t u : State) : Prop where
  sameButLog : SameButLog t u
  rd_eq : ∀ (r : RegName) (i j : Nat), isPmcReg (r.addr i j) = false → r.addr i j ≠ (RegName.CEL_LOST).addr 0 0 → rd u r i j = rd t r i j

theorem OnlyRecorded.getF_eq {t u : State} (h : OnlyRecorded t u) (f : Fld) (i : Nat) (hp : isPmcReg (f.reg.addr i 0) = false)
    (hc : f.reg.addr i 0 ≠ (RegName.CEL_LOST).addr 0 0) : getF u f i = getF t f i := by
  rw [getF, getF, h.rd_eq _ _ _ hp hc]

/-- A field of an update of the state that is neither the registers nor the log is the same after the record. -/
theorem OnlyRecorded.field_eq {t u : State} (h : OnlyRecorded t u) {α : Type} (f : State → α) (hf : ∀ c l, f { t with csr := c, cel := l } = f t) : f u = f t := by
  rw [h.sameButLog]
  exact hf _ _

/-- A decision that the governor may make stands in its table, and is counted and recorded. -/
theorem exec_governorDecision_of_some {kind : BitVec 8} {object new : BitVec 32} {s t : State} {old : Nat}
    (h : govDecide kind.toNat object.toNat new.toNat s = some (old, t)) : ∃ u, exec (.governorDecision kind object new) s = .next u ∧ OnlyRecorded t u := by
  refine ⟨govRecord kind.toNat object.toNat new.toNat old t, ?_, sameButLog_govRecord _ _ _ _ _, fun r i j hp hc => rd_govRecord hp hc _ _ _ _ _⟩
  show execGovernorDecision kind object new s = _
  rw [execGovernorDecision, h]
  rfl

/-- A decision that the governor may not make changes nothing. -/
theorem exec_governorDecision_of_none {kind : BitVec 8} {object new : BitVec 32} {s : State} (h : govDecide kind.toNat object.toNat new.toNat s = none) :
    exec (.governorDecision kind object new) s = .next s := by
  show execGovernorDecision kind object new s = _
  rw [execGovernorDecision, h]
  rfl

/-! ### The skip window of a volume and the mode of a region -/

/-- A window that opens is the record of its volume (R204). -/
theorem skipOf_openWindow (v : Nat) (s : State) : skipOf (openWindow v s) v = ⟨windowSize s v, 0, 0, true, {}⟩ := by
  have hne : (⟨windowSize s v, 0, 0, true, {}⟩ : SkipSt) ≠ {} := fun h => Bool.noConfusion (congrArg SkipSt.opened h)
  show kgetD (kputD {} s.comp.skip v ⟨windowSize s v, 0, 0, true, {}⟩) v {} = _
  rw [kputD, if_neg hne, kgetD_kput_self]

/-- A window that opens is counted (R208). -/
theorem windows_openWindow (v : Nat) (s : State) :
    getF (openWindow v s) ⟨.CE_WINOPEN_CNT, 47, 0⟩ = (getF s ⟨.CE_WINOPEN_CNT, 47, 0⟩ + 1) % 2 ^ 48 := bumpBy_count 1 .CE_WINOPEN_CNT _ 0

/-- The address of THM_LVL of a region, in the unit THM (R482). -/
theorem addr_thmLvl (n : Nat) : (RegName.THM_LVL).addr n 0 = 0x103000200 + n * 8 := rfl

/-- No counter and no record of the log changes THM_LVL of a region. -/
theorem thmLvl_not_recorded {n : Nat} (hn : n < 32) :
    isPmcReg ((RegName.THM_LVL).addr n 0) = false ∧ (RegName.THM_LVL).addr n 0 ≠ (RegName.CEL_LOST).addr 0 0 := by
  have cnt : (RegName.PMC_CNT).addr 0 0 = 0x105002000 := rfl
  have ovf : (RegName.PMC_OVF).addr 0 0 = 0x105000100 := rfl
  have lost : (RegName.CEL_LOST).addr 0 0 = 0x104000018 := rfl
  rw [addr_thmLvl, isPmcReg, cnt, ovf, lost]
  refine ⟨?_, by omega⟩
  simp only [Bool.or_eq_false_iff, Bool.and_eq_false_iff, decide_eq_false_iff_not]
  omega

/-- Whether every region is held at 4 stands in THM_STAT, not in THM_LVL. -/
theorem heldAt4_setF_thmLvl {n : Nat} (hn : n < 32) (v : Nat) (s : State) : heldAt4 (setF F.THM_LVL_SKIPM v s n) = heldAt4 s := by
  have stat : (RegName.THM_STAT).addr 0 0 = 0x103000010 := rfl
  have hne : (RegName.THM_STAT).addr 0 0 ≠ (RegName.THM_LVL).addr n 0 := by rw [stat, addr_thmLvl]; omega
  have field (f : Fld) (hf : f.reg = .THM_STAT) : getF (setF F.THM_LVL_SKIPM v s n) f = getF s f := getF_setF_of_addr_ne (by rw [hf]; exact hne) _ _
  simp only [heldAt4, isF, field F.THM_STAT_STOPPING rfl, field F.THM_STAT_NOSTOP rfl]

/-- The skipping that the governor sets stands in SKIPM (R471). -/
theorem skipm_of_setMode {n v : Nat} (hv : v < 16) (s : State) : getF (setMode n (setF F.THM_LVL_SKIPM v s n)) F.THM_LVL_SKIPM n = v := by
  have apart : getF (setMode n (setF F.THM_LVL_SKIPM v s n)) F.THM_LVL_SKIPM n = getF (setF F.THM_LVL_SKIPM v s n) F.THM_LVL_SKIPM n :=
    getF_setF_of_disjoint (f := F.THM_LVL_MODE) (g := F.THM_LVL_SKIPM) rfl (.inr (by decide)) _ _ _ _
  rw [apart, getF_setF_self (by decide)]
  exact Nat.mod_eq_of_lt hv

/-- The mode of a region without a floor follows the skipping that the governor sets, unless every region is held (R471 to R473). -/
theorem mode_of_setMode {n v : Nat} (hn : n < 32) (hv : v < 16) {s : State} (hfloor : getF s F.THM_LVL_FLOOR n = 0) :
    getF (setMode n (setF F.THM_LVL_SKIPM v s n)) F.THM_LVL_MODE n = if heldAt4 s = true then 3 else if v = 0 then 0 else 1 := by
  have floor : getF (setF F.THM_LVL_SKIPM v s n) F.THM_LVL_FLOOR n = 0 := 
    (getF_setF_of_disjoint (f := F.THM_LVL_SKIPM) (g := F.THM_LVL_FLOOR) rfl (.inl (by decide)) _ _ _ _).trans hfloor
  have skip : getF (setF F.THM_LVL_SKIPM v s n) F.THM_LVL_SKIPM n = v := (getF_setF_self (by decide) _ _ _ _).trans (Nat.mod_eq_of_lt hv)
  unfold setMode
  rw [getF_setF_self (by decide)]
  simp only [heldAt4_setF_thmLvl hn, floor, skip]
  cases heldAt4 s
  · by_cases hv0 : v = 0 <;> simp [hv0, b2n]
  · simp

/-! ### The decisions -/

/-- The model asks whether the number of a decision is 0, the statements whether its word is. -/
theorem toNat_eq_zero_iff (v : BitVec 32) : v.toNat = 0 ↔ v = 0 := BitVec.toNat_inj (y := 0)

section
variable {object new : BitVec 32} {s : State}

/-- The weight of a class (R42). -/
theorem governor_weight (hkeys : keysFrom 0 s.weight = true) : ∃ t, exec (.governorDecision 1 object new) s = .next t ∧ t.out = s.out ∧
    kgetD t.weight object.toNat 1 = max 1 (min 255 new.toNat) ∧ t.mem = s.mem := by
  obtain ⟨t, ht, hrec⟩ := exec_governorDecision_of_some (kind := 1) (object := object) (new := new) (s := s) rfl
  refine ⟨t, ht, hrec.field_eq State.out fun _ _ => rfl, ?_, hrec.field_eq State.mem fun _ _ => rfl⟩
  rw [hrec.field_eq State.weight fun _ _ => rfl]
  exact kgetD_kputD_self hkeys _ _

/-- The window of a volume whose trial opens one (R204). -/
theorem governor_window (hfull : trialFull s object.toNat = true) (hopens : trialOpens s object.toNat = true) (howns : ownsVol s object.toNat = true)
    (hsize : windowSize s object.toNat = new.toNat) : ∃ t, exec (.governorDecision 2 object new) s = .next t ∧ t.out = s.out ∧
    (skipOf t object.toNat).n = new.toNat ∧ (skipOf t object.toNat).opened = true ∧ t.mem = (wrN (volAddr object.toNat + 24) 8 new.toNat s).mem ∧
      getF t ⟨.CE_WINOPEN_CNT, 47, 0⟩ = (getF s ⟨.CE_WINOPEN_CNT, 47, 0⟩ + 1) % 2 ^ 48 := by
  have hdecide : govDecide 2 object.toNat new.toNat s = some (skipSize s object.toNat, openWindow object.toNat s) := by
    simp [govDecide, hfull, hopens, howns, hsize]
  obtain ⟨t, ht, hrec⟩ := exec_governorDecision_of_some (kind := 2) hdecide
  have hskip : skipOf t object.toNat = ⟨windowSize s object.toNat, 0, 0, true, {}⟩ :=
    (hrec.field_eq (skipOf · object.toNat) fun _ _ => rfl).trans (skipOf_openWindow _ _)
  have hmem : (openWindow object.toNat s).mem = (wrN (volAddr object.toNat + 24) 8 (windowSize s object.toNat) s).mem := rfl
  refine ⟨t, ht, hrec.field_eq State.out fun _ _ => rfl, ?_, ?_, ?_, ?_⟩
  · rw [hskip, hsize]
  · rw [hskip]
  · rw [hrec.field_eq State.mem fun _ _ => rfl, hmem, hsize]
  · rw [hrec.getF_eq _ _ (by decide +kernel) (by decide +kernel)]
    exact windows_openWindow _ _

/-- The segments that lees reclaim may pick in a second (R259). -/
theorem governor_leesRate : ∃ t, exec (.governorDecision 3 object new) s = .next t ∧ t.out = s.out ∧
    leesRateOf t object.toNat = min (getF s F.TA_LEES_MAXSEG) new.toNat ∧ t.mem = s.mem := by
  obtain ⟨t, ht, hrec⟩ := exec_governorDecision_of_some (kind := 3) (object := object) (new := new) (s := s) rfl
  refine ⟨t, ht, hrec.field_eq State.out fun _ _ => rfl, ?_, hrec.field_eq State.mem fun _ _ => rfl⟩
  have hmax : getF t F.TA_LEES_MAXSEG = getF s F.TA_LEES_MAXSEG := hrec.getF_eq _ _ (by decide +kernel) (by decide +kernel)
  rw [leesRateOf, hmax, hrec.field_eq State.plc fun _ _ => rfl, kgetD_kput_self]
  omega

/-- Where free frames are taken (R42). -/
theorem governor_placement : ∃ t, exec (.governorDecision 4 object new) s = .next t ∧ t.out = s.out ∧
    placement t object.toNat = new.toNat ∧ t.mem = s.mem := by
  obtain ⟨t, ht, hrec⟩ := exec_governorDecision_of_some (kind := 4) (object := object) (new := new) (s := s) rfl
  refine ⟨t, ht, hrec.field_eq State.out fun _ _ => rfl, ?_, hrec.field_eq State.mem fun _ _ => rfl⟩
  rw [placement, hrec.field_eq State.plc fun _ _ => rfl, kget_kput_self]
  rfl

/-- The slow mark of a member (R42): the list of the members that are marked. -/
theorem governor_slow : ∃ t, exec (.governorDecision 5 object new) s = .next t ∧ t.out = s.out ∧ t.mem = s.mem ∧
    t.plc.slow = if new.toNat = 0 then s.plc.slow.erase object.toNat
      else if s.plc.slow.contains object.toNat then s.plc.slow else s.plc.slow ++ [object.toNat] := by
  obtain ⟨t, ht, hrec⟩ := exec_governorDecision_of_some (kind := 5) (object := object) (new := new) (s := s) rfl
  refine ⟨t, ht, hrec.field_eq State.out fun _ _ => rfl, hrec.field_eq State.mem fun _ _ => rfl, ?_⟩
  rw [hrec.field_eq State.plc fun _ _ => rfl]

theorem governor_marks_slow (hnew : new ≠ 0) : ∃ t, exec (.governorDecision 5 object new) s = .next t ∧ t.out = s.out ∧
    object.toNat ∈ t.plc.slow ∧ t.mem = s.mem := by
  obtain ⟨t, ht, hout, hmem, hslow⟩ := governor_slow (object := object) (new := new) (s := s)
  refine ⟨t, ht, hout, ?_, hmem⟩
  rw [hslow, if_neg (mt (toNat_eq_zero_iff new).mp hnew)]
  split
  · next hin => simpa using hin
  · simp

theorem governor_clears_slow (hnodup : s.plc.slow.Nodup) (hnew : new = 0) : ∃ t, exec (.governorDecision 5 object new) s = .next t ∧ t.out = s.out ∧
    object.toNat ∉ t.plc.slow ∧ t.mem = s.mem := by
  obtain ⟨t, ht, hout, hmem, hslow⟩ := governor_slow (object := object) (new := new) (s := s)
  refine ⟨t, ht, hout, ?_, hmem⟩
  rw [hslow, if_pos ((toNat_eq_zero_iff new).mpr hnew)]
  exact hnodup.not_mem_erase

/-- The admission of a volume (R42). -/
theorem governor_admission : ∃ t, exec (.governorDecision 6 object new) s = .next t ∧ t.out = s.out ∧
    (kgetD t.gl.admission object.toNat {}).bit = decide (new ≠ 0) ∧ t.mem = s.mem := by
  obtain ⟨t, ht, hrec⟩ := exec_governorDecision_of_some (kind := 6) (object := object) (new := new) (s := s) rfl
  refine ⟨t, ht, hrec.field_eq State.out fun _ _ => rfl, ?_, hrec.field_eq State.mem fun _ _ => rfl⟩
  rw [hrec.field_eq State.gl fun _ _ => rfl, kgetD_kput_self]
  exact decide_eq_decide.mpr (not_congr (toNat_eq_zero_iff new))

/-- The skipping of a region in the band of the governor (R471). -/
theorem governor_skips {x : Int} (hon : isF s F.THM_CTL_GOVEN = true) (hn : object.toNat < 32) (hfloor : getF s F.THM_LVL_FLOOR object.toNat = 0)
    (hx : regionReading s object.toNat = some x) (hwarn : limit s F.THM_LIM_WARN ≤ x) (hthrot : x < limit s F.THM_LIM_THROT)
    (hmax : new.toNat ≤ getF s F.THM_CTL_GOVMAXM) : ∃ t, exec (.governorDecision 7 object new) s = .next t ∧ t.out = s.out ∧
    getF t F.THM_LVL_SKIPM object.toNat = new.toNat ∧
      getF t F.THM_LVL_MODE object.toNat = (if heldAt4 s = true then 3 else if new = 0 then 0 else 1) ∧ t.mem = s.mem := by
  have hdecide : govDecide 7 object.toNat new.toNat s =
      some (getF s F.THM_LVL_SKIPM object.toNat, setMode object.toNat (setF F.THM_LVL_SKIPM new.toNat s object.toNat)) := by
    simp [govDecide, hon, hn, hfloor, hx, hwarn, hthrot, hmax]
  obtain ⟨t, ht, hrec⟩ := exec_governorDecision_of_some (kind := 7) hdecide
  obtain ⟨hpmc, hlost⟩ := thmLvl_not_recorded hn
  have hsmall : new.toNat < 16 := Nat.lt_of_le_of_lt hmax (bits_lt _ 19 16)
  refine ⟨t, ht, hrec.field_eq State.out fun _ _ => rfl, ?_, ?_, hrec.field_eq State.mem fun _ _ => rfl⟩
  · rw [hrec.getF_eq F.THM_LVL_SKIPM _ hpmc hlost]
    exact skipm_of_setMode hsmall s
  · rw [hrec.getF_eq F.THM_LVL_MODE _ hpmc hlost, mode_of_setMode hn hsmall hfloor]
    simp only [toNat_eq_zero_iff]

end

/-- The governor's decisions, kind by kind. -/
theorem governorDecisions : Claim.GovernorDecisions := fun _ _ _ =>
  ⟨governor_weight, governor_window, governor_leesRate, governor_placement, governor_marks_slow, governor_clears_slow, governor_admission,
    fun _ => governor_skips, exec_governorDecision_of_none rfl⟩

/-- Settles O55: what the bus does for an access, and what a decision leaves in its table. -/
theorem registersAndGovernor : Obligations.RegistersAndGovernor := ⟨registerAccess, governorDecisions⟩

end Sys2Proof.Machine
end

section
/-! SUPPORT and PROOFS. The words of the flow instructions (R65 to R67): the fields of a word, the words of each format, and that decoding and
encoding undo each other. -/

namespace Sys2Proof.Machine

/-! ### The fields of a word -/

/-- A field of a word as a number. -/
theorem toNat_wf (w : BitVec 32) (lo n : Nat) : (wf w lo n).toNat = w.toNat / 2 ^ lo % 2 ^ n := by
  rw [wf, BitVec.extractLsb'_toNat, Nat.shiftRight_eq_div_pow]

/-- The field that a number of 32 bits holds. -/
theorem wf_ofNat {v : Nat} (h : v < 2 ^ 32) (lo n : Nat) : (wf (BitVec.ofNat 32 v) lo n).toNat = v / 2 ^ lo % 2 ^ n := by
  rw [toNat_wf, BitVec.toNat_ofNat, Nat.mod_eq_of_lt h]

section
variable {m : Nat} (hm : m < 64) (x y z : RegNo)
include hm

/-- The fields of a word of format A. -/
theorem wf_insnA {f : Nat} (hf : f < 2048) :
    let w := BitVec.ofNat 32 (insnA m x y z f).word
    (wf w 26 6).toNat = m ∧ wf w 21 5 = x ∧ wf w 16 5 = y ∧ wf w 11 5 = z ∧ (wf w 0 11).toNat = f := by
  have hx := x.isLt
  have hy := y.isLt
  have hz := z.isLt
  simp only [insnA, ← BitVec.toNat_inj]
  repeat rw [wf_ofNat (by omega)]
  omega

/-- The fields of a word of format I, or B, outside a group. -/
theorem wf_insnI (v : BitVec 16) :
    let w := BitVec.ofNat 32 (insnI m x y (.short v)).word
    (wf w 26 6).toNat = m ∧ wf w 21 5 = x ∧ wf w 16 5 = y ∧ wf w 0 16 = v := by
  have hx := x.isLt
  have hy := y.isLt
  have hv := v.isLt
  simp only [insnI, ← BitVec.toNat_inj]
  repeat rw [wf_ofNat (by omega)]
  omega

/-- The fields of the instruction word of a group: its immediate field is zero. -/
theorem wf_insnI_long (v : BitVec 32) :
    let w := BitVec.ofNat 32 (insnI m x y (.long v)).word
    (wf w 26 6).toNat = m ∧ wf w 21 5 = x ∧ wf w 16 5 = y ∧ wf w 0 16 = 0 := by
  have hx := x.isLt
  have hy := y.isLt
  simp only [insnI, ← BitVec.toNat_inj]
  repeat rw [wf_ofNat (by omega)]
  refine ⟨by omega, by omega, by omega, ?_⟩
  show _ = 0
  omega

/-- The fields of a word of format J. -/
theorem wf_insnJ (off : BitVec 26) :
    let w := BitVec.ofNat 32 (insnJ m off).word
    (wf w 26 6).toNat = m ∧ wf w 0 26 = off := by
  have ho := off.isLt
  simp only [insnJ, ← BitVec.toNat_inj]
  repeat rw [wf_ofNat (by omega)]
  omega

/-- The fields of a word of format E. -/
theorem wf_insnE (t : BitVec 4) (d : BitVec 3) (cls : BitVec 6) (flags : BitVec 13) :
    let w := BitVec.ofNat 32 (insnE m t d cls flags).word
    (wf w 26 6).toNat = m ∧ wf w 22 4 = t ∧ wf w 19 3 = d ∧ wf w 13 6 = cls ∧ wf w 0 13 = flags := by
  have ht := t.isLt
  have hd := d.isLt
  have hc := cls.isLt
  have hf := flags.isLt
  simp only [insnE, ← BitVec.toNat_inj]
  repeat rw [wf_ofNat (by omega)]
  omega

/-- The fields of a word of format X. -/
theorem wf_insnX {f : Nat} (hf : f < 256) (aux : Byte) :
    let w := BitVec.ofNat 32 (insnX m f x y aux).word
    (wf w 26 6).toNat = m ∧ wf w 21 5 = x ∧ wf w 16 5 = y ∧ (wf w 8 8).toNat = f ∧ wf w 0 8 = aux := by
  have hx := x.isLt
  have hy := y.isLt
  have ha := aux.isLt
  simp only [insnX, ← BitVec.toNat_inj]
  repeat rw [wf_ofNat (by omega)]
  omega

end

/-! ### A word is made of its fields -/

section
variable (w : BitVec 32)

theorem insnA_wf : BitVec.ofNat 32 (insnA (wf w 26 6).toNat (wf w 21 5) (wf w 16 5) (wf w 11 5) (wf w 0 11).toNat).word = w := by
  have hw := w.isLt
  apply BitVec.eq_of_toNat_eq
  simp only [insnA, toNat_wf, BitVec.toNat_ofNat]
  omega

theorem insnI_wf : BitVec.ofNat 32 (insnI (wf w 26 6).toNat (wf w 21 5) (wf w 16 5) (.short (wf w 0 16))).word = w := by
  have hw := w.isLt
  apply BitVec.eq_of_toNat_eq
  simp only [insnI, toNat_wf, BitVec.toNat_ofNat]
  omega

theorem insnI_long_wf (h : wf w 0 16 = 0) (v : BitVec 32) :
    BitVec.ofNat 32 (insnI (wf w 26 6).toNat (wf w 21 5) (wf w 16 5) (.long v)).word = w := by
  have hw := w.isLt
  have h0 : (wf w 0 16).toNat = 0 := by rw [h]; rfl
  apply BitVec.eq_of_toNat_eq
  simp only [insnI, toNat_wf, BitVec.toNat_ofNat] at h0 ⊢
  omega

theorem insnJ_wf : BitVec.ofNat 32 (insnJ (wf w 26 6).toNat (wf w 0 26)).word = w := by
  have hw := w.isLt
  apply BitVec.eq_of_toNat_eq
  simp only [insnJ, toNat_wf, BitVec.toNat_ofNat]
  omega

theorem insnE_wf : BitVec.ofNat 32 (insnE (wf w 26 6).toNat (wf w 22 4) (wf w 19 3) (wf w 13 6) (wf w 0 13)).word = w := by
  have hw := w.isLt
  apply BitVec.eq_of_toNat_eq
  simp only [insnE, toNat_wf, BitVec.toNat_ofNat]
  omega

theorem insnX_wf : BitVec.ofNat 32 (insnX (wf w 26 6).toNat (wf w 8 8).toNat (wf w 21 5) (wf w 16 5) (wf w 0 8)).word = w := by
  have hw := w.isLt
  apply BitVec.eq_of_toNat_eq
  simp only [insnX, toNat_wf, BitVec.toNat_ofNat]
  omega

end

/-! ### The opcode tables: which majors and functions they hold, and the words of what they name -/

section
variable {m f : Nat} (c : Core) (x y z : RegNo)

theorem opA_range {g : Core → RegNo → RegNo → RegNo → Instr} (h : opA m f = some g) : (m = 0x00 ∨ m = 0x20) ∧ f < 2048 := by
  unfold opA at h
  split at h <;> simp at h ⊢

theorem gfiWords_opA {g : Core → RegNo → RegNo → RegNo → Instr} (h : opA m f = some g) : gfiWords (g c x y z) = word1 c (insnA m x y z f) := by
  unfold opA at h
  split at h <;> cases h <;> rfl

theorem opI_range {g : Core → RegNo → RegNo → Imm → Instr} (h : opI m = some g) : m < 0x2E := by
  unfold opI at h
  split at h <;> simp at h ⊢

theorem gfiWords_opI {g : Core → RegNo → RegNo → Imm → Instr} (h : opI m = some g) (imm : Imm) : gfiWords (g c x y imm) = wordI c m x y imm := by
  unfold opI at h
  split at h <;> cases h <;> rfl

theorem opShift_range {g : Core → RegNo → RegNo → BitVec 16 → Instr} (h : opShift m = some g) : m = 0x07 ∨ m = 0x08 ∨ m = 0x09 := by
  unfold opShift at h
  split at h <;> simp at h ⊢

theorem gfiWords_opShift {g : Core → RegNo → RegNo → BitVec 16 → Instr} (h : opShift m = some g) (v : BitVec 16) :
    gfiWords (g c x y v) = word1 c (insnI m x y (.short v)) := by
  unfold opShift at h
  split at h <;> cases h <;> rfl

theorem opJ_range {g : Core → BitVec 26 → Instr} (h : opJ m = some g) : m = 0x30 ∨ m = 0x31 := by
  unfold opJ at h
  split at h <;> simp at h ⊢

theorem gfiWords_opJ {g : Core → BitVec 26 → Instr} (h : opJ m = some g) (off : BitVec 26) : gfiWords (g c off) = word1 c (insnJ m off) := by
  unfold opJ at h
  split at h <;> cases h <;> rfl

theorem opX_range {g : Core → RegNo → RegNo → Byte → Instr} (h : opX m f = some g) :
    (m = 0x35 ∨ m = 0x38 ∨ m = 0x39 ∨ m = 0x3A ∨ m = 0x3B ∨ m = 0x3C) ∧ f < 256 := by
  unfold opX at h
  split at h <;> simp at h ⊢

theorem gfiWords_opX {g : Core → RegNo → RegNo → Byte → Instr} (h : opX m f = some g) (aux : Byte) :
    gfiWords (g c x y aux) = word1 c (insnX m f x y aux) := by
  unfold opX at h
  split at h <;> cases h <;> rfl

end

/-! ### Decoding the words of an instruction -/

/-- Words that are no group decode as their first word. -/
theorem gfiDecode_of_major {w0 : BitVec 32} {m : Nat} (h : (wf w0 26 6).toNat = m) (hm : m < 63) (c : Core) (w1 w2 : BitVec 32) :
    gfiDecode c w0 w1 w2 = gfiPlain c w0 := by
  rw [gfiDecode, if_neg]
  intro h'
  rw [h'] at h
  exact absurd h (by rw [show (0x3F : BitVec 6).toNat = 63 from rfl]; omega)

/-- The words of a group decode as its instruction word with the long immediate (R66). -/
theorem gfiDecode_group (c : Core) {w1 : BitVec 32} (h : wf w1 0 16 = 0) (w2 : BitVec 32) :
    gfiDecode c 0xFC000000 w1 w2 = gfiImm c w1 (.long w2) := by
  rw [gfiDecode, if_pos (show wf 0xFC000000 26 6 = 0x3F from rfl), if_neg]
  rintro (h' | h')
  · exact h' rfl
  · exact h' h

section
variable {c : Core} {x y z : RegNo} {m f : Nat} {w : GfiWords}

theorem gfiDecode_insnA {g : Core → RegNo → RegNo → RegNo → Instr} (h : word1 c (insnA m x y z f) = some w) (hg : opA m f = some g) :
    gfiDecode w.core w.w0 w.w1 w.w2 = some (g c x y z) := by
  cases h
  obtain ⟨hm, hf⟩ := opA_range hg
  obtain ⟨hmaj, hx, hy, hz, hfun⟩ := wf_insnA (m := m) (by omega) x y z hf
  rw [gfiDecode_of_major hmaj (by omega), gfiPlain, hmaj]
  rcases hm with rfl | rfl <;> simp [opI, opShift, opJ, hx, hy, hz, hfun, hg]

theorem gfiDecode_insnI {g : Core → RegNo → RegNo → Imm → Instr} {imm : Imm} (h : wordI c m x y imm = some w) (hg : opI m = some g) :
    gfiDecode w.core w.w0 w.w1 w.w2 = some (g c x y imm) := by
  have hm := opI_range hg
  cases imm with
  | short v =>
    cases h
    obtain ⟨hmaj, hx, hy, hv⟩ := wf_insnI (m := m) (by omega) x y v
    rw [gfiDecode_of_major hmaj (by omega), gfiPlain, hmaj]
    simp [gfiImm, hmaj, hg, hx, hy, hv]
  | long v =>
    cases h
    obtain ⟨hmaj, hx, hy, hz⟩ := wf_insnI_long (m := m) (by omega) x y v
    rw [gfiDecode_group c hz, gfiImm, hmaj]
    simp [hg, hx, hy]

theorem gfiDecode_shift {g : Core → RegNo → RegNo → BitVec 16 → Instr} {v : BitVec 16} (h : word1 c (insnI m x y (.short v)) = some w)
    (hg : opShift m = some g) : gfiDecode w.core w.w0 w.w1 w.w2 = some (g c x y v) := by
  cases h
  have hm := opShift_range hg
  obtain ⟨hmaj, hx, hy, hv⟩ := wf_insnI (m := m) (by omega) x y v
  have hnot : opI m = none := by rcases hm with rfl | rfl | rfl <;> rfl
  rw [gfiDecode_of_major hmaj (by omega), gfiPlain, hmaj]
  simp [hnot, hg, hx, hy, hv]

theorem gfiDecode_insnJ {g : Core → BitVec 26 → Instr} {off : BitVec 26} (h : word1 c (insnJ m off) = some w) (hg : opJ m = some g) :
    gfiDecode w.core w.w0 w.w1 w.w2 = some (g c off) := by
  cases h
  have hm := opJ_range hg
  obtain ⟨hmaj, hoff⟩ := wf_insnJ (m := m) (by omega) off
  have hnot : opI m = none ∧ opShift m = none := by rcases hm with rfl | rfl <;> exact ⟨rfl, rfl⟩
  rw [gfiDecode_of_major hmaj (by omega), gfiPlain, hmaj]
  simp [hnot, hg, hoff]

theorem gfiDecode_insnX {g : Core → RegNo → RegNo → Byte → Instr} {aux : Byte} (h : word1 c (insnX m f x y aux) = some w) (hg : opX m f = some g) :
    gfiDecode w.core w.w0 w.w1 w.w2 = some (g c x y aux) := by
  cases h
  obtain ⟨hm, hf⟩ := opX_range hg
  obtain ⟨hmaj, hx, hy, hfun, haux⟩ := wf_insnX (m := m) (by omega) x y hf aux
  have hnot : opI m = none ∧ opShift m = none ∧ opJ m = none ∧ m ≠ 0x34 ∧ m ≠ 0 ∧ m ≠ 0x20 := by
    rcases hm with rfl | rfl | rfl | rfl | rfl | rfl <;> exact ⟨rfl, rfl, rfl, by decide, by decide, by decide⟩
  rw [gfiDecode_of_major hmaj (by omega), gfiPlain, hmaj]
  simp [hnot, hg, hx, hy, hfun, haux]

theorem gfiDecode_insnE {t : BitVec 4} {d : BitVec 3} {cls : BitVec 6} {flags : BitVec 13} (h : word1 c (insnE 0x34 t d cls flags) = some w) :
    gfiDecode w.core w.w0 w.w1 w.w2 = some (.submit c t d cls flags) := by
  cases h
  obtain ⟨hmaj, ht, hd, hc, hf⟩ := wf_insnE (m := 0x34) (by omega) t d cls flags
  rw [gfiDecode_of_major hmaj (by omega), gfiPlain, hmaj]
  simp [opI, opShift, opJ, ht, hd, hc, hf]

end

/-- Decoding the words that an instruction is gives that instruction, format by format. -/
theorem gfiDecode_gfiWords {i : Instr} {w : GfiWords} (h : gfiWords i = some w) : gfiDecode w.core w.w0 w.w1 w.w2 = some i := by
  cases i with
  | add c x y z | sub c x y z | and c x y z | or c x y z | xor c x y z | andn c x y z | sll c x y z | srl c x y z | sra c x y z | slt c x y z
  | sltu c x y z | min c x y z | max c x y z | minu c x y z | maxu c x y z | mul c x y z | mulhu c x y z | divu c x y z | remu c x y z
  | clz c x y z | ctz c x y z | popc c x y z | bswap c x y z | amoadd c x y z | amoswap c x y z | amocas c x y z | amoand c x y z
  | amoor c x y z | amomaxu c x y z => exact gfiDecode_insnA h rfl
  | addi c x y imm | andi c x y imm | ori c x y imm | xori c x y imm | slti c x y imm | sltiu c x y imm | lui c x y imm | ld c x y imm
  | lw c x y imm | lws c x y imm | lh c x y imm | lb c x y imm | sd c x y imm | sw c x y imm | sh c x y imm | sb c x y imm | beq c x y imm
  | bne c x y imm | blt c x y imm | bge c x y imm | bltu c x y imm | bgeu c x y imm => exact gfiDecode_insnI h rfl
  | slli c x y v | srli c x y v | srai c x y v => exact gfiDecode_shift h rfl
  | j c off | jal c off => exact gfiDecode_insnJ h rfl
  | wait c x y aux | poll c x y aux | waitany c x y aux | drop c x y aux | endFlow c x y aux | yield c x y aux | park c x y aux
  | ctxid c x y aux | seqid c x y aux | dtime c x y aux | fence c x y aux | fenceL c x y aux | fenceS c x y aux | icinv c x y aux
  | dld c x y aux | dst c x y aux | dclr c x y aux | jr c x y aux | jalr c x y aux | mfs c x y aux | mts c x y aux | eret c x y aux
  | trap c x y aux => exact gfiDecode_insnX h rfl
  | submit c t d cls flags => exact gfiDecode_insnE h
  | _ => cases h

/-! ### What is decoded is the words' own instruction -/

/-- The words of what is decoded from one word are that word. -/
theorem gfiWords_gfiPlain {c : Core} {w0 : BitVec 32} {i : Instr} (h : gfiPlain c w0 = some i) : gfiWords i = some { core := c, w0 := w0 } := by
  unfold gfiPlain at h
  dsimp only at h
  split at h
  · obtain ⟨g, hg, rfl⟩ := Option.map_eq_some_iff.mp h
    rw [gfiWords_opI c _ _ hg, wordI, word1, insnI_wf]
  split at h
  · obtain ⟨g, hg, rfl⟩ := Option.map_eq_some_iff.mp h
    rw [gfiWords_opShift c _ _ hg, word1, insnI_wf]
  split at h
  · obtain ⟨g, hg, rfl⟩ := Option.map_eq_some_iff.mp h
    rw [gfiWords_opJ c hg, word1, insnJ_wf]
  split at h
  · next hm =>
    cases h
    rw [gfiWords, ← hm, word1, insnE_wf]
  split at h
  · obtain ⟨g, hg, rfl⟩ := Option.map_eq_some_iff.mp h
    rw [gfiWords_opA c _ _ _ hg, word1, insnA_wf]
  · obtain ⟨g, hg, rfl⟩ := Option.map_eq_some_iff.mp h
    rw [gfiWords_opX c _ _ hg, word1, insnX_wf]

/-- The words of what is decoded are the words: all three of a group, else the first. -/
theorem gfiWords_gfiDecode {c : Core} {w0 w1 w2 : BitVec 32} {i : Instr} (h : gfiDecode c w0 w1 w2 = some i) :
    ∃ w, gfiWords i = some w ∧ w.core = c ∧ w.w0 = w0 ∧ (wf w0 26 6 = 0x3F → w.w1 = w1 ∧ w.w2 = w2) := by
  unfold gfiDecode at h
  split at h
  · next hpre =>
    split at h
    · cases h
    · next hz =>
      obtain ⟨hrest, himm⟩ := not_or.mp hz
      obtain ⟨g, hg, rfl⟩ := Option.map_eq_some_iff.mp h
      have hw0 : w0 = 0xFC000000 := by
        rw [← insnJ_wf w0, hpre, not_not.mp hrest]
        rfl
      refine ⟨_, (gfiWords_opI c _ _ hg _).trans rfl, rfl, hw0.symm, fun _ => ⟨insnI_long_wf w1 (not_not.mp himm) w2, rfl⟩⟩
  · next hpre => exact ⟨_, gfiWords_gfiPlain h, rfl, rfl, fun hpre' => absurd hpre' hpre⟩

/-- Settles O12: decoding undoes encoding format by format, every format is made of its fields, and three encodings are computed. -/
theorem wordsAreDecoded : Obligations.WordsAreDecoded :=
  ⟨fun _ _ => gfiDecode_gfiWords, fun _ _ _ _ _ => gfiWords_gfiDecode, fun _ _ _ => ⟨rfl, rfl, rfl⟩⟩

end Sys2Proof.Machine
end

section
/-! SUPPORT. Register files, contexts and steward cores: what their updates leave and write (R43, R44, R49, R53, R81), and how an instruction issues (R53, R55,
R74, R568). -/

namespace Sys2Proof.Machine

/-! ### Tables -/

/-- The later of two values stored for a key stays. -/
theorem kput_kput {α : Type} (m : KMap α) (i : Nat) (x y : α) : kput (kput m i x) i y = kput m i y := by
  induction m with
  | nil => simp [kput]
  | cons kv m ih =>
    obtain ⟨k, v⟩ := kv
    rcases Nat.lt_trichotomy i k with h | rfl | h
    · simp [kput, h]
    · simp [kput]
    · simp [kput, Nat.not_lt_of_gt h, Nat.ne_of_gt h, ih]

/-- A change of a listed key stores its new value. -/
theorem kmod_of_kget {α : Type} {m : KMap α} {i : Nat} {x : α} (h : kget m i = some x) (f : α → α) : kmod m i f = kput m i (f x) := by
  rw [kmod, h]

theorem kmod_of_none {α : Type} {m : KMap α} {i : Nat} (h : kget m i = none) (f : α → α) : kmod m i f = m := by rw [kmod, h]

/-- A change of a key maps its value. -/
theorem kget_kmod {α : Type} (m : KMap α) (i : Nat) (f : α → α) : kget (kmod m i f) i = (kget m i).map f := by
  cases h : kget m i with
  | none => rw [kmod_of_none h, h]; rfl
  | some x => exact kget_kmod_self h f

/-! ### Register files -/

@[simp] theorem RegFile.set_pc (f : RegFile) (r : Nat) (v : Word) : (f.set r v).pc = f.pc := by
  unfold RegFile.set
  split <;> rfl

@[simp] theorem RegFile.set_tk (f : RegFile) (r : Nat) (v : Word) : (f.set r v).tk = f.tk := by
  unfold RegFile.set
  split <;> rfl

/-! ### The register file of an agent -/

section
variable {s : State} {n k : Nat}

theorem rfOf_ctx {x : Ctx} (h : kget s.ctxs n = some x) : rfOf s (.ctx n) = x.rf := by simp [rfOf, h]

theorem rfOf_stew {x : Stew} (h : kget s.stews k = some x) : rfOf s (.stew k) = x.rf := by simp [rfOf, h]

end

theorem setRf_stew (k : Nat) (f : RegFile) (s : State) : setRf (.stew k) f s = modStew k (fun c => { c with rf := f }) s := rfl

/-- Replacing the register file of an agent changes contexts and steward cores only. -/
theorem setRf_eq (a : Agent) (f : RegFile) (s : State) : setRf a f s = { s with ctxs := (setRf a f s).ctxs, stews := (setRf a f s).stews } := by
  cases a <;> rfl

@[simp] theorem setRf_mem (a : Agent) (f : RegFile) (s : State) : (setRf a f s).mem = s.mem := by cases a <;> rfl
@[simp] theorem setRf_csr (a : Agent) (f : RegFile) (s : State) : (setRf a f s).csr = s.csr := by cases a <;> rfl

/-- The register file of another agent stays. -/
theorem rfOf_setRf_ne {a b : Agent} (h : b ≠ a) (f : RegFile) (s : State) : rfOf (setRf a f s) b = rfOf s b := by
  cases a with
  | ctx n =>
    cases b with
    | ctx m =>
      have hne : m ≠ n := fun e => h (congrArg Agent.ctx e)
      simp only [rfOf, setRf, kget_kmod_ne _ hne]
    | stew k => rfl
  | stew n =>
    cases b with
    | ctx m => rfl
    | stew m =>
      have hne : m ≠ n := fun e => h (congrArg Agent.stew e)
      simp only [rfOf, setRf, kget_kmod_ne _ hne]

/-- The register file that was stored for an agent, where there is such an agent. -/
theorem rfOf_setRf (a : Agent) (f : RegFile) (s : State) : rfOf (setRf a f s) a = f ∨ rfOf (setRf a f s) a = rfOf s a ∧ rfOf s a = ⟨[], 0, []⟩ := by
  cases a with
  | ctx n => cases h : kget s.ctxs n <;> simp [rfOf, setRf, kget_kmod, h]
  | stew k => cases h : kget s.stews k <;> simp [rfOf, setRf, kget_kmod, h]

/-! ### Retiring -/

theorem SameButLog.of_modCtx {n : Nat} {f : Ctx → Ctx} {t u : State} (h : SameButLog (modCtx n f t) u) :
    u = { t with ctxs := u.ctxs, csr := u.csr, cel := u.cel } := by
  have hc : u.ctxs = (modCtx n f t).ctxs := by rw [h]
  rw [hc]
  exact h

/-- Retiring counts: it changes the contexts, the stored registers and the log, and nothing else. -/
theorem retire_eq (a : Agent) (s t : State) :
    retire a s t = { t with ctxs := (retire a s t).ctxs, csr := (retire a s t).csr, cel := (retire a s t).cel } := by
  cases a with
  | stew k => rfl
  | ctx n =>
    unfold retire
    dsimp only
    split
    · exact (sameButLog_pmc _ _ _ _).of_modCtx
    · rfl

theorem retire_field {α : Type} (g : State → α) (hg : ∀ (u : State) m c l, g { u with ctxs := m, csr := c, cel := l } = g u) (a : Agent) (s t : State) :
    g (retire a s t) = g t := by
  rw [retire_eq]
  exact hg t _ _ _

@[simp] theorem retire_mem (a : Agent) (s t : State) : (retire a s t).mem = t.mem := retire_field State.mem (fun _ _ _ _ => rfl) a s t
@[simp] theorem retire_stews (a : Agent) (s t : State) : (retire a s t).stews = t.stews := retire_field State.stews (fun _ _ _ _ => rfl) a s t
@[simp] theorem retire_out (a : Agent) (s t : State) : (retire a s t).out = t.out := retire_field State.out (fun _ _ _ _ => rfl) a s t
@[simp] theorem seqOf_retire (a : Agent) (s t : State) (q : Nat) : seqOf (retire a s t) q = seqOf t q := retire_field (seqOf · q) (fun _ _ _ _ => rfl) a s t

/-- An instruction of a context counts in its life. -/
theorem retire_ctxs {s : State} {n : Nat} {x : Ctx} (h : kget s.ctxs n = some x) (t : State) :
    (retire (.ctx n) s t).ctxs = kmod t.ctxs n fun c => { c with used := c.used + 1 } := by
  rw [retire, h]
  dsimp only
  rw [sameButLog_pmc]
  rfl

/-- Retiring leaves every register file. -/
@[simp] theorem rfOf_retire (a b : Agent) (s t : State) : rfOf (retire a s t) b = rfOf t b := by
  cases a with
  | stew k => rfl
  | ctx n =>
    cases h : kget s.ctxs n with
    | none => rw [retire, h]
    | some x =>
      cases b with
      | stew k => rw [rfOf, rfOf, retire_stews]
      | ctx m =>
        rw [rfOf, rfOf, retire_ctxs h]
        by_cases hm : m = n
        · subst hm
          rw [kget_kmod]
          cases kget t.ctxs m <;> rfl
        · rw [kget_kmod_ne _ hm]

/-- Retiring changes no register but the performance counters. -/
theorem kget_retire_csr {x : Nat} (hx : isPmcReg x = false) (a : Agent) (s t : State) : kget (retire a s t).csr x = kget t.csr x := by
  cases a with
  | stew k => rfl
  | ctx n =>
    unfold retire
    dsimp only
    split
    · exact kget_pmc hx _ _ _ _
    · rfl

/-! ### Sequencers and contexts -/

/-- A sequencer with a RUNNING context selects none. -/
theorem selectCtx_of_running {s : State} {k n : Nat} (h : (seqOf s k).running = some n) : selectCtx k s = s := by simp [selectCtx, h]

section
variable {s : State} {n : Nat} {x : Ctx} (h : kget s.ctxs n = some x)
include h

/-- A context that becomes READY takes the last turn of its sequencer. -/
theorem makeReady_of_kget : makeReady n s = { s with
    ctxs := kput s.ctxs n { x with st := .ready }
    seqs := kput s.seqs x.seq { seqOf s x.seq with
      readyQ := (seqOf s x.seq).readyQ ++ [n]
      running := if (seqOf s x.seq).running = some n then none else (seqOf s x.seq).running } } := by
  rw [makeReady, h]
  dsimp only
  rw [modCtx, kmod_of_kget h]
  rfl

/-- A context that stops issuing leaves the turns of its sequencer. -/
theorem stopRunning_of_kget : stopRunning n s = { s with
    seqs := kput s.seqs x.seq { seqOf s x.seq with
      running := if (seqOf s x.seq).running = some n then none else (seqOf s x.seq).running
      readyQ := (seqOf s x.seq).readyQ.erase n } } := by
  rw [stopRunning, h]
  rfl

/-- A flow fault stops its context and names the fault (R75). -/
theorem flowFault_of_kget (code insn addr : Nat) : flowFault n code insn addr s = { stopRunning n s with
    ctxs := kput s.ctxs n { x with st := .faulted ⟨code, x.seq, insn, x.rf.pc.toNat % 2 ^ 32, addr % 2 ^ 48⟩ } } := by
  rw [flowFault, h]
  dsimp only
  rw [modCtx, stopRunning_of_kget h, kmod_of_kget h]

/-- The context and the device after a flow fault. -/
theorem flowFault_spec (code insn addr : Nat) : ∃ z f, kget (flowFault n code insn addr s).ctxs n = some z ∧ z = { x with st := .faulted f } ∧
    f = ⟨code, x.seq, insn, x.rf.pc.toNat % 2 ^ 32, addr % 2 ^ 48⟩ ∧ (flowFault n code insn addr s).mem = s.mem ∧
    (flowFault n code insn addr s).csr = s.csr := by
  rw [flowFault_of_kget h, stopRunning_of_kget h]
  exact ⟨_, _, kget_kput_self _ _ _, rfl, rfl, rfl, rfl⟩

end

/-! ### Issue (R53, R55, R568) -/

section
variable {c : Core} {a : Agent} {s : State}

/-- What `Issues` says of a flow. -/
theorem issues_fsq_iff {q : BitVec 8} {n len : Nat} : Issues (.fsq q) (.ctx n) len s ↔ flowStopped s = false ∧ (seqOf s q.toNat).running = some n ∧
    ∃ x, kget s.ctxs n = some x ∧ x.used < budget s ∧ fetchOk s (.ctx n) x.rf.pc len = true := Iff.rfl

/-- What `Issues` says of a steward core. -/
theorem issues_stew_iff {k : BitVec 4} {m len : Nat} : Issues (.stew k) (.stew m) len s ↔
    m = k.toNat ∧ ∃ x, kget s.stews m = some x ∧ x.run = true ∧ fetchOk s (.stew m) x.rf.pc len = true := Iff.rfl

/-- An agent that stands ready may fetch at its pc. -/
theorem fetchOk_of_issues {len : Nat} (h : Issues c a len s) : fetchOk s a (rfOf s a).pc len = true := by
  cases c with
  | fsq q =>
    cases a with
    | ctx n =>
      obtain ⟨-, -, x, hx, -, hf⟩ := issues_fsq_iff.mp h
      rwa [rfOf_ctx hx]
    | stew k => exact h.elim
  | stew k =>
    cases a with
    | ctx n => exact h.elim
    | stew m =>
      obtain ⟨-, x, hx, -, hf⟩ := issues_stew_iff.mp h
      rwa [rfOf_stew hx]

/-- The agent that stands ready on a core is the one that issues. -/
theorem issue_of_issues {i : Insn} (h : Issues c a i.len s) (illegal : Bool) (need : Needs) (body : Agent → RegFile → State → Eff) :
    issue c i illegal need body s = issueOn a i illegal need body s := by
  cases c with
  | fsq q =>
    cases a with
    | ctx n =>
      obtain ⟨hflow, hrun, x, hx, hused, -⟩ := issues_fsq_iff.mp h
      simp [issue, hflow, selectCtx_of_running hrun, hrun, hx, Nat.not_le.mpr hused]
    | stew k => exact h.elim
  | stew k =>
    cases a with
    | ctx n => exact h.elim
    | stew m =>
      obtain ⟨rfl, x, hx, hrun, -⟩ := issues_stew_iff.mp h
      simp [issue, hx, hrun]

section
variable {i : Insn} (h : Issues c a i.len s) {illegal : Bool} {need : Needs} {body : Agent → RegFile → State → Eff}
include h

/-- An instruction that is barred on its core faults. -/
theorem issue_barred {code : Nat} (hb : barred s a illegal need = some code) : issue c i illegal need body s = raiseFault a i.word code 0 s := by
  rw [issue_of_issues h]
  simp [issueOn, fetchOk_of_issues h, hb]

/-- An instruction that is done retires. -/
theorem issue_done {t : State} (hb : barred s a illegal need = none) (hd : body a (rfOf s a) s = .done t) :
    issue c i illegal need body s = retire a s t := by
  rw [issue_of_issues h]
  simp [issueOn, fetchOk_of_issues h, hb, hd]

/-- An instruction that faults raises its fault. -/
theorem issue_fault {code addr : Nat} (hb : barred s a illegal need = none) (hf : body a (rfOf s a) s = .fault code addr) :
    issue c i illegal need body s = raiseFault a i.word code addr s := by
  rw [issue_of_issues h]
  simp [issueOn, fetchOk_of_issues h, hb, hf]

end

end

/-- An instruction that is barred to a flow faults its context (R75), and changes neither memory nor a register of the device. -/
theorem issue_barred_flow {q : BitVec 8} {n : Nat} {x : Ctx} {i : Insn} {s : State} (h : Issues (.fsq q) (.ctx n) i.len s) (hx : kget s.ctxs n = some x)
    {illegal : Bool} {need : Needs} {body : Agent → RegFile → State → Eff} {code : Nat} (hb : barred s (.ctx n) illegal need = some code) :
    ∃ t z f, ok (issue (.fsq q) i illegal need body s) = .next t ∧ kget t.ctxs n = some z ∧ z = { x with st := .faulted f } ∧
      f = ⟨code, x.seq, i.word, x.rf.pc.toNat % 2 ^ 32, 0⟩ ∧ t.mem = s.mem ∧ t.csr = s.csr := by
  obtain ⟨z, f, hz, hzx, hf, hmem, hcsr⟩ := flowFault_spec hx code i.word 0
  exact ⟨_, z, f, congrArg ok (issue_barred h hb), hz, hzx, hf, hmem, hcsr⟩

/-! ### What is barred (R74, R76) -/

@[simp] theorem barred_illegal (s : State) (a : Agent) (need : Needs) : barred s a true need = some fIllegal := rfl

@[simp] theorem barred_any (s : State) (a : Agent) : barred s a false .any = none := by cases a <;> rfl

@[simp] theorem barred_flow (s : State) (n : Nat) : barred s (.ctx n) false .flow = none := rfl

@[simp] theorem barred_steward_ctx (s : State) (n : Nat) : barred s (.ctx n) false .steward = some fIllegal := rfl

@[simp] theorem barred_pmode_ctx (s : State) (n : Nat) : barred s (.ctx n) false .pmode = some fPriv := rfl

theorem barred_pmode_stew {s : State} {k : Nat} {y : Stew} (h : kget s.stews k = some y) :
    barred s (.stew k) false .pmode = if y.p then none else some fPriv := by
  unfold barred
  simp [h]

/-- The length of an instruction with an immediate (R66). -/
theorem insnI_len (m : Nat) (x y : RegNo) (imm : Imm) : (insnI m x y imm).len = immLen imm := by cases imm <;> rfl

/-! ### Instructions that write a register -/

/-- A write of a register and a step of the pc is the register file that the statements name. -/
theorem adv_set (s : State) (a : Agent) (r : Nat) (v : Word) (i : Insn) :
    ((rfOf s a).set r v).adv i = wroteFile s a r v (pcOf s a + BitVec.ofNat 64 i.len) := by
  rw [RegFile.adv, RegFile.set_pc]
  rfl

/-- An instruction that writes a register from the register file. -/
theorem exec_regOp {c : Core} {a : Agent} {i : Insn} {len : Nat} {illegal : Bool} {rd : RegNo} {s : State} (h : Issues c a len s) (hlen : i.len = len)
    (hill : illegal = false) (hd : badDest c rd = false) (f : RegFile → Word) : ok (regOp c i illegal rd f s) = .next (wrote a len rd (f (rfOf s a)) s) := by
  subst hlen hill
  refine congrArg ok ((issue_done (t := setRf a (((rfOf s a).set rd.toNat (f (rfOf s a))).adv i) s) h ?_ rfl).trans ?_)
  · rw [hd]
    exact barred_any s a
  · rw [adv_set]
    rfl

end Sys2Proof.Machine
end

section
/-! SUPPORT and PROOFS. The state after reset (R80), the integer instructions (R68, R69), and what an instruction that writes a register leaves (R44). -/

namespace Sys2Proof.Machine

/-! ### Reset -/

/-- Settles O5: each part of the reset state is read off. -/
theorem resetStartsStewardCoreZero : Obligations.ResetStartsStewardCoreZero := by
  refine ⟨reset_mem_wf, rfl, ⟨startCore 0, rfl, rfl, rfl, rfl, rfl, rfl, rfl, fun r => ?_⟩, fun k hk => ?_⟩
  · exact ite_self _
  · exact if_neg hk

/-! ### Operand values (R68) -/

/-- The shift amount is the low six bits. -/
theorem toNat_and_63 (y : Word) : (y &&& 63).toNat = shamt y := by
  rw [BitVec.toNat_and]
  exact Nat.and_two_pow_sub_one_eq_mod y.toNat 6

theorem flag_eq (p : Prop) [Decidable p] : flag (decide p) = if p then 1 else 0 := by
  unfold flag
  split <;> split <;> simp_all

theorem flag_slt (x y : Word) : flag (x.slt y) = if x.toInt < y.toInt then 1 else 0 := flag_eq _

theorem flag_ult (x y : Word) : flag (x.ult y) = if x < y then 1 else 0 := flag_eq _

/-- A strict comparison chooses as one that is not strict: where the two are equal either may be taken. -/
theorem ite_slt {x y u v : Word} (h : x = y → u = v) : (if x.slt y then u else v) = if x.toInt ≤ y.toInt then u else v := by
  by_cases hlt : x.toInt < y.toInt
  · simp [BitVec.slt, hlt, Int.le_of_lt hlt]
  · by_cases heq : x.toInt = y.toInt
    · simp [h (BitVec.toInt_inj.mp heq)]
    · have hle : ¬x.toInt ≤ y.toInt := by omega
      simp [BitVec.slt, hlt, hle]

theorem ite_ult {x y u v : Word} (h : x = y → u = v) : (if x.ult y then u else v) = if x ≤ y then u else v := by
  by_cases hlt : x.toNat < y.toNat
  · simp [BitVec.ult, BitVec.le_def, hlt, Nat.le_of_lt hlt]
  · by_cases heq : x.toNat = y.toNat
    · simp [h (BitVec.eq_of_toNat_eq heq)]
    · have hle : ¬x.toNat ≤ y.toNat := by omega
      simp [BitVec.ult, BitVec.le_def, hlt, hle]

/-- The leading zeros below `n` are zero bits, and the next bit, where there is one, is one. -/
theorem leadingZeros_spec (w : Word) (n : Nat) : leadingZeros w n ≤ n ∧ (∀ i, n - leadingZeros w n ≤ i → i < n → w.getLsbD i = false) ∧
    (leadingZeros w n < n → w.getLsbD (n - 1 - leadingZeros w n) = true) := by
  induction n with
  | zero => exact ⟨Nat.le_refl _, fun i _ h => absurd h (Nat.not_lt_zero i), fun h => absurd h (Nat.not_lt_zero _)⟩
  | succ n ih =>
    obtain ⟨hle, hzero, hone⟩ := ih
    unfold leadingZeros
    cases hbit : w.getLsbD n with
    | true => exact ⟨Nat.zero_le _, fun i h h' => absurd h' (Nat.not_lt.mpr h), fun _ => hbit⟩
    | false =>
      simp only [Bool.false_eq_true, if_false]
      refine ⟨by omega, fun i h h' => ?_, fun h => ?_⟩
      · rcases Nat.lt_succ_iff_lt_or_eq.mp h' with hlt | rfl
        · exact hzero i (by omega) hlt
        · exact hbit
      · have e : n + 1 - 1 - (1 + leadingZeros w n) = n - 1 - leadingZeros w n := by omega
        rw [e]
        exact hone (by omega)

/-- The trailing zeros from bit `n` on are zero bits, and the next bit, where there is one, is one. -/
theorem trailingZeros_spec (w : Word) (fuel n : Nat) : trailingZeros w fuel n ≤ fuel ∧ (∀ i, i < trailingZeros w fuel n → w.getLsbD (n + i) = false) ∧
    (trailingZeros w fuel n < fuel → w.getLsbD (n + trailingZeros w fuel n) = true) := by
  induction fuel generalizing n with
  | zero => exact ⟨Nat.le_refl _, fun i h => absurd h (Nat.not_lt_zero i), fun h => absurd h (Nat.not_lt_zero _)⟩
  | succ fuel ih =>
    obtain ⟨hle, hzero, hone⟩ := ih (n + 1)
    unfold trailingZeros
    cases hbit : w.getLsbD n with
    | true => exact ⟨Nat.zero_le _, fun i h => absurd h (Nat.not_lt_zero i), fun _ => hbit⟩
    | false =>
      simp only [Bool.false_eq_true, if_false]
      refine ⟨by omega, fun i h => ?_, fun h => ?_⟩
      · cases i with
        | zero => exact hbit
        | succ i =>
          rw [show n + (i + 1) = n + 1 + i by omega]
          exact hzero i (by omega)
      · rw [← Nat.add_assoc]
        exact hone (by omega)

/-- The count of one bits. -/
theorem onesBelow_eq_countP (w : Word) (n : Nat) : onesBelow w n = (List.range n).countP fun i => w.getLsbD i := by
  induction n with
  | zero => rfl
  | succ n ih =>
    rw [onesBelow, ih, List.range_succ, List.countP_append, Nat.add_comm]
    cases hbit : w.getLsbD n <;> simp [b2n, hbit]

/-- A byte of the number that bytes hold. -/
theorem leNat_div_mod (l : List Byte) {i : Nat} (h : i < l.length) : leNat l / 256 ^ i % 256 = l[i].toNat := by
  induction l generalizing i with
  | nil => exact absurd h (Nat.not_lt_zero i)
  | cons b l ih =>
    have hb : b.toNat < 256 := b.isLt
    cases i with
    | zero =>
      simp only [leNat, Nat.pow_zero, Nat.div_one, List.getElem_cons_zero]
      omega
    | succ i =>
      have hdiv : (b.toNat + 256 * leNat l) / 256 = leNat l := by omega
      rw [leNat, Nat.pow_succ', ← Nat.div_div_eq_div_mul, hdiv]
      exact ih (Nat.lt_of_succ_lt_succ h)

/-- A byte of the bytes of a number. -/
theorem toNat_getElem_leBytes (n v : Nat) {i : Nat} (h : i < (leBytes n v).length) : ((leBytes n v)[i]).toNat = v / 256 ^ i % 256 := by
  rw [leBytes_length] at h
  rw [← leNat_div_mod _ (by simpa using h), leNat_leBytes]
  have hpow : 256 ^ n = 256 ^ i * (256 * 256 ^ (n - i - 1)) := by
    rw [← Nat.pow_succ', ← Nat.pow_add]
    congr 1
    omega
  rw [hpow, Nat.mod_mul_right_div_self, Nat.mod_mul_right_mod]

/-- A byte of a word. -/
theorem toNat_extractLsb'_byte (w : Word) (i : Nat) : (w.extractLsb' (8 * i) 8).toNat = w.toNat / 256 ^ i % 256 := by
  rw [BitVec.extractLsb'_toNat, Nat.shiftRight_eq_div_pow, Nat.pow_mul]

/-- BSWAP reverses the bytes. -/
theorem extractLsb'_bswap64 (w : Word) {i : Nat} (h : i < 8) : (bswap64 w).extractLsb' (8 * i) 8 = w.extractLsb' (8 * (7 - i)) 8 := by
  apply BitVec.eq_of_toNat_eq
  have hlt : leNat (leBytes 8 w.toNat).reverse < 2 ^ 64 := by simpa using leNat_lt (leBytes 8 w.toNat).reverse
  rw [toNat_extractLsb'_byte, toNat_extractLsb'_byte, bswap64, BitVec.toNat_ofNat, Nat.mod_eq_of_lt hlt, leNat_div_mod _ (by simpa using h),
    List.getElem_reverse, toNat_getElem_leBytes]
  simp

/-! ### Integer instructions -/

section
variable {c : Core} {a : Agent} {rd ra rb : RegNo} {s : State}

/-- The integer register operations. -/
theorem integerRegisterResults : Claim.IntegerRegisterResults := by
  intro c a rd ra rb s h hd
  have run {m func : Nat} {f : RegFile → Word} {v : Word} (hv : f (rfOf s a) = v) :
      ok (regOp c (insnA m rd ra rb func) false rd f s) = .next (wrote a 4 rd v s) := hv ▸ exec_regOp h rfl rfl hd f
  refine ⟨run rfl, run rfl, run rfl, run rfl, run rfl, run rfl, run ?_, run ?_, run ?_, run (flag_slt _ _), run (flag_ult _ _), run (ite_slt id),
    run (ite_slt Eq.symm), run (ite_ult id), run (ite_ult Eq.symm), run rfl, run rfl, run ?_, run ?_⟩
  · rw [BitVec.shiftLeft_eq', toNat_and_63]
    rfl
  · rw [BitVec.ushiftRight_eq', toNat_and_63]
    rfl
  · rw [toNat_and_63]
    rfl
  · rw [BitVec.udiv_def]
    rfl
  · rw [BitVec.umod_def]
    rfl

/-- The counts of bits, and the reversal of bytes. -/
theorem bitCountResults : Claim.BitCountResults := by
  intro c a rd ra s h hd
  have run {func : Nat} (f : RegFile → Word) : ok (regOp c (insnA 0 rd ra 0 func) (decide ((0 : RegNo) ≠ 0)) rd f s) = .next (wrote a 4 rd (f (rfOf s a)) s) :=
    exec_regOp h rfl rfl hd f
  obtain ⟨hlz, hlzero, hlone⟩ := leadingZeros_spec (reg s a ra) 64
  obtain ⟨htz, htzero, htone⟩ := trailingZeros_spec (reg s a ra) 64 0
  refine ⟨⟨leadingZeros (reg s a ra) 64, hlz, run _, fun i hi => ?_, hlone⟩, ⟨trailingZeros (reg s a ra) 64 0, htz, run _, fun i hi => ?_, fun hlt => ?_⟩, ?_,
    bswap64 (reg s a ra), run _, fun i => extractLsb'_bswap64 _⟩
  · by_cases h64 : i < 64
    · exact hlzero i hi h64
    · exact BitVec.getLsbD_of_ge _ _ (by omega)
  · simpa using htzero i hi
  · simpa using htone hlt
  · rw [← onesBelow_eq_countP]
    exact run _

/-- The integer immediate operations. -/
theorem integerImmediateResults : Claim.IntegerImmediateResults := by
  intro c a rd ra imm sh s h h4 hd hsh
  have run {m : Nat} {f : RegFile → Word} {v : Word} (hv : f (rfOf s a) = v) :
      ok (regOp c (insnI m rd ra imm) false rd f s) = .next (wrote a (immLen imm) rd v s) := hv ▸ exec_regOp h (insnI_len _ _ _ _) rfl hd f
  have shift {m : Nat} {f : RegFile → Word} {v : Word} (hv : f (rfOf s a) = v) :
      ok (regOp c (insnI m rd ra (.short sh)) (decide (64 ≤ sh.toNat)) rd f s) = .next (wrote a 4 rd v s) :=
    hv ▸ exec_regOp h4 rfl (decide_eq_false (Nat.not_le.mpr hsh)) hd f
  have hmod : sh.toNat % 64 = sh.toNat := Nat.mod_eq_of_lt hsh
  refine ⟨run rfl, run rfl, run rfl, run rfl, run (flag_slt _ _), run (flag_ult _ _), shift ?_, shift ?_, shift ?_, fun v => ?_, fun w h12 => ?_⟩
  · rw [hmod]
    rfl
  · rw [hmod]
    rfl
  · rw [hmod]
    rfl
  · exact exec_regOp h4 rfl rfl hd _
  · exact exec_regOp h12 rfl rfl hd _

/-- An instruction of a flow that is ILLEGAL faults its context (R75): its registers and the device stay. -/
theorem exec_regOp_illegal {q : BitVec 8} {n : Nat} {x : Ctx} {i : Insn} {illegal : Bool} {rd : RegNo} {s : State} (h : Issues (.fsq q) (.ctx n) i.len s)
    (hx : kget s.ctxs n = some x) (hill : illegal = true ∨ rd = 29) (f : RegFile → Word) :
    ∃ t z f', ok (regOp (.fsq q) i illegal rd f s) = .next t ∧ kget t.ctxs n = some z ∧ z.st = .faulted f' ∧ f'.code = 0x01 ∧ z.rf = x.rf ∧
      t.mem = s.mem ∧ t.csr = s.csr := by
  have hbad : (illegal || badDest (.fsq q) rd) = true := by
    rcases hill with rfl | rfl
    · rfl
    · exact Bool.or_true _
  obtain ⟨t, z, f', ht, hz, rfl, rfl, hmem, hcsr⟩ := issue_barred_flow h hx (hbad ▸ barred_illegal s (.ctx n) .any)
  exact ⟨t, _, _, ht, hz, rfl, rfl, rfl, hmem, hcsr⟩

/-- The forms that are ILLEGAL in a flow. -/
theorem illegalForms : Claim.IllegalForms := by
  intro q n x rd ra rb v sh i s h hx
  have bad29 (i : Insn) (hlen : i.len = 4) (illegal : Bool) (f : RegFile → Word) := exec_regOp_illegal (i := i) (illegal := illegal) (hlen ▸ h) hx (.inr rfl) f
  have bad (i : Insn) (hlen : i.len = 4) {illegal : Bool} (hill : illegal = true) (f : RegFile → Word) :=
    exec_regOp_illegal (i := i) (rd := rd) (hlen ▸ h) hx (.inl hill) f
  simp only [List.mem_cons, List.not_mem_nil, or_false]
  rintro (hi | ⟨hrb, hi⟩ | ⟨hsh, hi⟩ | ⟨hra, rfl⟩)
  · rcases hi with rfl | rfl | rfl | rfl | rfl | rfl | rfl | rfl | rfl | rfl | rfl | rfl | rfl | rfl | rfl | rfl | rfl | rfl | rfl | rfl | rfl | rfl | rfl | rfl |
      rfl | rfl | rfl | rfl | rfl | rfl | rfl | rfl | rfl <;> exact bad29 _ rfl _ _
  · rcases hi with rfl | rfl | rfl | rfl <;> exact bad _ rfl (decide_eq_true hrb) _
  · rcases hi with rfl | rfl | rfl <;> exact bad _ rfl (decide_eq_true hsh) _
  · exact bad _ rfl (decide_eq_true hra) _

end

/-- Settles O7: each instruction is a register operation, and its operand values are those of the rules. -/
theorem integerInstructionResults : Obligations.IntegerInstructionResults :=
  ⟨integerRegisterResults, bitCountResults, integerImmediateResults, illegalForms⟩

/-! ### The frame of an instruction that writes a register -/

/-- Register numbers that differ name different registers. -/
theorem regNo_toNat_ne {r q : RegNo} (h : r ≠ q) : r.toNat ≠ q.toNat := fun e => h (BitVec.eq_of_toNat_eq e)

/-- Settles O8: the write is to the register file of its agent, and retiring counts it. -/
theorem registerInstructionFrame : Obligations.RegisterInstructionFrame := by
  intro a len rd v s
  dsimp only [wrote]
  generalize hu : setRf a (wroteFile s a rd.toNat v (pcOf s a + BitVec.ofNat 64 len)) s = u
  have hfile := rfOf_setRf a (wroteFile s a rd.toNat v (pcOf s a + BitVec.ofNat 64 len)) s
  have hmem := setRf_mem a (wroteFile s a rd.toNat v (pcOf s a + BitVec.ofNat 64 len)) s
  have hcsr := setRf_csr a (wroteFile s a rd.toNat v (pcOf s a + BitVec.ofNat 64 len)) s
  have heq := setRf_eq a (wroteFile s a rd.toNat v (pcOf s a + BitVec.ofNat 64 len)) s
  rw [hu] at hfile hmem hcsr heq
  refine ⟨fun x => ?_, fun x hx => ?_, fun r hr => ?_, rfl, ?_, fun b hb => ?_, ?_, fun n hn => ?_, fun k hk => ?_⟩
  · rw [retire_mem, hmem]
  · rw [kget_retire_csr hx, hcsr]
  · rw [reg, rfOf_retire]
    rcases hfile with hself | ⟨hself, -⟩ <;> rw [hself]
    · exact RegFile.get_set_ne _ (regNo_toNat_ne hr) v
    · rfl
  · rw [rfOf_retire]
    rcases hfile with hself | ⟨hself, -⟩ <;> rw [hself]
    exact RegFile.set_tk _ _ _
  · rw [rfOf_retire, ← hu, rfOf_setRf_ne hb]
  · rw [retire_stews]
    refine (retire_eq a s u).trans ?_
    generalize retire a s u = t
    rw [heq]
    rfl
  · rw [retire_stews, ← hu, hn]
    rfl
  · subst hk
    rw [← hu]
    exact ⟨rfl, rfl, rfl⟩

end Sys2Proof.Machine
end

section
/-! PROOFS. Three statements that fail: a fault in a steward handler writes memory, and nothing bounds the sequencer number of a context. -/

namespace Sys2Proof.Machine

/-! ### Transfers -/

/-- A branch that is taken to an address where its agent may not fetch raises FETCH (R72). -/
theorem branch_fault {c : Core} {a : Agent} {m : Nat} {ra rb : RegNo} {off : Imm} {cond : Word → Word → Bool} {s : State} (h : Issues c a (immLen off) s)
    (hcond : cond (reg s a ra) (reg s a rb) = true) (hbad : fetchOk s a (pcOf s a + immS off * 4) 4 = false) :
    branch c m ra rb off cond s = raiseFault a (insnB m ra rb off).word fFetch (pcOf s a + immS off * 4).toNat s := by
  refine issue_fault ((insnI_len m ra rb off).symm ▸ h) (barred_any s a) ?_
  exact (if_pos hcond).trans (if_neg fun h' => Bool.false_ne_true (hbad.symm.trans h'))

/-! ### A fault while a handler runs -/

/-- Steward core 0 as R80 starts it, but within a handler: INEV is 1. -/
def handlerState : State := { State.reset with stews := [(0, { startCore 0 with mode := 3 })] }

theorem issues_handlerState : Issues (.stew 0) (.stew 0) 4 handlerState := issues_stew_iff.mpr ⟨rfl, _, rfl, rfl, by decide +kernel⟩

/-- Refutes O9: a FETCH fault of a steward core in a handler is a double fault (R78), and its two records are written to the cellar buffer, which is
memory. Steward core 0 branches back from address 0 of the boot ROM. -/
theorem not_controlTransferResults : ¬ Obligations.ControlTransferResults := by
  rintro ⟨-, -, h⟩
  have hbad : fetchOk handlerState (.stew 0) (pcOf handlerState (.stew 0) + immS (.short 0xFFFF) * 4) 4 = false := by decide +kernel
  obtain ⟨t, ht, -, -, hmem⟩ := h (.stew 0) (.stew 0) 0 0 (.short 0xFFFF) handlerState issues_handlerState rfl hbad
  have hrun : exec (.beq (.stew 0) 0 0 (.short 0xFFFF)) handlerState =
      .next (raiseFault (.stew 0) (insnB 0x28 0 0 (.short 0xFFFF)).word fFetch 0xFFFF_FFFF_FFFF_FFFC handlerState) :=
    congrArg ok (branch_fault issues_handlerState rfl hbad)
  rw [hrun] at ht
  cases ht
  exact absurd hmem (by decide +kernel)

/-! ### A frame in CSR space -/

/-- A RUNNING context that names sequencer 0x3A00, which the device does not have: by R46 its frame would lie at the start of CSR space (R21). -/
def strayCtx : Ctx :=
  { st := .running, cls := 0, vol := 0, hq := 0, cid := 0, seq := 0x3A00, frame := 0, rf := ⟨[(1, 0x1_0000_0080)], 0, []⟩, sbuf := [], fences := 0, dsts := 0
    used := 0, epoch := 0, posted := false, fwd := false }

/-- The device with that context alone, which runs on sequencer 0. -/
def strayState : State := { State.reset with ctxs := [(0, strayCtx)], seqs := [(0, ⟨some 0, [], 0, false⟩)] }

theorem issues_strayState : Issues (.fsq 0) (.ctx 0) 4 strayState :=
  issues_fsq_iff.mpr ⟨by decide +kernel, rfl, strayCtx, rfl, by decide +kernel, by decide +kernel⟩

/-- An access of 4 bytes to that frame is an ALIGN fault, as one to CSR space that is not 64 bits wide (R10). -/
theorem accessFault_strayState (may : Bool) : accessFault strayState (.ctx 0) 0x1_0000_0080 4 may = some fAlign := rfl

/-- A load and a store of 4 bytes of that frame fault. -/
theorem loadEff_strayState (op : MemOp) (i : Insn) (take : Agent → List Byte → State → State) (f : RegFile) :
    loadEff 4 op 0x1_0000_0080 i take (.ctx 0) f strayState = .fault fAlign 0x1_0000_0080 := by
  simp only [loadEff, show kget strayState.ctxs 0 = some strayCtx from rfl, accessFault_strayState]

theorem storeEff_strayState (v : Nat) (i : Insn) (f : RegFile) :
    storeEff 0x1_0000_0080 (leBytes 4 v) i (.ctx 0) f strayState = .fault fAlign 0x1_0000_0080 := by
  simp only [storeEff, show kget strayState.ctxs 0 = some strayCtx from rfl, leBytes_length, accessFault_strayState]

/-- The address that g1 of that context holds. -/
theorem addr_strayState : ((rfOf strayState (.ctx 0)).get (1 : RegNo).toNat + immS (.short 0)).toNat = 0x1_0000_0080 := by decide +kernel

theorem loadOp_strayState : loadOp (.fsq 0) 0x11 4 false 2 1 (.short 0) strayState =
    raiseFault (.ctx 0) (insnI 0x11 2 1 (.short 0)).word fAlign 0x1_0000_0080 strayState := by
  have h : Issues (.fsq 0) (.ctx 0) (insnI 0x11 2 1 (.short 0)).len strayState := issues_strayState
  unfold loadOp
  dsimp only
  rw [show badDest (.fsq 0) 2 = false from rfl]
  apply issue_fault h (barred_any _ _)
  rw [addr_strayState]
  exact loadEff_strayState _ _ _ _

theorem storeOp_strayState : storeOp (.fsq 0) 0x19 4 0 1 (.short 0) strayState =
    raiseFault (.ctx 0) (insnI 0x19 0 1 (.short 0)).word fAlign 0x1_0000_0080 strayState := by
  have h : Issues (.fsq 0) (.ctx 0) (insnI 0x19 0 1 (.short 0)).len strayState := issues_strayState
  unfold storeOp
  dsimp only
  apply issue_fault h (barred_any _ _)
  rw [addr_strayState]
  exact storeEff_strayState _ _ _

/-- A fault of that context leaves its pc. -/
theorem pc_flowFault_strayState (code insn addr : Nat) : (rfOf (flowFault 0 code insn addr strayState) (.ctx 0)).pc = 0 := by
  obtain ⟨z, f, hz, rfl, -⟩ := flowFault_spec (s := strayState) (n := 0) (x := strayCtx) rfl code insn addr
  rw [rfOf_ctx hz]
  rfl

/-- Refutes O10: LW by the context of `strayState` from its own frame is an ALIGN fault, and not a load that retires. -/
theorem not_loadAtomicAndDescriptorResults : ¬ Obligations.LoadAtomicAndDescriptorResults := by
  rintro ⟨h, -⟩
  obtain ⟨-, hlw, -⟩ := h (.fsq 0) (.ctx 0) 2 1 (.short 0) strayState issues_strayState rfl
  obtain ⟨-, hframe, -⟩ := hlw (by decide +kernel)
  have hload := hframe 0 strayCtx rfl rfl (by decide +kernel)
  have hrun : exec (.lw (.fsq 0) 2 1 (.short 0)) strayState = _ := congrArg ok loadOp_strayState
  rw [hrun] at hload
  have hpc := congrArg (fun u => (rfOf u (.ctx 0)).pc) (Host.Outcome.next.inj hload)
  rw [raiseFault, pc_flowFault_strayState] at hpc
  exact absurd hpc (by decide +kernel)

/-- Refutes O11: SW by the context of `strayState` to its own frame is an ALIGN fault, and not a store that retires. -/
theorem not_storeResults : ¬ Obligations.StoreResults := by
  rintro ⟨h, -⟩
  obtain ⟨-, hsw, -⟩ := h (.fsq 0) (.ctx 0) 0 1 (.short 0) strayState rfl issues_strayState
  obtain ⟨t, ht, -, -, hrf, -⟩ := hsw (by decide +kernel) (.inr ⟨0, strayCtx, rfl, rfl, by decide +kernel⟩)
  have hrun : exec (.sw (.fsq 0) 0 1 (.short 0)) strayState = _ := congrArg ok storeOp_strayState
  rw [hrun] at ht
  cases ht
  have hpc := congrArg RegFile.pc hrf
  rw [raiseFault, pc_flowFault_strayState] at hpc
  exact absurd hpc (by decide +kernel)

end Sys2Proof.Machine
end

section
/-! SUPPORT and PROOFS. Special registers, handlers and privilege of the steward cores, and the encodings that are no instruction (R66, R67, R74 to R78, R531). -/

namespace Sys2Proof.Machine

/-! ### Steward cores -/

/-- A change of a steward core that is there. -/
theorem modStew_of_kget {s : State} {k : Nat} {y : Stew} (h : kget s.stews k = some y) (f : Stew → Stew) :
    modStew k f s = { s with stews := kput s.stews k (f y) } := by rw [modStew, kmod_of_kget h]

/-- Entry of a core to a handler (R77). -/
theorem handlerEntry_of_kget {s : State} {k : Nat} {y : Stew} (h : kget s.stews k = some y) (epc : Word) (ecause eaddr v : Nat) :
    handlerEntry k epc ecause eaddr v s = { s with stews := kput s.stews k { y with
      emode := y.mode, epc := epc, ecause := ecause, eaddr := eaddr, mode := y.mode ||| 3
      rf := { y.rf with pc := y.evbase + BitVec.ofNat 64 (0x100 * v) } } } := modStew_of_kget h _

/-- A fault or TRAP of a core that is in no handler enters one (R77). -/
theorem stewTrapEntry_of_kget {s : State} {k : Nat} {y : Stew} (h : kget s.stews k = some y) (hinev : y.inev = false) (epc : Word) (ecause eaddr v : Nat) :
    stewTrapEntry k epc ecause eaddr v s = handlerEntry k epc ecause eaddr v s := by simp [stewTrapEntry, h, hinev]

/-- A fault or TRAP of a core that is in a handler is a double fault (R78). -/
theorem stewTrapEntry_of_inev {s : State} {k : Nat} {y : Stew} (h : kget s.stews k = some y) (hinev : y.inev = true) (epc : Word) (ecause eaddr v : Nat) :
    stewTrapEntry k epc ecause eaddr v s = doubleFault k epc ecause eaddr s := by simp [stewTrapEntry, h, hinev]

/-! ### Special registers (R76) -/

section
variable {i : Nat} (k : Nat) (c d : Stew) (v : Word)

/-- SCRATCH: its bits, its value and its write. -/
theorem sp_scratch (h : i < 8) : spMask (0x08 + i) = some (BitVec.allOnes 64) ∧ spGet k c (0x08 + i) = kgetD c.scratch i 0 ∧
    spSet d (0x08 + i) (v &&& BitVec.allOnes 64) = { d with scratch := kputD 0 d.scratch i v } := by
  simp (disch := omega) only [spMask, spGet, spSet, ↓if_neg, ↓if_pos, Nat.add_sub_cancel_left, BitVec.and_allOnes, and_self]

/-- RGNB, whose bits 11 to 7 are reserved. -/
theorem sp_rgnb (h : i < 64) : spMask (0x40 + i) = some 0x0000FFFFFFFFF07F ∧ spGet k c (0x40 + i) = kgetD c.rgnb i 0 ∧
    spSet d (0x40 + i) (v &&& 0x0000FFFFFFFFF07F) = { d with rgnb := kputD 0 d.rgnb i (v &&& 0x0000FFFFFFFFF07F) } := by
  simp (disch := omega) only [spMask, spGet, spSet, ↓if_neg, ↓if_pos, Nat.add_sub_cancel_left, and_true]
  rfl

/-- RGNL, whose bits 11 to 0 are reserved. -/
theorem sp_rgnl (h : i < 64) : spMask (0x80 + i) = some 0x0000FFFFFFFFF000 ∧ spGet k c (0x80 + i) = kgetD c.rgnl i 0 ∧
    spSet d (0x80 + i) (v &&& 0x0000FFFFFFFFF000) = { d with rgnl := kputD 0 d.rgnl i (v &&& 0x0000FFFFFFFFF000) } := by
  simp (disch := omega) only [spMask, spGet, spSet, ↓if_neg, ↓if_pos, Nat.add_sub_cancel_left, and_true]
  rfl

end

section
variable {k : BitVec 4} {r : RegNo} {y : Stew} {s : State} (h : Issues (.stew k) (.stew k.toNat) 4 s) (hy : kget s.stews k.toNat = some y) (hp : y.p = true)
include h hy hp

/-- In P mode MFS reads a special register that R76 lists, and MTS writes its bits that are not reserved. -/
theorem exec_mfs_mts {idx : Nat} {mask w : Word} {z : Stew} (hidx : idx < 256) (hmask : spMask idx = some mask) (hget : spGet k.toNat y idx = w)
    (hset : spSet { y with rf := { y.rf with pc := y.rf.pc + 4 } } idx (reg s (.stew k.toNat) r &&& mask) =
      { z with rf := { y.rf with pc := y.rf.pc + 4 } }) :
    exec (.mfs (.stew k) r 0 (BitVec.ofNat 8 idx)) s = .next (wrote (.stew k.toNat) 4 r w s) ∧
      exec (.mts (.stew k) 0 r (BitVec.ofNat 8 idx)) s =
        .next { s with stews := kput s.stews k.toNat { z with rf := { y.rf with pc := y.rf.pc + 4 } } } := by
  have haux : (BitVec.ofNat 8 idx).toNat = idx := by rw [BitVec.toNat_ofNat, Nat.mod_eq_of_lt hidx]
  have hpriv : barred s (.stew k.toNat) false .pmode = none := by rw [barred_pmode_stew hy, hp]; rfl
  constructor
  · show execMfs (.stew k) r 0 _ s = _
    rw [execMfs, issue_done (a := .stew k.toNat)
      (t := setRf (.stew k.toNat) (((rfOf s (.stew k.toNat)).set r.toNat w).adv (insnX 0x3C 0x00 r 0 (BitVec.ofNat 8 idx))) s) h, adv_set]
    · rfl
    · simp [haux, hmask, badDest, hpriv]
    · simp [hy, haux, hget]
  · show execMts (.stew k) 0 r _ s = _
    rw [execMts, issue_done (a := .stew k.toNat) h _ rfl]
    · rw [haux, hmask, setRf_stew, modStew_of_kget hy, modStew_of_kget (kget_kput_self _ _ _), rfOf_stew hy]
      rw [reg, rfOf_stew hy] at hset
      rw [Option.getD_some, retire_stew]
      dsimp only
      rw [show RegFile.adv y.rf (insnX 0x3C 0x01 0 r (BitVec.ofNat 8 idx)) = { y.rf with pc := y.rf.pc + 4 } from rfl, hset]
      exact congrArg (fun m => ok { s with stews := m }) (kput_kput _ _ _ _)
    · simp [haux, hmask, hpriv]

end

/-- MFS and MTS, register by register. -/
theorem specialRegisterResults : Claim.SpecialRegisterResults := by
  intro k r y s h hy hp
  have run {idx : Nat} {mask w : Word} {z : Stew} := exec_mfs_mts (r := r) (idx := idx) (mask := mask) (w := w) (z := z) h hy hp
  refine ⟨run (by decide) rfl rfl rfl, run (by decide) rfl rfl ?_, run (by decide) rfl rfl rfl, run (by decide) rfl rfl ?_, run (by decide) rfl rfl rfl,
    run (by decide) rfl rfl rfl, run (by decide) rfl ?_ rfl, fun i hi => ?_, fun i hi => ?_⟩
  · rw [BitVec.and_allOnes]
    rfl
  · rw [BitVec.and_allOnes]
    rfl
  · exact BitVec.ofNat_toNat 64 k
  · obtain ⟨hmask, hget, hset⟩ := sp_scratch k.toNat y { y with rf := { y.rf with pc := y.rf.pc + 4 } } (reg s (.stew k.toNat) r) hi
    exact run (by omega) hmask hget hset
  · obtain ⟨hmask, hget, hset⟩ := sp_rgnb k.toNat y { y with rf := { y.rf with pc := y.rf.pc + 4 } } (reg s (.stew k.toNat) r) hi
    obtain ⟨hread, hwrite⟩ := run (z := { y with rgnb := kputD 0 y.rgnb i _ }) (by omega) hmask hget hset
    obtain ⟨hmask', hget', hset'⟩ := sp_rgnl k.toNat y { y with rf := { y.rf with pc := y.rf.pc + 4 } } (reg s (.stew k.toNat) r) hi
    obtain ⟨hread', hwrite'⟩ := run (z := { y with rgnl := kputD 0 y.rgnl i _ }) (by omega) hmask' hget' hset'
    exact ⟨hread, hread', hwrite, hwrite'⟩

/-! ### Handlers (R77, R78, R531) -/

/-- TRAP enters its handler, or is a double fault, with EPC at the next instruction. -/
theorem exec_trap {k : BitVec 4} {s : State} (h : Issues (.stew k) (.stew k.toNat) 4 s) {y : Stew} (hy : kget s.stews k.toNat = some y) (aux : Byte) :
    exec (.trap (.stew k) 0 0 aux) s = .next (stewTrapEntry k.toNat (y.rf.pc + 4) (0x21 + 65536 * aux.toNat) 0 2 s) := by
  show execTrap (.stew k) 0 0 aux s = _
  rw [execTrap, issue_done (a := .stew k.toNat) h rfl rfl, rfOf_stew hy, Nat.mul_comm]
  rfl

/-- Entry to handlers, and the return from them. -/
theorem handlerEntryAndReturn : Claim.HandlerEntryAndReturn := by
  intro k aux y s hy
  refine ⟨fun h hinev => ?_, fun h hp => ?_, fun q hrun heven hinev hq => ?_⟩
  · rw [exec_trap h hy, stewTrapEntry_of_kget hy hinev, handlerEntry_of_kget hy]
  · have hpriv : barred s (.stew k.toNat) false .pmode = none := by rw [barred_pmode_stew hy, hp]; rfl
    exact congrArg ok ((issue_done (a := .stew k.toNat)
      (t := modStew k.toNat (fun c => { c with mode := c.emode, rf := { c.rf with pc := c.epc } }) s) h hpriv rfl).trans (modStew_of_kget hy _))
  · have hrun' : execEventDelivery k s = ok (handlerEntry k.toNat y.rf.pc (0x20 + q * 256) 0 1 s) := by
      simp only [execEventDelivery, hy, hrun, heven, hinev, Bool.not_false, Bool.and_self, if_true, hq]
    rw [Nat.mul_comm q, handlerEntry_of_kget hy] at hrun'
    exact hrun'

/-- A TRAP in a handler. -/
theorem doubleFaultAssertsReset : Claim.DoubleFaultAssertsReset := by
  intro k aux y s h hy hinev
  rw [exec_trap h hy, stewTrapEntry_of_inev hy hinev]
  rfl

/-! ### Privilege (R74, R76) -/

/-- An instruction for P mode is a PRIV fault of a core in U mode. -/
theorem issue_user {k : BitVec 4} {y : Stew} {i : Insn} {s : State} (h : Issues (.stew k) (.stew k.toNat) 4 s) (hlen : i.len = 4) (hy : kget s.stews k.toNat = some y)
    (hp : y.p = false) (hinev : y.inev = false) {illegal : Bool} (hill : illegal = false) (body : Agent → RegFile → State → Eff) :
    ok (issue (.stew k) i illegal .pmode body s) = .next (handlerEntry k.toNat y.rf.pc 0x02 0 0 s) := by
  have hpriv : barred s (.stew k.toNat) illegal .pmode = some fPriv := by rw [hill, barred_pmode_stew hy, hp]; rfl
  have hi : Issues (.stew k) (.stew k.toNat) i.len s := by rw [hlen]; exact h
  rw [issue_barred hi hpriv, raiseFault, stewTrapEntry_of_kget hy hinev, rfOf_stew hy]
  rfl

/-- The privileged instructions in U mode and on a sequencer. -/
theorem privilegeFaults : Claim.PrivilegeFaults := by
  constructor
  · rintro k y s h hy hp hinev i (rfl | rfl | rfl | rfl)
    · exact issue_user h rfl hy hp hinev rfl _
    · exact issue_user h rfl hy hp hinev rfl _
    · exact issue_user h rfl hy hp hinev rfl _
    · exact issue_user h rfl hy hp hinev rfl _
  · intro q n x s h hx i hi
    have faults {j : Insn} (hlen : j.len = 4) {need : Needs} {code v : Nat} (hb : barred s (.ctx n) false need = some code) (hv : v = code)
        {illegal : Bool} (hill : illegal = false) (body : Agent → RegFile → State → Eff) : ∃ t z f, ok (issue (.fsq q) j illegal need body s) = .next t ∧
          kget t.ctxs n = some z ∧ z.st = .faulted f ∧ z.rf = x.rf ∧ t.mem = s.mem ∧ f.code = v := by
      obtain ⟨t, z, f, ht, hz, rfl, rfl, hmem, -⟩ := issue_barred_flow (body := body) (hlen ▸ h) hx (hill ▸ hb)
      exact ⟨t, _, _, ht, hz, rfl, rfl, hmem, hv.symm⟩
    rcases hi with rfl | rfl | rfl | rfl | rfl
    · exact faults rfl (barred_pmode_ctx s n) (if_neg nofun) rfl _
    · exact faults rfl (barred_pmode_ctx s n) (if_neg nofun) rfl _
    · exact faults rfl (barred_pmode_ctx s n) (if_neg nofun) rfl _
    · exact faults rfl (barred_pmode_ctx s n) (if_neg nofun) rfl _
    · exact faults rfl (barred_steward_ctx s n) (if_pos rfl) rfl _

/-! ### Unassigned encodings (R66, R67, R75) -/

/-- Whether words are an instruction depends neither on the core nor on the third word. -/
theorem isNone_gfiDecode (c d : Core) (w0 w1 w2 v2 : BitVec 32) : (gfiDecode c w0 w1 w2).isNone = (gfiDecode d w0 w1 v2).isNone := by
  simp only [gfiDecode, gfiPlain, gfiImm, apply_ite Option.isNone, Option.isNone_map, Option.isNone_some]

/-- The major of a word is 0x3F where its top six bits are. -/
theorem wf_major_eq_iff (w : BitVec 32) : wf w 26 6 = 0x3F ↔ w.toNat / 2 ^ 26 = 0x3F := by
  have hw := w.isLt
  rw [← BitVec.toNat_inj, toNat_wf]
  show _ = 63 ↔ _
  omega

/-- Words that are no instruction are ILLEGAL. -/
theorem unassignedEncodingsAreIllegal : Claim.UnassignedEncodingsAreIllegal := by
  intro q n x w0 w1 w2 s h hx hun
  have hnone : gfiDecode (.fsq q) w0 w1 w2 = none := by
    rw [← Option.isNone_iff_eq_none, isNone_gfiDecode _ (.stew 0) _ _ _ 0]
    exact hun
  let i : Insn := if wf w0 26 6 = 0x3F then ⟨w1.toNat, 12⟩ else ⟨w0.toNat, 4⟩
  have hi : i = ⟨if w0.toNat / 2 ^ 26 = 0x3F then w1.toNat else w0.toNat, if w0.toNat / 2 ^ 26 = 0x3F then 12 else 4⟩ := by
    simp only [i, wf_major_eq_iff]
    split <;> rfl
  have hrun : exec (.unassignedEncoding (.fsq q) w0 w1 w2) s = ok (issue (.fsq q) i true .any (fun _ _ t => .done t) s) := by
    show execUnassignedEncoding (.fsq q) w0 w1 w2 s = _
    rw [execUnassignedEncoding, hnone]
  rw [hrun, hi]
  obtain ⟨t, z, f, ht, hz, rfl, rfl, hmem, -⟩ := issue_barred_flow (i := ⟨if w0.toNat / 2 ^ 26 = 0x3F then w1.toNat else w0.toNat, _⟩) h hx
    (barred_illegal s (.ctx n) .any)
  exact ⟨t, _, _, ht, hz, rfl, rfl, rfl, rfl, rfl, hmem⟩

/-- Settles O13: special registers, handlers, double faults, privilege and unassigned encodings. -/
theorem specialRegistersAndHandlers : Obligations.SpecialRegistersAndHandlers :=
  ⟨specialRegisterResults, handlerEntryAndReturn, doubleFaultAssertsReset, privilegeFaults, unassignedEncodingsAreIllegal⟩

end Sys2Proof.Machine
end

section
/-! SUPPORT and PROOFS. Context instructions, fences, and reads of flow registers (R45, R50, R51, R53, R60, R64, R73). -/

namespace Sys2Proof.Machine

/-! ### Memory -/

/-- A part of what has just been written reads as that part. -/
theorem mread_mwrite_part {m : List Host.Cell} (hm : Memory.wf m = true) (a : Nat) (l : List Byte) {i n : Nat} (h : i + n ≤ l.length) :
    mread (mwrite m a l) (a + i) n = (l.drop i).take n := by
  apply List.ext_getElem
  · rw [mread_length, List.length_take, List.length_drop]
    omega
  · intro j hj _
    rw [mread_length] at hj
    simp only [mread, List.getElem_map, List.getElem_range, List.getElem_take, List.getElem_drop, Nat.add_assoc]
    exact mget_mwrite_of_in hm a l (by omega)

/-- A number that has just been written reads as itself, cut to its width. -/
theorem rdN_wrN {s : State} (h : Memory.wf s.mem = true) (a n v : Nat) : rdN (wrN a n v s) a n = v % 256 ^ n := by
  have hread := mread_mwrite h a (leBytes n v)
  rw [leBytes_length] at hread
  rw [rdN, wrN_mem, hread, leNat_leBytes]

/-- A write elsewhere leaves a number. -/
theorem rdN_wrB_of_out (s : State) (a : Nat) (l : List Byte) {x n : Nat} (h : x + n ≤ a ∨ a + l.length ≤ x) : rdN (wrB a l s) x n = rdN s x n := by
  rw [rdN, rdN, wrB_mem, mread_mwrite_of_out _ _ _ h]

theorem rdN_wrN_of_out (s : State) (a k v : Nat) {x n : Nat} (h : x + n ≤ a ∨ a + k ≤ x) : rdN (wrN a k v s) x n = rdN s x n :=
  rdN_wrB_of_out s a (leBytes k v) (by rwa [leBytes_length])

/-- A write within a range leaves the bytes outside it. -/
theorem sameMemBut_wrB {s t : State} {lo n : Nat} (h : SameMemBut lo n s t) {a : Nat} {l : List Byte} (hlo : lo ≤ a) (hhi : a + l.length ≤ lo + n) :
    SameMemBut lo n s (wrB a l t) := fun x hx => (mget_mwrite_of_out _ _ _ (by omega)).trans (h x hx)

theorem sameMemBut_wrN {s t : State} {lo n : Nat} (h : SameMemBut lo n s t) {a k v : Nat} (hlo : lo ≤ a) (hhi : a + k ≤ lo + n) :
    SameMemBut lo n s (wrN a k v t) := sameMemBut_wrB h hlo (by rwa [leBytes_length])

theorem sameMemBut_of_mem {s t : State} (h : t.mem = s.mem) (lo n : Nat) : SameMemBut lo n s t := fun x _ => by rw [h]

/-! ### Reads of flow registers, and fences -/

/-- An instruction that reads into rd. -/
theorem exec_xRead {c : Core} {a : Agent} {rd : RegNo} {s : State} (h : Issues c a 4 s) (hd : badDest c rd = false) {need : Needs}
    (hb : barred s a false need = none) (m xf : Nat) (v : Agent → State → Word) : ok (xRead c m xf rd 0 0 need v s) = .next (wrote a 4 rd (v a s) s) := by
  refine congrArg ok ((issue_done (i := insnX m xf rd 0 0)
    (t := setRf a (((rfOf s a).set rd.toNat (v a s)).adv (insnX m xf rd 0 0)) s) h ?_ rfl).trans ?_)
  · rw [hd]
    exact hb
  · rw [adv_set]
    rfl

/-- A fence that orders no stores only moves the pc. -/
theorem exec_fenceOp {c : Core} {a : Agent} {s : State} (h : Issues c a 4 s) {need : Needs} (hb : barred s a false need = none) (xf : Nat) :
    ok (fenceOp c xf 0 0 0 need false s) = .next (jumped a (pcOf s a + 4) s) := by
  refine congrArg ok (issue_done (i := insnX 0x39 xf 0 0 0) (t := setRf a { rfOf s a with pc := pcOf s a + 4 } s) h hb ?_)
  cases a <;> rfl

/-- Reads and fences. -/
theorem flowReadsAndFences : Claim.FlowReadsAndFences := by
  intro c a rd s h hd
  refine ⟨fun n hn => ?_, exec_xRead h hd (barred_any s a) _ _ _, exec_xRead h hd (barred_any s a) _ _ _, ?_, ?_, exec_fenceOp h (barred_any s a) _,
    fun k y hk hy hp => ?_⟩
  · subst hn
    exact exec_xRead h hd (barred_flow s n) _ _ _
  · cases a with
    | ctx n => exact congrArg ok (issue_done (i := insnX 0x39 0x00 0 0 0) h (barred_any s _) rfl)
    | stew k => exact congrArg ok (issue_done (i := insnX 0x39 0x00 0 0 0) h (barred_any s _) rfl)
  · cases a with
    | ctx n => exact congrArg ok (issue_done (i := insnX 0x39 0x02 0 0 0) h (barred_any s _) rfl)
    | stew k => exact congrArg ok (issue_done (i := insnX 0x39 0x02 0 0 0) h (barred_any s _) rfl)
  · subst hk
    have hpriv : barred s (.stew k) false .pmode = none := by rw [barred_pmode_stew hy, hp]; rfl
    exact exec_fenceOp h hpriv _

/-! ### YIELD, PARK and END -/

section
variable {q : BitVec 8} {n : Nat} {x : Ctx} {s : State}

/-- The context that has retired an instruction. -/
theorem kget_retire_self (hx : kget s.ctxs n = some x) {t : State} {y : Ctx} (ht : kget t.ctxs n = some y) :
    kget (retire (.ctx n) s t).ctxs n = some { y with used := y.used + 1 } := by rw [retire_ctxs hx, kget_kmod, ht]; rfl

/-- A context that is RUNNING stops issuing. -/
theorem running_stopRunning (hx : kget s.ctxs n = some x) (hrun : (seqOf s x.seq).running = some n) : (seqOf (stopRunning n s) x.seq).running = none := by
  rw [stopRunning_of_kget hx, seqOf, kgetD_kput_self]
  exact if_pos hrun

/-- The state that YIELD leaves before it counts. -/
def yielded (q n : Nat) (x : Ctx) (s : State) : State :=
  { s with
    ctxs := kput s.ctxs n { x with st := .ready, rf := { x.rf with pc := x.rf.pc + 4 } }
    seqs := kput s.seqs q ⟨none, (seqOf s q).readyQ ++ [n], (seqOf s q).cls, true⟩ }

theorem exec_yield (h : Issues (.fsq q) (.ctx n) 4 s) (hx : kget s.ctxs n = some x) (hq : x.seq = q.toNat) :
    exec (.yield (.fsq q) 0 0 0) s = .next (retire (.ctx n) s (yielded q.toNat n x s)) := by
  obtain ⟨-, hrun, -⟩ := issues_fsq_iff.mp h
  refine congrArg ok ((issue_done (i := insnX 0x38 0x01 0 0 0) h (barred_flow s n) rfl).trans (congrArg _ ?_))
  have hset : setRf (.ctx n) ((rfOf s (.ctx n)).adv (insnX 0x38 0x01 0 0 0)) s =
      { s with ctxs := kput s.ctxs n { x with rf := { x.rf with pc := x.rf.pc + 4 } } } := by
    rw [setRf, kmod_of_kget hx, rfOf_ctx hx]
    rfl
  rw [hset, makeReady_of_kget (kget_kput_self _ _ _)]
  simp only [setSeq, seqOf, yielded, kput_kput, hq, kgetD_kput_self]
  rw [show kgetD s.seqs q.toNat ⟨none, [], 0, false⟩ = seqOf s q.toNat from rfl, hrun, if_pos rfl]

/-- What PARK saves of the registers (R50). -/
def saveWords (f : RegFile) : List Byte := (List.range 6).flatMap fun i => leBytes 8 (f.get (i + 1)).toNat

theorem saveWords_length (f : RegFile) : (saveWords f).length = 48 := rfl

/-- A word that PARK saves is the register. -/
theorem saveWords_word (f : RegFile) : ∀ {i : Nat}, i < 6 → ((saveWords f).drop (8 * i)).take 8 = leBytes 8 (f.get (i + 1)).toNat
  | 0, _ | 1, _ | 2, _ | 3, _ | 4, _ | 5, _ => rfl

/-- The record that PARK writes (R45, R50). -/
def parkRecord (n : Nat) (f : RegFile) (s : State) : State :=
  let u := wrB (ctxRec n + 80) (saveWords f) (wrN (ctxRec n + 72) 4 (f.pc + 4).toNat s)
  wrN (ctxRec n + 76) 4 (rdN u (ctxRec n + 76) 4 ||| 1) u

/-- The record of a parked context: its words, its pc and PARKED, and nothing else. -/
theorem parkRecord_spec (hm : Memory.wf s.mem = true) (n : Nat) (f : RegFile) :
    (∀ i, i < 6 → BitVec.ofNat 64 (rdN (parkRecord n f s) (ctxRec n + 80 + 8 * i) 8) = f.get (i + 1)) ∧
      rdN (parkRecord n f s) (ctxRec n + 72) 4 = (f.pc + 4).toNat % 2 ^ 32 ∧ rdN (parkRecord n f s) (ctxRec n + 76) 4 % 2 = 1 ∧
      SameMemBut (ctxRec n + 72) 56 s (parkRecord n f s) := by
  have hpc := wf_wrN hm (ctxRec n + 72) 4 (f.pc + 4).toNat
  refine ⟨fun i hi => ?_, ?_, ?_, ?_⟩
  · rw [parkRecord, rdN_wrN_of_out _ _ _ _ (by omega), rdN, wrB_mem, mread_mwrite_part hpc _ _ (by rw [saveWords_length]; omega), saveWords_word f hi,
      leNat_leBytes]
    exact (congrArg _ (Nat.mod_eq_of_lt (f.get (i + 1)).isLt)).trans (BitVec.ofNat_toNat _ _ |>.trans (BitVec.setWidth_eq _))
  · rw [parkRecord, rdN_wrN_of_out _ _ _ _ (by omega), rdN_wrB_of_out _ _ _ (by omega), rdN_wrN hm]
    rfl
  · rw [parkRecord, rdN_wrN (wf_wrB hpc _ _)]
    generalize rdN _ _ _ = v
    have hodd : (v ||| 1) % 2 = 1 := by simp
    omega
  · exact sameMemBut_wrN (sameMemBut_wrB (sameMemBut_wrN (sameMemBut_of_mem rfl _ _) (by omega) (by omega)) (by omega) (by rw [saveWords_length]))
      (by omega) (by omega)

/-- The state that PARK leaves before it counts. -/
def parkedState (n : Nat) (x : Ctx) (wake : Word) (s : State) : State :=
  modCtx n (fun c => { c with st := .parked wake, sbuf := [] }) (clearLatch n (parkRecord n x.rf (stopRunning n s)))

theorem exec_park (h : Issues (.fsq q) (.ctx n) 4 s) (hx : kget s.ctxs n = some x) (htk : x.rf.tk = []) (hsb : x.sbuf = []) {ra : RegNo}
    (hwake : (x.rf.get ra.toNat).ule s.dtime = false) :
    exec (.park (.fsq q) 0 ra 0) s = .next (retire (.ctx n) s (parkedState n x (x.rf.get ra.toNat) s)) := by
  refine congrArg ok (issue_done (i := insnX 0x38 0x02 0 ra 0) h (barred_flow s n) ?_)
  simp only [hx, rfOf_ctx hx, allFree, htk, hsb, hwake, decide_true, Bool.not_true, Bool.false_eq_true, if_false]
  rfl

/-- The end of a stream context leaves the contexts, the sequencers, the stored registers and the messages. -/
theorem endStream_frame (n : Nat) (s : State) : (endStream n s).ctxs = s.ctxs ∧ (endStream n s).seqs = s.seqs ∧ (endStream n s).csr = s.csr ∧
    (endStream n s).out = s.out := by
  unfold endStream
  dsimp only
  split
  · exact ⟨rfl, rfl, rfl, rfl⟩
  · split
    · split <;> simp [setStrState]
    · simp

/-- A context number is freed. -/
theorem freeCtx_of_kget (hx : kget s.ctxs n = some x) : (freeCtx n s).ctxs = kdel s.ctxs n ∧ (freeCtx n s).seqs = (stopRunning n s).seqs ∧
    (freeCtx n s).csr = s.csr ∧ (freeCtx n s).out = s.out := by
  obtain ⟨hctxs, hseqs, hcsr, hout⟩ := endStream_frame n (clearLatch n { stopRunning n s with ctxs := kdel s.ctxs n })
  have hstop : (stopRunning n s).csr = s.csr ∧ (stopRunning n s).out = s.out := by
    rw [stopRunning_of_kget hx]
    exact ⟨rfl, rfl⟩
  exact ⟨hctxs, hseqs, hcsr.trans hstop.1, hout.trans hstop.2⟩

/-- A context number that is no stream context is freed without a write. -/
theorem freeCtx_mem (hx : kget s.ctxs n = some x) (hstr : kget s.str.ctxs n = none) : (freeCtx n s).mem = s.mem := by
  rw [freeCtx, stopRunning_of_kget hx, endStream]
  simp only [clearLatch, hstr]

theorem exec_endFlow (h : Issues (.fsq q) (.ctx n) 4 s) (hx : kget s.ctxs n = some x) (htk : x.rf.tk = []) (hsb : x.sbuf = [])
    (hpost : x.posted = true) : exec (.endFlow (.fsq q) 0 0 0) s = .next (retire (.ctx n) s (freeCtx n s)) := by
  refine congrArg ok (issue_done (i := insnX 0x38 0x00 0 0 0) h (barred_flow s n) ?_)
  simp only [hx, rfOf_ctx hx, allFree, htk, hsb, hpost, decide_true, Bool.not_true, Bool.false_eq_true, if_false, Bool.true_or, if_true]
  rfl

/-- YIELD, PARK and END. -/
theorem yieldParkAndEnd : Claim.ContextInstructionResults := by
  intro q n ra x s hm h hx hq
  obtain ⟨-, hrun, -⟩ := issues_fsq_iff.mp h
  rw [← hq] at hrun
  refine ⟨?_, fun htk hsb hwake => ?_, fun htk hsb hpost hstr => ?_⟩
  · have hseq : seqOf (yielded q.toNat n x s) x.seq = ⟨none, (seqOf s x.seq).readyQ ++ [n], (seqOf s x.seq).cls, true⟩ := by
      rw [yielded, seqOf, hq, kgetD_kput_self]
    refine ⟨_, _, exec_yield h hx hq, kget_retire_self hx (kget_kput_self _ _ _), rfl, rfl, ?_, ?_, ?_, ?_⟩
    · rw [seqOf_retire, hseq]
    · rw [seqOf_retire, hseq]
    · rw [seqOf_retire, hseq]
    · rw [retire_mem, yielded]
  · have hctxs : kget (parkedState n x (x.rf.get ra.toNat) s).ctxs n = some { x with st := .parked (x.rf.get ra.toNat), sbuf := [] } := by
      rw [parkedState, stopRunning_of_kget hx]
      exact kget_kmod_self hx _
    have hstop : (stopRunning n s).mem = s.mem := by rw [stopRunning_of_kget hx]
    obtain ⟨hword, hpc, hflag, hsame⟩ := parkRecord_spec (s := stopRunning n s) (by rw [hstop]; exact hm) n x.rf
    have hmem : (retire (.ctx n) s (parkedState n x (x.rf.get ra.toNat) s)).mem = (parkRecord n x.rf (stopRunning n s)).mem := retire_mem _ _ _
    refine ⟨_, _, exec_park h hx htk hsb hwake, kget_retire_self hx hctxs, rfl, ?_, ?_, ?_, ?_, ?_⟩
    · simpa only [rdN, hmem] using hword
    · simpa only [rdN, hmem] using hpc
    · simpa only [rdN, hmem] using hflag
    · intro a ha
      rw [hmem, hsame a ha, hstop]
    · rw [seqOf_retire]
      exact running_stopRunning hx hrun
  · obtain ⟨hctxs, hseqs, -, hout⟩ := freeCtx_of_kget hx
    refine ⟨_, exec_endFlow h hx htk hsb hpost, fun m hne => ?_, fun hk => ?_, ?_, ?_, fun a => ?_⟩
    · rw [retire_ctxs hx, kget_kmod_ne _ hne, hctxs, kget_kdel_ne _ hne]
    · rw [retire_ctxs hx, kget_kmod, hctxs, kget_kdel_self hk]
      rfl
    · rw [seqOf_retire, seqOf, hseqs]
      exact running_stopRunning hx hrun
    · rw [retire_out, hout]
    · rw [retire_mem, freeCtx_mem hx hstr]

end

/-- Settles O15: context instructions, reads of flow registers and fences. -/
theorem contextInstructionResults : Obligations.ContextInstructionResults := ⟨flowReadsAndFences, yieldParkAndEnd⟩

end Sys2Proof.Machine
end

section
/-! SUPPORT and PROOFS. The scheduling of flow contexts: admission, page-in, allocation, preemption and wake (R33, R45 to R53, R107). -/

namespace Sys2Proof.Machine

/-! ### Admission and page-in -/

/-- A table without default values keeps its order. -/
theorem keysFrom_kputD {α : Type} [DecidableEq α] {d : α} {m : KMap α} {lo : Nat} (hm : keysFrom lo m = true) {i : Nat} (h : lo ≤ i) (x : α) :
    keysFrom lo (kputD d m i x) = true := by
  unfold kputD
  split
  · exact keysFrom_kdel hm i
  · exact keysFrom_kput hm h x

/-- The registers g1 to g`k` with the values of a table. -/
def firstRegs (v : Nat → Word) (k : Nat) : KMap Word := (List.range k).foldl (fun m i => kputD 0 m (i + 1) (v i)) []

theorem firstRegs_succ (v : Nat → Word) (k : Nat) : firstRegs v (k + 1) = kputD 0 (firstRegs v k) (k + 1) (v k) := by
  rw [firstRegs, List.range_succ, List.foldl_append]
  rfl

theorem keysFrom_firstRegs (v : Nat → Word) (k : Nat) : keysFrom 0 (firstRegs v k) = true := by
  induction k with
  | zero => rfl
  | succ k ih =>
    rw [firstRegs_succ]
    exact keysFrom_kputD ih (Nat.zero_le _) _

theorem kgetD_firstRegs (v : Nat → Word) {k i : Nat} (h : i < k) : kgetD (firstRegs v k) (i + 1) 0 = v i := by
  induction k with
  | zero => omega
  | succ k ih =>
    rw [firstRegs_succ]
    by_cases hi : i = k
    · rw [hi, kgetD_kputD_self (keysFrom_firstRegs v k)]
    · rw [kgetD_kputD_ne _ (by omega), ih (by omega)]

theorem kgetD_firstRegs_of_gt (v : Nat → Word) {k r : Nat} (h : k < r) : kgetD (firstRegs v k) r 0 = 0 := by
  induction k with
  | zero => rfl
  | succ k ih => rw [firstRegs_succ, kgetD_kputD_ne _ (by omega), ih (by omega)]

/-- A field of a record that was read from memory is the number at its place. -/
theorem fieldN_rdB (s : State) (a : Nat) {i n m : Nat} (h : i + n ≤ m) : fieldN (rdB s a m) i n = rdN s (a + i) n := by
  rw [fieldN, rdN]
  congr 1
  apply List.ext_getElem
  · simp only [rdB, List.length_take, List.length_drop, mread_length]
    omega
  · intro j _ _
    simp only [rdB, mread, List.getElem_take, List.getElem_drop, List.getElem_map, List.getElem_range, Nat.add_assoc]

/-- A part of what was written. -/
theorem rdB_wrB_part {s : State} (hm : Memory.wf s.mem = true) (a : Nat) (l : List Byte) {i n : Nat} (h : i + n ≤ l.length) :
    rdB (wrB a l s) (a + i) n = (l.drop i).take n := mread_mwrite_part hm a l h

theorem rdN_wrB_part {s : State} (hm : Memory.wf s.mem = true) (a : Nat) (l : List Byte) {i n : Nat} (h : i + n ≤ l.length) :
    rdN (wrB a l s) (a + i) n = fieldN l i n := congrArg leNat (mread_mwrite_part hm a l h)

section
variable {n : Nat} {x : Ctx} {s : State}

/-- The register file that a page-in loads (R48). -/
def pagedRegs (n : Nat) (x : Ctx) (s : State) : RegFile :=
  let record := rdB s (ctxRec n) 128
  ⟨kputD 0 (firstRegs (fun i => BitVec.ofNat 64 (fieldN record (80 + 8 * i) 8)) 6) 29 (BitVec.ofNat 64 (frameAddr x.seq x.frame)),
    BitVec.ofNat 64 (fieldN record 72 4), []⟩

/-- The frame that a page-in writes (R48). -/
def framed (n : Nat) (x : Ctx) (s : State) : State := wrB (frameAddr x.seq x.frame) (rdB s (ctxRec n) 128 ++ zeros 896) s

/-- A context that receives its registers and is READY. -/
theorem makeReady_loaded (hx : kget s.ctxs n = some x) (f : RegFile) :
    makeReady n (modCtx n (fun c => { c with rf := f, fences := 0, dsts := 0 }) (clearLatch n s)) = { clearLatch n s with
      ctxs := kput s.ctxs n { x with rf := f, fences := 0, dsts := 0, st := .ready }
      seqs := kput s.seqs x.seq { seqOf s x.seq with
        readyQ := (seqOf s x.seq).readyQ ++ [n]
        running := if (seqOf s x.seq).running = some n then none else (seqOf s x.seq).running } } := by
  rw [makeReady_of_kget (kget_kmod_self hx _), modCtx]
  dsimp only [clearLatch]
  rw [kmod_of_kget hx, kput_kput]
  rfl

theorem exec_pageInComplete (hx : kget s.ctxs n = some x) (hst : x.st = .paging) :
    exec (.pageInComplete n) s = .next { clearLatch n (framed n x s) with
      ctxs := kput s.ctxs n { x with rf := pagedRegs n x s, fences := 0, dsts := 0, st := .ready }
      seqs := kput s.seqs x.seq { seqOf s x.seq with
        readyQ := (seqOf s x.seq).readyQ ++ [n]
        running := if (seqOf s x.seq).running = some n then none else (seqOf s x.seq).running } } := by
  have hctxs : (framed n x s).ctxs = s.ctxs := wrB_ctxs _ _ _
  have hseqs : (framed n x s).seqs = s.seqs := wrB_seqs _ _ _
  have hrun : execPageInComplete n s =
      ok (makeReady n (modCtx n (fun c => { c with rf := pagedRegs n x s, fences := 0, dsts := 0 }) (clearLatch n (framed n x s)))) := by
    simp only [execPageInComplete, hx, hst]
    rfl
  refine hrun.trans (congrArg ok ?_)
  rw [makeReady_loaded (by rw [hctxs]; exact hx), hctxs, seqOf, hseqs]
  rfl

/-- The registers after a page-in. -/
theorem pagedRegs_spec (n : Nat) (x : Ctx) (s : State) : (pagedRegs n x s).get 29 = BitVec.ofNat 64 (frameAddr x.seq x.frame) ∧
    (∀ i, i < 6 → (pagedRegs n x s).get (i + 1) = BitVec.ofNat 64 (rdN s (ctxRec n + 80 + 8 * i) 8)) ∧
    ∀ r, 7 ≤ r → r ≠ 29 → (pagedRegs n x s).get r = 0 := by
  refine ⟨kgetD_kputD_self (keysFrom_firstRegs _ 6) _ _, fun i hi => ?_, fun r hr hne => ?_⟩
  · rw [RegFile.get, if_neg (Nat.succ_ne_zero i), pagedRegs, kgetD_kputD_ne _ (by omega), kgetD_firstRegs _ hi, fieldN_rdB s _ (by omega), Nat.add_assoc]
  · rw [RegFile.get, if_neg (by omega), pagedRegs, kgetD_kputD_ne _ hne, kgetD_firstRegs_of_gt _ (by omega)]

/-- The frame after a page-in. -/
theorem framed_spec (hm : Memory.wf s.mem = true) (n : Nat) (x : Ctx) :
    rdB (framed n x s) (frameAddr x.seq x.frame) 128 = rdB s (ctxRec n) 128 ∧ rdB (framed n x s) (frameAddr x.seq x.frame + 128) 896 = zeros 896 ∧
      SameMemBut (frameAddr x.seq x.frame) 1024 s (framed n x s) := by
  have hrec : (rdB s (ctxRec n) 128).length = 128 := mread_length _ _ _
  have hlen : (rdB s (ctxRec n) 128 ++ zeros 896).length = 1024 := by rw [List.length_append, hrec, zeros, List.length_replicate]
  refine ⟨?_, ?_, sameMemBut_wrB (sameMemBut_of_mem rfl _ _) le_rfl (by rw [hlen])⟩
  · exact (rdB_wrB_part hm _ _ (i := 0) (by omega)).trans (List.take_left' hrec)
  · rw [framed, rdB_wrB_part hm _ _ (i := 128) (by omega), List.drop_left' hrec]
    exact List.take_of_length_le (by rw [zeros, List.length_replicate])

end

/-- Admission, and page-in. -/
theorem admissionAndPageIn : Claim.AdmissionAndPageIn := by
  constructor
  · intro k credit q f n rest x s hen hwant hclass hfifo hseq hframe hx
    have hrun : exec (.contextAdmission none) s = .next (pmc 0x0C03 k 1 (modCtx n (fun c => { c with st := .paging, seq := q, frame := f })
        (nextFree { s with sched := ⟨kput s.sched.fifo k rest, k, credit - 1⟩ }))) := by
      show execContextAdmission none s = _
      simp only [execContextAdmission, hen, hwant, hclass, hfifo, Option.map_none, seqsOf, hseq, hframe, Bool.not_true, Option.isSome_none,
        Bool.or_false, Bool.false_eq_true, if_false]
      rfl
    refine ⟨_, _, hrun, ?_, rfl, ?_, ?_, ?_, ?_⟩ <;> rw [sameButLog_pmc 0x0C03 k 1]
    · exact kget_kmod_self hx _
    · exact kgetD_kput_self _ _ _ _
    · rfl
    · rfl
    · rfl
  · intro n x s hm hx hst _ _
    obtain ⟨hrec, hzero, hsame⟩ := framed_spec hm n x
    obtain ⟨hframe, hsaved, hrest⟩ := pagedRegs_spec n x s
    have hrun := exec_pageInComplete hx hst
    generalize framed n x s = u at hrec hzero hsame hrun
    refine ⟨_, _, hrun, kget_kput_self _ _ _, rfl, rfl, hrec, hzero, hsame, ?_, hframe, hsaved, hrest, ?_⟩
    · show (pagedRegs n x s).pc = _
      rw [pagedRegs, fieldN_rdB s _ (by omega)]
    · exact congrArg Seq.readyQ (kgetD_kput_self _ _ _ _)

/-! ### Allocation -/

/-- The record of a new context (R45). -/
def newRecord (sqe : List Byte) (header pc : Nat) (fwd : Bool) : List Byte :=
  sqe ++ leBytes 8 header ++ leBytes 4 pc ++ leBytes 4 (2 * b2n fwd) ++ zeros 48

section
variable {sqe : List Byte} (hsqe : sqe.length = 64) (header pc : Nat) (fwd : Bool)
include hsqe

theorem newRecord_length : (newRecord sqe header pc fwd).length = 128 := by simp [newRecord, hsqe, zeros, leBytes_length]

/-- What the record of a new context holds, part by part. -/
theorem newRecord_parts : (newRecord sqe header pc fwd).take 64 = sqe ∧ fieldN (newRecord sqe header pc fwd) 64 8 = header % 2 ^ 64 ∧
    fieldN (newRecord sqe header pc fwd) 72 4 = pc % 2 ^ 32 ∧ fieldN (newRecord sqe header pc fwd) 76 4 = (if fwd then 2 else 0) ∧
    ((newRecord sqe header pc fwd).drop 80).take 48 = zeros 48 := by
  have part (l v m : List Byte) {i k : Nat} (hi : l.length = i) (hk : v.length = k) : ((l ++ v ++ m).drop i).take k = v := by
    rw [List.append_assoc, List.drop_left' hi, List.take_left' hk]
  have hhead : fieldN (newRecord sqe header pc fwd) 64 8 = leNat (leBytes 8 header) := by
    rw [fieldN, newRecord, List.append_assoc _ _ (zeros 48), List.append_assoc _ _ (_ ++ zeros 48), part _ _ _ hsqe (leBytes_length _ _)]
  have hpc : fieldN (newRecord sqe header pc fwd) 72 4 = leNat (leBytes 4 pc) := by
    rw [fieldN, newRecord, List.append_assoc _ _ (zeros 48), part _ _ _ (by simp [hsqe, leBytes_length]) (leBytes_length _ _)]
  have hfwd : fieldN (newRecord sqe header pc fwd) 76 4 = leNat (leBytes 4 (2 * b2n fwd)) := by
    rw [fieldN, newRecord, part _ _ _ (by simp [hsqe, leBytes_length]) (leBytes_length _ _)]
  refine ⟨?_, hhead.trans (leNat_leBytes _ _), hpc.trans (leNat_leBytes _ _), hfwd.trans ?_, ?_⟩
  · rw [newRecord, List.append_assoc, List.append_assoc, List.append_assoc, List.take_left' hsqe]
  · cases fwd <;> rfl
  · rw [newRecord, List.drop_left' (by simp [hsqe, leBytes_length])]
    rfl

end

/-- The context that a command receives (R33, R45). -/
def newCtx (w : WaitCmd) : Ctx := {
  st := .queued, cls := w.cls, vol := w.vol, hq := w.hq, cid := w.cid, seq := 0, frame := 0, rf := ⟨[], 0, []⟩, sbuf := [], fences := 0, dsts := 0
  used := 0, epoch := w.epoch, posted := false, fwd := w.fwd }

/-- The oldest command that waits receives a context. -/
theorem allocationStartsTheOldestCommand : Claim.AllocationStartsTheOldestCommand := by
  intro w l n s hm hwait hunf hfree hsqe
  let record := newRecord w.sqe (n + w.cls * 2 ^ 22 + w.vol * 2 ^ 28 + w.hq * 2 ^ 46) w.pc w.fwd
  have hrun : exec .contextAllocation s = .next { wrB (ctxRec n) record s with
      ctxWait := l
      sched := { s.sched with fifo := kput s.sched.fifo w.cls (kgetD s.sched.fifo w.cls [] ++ [n]) }
      ctxs := kput s.ctxs n (newCtx w)
      host := { s.host with unfetched := [] } } := by
    show execContextAllocation s = _
    simp only [execContextAllocation, hwait, hfree, startCtx, queueCtx, wrB_ctxs, kget_kput_self, wrB_host, hunf, List.foldl_nil, kput_kput]
    rfl
  obtain ⟨hentry, hheader, hpc, hflags, hzero⟩ := newRecord_parts hsqe (n + w.cls * 2 ^ 22 + w.vol * 2 ^ 28 + w.hq * 2 ^ 46) w.pc w.fwd
  have hlen : record.length = 128 := newRecord_length hsqe _ _ _
  refine ⟨_, newCtx w, hrun, rfl, kget_kput_self _ _ _, rfl, rfl, rfl, rfl, rfl, rfl, rfl, rfl, rfl, kgetD_kput_self _ _ _ _, ?_, ?_, ?_, ?_, ?_, ?_, rfl,
    fun m hne => kget_kput_ne _ hne _⟩
  · exact (rdB_wrB_part hm (ctxRec n) record (i := 0) (by omega)).trans hentry
  · exact (rdN_wrB_part hm _ record (by omega)).trans hheader
  · exact (rdN_wrB_part hm _ record (by omega)).trans hpc
  · exact (rdN_wrB_part hm _ record (by omega)).trans hflags
  · exact (rdB_wrB_part hm _ record (by omega)).trans hzero
  · exact sameMemBut_wrB (l := record) (sameMemBut_of_mem rfl _ _) le_rfl (by rw [hlen])

/-! ### Preemption and wake -/

/-- Preemption, and the wake of a parked context. -/
theorem preemptionAndWake : Claim.PreemptionAndWake := by
  constructor
  · intro q n x s hrun hx hq
    have hexec : exec (.quantumExpired q) s = .next { s with ctxs := kput s.ctxs n { x with st := .ready }, seqs := kput s.seqs q.toNat ⟨none, (seqOf s q.toNat).readyQ ++ [n], (seqOf s q.toNat).cls, true⟩ } := by
      show execQuantumExpired q s = _
      simp only [execQuantumExpired, hrun]
      rw [makeReady_of_kget hx, hq, hrun, if_pos rfl]
      simp only [setSeq, seqOf, kgetD_kput_self, kput_kput]
      rfl
    exact ⟨_, _, hexec, kget_kput_self _ _ _, rfl, kgetD_kput_self _ _ _ _, rfl, rfl⟩
  · intro n x wake s hx hst
    have hexec : exec (.parkWake n) s = ok (if wake.ule s.dtime then queueCtx n s else s) := by
      show execParkWake n s = _
      simp only [execParkWake, hx, hst]
    rw [hexec]
    constructor
    · intro hle
      rw [if_pos (by simpa [BitVec.ule] using hle)]
      simp only [queueCtx, hx, ok]
    · intro hlt
      rw [if_neg (by simpa [BitVec.ule] using hlt)]
      rfl

/-- Settles O16: admission, page-in, allocation, preemption and wake of flow contexts. -/
theorem contextScheduling : Obligations.ContextScheduling := ⟨admissionAndPageIn, allocationStartsTheOldestCommand, preemptionAndWake⟩

end Sys2Proof.Machine
end

section
/-! SUPPORT and PROOFS. Flow faults, watchdogs and deadlines (R75, R81 to R83, R88, R99, R105). -/

namespace Sys2Proof.Machine

/-! ### Fields and records -/

/-- A record and an event leave every field but the count of lost records. -/
theorem getF_cel {g : Fld} {i j : Nat} (h : g.reg.addr i j ≠ (RegName.CEL_LOST).addr 0 0) (code unit sev p0 p1 p2 : Nat) (s : State) :
    getF (cel code unit sev p0 p1 p2 s) g i j = getF s g i j := by
  rw [cel, getF, getF, rd_of_kget (sameRegsBut_celPush _ s _ (by simpa using h))]

theorem getF_raise (src param : Nat) (s : State) (g : Fld) (i j : Nat) : getF (raise src param s) g i j = getF s g i j :=
  getF_of_csr (raise_csr src param s) g i j

theorem SameButLog.setF {s t : State} (h : SameButLog s t) {f : Fld} {v i j : Nat} : SameButLog s (setF f v t i j) := h.trans (sameButLog_setF _ _ _ _ _)

/-! ### Faults -/

/-- Performing stores changes memory only. -/
theorem drainStores_eq (l : List SbEntry) (s : State) : drainStores l s = { s with mem := (drainStores l s).mem } := by
  induction l generalizing s with
  | nil => rfl
  | cons e l ih =>
    rw [drainStores, List.foldl_cons, ← drainStores, ih]
    cases e <;> rfl

section
variable {n : Nat} {x : Ctx} {s : State}

/-- The fault registers hold a fault of a context (R88). -/
def FaultCaptured (n : Nat) (f : FlowFault) (t : State) : Prop := isF t F.FSQ_FLT_STAT_VALID = true ∧ getF t F.FSQ_FLT0_CODE = f.code ∧
  getF t F.FSQ_FLT0_SEQ = f.seq ∧ getF t F.FSQ_FLT0_CTX = n ∧ getF t F.FSQ_FLT1_PC = f.pc ∧ getF t F.FSQ_FLT1_INSN = f.insn ∧
  getF t F.FSQ_FLT2_ADDR = f.addr

/-- The fault registers take a fault where they are empty. -/
theorem captureFault_spec (hv : isF s F.FSQ_FLT_STAT_VALID = false) {f : FlowFault} (hcode : f.code < 2 ^ 8) (hseq : f.seq < 2 ^ 8) (hpc : f.pc < 2 ^ 32)
    (hinsn : f.insn < 2 ^ 32) (haddr : f.addr < 2 ^ 48) (hn : n < 2 ^ 22) :
    SameButLog s (captureFault n f s) ∧ getF (captureFault n f s) F.FSQ_FAULT_CNT_COUNT = getF s F.FSQ_FAULT_CNT_COUNT ∧
      FaultCaptured n f (captureFault n f s) := by
  simp only [captureFault, hv, Bool.false_eq_true, if_false]
  refine ⟨(SameButLog.refl s).setF.setF.setF.setF.setF.setF.setF, ?_, ?_, ?_, ?_, ?_, ?_, ?_, ?_⟩
  · simp (disch := decide) only [getF_setF_of_addr_ne]
  · simp (disch := decide) only [isF, getF_setF_self]
    rfl
  · simp (disch := decide) only [getF_setF_self, getF_setF_of_addr_ne]
    exact Nat.mod_eq_of_lt hcode
  · simp (disch := decide) only [getF_setF_self, getF_setF_of_disjoint, getF_setF_of_addr_ne]
    exact Nat.mod_eq_of_lt hseq
  · simp (disch := decide) only [getF_setF_self, getF_setF_of_disjoint, getF_setF_of_addr_ne]
    exact Nat.mod_eq_of_lt hn
  · simp (disch := decide) only [getF_setF_self, getF_setF_of_disjoint, getF_setF_of_addr_ne]
    exact Nat.mod_eq_of_lt hpc
  · simp (disch := decide) only [getF_setF_self, getF_setF_of_addr_ne]
    exact Nat.mod_eq_of_lt hinsn
  · simp (disch := decide) only [getF_setF_self, getF_setF_of_addr_ne]
    exact Nat.mod_eq_of_lt haddr

/-- A FAULTED context that has drained, and whose completion is posted: its number is freed, and the fault is counted, recorded, raised and captured. -/
def faultReported (n : Nat) (f : FlowFault) (u : State) : State :=
  captureFault n f (raise 0x0C10 n (cel 0x0C10 f.seq 3 (f.code + n * 256) f.pc f.addr
    (setF F.FSQ_FAULT_CNT_COUNT (getF u F.FSQ_FAULT_CNT_COUNT + 1) u)))

theorem faultReported_spec {u : State} (hv : isF u F.FSQ_FLT_STAT_VALID = false) {f : FlowFault} (hcode : f.code < 2 ^ 8) (hseq : f.seq < 2 ^ 8)
    (hpc : f.pc < 2 ^ 32) (hinsn : f.insn < 2 ^ 32) (haddr : f.addr < 2 ^ 48) (hn : n < 2 ^ 22) :
    SameButLog u (faultReported n f u) ∧ getF (faultReported n f u) F.FSQ_FAULT_CNT_COUNT = (getF u F.FSQ_FAULT_CNT_COUNT + 1) % 2 ^ 32 ∧
      FaultCaptured n f (faultReported n f u) := by
  let counted := setF F.FSQ_FAULT_CNT_COUNT (getF u F.FSQ_FAULT_CNT_COUNT + 1) u
  let raised := raise 0x0C10 n (cel 0x0C10 f.seq 3 (f.code + n * 256) f.pc f.addr counted)
  have hsame : SameButLog u raised := (sameButLog_setF _ _ _ 0 0).trans ((sameButLog_cel _ _ _ _ _ _ _).trans (sameButLog_raise _ _ _))
  have hraised (g : Fld) (h : g.reg.addr 0 0 ≠ (RegName.CEL_LOST).addr 0 0) : getF raised g = getF counted g :=
    (getF_raise _ _ _ g 0 0).trans (getF_cel h _ _ _ _ _ _ _)
  have hvalid : isF raised F.FSQ_FLT_STAT_VALID = false := by
    rw [isF, hraised _ (by decide), getF_setF_of_addr_ne (by decide)]
    exact hv
  obtain ⟨hcapture, hcount, hregs⟩ := captureFault_spec hvalid hcode hseq hpc hinsn haddr hn
  refine ⟨hsame.trans hcapture, hcount.trans ?_, hregs⟩
  rw [hraised _ (by decide), getF_setF_self (by decide)]
  rfl

theorem exec_faultDrainDone (hx : kget s.ctxs n = some x) {f : FlowFault} (hst : x.st = .faulted f) (htk : x.rf.tk.all (fun kv => kv.2.ready) = true)
    (hpost : x.posted = true) : exec (.faultDrainDone n) s = .next (faultReported n f (freeCtx n (drainStores x.sbuf s))) := by
  show execFaultDrainDone n s = _
  have hdrained : (x.rf.tk.any fun kv => !kv.2.ready) = false := by rw [← List.not_all_eq_any_not, htk]; rfl
  simp only [execFaultDrainDone, hx, hst, hdrained, Bool.false_eq_true, if_false, postInternalError, hpost, Bool.true_or, if_true]
  rfl

end

/-- Faults. -/
theorem faultsAreTakenAndReported : Claim.FaultsAreTakenAndReported := by
  constructor
  · intro q n w x s hrun hx hused
    have hexec : exec (.budgetExhausted q w) s = .next (flowFault n fWatchdog w.toNat 0 s) := by
      show execBudgetExhausted q w s = _
      simp only [execBudgetExhausted, selectCtx_of_running hrun, hrun, hx, if_pos hused]
      rfl
    obtain ⟨z, f, hz, rfl, rfl, hmem, hcsr⟩ := flowFault_spec hx fWatchdog w.toNat 0
    exact ⟨_, _, _, hexec, hz, rfl, rfl, rfl, rfl, hmem, hcsr⟩
  · intro n x f s hx hst htk hpost hk hv hcode hseq hpc hinsn haddr hn
    have hdrain : (drainStores x.sbuf s).ctxs = s.ctxs ∧ (drainStores x.sbuf s).csr = s.csr ∧ (drainStores x.sbuf s).out = s.out := by
      rw [drainStores_eq]
      exact ⟨rfl, rfl, rfl⟩
    obtain ⟨hctxs, -, hcsr, hout⟩ := freeCtx_of_kget (s := drainStores x.sbuf s) (n := n) (x := x) (by rw [hdrain.1]; exact hx)
    rw [hdrain.1] at hctxs
    rw [hdrain.2.1] at hcsr
    rw [hdrain.2.2] at hout
    obtain ⟨hrep, hcount, hregs⟩ := faultReported_spec (u := freeCtx n (drainStores x.sbuf s))
      (by rw [isF, getF_of_csr hcsr]; exact hv) hcode hseq hpc hinsn haddr hn
    refine ⟨_, exec_faultDrainDone hx hst htk hpost, ?_, ?_, ?_, hregs⟩
    · rw [hrep, hctxs, kget_kdel_self hk]
    · rw [hrep, hout]
    · rw [hcount, getF_of_csr hcsr]

/-- The watchdogs. -/
theorem watchdogsAssertReset : Claim.WatchdogsAssertReset := by
  constructor
  · intro a t k s hk hready
    show execTicketAgeExpiry a t s = _
    simp only [execTicketAgeExpiry, hk, hready, Bool.false_eq_true, if_false]
    rfl
  · intro q s hready
    show execSequencerHang q s = _
    rw [execSequencerHang, if_neg hready]
    rfl

/-! ### Deadlines -/

/-- What an accepted job is. -/
theorem accepted_eq_some {s : State} {id cls op : Nat} {j : Job} (h : accepted s id cls op = some j) :
    kget s.jobs id = some j ∧ j.phase = .accepted ∧ j.cls = cls ∧ j.op = op := by
  unfold accepted at h
  cases hj : kget s.jobs id with
  | none => simp [hj] at h
  | some k =>
    cases hp : k.phase with
    | accepted =>
      simp only [hj, hp, Option.ite_none_right_eq_some, Option.some.injEq] at h
      obtain ⟨⟨hcls, hop, -⟩, rfl⟩ := h
      exact ⟨rfl, hp, hcls, hop⟩
    | issued a => simp [hj, hp] at h
    | held a b => simp [hj, hp] at h
    | done a => simp [hj, hp] at h

theorem fillBytes_length (pattern n : Nat) : (fillBytes pattern n).length = n := by rw [fillBytes, List.length_map, List.length_range]

/-- A byte of a FILL is the byte of its descriptor. -/
theorem fillByte_eq (d : Desc) (r : Nat) (h : r < 8) : BitVec.ofNat 8 (descN d 32 8 / 2 ^ (8 * r)) = BitVec.ofNat 8 (descN d (32 + r) 1) := by
  apply BitVec.eq_of_toNat_eq
  apply Nat.eq_of_testBit_eq
  intro i
  have hadd : 8 * 32 + (i + 8 * r) = 8 * (32 + r) + i := by omega
  simp only [BitVec.toNat_ofNat, descN, BitVec.extractLsb'_toNat, Nat.testBit_mod_two_pow, Nat.testBit_div_two_pow, Nat.testBit_shiftRight, hadd]
  by_cases hi : i < 8
  · simp only [hi, show i + 8 * r < 8 * 8 by omega, decide_true, Bool.true_and]
  · simp only [hi, decide_false, Bool.false_and]

section
variable {id n : Nat} {j : Job} {s : State}

/-- The state that a FILL leaves at its deadline: the first bytes are done, and the output beyond them is undefined. -/
def fillStopped (n : Nat) (j : Job) (s : State) : State := wrFree (j.n 16 8 + n) (j.n 24 4 - n) (wrB (j.n 16 8) (fillBytes (j.n 32 8) n) s)

theorem fillStopped_spec (hm : Memory.wf s.mem = true) (hn : n ≤ j.n 24 4) :
    (∀ i, i < n → mget (fillStopped n j s).mem (j.n 16 8 + i) = BitVec.ofNat 8 (j.n (32 + i % 8) 1)) ∧
      SameMemBut (j.n 16 8) (j.n 24 4) s (fillStopped n j s) := by
  have hfill : (fillBytes (j.n 32 8) n).length = n := fillBytes_length _ _
  have hfree (u : State) : (freeBytes u (j.n 24 4 - n)).length = j.n 24 4 - n := by rw [freeBytes, List.length_map, List.length_range]
  constructor
  · intro i hi
    have hlen : i < (fillBytes (j.n 32 8) n).length := by omega
    rw [fillStopped, wrFree, mget_mwrite_of_out _ _ _ (by omega), wrB_mem, mget_mwrite_of_in hm _ _ hlen]
    simp only [fillBytes, List.getElem_map, List.getElem_range]
    exact fillByte_eq j.desc (i % 8) (Nat.mod_lt _ (by decide))
  · intro a ha
    rw [fillStopped, wrFree, mget_mwrite_of_out _ _ _ (by rw [hfree]; omega), wrB_mem, mget_mwrite_of_out _ _ _ (by omega)]

theorem exec_deadlineExpired_fill (h : accepted s id 0x0D 3 = some j) (hd : j.deadline ≠ 0) (hn : n ≤ j.n 24 4) :
    exec (.deadlineExpired id n) s = .next (finish id ⟨rTimeout, 0, n, 0⟩ (fillStopped n j s)) := by
  obtain ⟨hj, hphase, hcls, hop⟩ := accepted_eq_some h
  have hjob : timeoutJob id j n s = timeoutDmov j n s := by
    unfold timeoutJob
    rw [hcls]
    rfl
  show execDeadlineExpired id n s = _
  simp only [execDeadlineExpired, hj, hphase, if_neg hd, hjob, timeoutDmov, dmovPart, hop, Nat.min_eq_left hn]
  rfl

end

/-- The deadline of a FILL. -/
theorem deadlinesEndJobs : Claim.DeadlinesEndJobs := by
  intro id n j s hm h hd hn
  obtain ⟨hj, -⟩ := accepted_eq_some h
  obtain ⟨hbytes, hsame⟩ := fillStopped_spec (n := n) hm hn
  have hjobs : (fillStopped n j s).jobs = s.jobs := rfl
  refine ⟨_, exec_deadlineExpired_fill h hd hn, ?_, hbytes, hsame, rfl⟩
  rw [finish, modJob, hjobs, kmod_of_kget hj]
  rfl

/-- Settles O17: faults, watchdogs and deadlines. -/
theorem faultsAndDeadlines : Obligations.FaultsAndDeadlines := ⟨faultsAreTakenAndReported, watchdogsAssertReset, deadlinesEndJobs⟩

end Sys2Proof.Machine
end

section
/-! SUPPORT and PROOFS. Flow program sets and bungs (R85, R110, R113, R115, R117, R120, R121). -/

namespace Sys2Proof.Machine

/-! ### Stored registers -/

/-- A check that every value stored for a key meets does not see a write of that key. -/
theorem all_kput_of_key {α : Type} {i : Nat} {p : Nat × α → Bool} (h : ∀ y, p (i, y) = true) (m : KMap α) (x : α) : (kput m i x).all p = m.all p := by
  induction m with
  | nil => simp [kput, h]
  | cons kv m ih =>
    obtain ⟨k, v⟩ := kv
    rcases Nat.lt_trichotomy i k with hlt | rfl | hgt
    · simp [kput, hlt, h]
    · simp [kput, h]
    · simp [kput, Nat.not_lt_of_gt hgt, Nat.ne_of_gt hgt, ih]

/-- Storing a field changes no register at another address. -/
theorem SameRegsBut.setF {l : List Nat} {s t : State} (h : SameRegsBut l s t) {f : Fld} (hf : f.reg.addr 0 0 ∈ l) (v : Nat) :
    SameRegsBut l s (setF f v t) := by
  intro a ha
  have hne : a ≠ f.reg.addr 0 0 := fun e => ha (e ▸ hf)
  exact (kget_kput_ne _ hne _).trans (h a ha)

theorem SameRegsBut.refl (l : List Nat) (s : State) : SameRegsBut l s s := fun _ _ => rfl

/-- A one-bit field that was set. -/
theorem isF_setF_one {f : Fld} (h : f.hi < 64) (hw : f.lo ≤ f.hi) (s : State) : isF (setF f 1 s) f = true := by
  rw [isF, getF_setF_self h, Nat.mod_eq_of_lt (Nat.one_lt_two_pow (by omega))]
  rfl

/-! ### Flow program sets -/

/-- FSQ_CTL and FSQ_PSET_CTL. -/
theorem programSetRegisters : Claim.ProgramSetRegisters := by
  intro v s
  refine ⟨fun hact => ?_, fun hgo hact => ?_, fun hact hent hgo => ?_, fun hact hent => ?_⟩
  · show execFsqCtlWrite v s = _
    simp only [execFsqCtlWrite, wrFsqCtl, hact, Bool.not_true, Bool.and_false, Bool.false_eq_true, if_false]
    rfl
  · show execFsqCtlWrite v s = _
    simp only [execFsqCtlWrite, wrFsqCtl, hgo, hact, Bool.not_false, Bool.and_true, if_true]
    rfl
  · have hrun : exec (.fsqPsetCtlWrite v) s = .next (setF F.FSQ_PSET_CTL_ACTIVE 1 (setF F.FSQ_PSET_CTL_BANKSEL (bits v 29 29)
        (setF F.FSQ_PSET_CTL_ENTRIES (bits v 28 16) s))) := by
      show execFsqPsetCtlWrite v s = _
      simp only [execFsqPsetCtlWrite, wrFsqPsetCtl, hact, hgo, hent, Bool.false_eq_true, if_false, if_true]
      rfl
    have hbits : bits v 28 16 < 2 ^ 13 ∧ bits v 29 29 < 2 ^ 1 := ⟨bits_lt v 28 16, bits_lt v 29 29⟩
    refine ⟨_, hrun, isF_setF_one (by decide) (by decide) _, ?_, ?_, (SameButLog.refl s).setF.setF.setF, ?_⟩
    · simp (disch := decide) only [getF_setF_self, getF_setF_of_disjoint]
      exact Nat.mod_eq_of_lt hbits.1
    · simp (disch := decide) only [getF_setF_self, getF_setF_of_disjoint]
      exact Nat.mod_eq_of_lt hbits.2
    · exact (((SameRegsBut.refl _ s).setF (by decide) _).setF (by decide) _).setF (by decide) _
  · show execFsqPsetCtlWrite v s = _
    simp only [execFsqPsetCtlWrite, wrFsqPsetCtl, hact, hent, false_and, if_true, if_false]
    rfl

/-! ### Bungs of one head -/

/-- The first element of an array of registers has the lowest address. -/
theorem RegName.addr_zero_le (r : RegName) (i : Nat) : r.addr 0 0 ≤ r.addr i 0 := by
  rw [RegName.addr, RegName.addr, Nat.zero_mul, Nat.zero_mul]
  omega

/-- The checks of a GO read no FSQ_BUNG_CTL. -/
theorem bankValid_setF {f : Fld} (hf : f.reg.addr 0 0 < (RegName.FSQ_BIND).addr 0 0) (hne : (RegName.FSQ_PSET_CTL).addr 0 0 ≠ f.reg.addr 0 0)
    (v : Nat) (s : State) (b : Nat) : bankValid (setF f v s) b = bankValid s b := by
  have hlo := RegName.addr_zero_le .FSQ_BIND b
  have hent : getF (setF f v s) F.FSQ_PSET_CTL_ENTRIES = getF s F.FSQ_PSET_CTL_ENTRIES :=
    getF_setF_of_addr_ne (f := f) (g := F.FSQ_PSET_CTL_ENTRIES) (i := 0) (j := 0) (k := 0) (l := 0) hne v s
  unfold bankValid
  rw [hent]
  refine all_kput_of_key (fun y => ?_) _ _
  rw [decide_eq_false (by omega : ¬ (RegName.FSQ_BIND).addr b 0 ≤ f.reg.addr 0 0)]
  rfl

theorem bungRefusal_setF {f : Fld} (hf : f.reg = .FSQ_BUNG_CTL) (v : Nat) (s : State) : bungRefusal (setF f v s) = bungRefusal s := by
  have hfield {g : Fld} (hg : g.reg.addr 0 0 ≠ (RegName.FSQ_BUNG_CTL).addr 0 0) : getF (setF f v s) g = getF s g :=
    getF_setF_of_addr_ne (by rwa [hf]) v s
  have hvalid (b : Nat) : bankValid (setF f v s) b = bankValid s b := bankValid_setF (by rw [hf]; decide) (by rw [hf]; decide) v s b
  rw [bungRefusal, bungRefusal, isF, isF, inactiveBank, inactiveBank, hfield (g := F.FSQ_BUNG_STAT_BUSY) (by decide),
    hfield (g := F.FSQ_BUNG_STAT_PSTATE) (by decide), hfield (g := F.FSQ_PSET_CTL_BANKSEL) (by decide), hvalid]

/-- The registers after a flip of the bank (R113 step 4). -/
def flippedRegs (s : State) : State := setF F.FSQ_BUNG_STAT_PSTATE 0 (setF F.FSQ_BUNG_STAT_BUSY 1 (setF F.FSQ_PSET_CTL_BANKSEL (inactiveBank s) s))

theorem bungFlip_csr (pair : Bool) (s : State) : (bungFlip pair false s).csr = (flippedRegs s).csr := rfl

/-- The bank flips, BUSY sets and no pair bung is in progress. -/
theorem flippedRegs_spec (s : State) : isF (flippedRegs s) F.FSQ_BUNG_STAT_BUSY = true ∧ getF (flippedRegs s) F.FSQ_BUNG_STAT_PSTATE = 0 ∧
    getF (flippedRegs s) F.FSQ_PSET_CTL_BANKSEL = 1 - getF s F.FSQ_PSET_CTL_BANKSEL := by
  have hbank : inactiveBank s < 2 ^ 1 := by rw [inactiveBank]; omega
  refine ⟨?_, getF_setF_self (by decide) 0 _ 0 0, ?_⟩
  · simp (disch := decide) only [flippedRegs, isF, getF_setF_self, getF_setF_of_disjoint]
    rfl
  · simp (disch := decide) only [flippedRegs, getF_setF_self, getF_setF_of_addr_ne]
    exact Nat.mod_eq_of_lt hbank

/-- The registers that a GO of a local bung may change. -/
def goRegs : List Nat := [(RegName.FSQ_BUNG_CTL).addr 0 0, (RegName.FSQ_BUNG_STAT).addr 0 0, (RegName.FSQ_PSET_CTL).addr 0 0]

theorem sameRegsBut_flippedRegs {s t : State} (h : SameRegsBut goRegs s t) : SameRegsBut goRegs s (flippedRegs t) :=
  ((h.setF (by decide) _).setF (by decide) _).setF (by decide) _

/-- A flip of the bank stores those registers. -/
theorem bungFlip_spec (pair : Bool) (s : State) : isF (bungFlip pair false s) F.FSQ_BUNG_STAT_BUSY = true ∧
    getF (bungFlip pair false s) F.FSQ_BUNG_STAT_PSTATE = 0 ∧
    getF (bungFlip pair false s) F.FSQ_PSET_CTL_BANKSEL = 1 - getF s F.FSQ_PSET_CTL_BANKSEL := by
  simp only [isF, getF_of_csr (bungFlip_csr pair s)]
  exact flippedRegs_spec s

section
variable {v : Word} {s : State}

/-- The state in which a GO is checked: STAGED and PAIR are written (R120). -/
def goState (v : Word) (s : State) : State := setF F.FSQ_BUNG_CTL_STAGED (bits v 2 2) (setF F.FSQ_BUNG_CTL_PAIR (bits v 1 1) s)

theorem bungRefusal_goState (v : Word) (s : State) : bungRefusal (goState v s) = bungRefusal s := by
  rw [goState, bungRefusal_setF rfl, bungRefusal_setF rfl]

theorem sameRegsBut_goState {l : List Nat} (h : (RegName.FSQ_BUNG_CTL).addr 0 0 ∈ l) (v : Word) (s : State) : SameRegsBut l s (goState v s) :=
  ((SameRegsBut.refl l s).setF (f := F.FSQ_BUNG_CTL_PAIR) h _).setF (f := F.FSQ_BUNG_CTL_STAGED) h _

theorem getF_goState {g : Fld} (h : g.reg.addr 0 0 ≠ (RegName.FSQ_BUNG_CTL).addr 0 0) (v : Word) (s : State) : getF (goState v s) g = getF s g := by
  have hpair := getF_setF_of_addr_ne (f := F.FSQ_BUNG_CTL_PAIR) (g := g) (i := 0) (j := 0) (k := 0) (l := 0) h
  have hstaged := getF_setF_of_addr_ne (f := F.FSQ_BUNG_CTL_STAGED) (g := g) (i := 0) (j := 0) (k := 0) (l := 0) h
  rw [goState, hstaged, hpair]

theorem exec_bungGo (hgo : bit v 0 = true) (hpair : bit v 1 = false) (href : bungRefusal s = none) :
    exec (.bungGo v) s = .next (bungFlip false false (goState v s)) := by
  have hgoes : bungRefusal (goState v s) = none := (bungRefusal_goState v s).trans href
  show execBungGo v s = _
  simp only [execBungGo, wrBungCtl, hgo, hpair, Bool.not_true, Bool.not_false, Bool.false_eq_true, if_false, if_true]
  rw [← goState, hgoes]
  rfl

theorem exec_bungGo_refused (hgo : bit v 0 = true) {c : Nat} (href : bungRefusal s = some c) :
    exec (.bungGo v) s = .next (cel 0x0C12 0 2 c 0 0 (setF F.FSQ_BUNG_STAT_REFUSED 1 (goState v s))) := by
  have hrefused : bungRefusal (goState v s) = some c := (bungRefusal_goState v s).trans href
  show execBungGo v s = _
  simp only [execBungGo, wrBungCtl, hgo, Bool.not_true, Bool.false_eq_true, if_false]
  rw [← goState, hrefused]
  rfl

/-- The registers after the end of a drain (R113 step 6, R115). -/
def drainedRegs (s : State) : State :=
  setF F.FSQ_BUNG_EPOCH_COUNT ((getF s F.FSQ_BUNG_EPOCH_COUNT + 1) % 2 ^ 32)
    (setF F.FSQ_BUNG_CTL_STAGED 0 (setF F.FSQ_BUNG_STAT_DONE 1 (setF F.FSQ_BUNG_STAT_BUSY 0 s)))

theorem drainedRegs_spec (s : State) : isF (drainedRegs s) F.FSQ_BUNG_STAT_BUSY = false ∧ isF (drainedRegs s) F.FSQ_BUNG_STAT_DONE = true ∧
    isF (drainedRegs s) F.FSQ_BUNG_CTL_STAGED = false ∧
    getF (drainedRegs s) F.FSQ_BUNG_EPOCH_COUNT = (getF s F.FSQ_BUNG_EPOCH_COUNT + 1) % 2 ^ 32 := by
  refine ⟨?_, ?_, ?_, ?_⟩
  · simp (disch := decide) only [drainedRegs, isF, getF_setF_self, getF_setF_of_disjoint, getF_setF_of_addr_ne]
    rfl
  · simp (disch := decide) only [drainedRegs, isF, getF_setF_self, getF_setF_of_addr_ne]
    rfl
  · simp (disch := decide) only [drainedRegs, isF, getF_setF_self, getF_setF_of_addr_ne]
    rfl
  · exact (getF_setF_self (by decide) _ _ 0 0).trans (Nat.mod_mod _ _)

theorem exec_bungDrainDone (hbusy : isF s F.FSQ_BUNG_STAT_BUSY = true) (hold : oldCtx s = 0) :
    ∃ n p, exec .bungDrainDone s = .next (cel 0x0C11 0 0 n p 0 (raise 0x0C11 n (drainedRegs s))) := by
  refine ⟨(getF s F.FSQ_BUNG_EPOCH_COUNT + 1) % 2 ^ 32, b2n s.bung.pair + 2 * b2n s.bung.solo, ?_⟩
  show execBungDrainDone s = _
  simp only [execBungDrainDone, hbusy, hold, decide_true, Bool.and_self, if_true]
  rfl

end

/-- A GO of a local bung, and of one that is refused; the end of a drain. -/
theorem localBung : Claim.LocalBung := by
  refine ⟨fun v s hgo hpair href => ?_, fun v c s hgo href => ?_, fun s hbusy hold => ?_⟩
  · obtain ⟨hbusy, -, hbank⟩ := bungFlip_spec false (goState v s)
    refine ⟨_, exec_bungGo hgo hpair href, hbusy, hbank.trans ?_, rfl, rfl, rfl, rfl, ?_⟩
    · rw [getF_goState (by decide)]
    · exact sameRegsBut_flippedRegs (sameRegsBut_goState (List.mem_cons_self ..) v s)
  · refine ⟨_, exec_bungGo_refused hgo href, isF_setF_one (by decide) (by decide) _, rfl, rfl, ?_, ?_⟩
    · rw [getF_setF_of_addr_ne (by decide), getF_goState (by decide)]
    · exact (sameRegsBut_goState (List.mem_cons_self ..) v s).setF (f := F.FSQ_BUNG_STAT_REFUSED) (List.mem_cons_of_mem _ (List.mem_cons_self ..)) _
  · obtain ⟨n, p, hrun⟩ := exec_bungDrainDone hbusy hold
    obtain ⟨hb, hdone, hstaged, hepoch⟩ := drainedRegs_spec s
    have hfield (g : Fld) (h : g.reg.addr 0 0 ≠ (RegName.CEL_LOST).addr 0 0) :
        getF (cel 0x0C11 0 0 n p 0 (raise 0x0C11 n (drainedRegs s))) g = getF (drainedRegs s) g :=
      (getF_cel h _ _ _ _ _ _ _).trans (getF_raise _ _ _ g 0 0)
    refine ⟨_, hrun, ?_, ?_, ?_, (hfield F.FSQ_BUNG_EPOCH_COUNT (by decide)).trans hepoch, ?_⟩
    · rwa [isF, hfield _ (by decide)]
    · rwa [isF, hfield _ (by decide)]
    · rwa [isF, hfield _ (by decide)]
    · exact ((sameButLog_raise _ _ _).trans (sameButLog_cel _ _ _ _ _ _ _)).mem

/-! ### Bungs of the pair -/

/-- A rollback sets ROLLBACK and leaves the pair bung (R115). -/
theorem bungRollback_spec (s : State) : getF (bungRollback s) F.FSQ_BUNG_STAT_PSTATE = 0 ∧ isF (bungRollback s) F.FSQ_BUNG_STAT_ROLLBACK = true := by
  refine ⟨?_, isF_setF_one (by decide) (by decide) _⟩
  simp (disch := decide) only [bungRollback, getF_setF_self, getF_setF_of_disjoint, getF_setF_of_addr_ne]
  rfl

/-- A prepared partner acknowledges PREPARE. -/
theorem exec_bungPrepare {s : State} {id : Word} (hidle : getF s F.FSQ_BUNG_STAT_PSTATE = 0) (hstaged : isF s F.FSQ_BUNG_CTL_STAGED = true)
    (hbusy : isF s F.FSQ_BUNG_STAT_BUSY = false) (hvalid : bankValid s (inactiveBank s) = true) (hid : id = setId s) :
    exec (.bungPrepare id) s = .next (setF F.FSQ_BUNG_STAT_PSTATE 2 (toPartner .bungAck s)) := by
  have hack : prepareIdle id s = setF F.FSQ_BUNG_STAT_PSTATE 2 (toPartner .bungAck s) := by
    simp only [prepareIdle, hstaged, hbusy, hvalid, hid, Bool.not_false, Bool.and_self, decide_true, if_true]
  show execBungPrepare id s = _
  simp only [execBungPrepare, hidle, hack]
  rfl

/-- An initiator that gets no ACK aborts. -/
theorem exec_bungGivesUp {s : State} (h : getF s F.FSQ_BUNG_STAT_PSTATE = 1) {i : Instr} (hi : i = .bungNak ∨ i = .bungPrepareTimeout) :
    exec i s = .next (bungRollback (bungSend .bungAbort s)) := by
  rcases hi with rfl | rfl
  · exact congrArg ok (if_pos h)
  · exact congrArg ok (if_pos h)

/-- The pair bung. -/
theorem pairBung : Claim.PairBung := by
  intro s
  refine ⟨fun id hidle hstaged hbusy hvalid hid => ?_, fun hprep => ⟨?_, fun i hi => ?_⟩, fun hprep => ⟨?_, ?_⟩, fun m hm hdead => ?_, rfl⟩
  · exact ⟨_, exec_bungPrepare hidle hstaged hbusy hvalid hid, getF_setF_self (by decide) 2 _ 0 0, rfl, rfl⟩
  · have hrun : exec .bungAck s = .next (bungFlip true false (bungSend .bungCommit s)) := congrArg ok (if_pos hprep)
    obtain ⟨hbusy, hstate, -⟩ := bungFlip_spec true (bungSend .bungCommit s)
    exact ⟨_, hrun, rfl, rfl, hstate, hbusy, rfl⟩
  · obtain ⟨hstate, hroll⟩ := bungRollback_spec (bungSend .bungAbort s)
    exact ⟨_, exec_bungGivesUp hprep hi, rfl, rfl, hstate, hroll, rfl⟩
  · have hrun : exec .bungCommit s = .next (bungFlip true false (toPartner .bungConfirm s)) := congrArg ok (if_pos hprep)
    obtain ⟨hbusy, hstate, -⟩ := bungFlip_spec true (toPartner .bungConfirm s)
    exact ⟨_, hrun, rfl, rfl, hbusy, hstate⟩
  · have hrun : exec .bungAbort s = .next (bungRollback (toPartner .bungConfirm s)) := congrArg ok (if_pos hprep)
    obtain ⟨hstate, hroll⟩ := bungRollback_spec (toPartner .bungConfirm s)
    exact ⟨_, hrun, rfl, rfl, hroll, hstate⟩
  · show execBungResendTimer s = _
    simp only [execBungResendTimer, hm, hdead, Bool.false_eq_true, if_false]
    rfl

/-- Settles O19: flow program sets, and bungs of one head and of the pair. -/
theorem programSetsAndBungs : Obligations.ProgramSetsAndBungs := ⟨programSetRegisters, localBung, pairBung⟩

end Sys2Proof.Machine
end

section
/-! PROOFS. Tickets and SUBMIT (R44, R62, R90 to R95). -/

namespace Sys2Proof.Machine

/-! ### Fields of the ticket instructions -/

/-- A ticket number fits the byte of its instruction. -/
theorem toNat_ticketByte (t : BitVec 4) : (t.setWidth 8 : Byte).toNat = t.toNat := by
  rw [BitVec.toNat_setWidth, Nat.mod_eq_of_lt (Nat.lt_trans t.isLt (by decide))]

/-- A WAIT, POLL or DROP with no operand beside its ticket is not ILLEGAL. -/
theorem ticketForm_legal (t : BitVec 4) : decide ((0 : RegNo) ≠ 0 ∨ 16 ≤ (t.setWidth 8 : Byte).toNat) = false := by
  have ht := t.isLt
  rw [toNat_ticketByte, decide_eq_false_iff_not]
  simp only [ne_eq, not_true_eq_false, false_or]
  omega

theorem dropForm_legal (t : BitVec 4) : decide ((0 : RegNo) ≠ 0 ∨ (0 : RegNo) ≠ 0 ∨ 16 ≤ (t.setWidth 8 : Byte).toNat) = false := by
  have ht := t.isLt
  rw [toNat_ticketByte, decide_eq_false_iff_not]
  simp only [ne_eq, not_true_eq_false, false_or]
  omega

/-! ### The tickets of a mask (R94) -/

section
variable {f : RegFile} {mask : Nat}

/-- WAITANY looks at the low sixteen bits of its register. -/
theorem testBit_mod_65536 {i : Nat} (h : i < 16) (v : Nat) : (v % 65536).testBit i = v.testBit i := by
  rw [show 65536 = 2 ^ 16 from rfl, Nat.testBit_mod_two_pow, decide_eq_true h, Bool.true_and]

/-- A mask with a ticket that is not FREE. -/
theorem anyUsed_of_kget {t : Nat} {k : Ticket} (ht : t < 16) (hm : mask.testBit t = true) (hk : kget f.tk t = some k) : anyUsed f mask = true :=
  List.any_eq_true.mpr ⟨t, List.mem_range.mpr ht, by rw [hm, hk]; rfl⟩

/-- A mask whose tickets are all FREE. -/
theorem anyUsed_of_free (h : ∀ i < 16, mask.testBit i = true → kget f.tk i = none) : anyUsed f mask = false := by
  refine List.any_eq_false.mpr fun i hi => ?_
  cases hm : mask.testBit i with
  | false => simp
  | true => rw [h i (List.mem_range.mp hi) hm]; simp

/-- The lowest READY ticket of a mask. -/
theorem lowestReady_of_ready {t : Nat} {k : Ticket} (ht : t < 16) (hm : mask.testBit t = true) (hk : kget f.tk t = some k) (hr : k.ready = true)
    (hlow : ∀ i j, i < t → mask.testBit i = true → kget f.tk i = some j → j.ready = false) : lowestReady f mask = some t := by
  refine List.find?_range_eq_some.mpr ⟨?_, List.mem_range.mpr ht, fun i hi => ?_⟩
  · rw [hm, hk]
    exact hr
  · cases hb : mask.testBit i with
    | false => simp
    | true =>
      cases hj : kget f.tk i with
      | none => simp
      | some j => simp [hlow i j hi hb hj]

/-- A mask of one ticket that is PENDING has no READY one. -/
theorem lowestReady_of_pending {t : Nat} {k : Ticket} (hk : kget f.tk t = some k) (hr : k.ready = false) : lowestReady f (2 ^ t) = none := by
  refine List.find?_eq_none.mpr fun i _ => ?_
  rw [Nat.testBit_two_pow]
  by_cases hi : t = i
  · subst hi
    rw [hk]
    simp [hr]
  · simp [hi]

end

/-! ### Ticket instructions -/

section
variable {c : Core} {a : Agent} {rd ra : RegNo} {t : BitVec 4} {k : Ticket} {s : State}

/-- WAIT on a READY ticket. -/
theorem exec_wait_ready (h : Issues c a 4 s) (hd : badDest c rd = false) (hk : kget (rfOf s a).tk t.toNat = some k) (hr : k.ready = true) :
    exec (.wait c rd 0 (t.setWidth 8)) s = .next (retire a s (setRf a
      { ({ rfOf s a with tk := kdel (rfOf s a).tk t.toNat }.set rd.toNat (slotWord s a t.toNat)) with pc := (rfOf s a).pc + 4 } s)) := by
  refine congrArg ok (issue_done (i := insnX 0x35 0x00 rd 0 (t.setWidth 8)) h ?_ ?_)
  · rw [ticketForm_legal, hd]
    exact barred_any s a
  · simp only [toNat_ticketByte, ticketOf, hk, hr, if_true, RegFile.adv, RegFile.set_pc]
    rfl

/-- WAIT of a flow on a PENDING ticket. -/
theorem exec_wait_pending {n : Nat} (h : Issues c (.ctx n) 4 s) (hd : badDest c rd = false) (hk : kget (rfOf s (.ctx n)).tk t.toNat = some k)
    (hr : k.ready = false) : exec (.wait c rd 0 (t.setWidth 8)) s = .next (retire (.ctx n) s (makeWait n (.ticket t.toNat rd.toNat)
      (setRf (.ctx n) { rfOf s (.ctx n) with pc := (rfOf s (.ctx n)).pc + 4 } s))) := by
  refine congrArg ok (issue_done (i := insnX 0x35 0x00 rd 0 (t.setWidth 8)) h ?_ ?_)
  · rw [ticketForm_legal, hd]
    exact barred_any s _
  · simp only [toNat_ticketByte, ticketOf, hk, hr, Bool.false_eq_true, if_false]
    rfl

/-- POLL of a ticket that is not FREE. -/
theorem exec_poll (h : Issues c a 4 s) (hd : badDest c rd = false) (hk : kget (rfOf s a).tk t.toNat = some k) {v : Word} (hv : flag k.ready = v) :
    exec (.poll c rd 0 (t.setWidth 8)) s = .next (wrote a 4 rd v s) := by
  subst hv
  refine congrArg ok ((issue_done (i := insnX 0x35 0x01 rd 0 (t.setWidth 8))
    (t := setRf a (((rfOf s a).set rd.toNat (flag k.ready)).adv (insnX 0x35 0x01 rd 0 (t.setWidth 8))) s) h ?_ ?_).trans ?_)
  · rw [ticketForm_legal, hd]
    exact barred_any s a
  · simp only [toNat_ticketByte, ticketOf, hk]
  · rw [adv_set]
    rfl

/-- DROP of a READY ticket. -/
theorem exec_drop_ready (h : Issues c a 4 s) (hk : kget (rfOf s a).tk t.toNat = some k) (hr : k.ready = true) :
    exec (.drop c 0 0 (t.setWidth 8)) s = .next (retire a s (setRf a
      { rfOf s a with tk := kdel (rfOf s a).tk t.toNat, pc := (rfOf s a).pc + 4 } s)) := by
  refine congrArg ok (issue_done (i := insnX 0x35 0x03 0 0 (t.setWidth 8)) h ?_ ?_)
  · rw [dropForm_legal]
    exact barred_any s a
  · simp only [toNat_ticketByte, ticketOf, hk, hr, if_true]
    rfl

/-- WAITANY with a READY ticket in its mask. -/
theorem exec_waitany_ready (h : Issues c a 4 s) (hd : badDest c rd = false) {n : Nat} (hused : anyUsed (rfOf s a) ((reg s a ra).toNat % 65536) = true)
    (hlow : lowestReady (rfOf s a) ((reg s a ra).toNat % 65536) = some n) :
    exec (.waitany c rd ra 0) s = .next (wrote a 4 rd (BitVec.ofNat 64 n) s) := by
  refine congrArg ok ((issue_done (i := insnX 0x35 0x02 rd ra 0)
    (t := setRf a (((rfOf s a).set rd.toNat (BitVec.ofNat 64 n)).adv (insnX 0x35 0x02 rd ra 0)) s) h ?_ ?_).trans ?_)
  · rw [hd]
    exact barred_any s a
  · simp only [reg] at hused hlow
    simp only [hused, hlow, Bool.not_true, Bool.false_eq_true, if_false]
  · rw [adv_set]
    rfl

/-- WAITANY of a flow with no READY ticket in its mask. -/
theorem exec_waitany_pending {n : Nat} (h : Issues c (.ctx n) 4 s) (hd : badDest c rd = false) {mask : Nat}
    (hmask : (reg s (.ctx n) ra).toNat % 65536 = mask) (hused : anyUsed (rfOf s (.ctx n)) mask = true) (hlow : lowestReady (rfOf s (.ctx n)) mask = none) :
    exec (.waitany c rd ra 0) s = .next (retire (.ctx n) s (makeWait n (.anyTicket mask rd.toNat)
      (setRf (.ctx n) { rfOf s (.ctx n) with pc := (rfOf s (.ctx n)).pc + 4 } s))) := by
  refine congrArg ok (issue_done (i := insnX 0x35 0x02 rd ra 0) h ?_ ?_)
  · rw [hd]
    exact barred_any s _
  · rw [reg] at hmask
    simp only [hmask, hused, hlow, Bool.not_true, Bool.false_eq_true, if_false]
    rfl

end

/-- The ticket instructions. -/
theorem ticketResults : Claim.TicketResults := by
  intro c a rd ra t k s h hd aux f hk
  have ht : t.toNat < 16 := t.isLt
  refine ⟨fun hr => ⟨exec_wait_ready h hd hk hr, ?_, exec_drop_ready h hk hr, fun hbit hlow => ?_⟩, fun hr => ⟨?_, fun n hn => ?_⟩⟩
  · exact exec_poll h hd hk (congrArg flag hr)
  · have hbit' := (testBit_mod_65536 ht _).trans hbit
    have hlow' := lowestReady_of_ready ht hbit' hk hr fun i j hi hb => hlow i j hi ((testBit_mod_65536 (by omega) _).symm.trans hb)
    rw [exec_waitany_ready h hd (anyUsed_of_kget ht hbit' hk) hlow', BitVec.ofNat_toNat]
  · exact exec_poll h hd hk (congrArg flag hr)
  · subst hn
    refine ⟨exec_wait_pending h hd hk hr, fun hmask => exec_waitany_pending h hd hmask (anyUsed_of_kget ht ?_ hk) (lowestReady_of_pending hk hr)⟩
    rw [Nat.testBit_two_pow_self]

/-- A TICKET fault of a flow (R75): its context is FAULTED and keeps its registers. -/
theorem issue_ticketFault {q : BitVec 8} {n : Nat} {x : Ctx} {i : Insn} {s : State} (h : Issues (.fsq q) (.ctx n) i.len s) (hx : kget s.ctxs n = some x)
    {illegal : Bool} (hill : illegal = false) {body : Agent → RegFile → State → Eff} (hbody : body (.ctx n) x.rf s = .fault fTicket 0) :
    ∃ u z f, ok (issue (.fsq q) i illegal .any body s) = .next u ∧ kget u.ctxs n = some z ∧ z.st = .faulted f ∧ f.code = 0x06 ∧ z.rf = x.rf ∧
      u.mem = s.mem := by
  obtain ⟨z, f, hz, rfl, rfl, hmem, -⟩ := flowFault_spec hx fTicket i.word 0
  refine ⟨_, _, _, congrArg ok (issue_fault h (hill ▸ barred_any s _) ?_), hz, rfl, rfl, rfl, hmem⟩
  rw [rfOf_ctx hx, hbody]

/-- Ticket instructions on FREE tickets. -/
theorem freeTicketsFault : Claim.FreeTicketsFault := by
  intro q n x rd ra t s h hx hrd hfree i hi
  have hd : badDest (.fsq q) rd = false := decide_eq_false hrd
  rcases hi with rfl | rfl | rfl | ⟨rfl, hmask⟩
  · refine issue_ticketFault (i := insnX 0x35 0x00 rd 0 (t.setWidth 8)) h hx ?_ ?_
    · rw [ticketForm_legal, hd]
      rfl
    · simp only [toNat_ticketByte, ticketOf, hfree]
  · refine issue_ticketFault (i := insnX 0x35 0x01 rd 0 (t.setWidth 8)) h hx ?_ ?_
    · rw [ticketForm_legal, hd]
      rfl
    · simp only [toNat_ticketByte, ticketOf, hfree]
  · refine issue_ticketFault (i := insnX 0x35 0x03 0 0 (t.setWidth 8)) h hx (dropForm_legal t) ?_
    simp only [toNat_ticketByte, ticketOf, hfree]
  · refine issue_ticketFault (i := insnX 0x35 0x02 rd ra 0) h hx (by rw [hd]; rfl) ?_
    rw [reg, rfOf_ctx hx] at hmask
    have hunused : anyUsed x.rf ((x.rf.get ra.toNat).toNat % 65536) = false :=
      anyUsed_of_free fun j hj hb => hmask j hj ((testBit_mod_65536 hj _).symm.trans hb)
    simp only [hunused, Bool.not_false, if_true]

/-! ### SUBMIT (R90 to R93) -/

section
variable {c : Core} {a : Agent} {s : State} (t : BitVec 4) (d : BitVec 3) (cls : BitVec 6)

/-- The job that a SUBMIT without CHAIN issues. -/
def submitted (s : State) (a : Agent) (t : BitVec 4) (d : BitVec 3) (cls : BitVec 6) : Job :=
  { owner := a, tk := t.toNat, cls := cls.toNat, desc := captureDesc s a d.toNat, phase := .issued none, predCode := none, inst := dieOf s a }

/-- The register file with its ticket PENDING. -/
def submittedFile (s : State) (a : Agent) (t : BitVec 4) : RegFile :=
  { rfOf s a with pc := pcOf s a + 4, tk := kput (rfOf s a).tk t.toNat ⟨false, s.nextJob, 0⟩ }

/-- The state with that job listed. -/
def submitState (s : State) (a : Agent) (t : BitVec 4) (d : BitVec 3) (cls : BitVec 6) : State :=
  setRf a (submittedFile s a t) { s with jobs := kput s.jobs s.nextJob (submitted s a t d cls), nextJob := s.nextJob + 1 }

/-- A class of R103 with no flags is not ILLEGAL. -/
theorem badSubmit_eq_false {cls : BitVec 6} (h1 : 1 ≤ cls.toNat) (h14 : cls.toNat ≤ 14) : badSubmit cls 0 = false := by
  have hflags : (0 : BitVec 13).toNat % 128 = 0 := rfl
  exact decide_eq_false (by omega)

variable (h1 : 1 ≤ cls.toNat) (h14 : cls.toNat ≤ 14) (hfree : kget (rfOf s a).tk t.toNat = none)
include h1 h14 hfree

/-- SUBMIT of a steward core. -/
theorem exec_submit_stew {k : Nat} (h : Issues c a 4 s) (ha : a = .stew k) :
    exec (.submit c t d cls 0) s = .next (retire a s (submitState s a t d cls)) := by
  subst ha
  refine congrArg ok (issue_done (i := insnE 0x34 t d cls 0) h (badSubmit_eq_false h1 h14 ▸ barred_any s _) ?_)
  simp only [ticketOf, hfree]
  rfl

/-- SUBMIT of a flow takes an entry of the store buffer. -/
theorem exec_submit_flow {n : Nat} {x : Ctx} (h : Issues c a 4 s) (ha : a = .ctx n) (hx : kget s.ctxs n = some x) (hbuf : x.sbuf.length < 8) :
    exec (.submit c t d cls 0) s = .next (retire a s (modCtx n (fun y => { y with sbuf := y.sbuf ++ [.submit s.nextJob] }) (submitState s a t d cls))) := by
  subst ha
  refine congrArg ok (issue_done (i := insnE 0x34 t d cls 0) h (badSubmit_eq_false h1 h14 ▸ barred_any s _) ?_)
  simp only [ticketOf, hfree, hx, Nat.not_le.mpr hbuf, if_false]
  rfl

end

/-- What SUBMIT leaves of the jobs and of memory. -/
theorem submitState_frame (s : State) (a : Agent) (t : BitVec 4) (d : BitVec 3) (cls : BitVec 6) :
    (submitState s a t d cls).jobs = kput s.jobs s.nextJob (submitted s a t d cls) ∧ (submitState s a t d cls).nextJob = s.nextJob + 1 ∧
      (submitState s a t d cls).mem = s.mem := by cases a <;> exact ⟨rfl, rfl, rfl⟩

theorem kget_ctxs_submitState {s : State} {n : Nat} {x : Ctx} (hx : kget s.ctxs n = some x) (t : BitVec 4) (d : BitVec 3) (cls : BitVec 6) :
    kget (submitState s (.ctx n) t d cls).ctxs n = some { x with rf := submittedFile s (.ctx n) t } := kget_kmod_self hx _

theorem kget_stews_submitState {s : State} {k : Nat} {y : Stew} (hy : kget s.stews k = some y) (t : BitVec 4) (d : BitVec 3) (cls : BitVec 6) :
    kget (submitState s (.stew k) t d cls).stews k = some { y with rf := submittedFile s (.stew k) t } := kget_kmod_self hy _

@[simp] theorem retire_jobs (a : Agent) (s t : State) : (retire a s t).jobs = t.jobs := retire_field State.jobs (fun _ _ _ _ => rfl) a s t
@[simp] theorem retire_nextJob (a : Agent) (s t : State) : (retire a s t).nextJob = t.nextJob := retire_field State.nextJob (fun _ _ _ _ => rfl) a s t

/-- SUBMIT. -/
theorem submitIssuesAJob : Claim.SubmitIssuesAJob := by
  intro c a t d cls s h h1 h14 hfree hbuf
  obtain ⟨hjobs, hnext, hmem⟩ := submitState_frame s a t d cls
  cases a with
  | stew k =>
    obtain ⟨x, hx⟩ : ∃ x, kget s.stews k = some x := by
      cases c with
      | fsq q => exact h.elim
      | stew m =>
        obtain ⟨-, x, hx, -⟩ := issues_stew_iff.mp h
        exact ⟨x, hx⟩
    refine ⟨_, submitted s (.stew k) t d cls, exec_submit_stew t d cls h1 h14 hfree h rfl, ?_, ?_, rfl, rfl, rfl, rfl, rfl, ?_, ?_, fun i hi => ?_, nofun⟩
    · rw [retire_jobs, hjobs, kget_kput_self]
    · rw [retire_nextJob, hnext]
    · rw [rfOf_retire]
      exact rfOf_stew (kget_stews_submitState hx t d cls)
    · rw [retire_mem, hmem]
    · rw [retire_jobs, hjobs, kget_kput_ne _ hi]
  | ctx n =>
    obtain ⟨x, hx⟩ : ∃ x, kget s.ctxs n = some x := by
      cases c with
      | fsq q =>
        obtain ⟨-, -, x, hx, -⟩ := issues_fsq_iff.mp h
        exact ⟨x, hx⟩
      | stew m => exact h.elim
    have hy : kget (modCtx n (fun y => { y with sbuf := y.sbuf ++ [.submit s.nextJob] }) (submitState s (.ctx n) t d cls)).ctxs n =
        some { x with rf := submittedFile s (.ctx n) t, sbuf := x.sbuf ++ [.submit s.nextJob] } := kget_kmod_self (kget_ctxs_submitState hx t d cls) _
    refine ⟨_, submitted s (.ctx n) t d cls, exec_submit_flow t d cls h1 h14 hfree h rfl hx (hbuf n x rfl hx), ?_, ?_, rfl, rfl, rfl, rfl, rfl, ?_, ?_,
      fun i hi => ?_, fun m y hm hmy => ?_⟩
    · rw [retire_jobs, modCtx_jobs, hjobs, kget_kput_self]
    · rw [retire_nextJob, modCtx_nextJob, hnext]
    · rw [rfOf_retire]
      exact rfOf_ctx hy
    · rw [retire_mem, modCtx_mem, hmem]
    · rw [retire_jobs, modCtx_jobs, hjobs, kget_kput_ne _ hi]
    · cases hm
      cases hx.symm.trans hmy
      exact ⟨_, kget_retire_self hx hy, rfl⟩

/-- Settles O14: ticket instructions, their faults, and SUBMIT. -/
theorem ticketAndSubmitResults : Obligations.TicketAndSubmitResults := ⟨ticketResults, freeTicketsFault, submitIssuesAJob⟩

end Sys2Proof.Machine
end

section
/-! SUPPORT and PROOFS. Engine jobs are accepted, held, released and completed, and the operations of the data mover (R62, R91 to R102, R105). -/

namespace Sys2Proof.Machine

/-! ### Transfers over the switch core (R391) -/

/-- A state with more transfers still to be sent. -/
def withXfers (l : List Xfer) (s : State) : State := { s with sw := { s.sw with xfers := s.sw.xfers ++ l } }

theorem withXfers_withXfers (l m : List Xfer) (s : State) : withXfers l (withXfers m s) = withXfers (m ++ l) s := by
  simp only [withXfers, List.append_assoc]

/-- A transfer with data is to be sent. -/
theorem sendXfer_of_data {x : Xfer} (h : x.data ≠ []) (s : State) : sendXfer x s = withXfers [x] s := if_neg h

/-- Sending a transfer changes only what is still to be sent. -/
theorem sendXfer_eq (x : Xfer) (s : State) : ∃ l, sendXfer x s = withXfers l s := by
  by_cases h : x.data = []
  · refine ⟨[], (if_pos h).trans ?_⟩
    rw [withXfers, List.append_nil]
  · exact ⟨[x], sendXfer_of_data h s⟩

/-- The descriptor of a job is one transfer. -/
theorem sendDesc_eq (id : Nat) (j : Job) (s : State) : ∃ x, x.data = leBytes 64 (j.n 0 64) ∧ sendDesc id j s = withXfers [x] s :=
  ⟨_, rfl, sendXfer_of_data (List.ne_nil_of_length_pos (by rw [leBytes_length]; decide)) s⟩

theorem sendResult_eq (id : Nat) (j : Job) (r : JobResult) (s : State) : ∃ l, sendResult id j r s = withXfers l s := sendXfer_eq _ s

/-- A copy is sent as transfers, and changes nothing else. -/
theorem sendCopy_eq (id : Nat) (j : Job) (src dst : Nat) (data : List Byte) (s : State) : ∃ l, sendCopy id j src dst data s = withXfers l s := by
  have three (x y z : Xfer) : ∃ l, sendXfer z (sendXfer y (sendXfer x s)) = withXfers l s := by
    obtain ⟨l, hx⟩ := sendXfer_eq x s
    obtain ⟨m, hy⟩ := sendXfer_eq y (withXfers l s)
    obtain ⟨n, hz⟩ := sendXfer_eq z (withXfers m (withXfers l s))
    rw [hx, hy, hz, withXfers_withXfers, withXfers_withXfers]
    exact ⟨_, rfl⟩
  exact three _ _ _

/-- A job that is changed and then finishes. -/
theorem finish_modJob {id : Nat} {j : Job} {s : State} (hj : kget s.jobs id = some j) (f : Job → Job) (r : JobResult) :
    finish id r (modJob id f s) = { s with jobs := kput s.jobs id { f j with phase := .done r } } := by
  simp only [finish, modJob, kmod_of_kget hj, kmod_of_kget (kget_kput_self _ _ _), kput_kput]

/-! ### Acceptance (R93, R98, R100, R102) -/

section
variable {id k : Nat} {j : Job} {s : State} (hj : kget s.jobs id = some j) (howner : j.owner = .stew k) (hcls : j.cls = 0x0D)

section
include hcls

theorem jobInst_dmov : jobInst s j = pickInst s 0x0D j.inst := by
  unfold jobInst
  rw [hcls]
  rfl

theorem checkJob_dmov : checkJob j s = checkDmov j s := by
  unfold checkJob
  rw [hcls]
  rfl

/-- A data mover job is taken where one of the movers has room. -/
theorem acceptsNow_dmov : acceptsNow j s = hasRoom s 0x0D := by
  unfold acceptsNow enabledNow
  rw [hcls]
  rfl

end

/-- Which bytes a steward's DECODE job may read does not depend on the jobs. -/
theorem decodeCap_stew_modJob (howner : j.owner = .stew k) (f : Job → Job) : decodeCap (modJob id f s) j = decodeCap s j := by
  simp only [decodeCap, howner]
  rfl

include hj hcls

/-- A data mover job that fails a check ends with its result. -/
theorem acceptJob_dmov_refused {r : JobResult} (hcheck : checkDmov j s = some r) : acceptJob id j s =
    { s with jobs := kput s.jobs id { j with inst := pickInst s 0x0D j.inst, phase := .done r } } := by
  have hcheck' : checkJob j (modJob id (fun m => { m with inst := pickInst s 0x0D j.inst }) s) = some r := (checkJob_dmov hcls).trans hcheck
  have hcipher : j.cls ≠ cCipher := by rw [hcls]; decide
  simp only [acceptJob, jobInst_dmov hcls, hcheck', if_pos hcipher]
  exact finish_modJob hj _ r

include howner

/-- A data mover job that passes every check is accepted, and its descriptor goes out. -/
theorem acceptJob_dmov_taken (hcheck : checkDmov j s = none) : ∃ x, x.data = leBytes 64 (j.n 0 64) ∧ acceptJob id j s = { s with
    nextOrd := s.nextOrd + 1
    sw := { s.sw with xfers := s.sw.xfers ++ [x] }
    jobs := kput s.jobs id { j with inst := pickInst s 0x0D j.inst, phase := .accepted, ord := some s.nextOrd, cap := decodeCap s j } } := by
  have hcheck' : checkJob j (modJob id (fun m => { m with inst := pickInst s 0x0D j.inst }) s) = none := (checkJob_dmov hcls).trans hcheck
  have hcipher : j.cls ≠ cCipher := by rw [hcls]; decide
  have hdrvio : ¬(j.cls = cDrvio ∧ j.op = 1) := by rw [hcls]; exact fun h => absurd h.1 (by decide)
  simp only [acceptJob, jobInst_dmov hcls, hcheck', if_neg hcipher, if_neg hdrvio, decodeCap_stew_modJob howner]
  obtain ⟨x, hx, hsend⟩ := sendDesc_eq id { j with inst := pickInst s 0x0D j.inst } (modJob id (fun m => { m with phase := .accepted, ord := some s.nextOrd, cap := decodeCap s j })
    { modJob id (fun m => { m with inst := pickInst s 0x0D j.inst }) s with nextOrd := s.nextOrd + 1 })
  refine ⟨x, hx, hsend.trans ?_⟩
  simp only [withXfers, modJob, kmod_of_kget hj, kmod_of_kget (kget_kput_self _ _ _), kput_kput]

end

/-- Nothing is left to be performed before a job of a steward core, and the job holds no store buffer entry. -/
theorem storesBefore_stew {id k : Nat} {j : Job} (howner : j.owner = .stew k) (s : State) : storesBefore id j s = false := by
  simp only [storesBefore, howner]

theorem freeSubmit_stew {id k : Nat} {j : Job} (howner : j.owner = .stew k) (s : State) : freeSubmit id j s = s := by
  simp only [freeSubmit, howner]

/-- Acceptance. -/
theorem jobsAreAcceptedOrEnd : Claim.JobsAreAcceptedOrEnd := by
  intro id k j s hj howner hcls hphase hroom
  have hrun : exec (.jobAccepted id) s = .next (acceptJob id j s) := by
    show execJobAccepted id s = _
    simp only [execJobAccepted, hj, hphase, storesBefore_stew howner, freeSubmit_stew howner, acceptsNow_dmov hcls, hroom, Bool.not_true, Bool.or_self,
      Bool.false_eq_true, if_false]
    rfl
  refine ⟨fun hcheck => ?_, fun r hcheck => ?_⟩
  · obtain ⟨x, hx, haccept⟩ := acceptJob_dmov_taken hj howner hcls hcheck
    exact ⟨x, hx, hrun.trans (congrArg _ haccept)⟩
  · rw [hrun, acceptJob_dmov_refused hj hcls hcheck]

/-- Release of held jobs. -/
theorem heldJobsAreReleasedOrSkipped : Claim.HeldJobsAreReleasedOrSkipped := by
  intro id k p code any j s hj howner hcls hphase hpred
  refine ⟨fun ⟨hcode, hany⟩ => ?_, fun hgo hroom hcheck => ?_⟩
  · have hskip : ¬(code = 0 ∨ any = true) := by simp [hcode, hany]
    have hrun : exec (.heldJobRelease id) s = .next (finish id ⟨code, 1, 0, 0⟩ (modJob id (fun m => { m with inst := 0 }) s)) := by
      show execHeldJobRelease id s = _
      simp only [execHeldJobRelease, hj, hphase, hpred, if_neg hskip]
      rfl
    rw [hrun, finish_modJob hj]
  · obtain ⟨x, hx, haccept⟩ := acceptJob_dmov_taken hj howner hcls hcheck
    refine ⟨x, hx, Eq.trans ?_ (congrArg ok haccept)⟩
    show execHeldJobRelease id s = _
    simp only [execHeldJobRelease, hj, hphase, hpred, if_pos hgo, acceptsNow_dmov hcls, hroom, if_true]

/-! ### Completion (R62, R95, R100) -/

theorem resultBytes_length (inst : Nat) (r : JobResult) : (resultBytes inst r).length = 16 := by
  simp only [resultBytes, List.length_append, leBytes_length]

/-- The fields of a result record that has been written. -/
theorem rdN_resultBytes {s : State} (hm : Memory.wf s.mem = true) (a inst : Nat) (r : JobResult) :
    let t := wrB a (resultBytes inst r) s
    rdN t a 1 = r.code % 256 ∧ rdN t (a + 1) 1 = r.rflags % 256 ∧ rdN t (a + 2) 2 = inst % 65536 ∧ rdN t (a + 4) 4 = r.count % 2 ^ 32 ∧
      rdN t (a + 8) 8 = r.value % 2 ^ 64 := by
  have part (i n v : Nat) (h : i + n ≤ 16) (hpart : ((resultBytes inst r).drop i).take n = leBytes n v) :
      rdN (wrB a (resultBytes inst r) s) (a + i) n = v % 256 ^ n := by
    rw [rdN, wrB_mem, mread_mwrite_part hm _ _ (by rw [resultBytes_length]; exact h), hpart, leNat_leBytes]
  exact ⟨part 0 1 _ (by decide) rfl, part 1 1 _ (by decide) rfl, part 2 2 _ (by decide) rfl, part 4 4 _ (by decide) rfl, part 8 8 _ (by decide) rfl⟩

/-- The jobs once one has completed: it is gone, and those chained to it know its code (R91). -/
def jobsCompleted (id code : Nat) (m : KMap Job) : KMap Job :=
  kmapV (kdel m id) fun _ k =>
    match k.phase with
    | .issued (some (p, _)) | .held p _ => if p = id then { k with predCode := some code } else k
    | .issued none | .accepted | .done _ => k

/-- The state that the completion of a steward's job leaves before its result crosses the switch core. -/
def stewCompleted (id k : Nat) (j : Job) (r : JobResult) (y : Stew) (s : State) : State :=
  wrB (slotAddr s (.stew k) j.tk) (resultBytes j.inst r) { s with
    jobs := jobsCompleted id r.code s.jobs
    stews := kput s.stews k { y with rf := { y.rf with tk := kput y.rf.tk j.tk ⟨true, id, r.code⟩ } } }

/-- The ticket of a job becomes READY with its code. -/
theorem setRf_ready {k t id code : Nat} {y : Stew} {tk : Ticket} {u : State} (hy : kget u.stews k = some y) (htk : kget y.rf.tk t = some tk) (hid : tk.job = id) :
    setRf (.stew k) { rfOf u (.stew k) with
      tk := kmod (rfOf u (.stew k)).tk t fun x => if x.job = id then { x with ready := true, code := code } else x } u =
    { u with stews := kput u.stews k { y with rf := { y.rf with tk := kput y.rf.tk t ⟨true, id, code⟩ } } } := by
  rw [setRf, rfOf_stew hy, kmod_of_kget htk, if_pos hid, kmod_of_kget hy, hid]

/-- A finished job of a steward core completes. -/
theorem exec_jobComplete_stew {id k : Nat} {j : Job} {r : JobResult} {y : Stew} {tk : Ticket} {s : State} (hj : kget s.jobs id = some j)
    (howner : j.owner = .stew k) (hphase : j.phase = .done r) (hy : kget s.stews k = some y) (htk : kget y.rf.tk j.tk = some tk) (hid : tk.job = id)
    (hcount : kget s.comp.outcomes id = none) (hmay : mayComplete s j = true) :
    ∃ l, exec (.jobComplete id) s = .next (withXfers l (stewCompleted id k j r y s)) := by
  obtain ⟨l, hsend⟩ := sendResult_eq id j r (stewCompleted id k j r y s)
  have hdone : jobCompletes id s = withXfers l (stewCompleted id k j r y s) := by
    rw [← hsend]
    simp only [jobCompletes, hj, hphase, howner, discards, Bool.false_eq_true, if_false]
    exact congrArg (fun u => sendResult id j r (wrB (slotAddr s (.stew k) j.tk) (resultBytes j.inst r) u))
      (setRf_ready (u := { s with jobs := jobsCompleted id r.code s.jobs }) hy htk hid)
  refine ⟨l, ?_⟩
  show execJobComplete id s = _
  have hkeep : kget (withXfers l (stewCompleted id k j r y s)).comp.outcomes id = none := hcount
  simp only [execJobComplete, hj, hphase, hmay, if_true, hdone, countOutcomes, hkeep]
  rfl

/-- Completion. -/
theorem completionWritesTheResult : Claim.CompletionWritesTheResult := by
  intro id k j r y tk s hm hkeys hj howner hphase hy htk hid hcount hmay a
  obtain ⟨l, hrun⟩ := exec_jobComplete_stew hj howner hphase hy htk hid hcount hmay
  obtain ⟨hcode, hflags, hinst, hcnt, hvalue⟩ := rdN_resultBytes hm a j.inst r
  refine ⟨_, hrun, ?_, hcode, hflags, hinst, hcnt, hvalue, ?_, ?_, rfl⟩
  · show kget (jobsCompleted id r.code s.jobs) id = none
    rw [jobsCompleted, kget_kmapV, kget_kdel_self hkeys]
    rfl
  · exact sameMemBut_wrB (sameMemBut_of_mem rfl _ _) (Nat.le_refl _) (by rw [resultBytes_length])
  · have hstew : kget (withXfers l (stewCompleted id k j r y s)).stews k = some { y with rf := { y.rf with tk := kput y.rf.tk j.tk ⟨true, id, r.code⟩ } } :=
      kget_kput_self s.stews k _
    exact rfOf_stew hstew

/-! ### The data mover (R105) -/

section
variable {id op : Nat} {j : Job} {s : State}

/-- A job that has ended is not one that runs on. -/
theorem markStarted_finish {t : State} (hj : kget t.jobs id = some j) (r : JobResult) : markStarted id (finish id r t) = finish id r t := by
  simp only [markStarted, finish_phase hj r, reduceCtorEq, false_and, if_false]

/-- An accepted job whose operation finishes it in a state with the same jobs. -/
theorem runJob_finish {cls : Nat} (h : accepted s id cls op = some j) {f : Job → State → State} {t : State} {r : JobResult} (hf : f j s = finish id r t)
    (ht : t.jobs = s.jobs) : runJob id cls op f s = { t with jobs := kput s.jobs id { j with phase := .done r } } := by
  obtain ⟨hj, -⟩ := accepted_eq_some h
  simp only [runJob, h, hf]
  rw [markStarted_finish (by rw [ht]; exact hj), finish, modJob, ht, kmod_of_kget hj]

/-- COPY. -/
theorem runDmov_copy (h : accepted s id 0x0D 1 = some j) : ∃ l, exec (.dmovCopy id) s = .next { withXfers l (wrB (j.n 16 8) (rdB s (j.n 8 8) (j.n 24 4)) s) with
    jobs := kput s.jobs id { j with phase := .done ⟨0, 0, j.n 24 4, 0⟩ } } := by
  obtain ⟨-, -, -, hop⟩ := accepted_eq_some h
  obtain ⟨l, hsend⟩ := sendCopy_eq id j (j.n 8 8) (j.n 16 8) (rdB s (j.n 8 8) (j.n 24 4)) (wrB (j.n 16 8) (rdB s (j.n 8 8) (j.n 24 4)) s)
  refine ⟨l, congrArg ok (runJob_finish (r := ⟨0, 0, j.n 24 4, 0⟩) h ?_ rfl)⟩
  rw [← hsend]
  simp only [dmovPart, if_pos hop]
  rfl

/-- FILL. -/
theorem runDmov_fill (h : accepted s id 0x0D 3 = some j) : exec (.dmovFill id) s = .next { wrB (j.n 16 8) (fillBytes (j.n 32 8) (j.n 24 4)) s with
    jobs := kput s.jobs id { j with phase := .done ⟨0, 0, j.n 24 4, 0⟩ } } := by
  obtain ⟨-, -, -, hop⟩ := accepted_eq_some h
  refine congrArg ok (runJob_finish (r := ⟨0, 0, j.n 24 4, 0⟩) h ?_ rfl)
  simp only [dmovPart, hop]
  rfl

/-- COMPARE. -/
theorem runDmov_compare (h : accepted s id 0x0D 2 = some j) : exec (.dmovCompare id) s = .next { s with
    jobs := kput s.jobs id { j with phase := .done ⟨0, 0, j.n 24 4, firstDiff 0 (rdB s (j.n 8 8) (j.n 24 4)) (rdB s (j.n 16 8) (j.n 24 4))⟩ } } := by
  obtain ⟨-, -, -, hop⟩ := accepted_eq_some h
  refine congrArg ok (runJob_finish (r := ⟨0, 0, j.n 24 4, _⟩) h ?_ rfl)
  simp only [dmovPart, hop]
  rfl

end

/-- The first difference of two lists of one length, counted from `k`: none, or an offset where they differ and below which they do not. -/
theorem firstDiff_spec (k : Nat) {l m : List Byte} (hlen : l.length = m.length) :
    (firstDiff k l m = 0xFFFF_FFFF_FFFF_FFFF ∧ l = m) ∨
      ∃ i, firstDiff k l m = k + i ∧ i < l.length ∧ l[i]? ≠ m[i]? ∧ ∀ n, n < i → l[n]? = m[n]? := by
  induction l generalizing k m with
  | nil =>
    cases m with
    | nil => exact .inl ⟨rfl, rfl⟩
    | cons y m => cases hlen
  | cons x l ih =>
    cases m with
    | nil => cases hlen
    | cons y m =>
      unfold firstDiff
      by_cases hxy : x = y
      · rw [if_pos hxy]
        rcases ih (k + 1) (Nat.succ.inj hlen) with ⟨hall, rfl⟩ | ⟨i, hi, hlt, hdiff, hsame⟩
        · exact .inl ⟨hall, by rw [hxy]⟩
        · refine .inr ⟨i + 1, by omega, Nat.succ_lt_succ hlt, hdiff, fun n hn => ?_⟩
          cases n with
          | zero => exact congrArg some hxy
          | succ n => exact hsame n (Nat.lt_of_succ_lt_succ hn)
      · rw [if_neg hxy]
        exact .inr ⟨0, rfl, Nat.zero_lt_succ _, fun h => hxy (Option.some.inj h), fun n hn => absurd hn (Nat.not_lt_zero n)⟩

/-- A byte of what is read. -/
theorem getElem?_rdB (s : State) (a : Nat) {n i : Nat} (h : i < n) : (rdB s a n)[i]? = some (mget s.mem (a + i)) := by
  have hi : i < (rdB s a n).length := by rw [rdB, mread_length]; exact h
  rw [List.getElem?_eq_getElem hi]
  simp only [rdB, mread, List.getElem_map, List.getElem_range]

/-- The first difference of two ranges of memory. -/
theorem firstDiff_rdB (s : State) (a b n : Nat) :
    let v := firstDiff 0 (rdB s a n) (rdB s b n)
    (v = 0xFFFF_FFFF_FFFF_FFFF ∧ ∀ i, i < n → mget s.mem (a + i) = mget s.mem (b + i)) ∨
      (v < n ∧ mget s.mem (a + v) ≠ mget s.mem (b + v) ∧ ∀ i, i < v → mget s.mem (a + i) = mget s.mem (b + i)) := by
  have hlen : (rdB s a n).length = n := mread_length _ _ _
  have byte {i : Nat} (h : i < n) : (rdB s a n)[i]? = (rdB s b n)[i]? ↔ mget s.mem (a + i) = mget s.mem (b + i) := by
    rw [getElem?_rdB s a h, getElem?_rdB s b h, Option.some.injEq]
  rcases firstDiff_spec 0 (l := rdB s a n) (m := rdB s b n) (hlen.trans (mread_length _ _ _).symm) with ⟨hv, heq⟩ | ⟨v, hv, hlt, hdiff, hsame⟩
  · exact .inl ⟨hv, fun i hi => (byte hi).mp (by rw [heq])⟩
  · rw [Nat.zero_add] at hv
    rw [hlen] at hlt
    dsimp only
    rw [hv]
    exact .inr ⟨hlt, fun h => hdiff ((byte hlt).mpr h), fun i hi => (byte (by omega)).mp (hsame i hi)⟩

/-- The operations of the data mover. -/
theorem dataMoverResults : Claim.DataMoverResults := by
  intro id j s hm src dst len ended
  refine ⟨fun h => ?_, fun h => ?_, fun h => ?_⟩
  · obtain ⟨l, hrun⟩ := runDmov_copy h
    have hlen : (rdB s src len).length = len := mread_length _ _ _
    refine ⟨_, hrun, ?_, ?_, rfl, rfl, List.prefix_append _ _⟩
    · have hread := rdB_wrB hm dst (rdB s src len)
      rw [hlen] at hread
      exact hread
    · exact sameMemBut_wrB (sameMemBut_of_mem rfl _ _) (Nat.le_refl _) (by rw [hlen])
  · have hlen : (fillBytes (j.n 32 8) len).length = len := fillBytes_length _ _
    refine ⟨_, runDmov_fill h, ?_, ⟨rfl, rfl⟩, fun i hi => ?_⟩
    · exact sameMemBut_wrB (sameMemBut_of_mem rfl _ _) (Nat.le_refl _) (by rw [hlen])
    · have hi' : i < (fillBytes (j.n 32 8) len).length := by rw [hlen]; exact hi
      refine (mget_mwrite_of_in hm dst _ hi').trans ?_
      simp only [fillBytes, List.getElem_map, List.getElem_range]
      exact fillByte_eq j.desc (i % 8) (Nat.mod_lt _ (by decide))
  · exact ⟨_, _, runDmov_compare h, rfl, ⟨rfl, rfl⟩, firstDiff_rdB s src dst len⟩

/-- Settles O18: acceptance, held jobs, completion, and the data mover. -/
theorem engineJobsRun : Obligations.EngineJobsRun :=
  ⟨jobsAreAcceptedOrEnd, heldJobsAreReleasedOrSkipped, completionWritesTheResult, dataMoverResults⟩

end Sys2Proof.Machine
end

section
/-! SUPPORT. What the host front end reads, and what posting a completion leaves as it was (R322, R331, R332, R343, R346, R351). -/

namespace Sys2Proof.Machine

/-! ### States that read the same -/

/-- Two states read the same in memory and in every register but the performance counters. -/
def SameReads (s t : State) : Prop := t.mem = s.mem ∧ ∀ a, isPmcReg a = false → kget t.csr a = kget s.csr a

/-- Counting an occurrence leaves what is read. -/
theorem sameReads_pmc (ev inst k : Nat) (s : State) : SameReads s (pmc ev inst k s) :=
  ⟨(sameButLog_pmc ev inst k s).mem, fun _ ha => kget_pmc ha ev inst k s⟩

/-- The performance counters have the registers of their unit. -/
theorem isPmcReg_eq_false {a : Nat} (h : a < 0x1_0500_0000 ∨ 0x1_0600_0000 ≤ a) : isPmcReg a = false := by
  have c0 : (RegName.PMC_CNT).addr 0 0 = 0x105002000 := rfl
  have c1 : (RegName.PMC_CNT).addr 1023 0 = 0x105002000 + 1023 * 8 := rfl
  have o0 : (RegName.PMC_OVF).addr 0 0 = 0x105000100 := rfl
  have o1 : (RegName.PMC_OVF).addr 15 0 = 0x105000100 + 15 * 8 := rfl
  simp only [isPmcReg, Bool.or_eq_false_iff, Bool.and_eq_false_iff, decide_eq_false_iff_not]
  omega

theorem rdBits_lt (s : State) (a n hi lo : Nat) : rdBits s a n hi lo < 2 ^ (hi + 1 - lo) := bitsN_lt _ _ _

namespace SameReads
variable {s t : State} (h : SameReads s t)
include h

theorem rd {r : RegName} {i j : Nat} (hr : r.addr i j < 0x1_0500_0000 ∨ 0x1_0600_0000 ≤ r.addr i j) : rd t r i j = Machine.rd s r i j :=
  rd_of_kget (h.2 _ (isPmcReg_eq_false hr))

theorem getF {f : Fld} {i j : Nat} (hf : f.reg.addr i j < 0x1_0500_0000 ∨ 0x1_0600_0000 ≤ f.reg.addr i j) : getF t f i j = Machine.getF s f i j := by
  rw [Machine.getF, Machine.getF, h.rd hf]

theorem rdN (a n : Nat) : rdN t a n = Machine.rdN s a n := by rw [Machine.rdN, Machine.rdN, h.1]

theorem rdBits (a n hi lo : Nat) : rdBits t a n hi lo = Machine.rdBits s a n hi lo := by rw [Machine.rdBits, Machine.rdBits, h.rdN]

/-! Namespaces, attachments and volumes (R322, R323) -/

theorem nsEntry (n : Nat) : nsEntry t n = Machine.nsEntry s n := by
  rw [Machine.nsEntry, Machine.nsEntry, h.getF (by decide), h.rdN]

theorem nsValid (n : Nat) : nsValid t n = Machine.nsValid s n := by rw [Machine.nsValid, Machine.nsValid, h.nsEntry]

theorem nsPass (n : Nat) : nsPass t n = Machine.nsPass s n := by rw [Machine.nsPass, Machine.nsPass, h.nsEntry]

theorem gangChips : gangChips t = Machine.gangChips s := by rw [Machine.gangChips, Machine.gangChips, h.getF (by decide)]

theorem gangChip : gangChip t = Machine.gangChip s := h.getF (by decide)

theorem attachedTo (c n : Nat) : attachedTo t c n = Machine.attachedTo s c n := by
  rw [Machine.attachedTo, Machine.attachedTo, h.rdBits, attachAddr, attachAddr, ctrlIndex, ctrlIndex, h.getF (by decide), h.gangChips]

theorem volFlag (v b : Nat) : volFlag t v b = Machine.volFlag s v b := by rw [Machine.volFlag, Machine.volFlag, volFlags, volFlags, h.rdN]

theorem volSize (v : Nat) : volSize t v = Machine.volSize s v := h.rdN _ _

theorem volClass (v : Nat) : volClass t v = Machine.volClass s v := h.rdBits _ _ _ _

theorem volGroup (v : Nat) : volGroup t v = Machine.volGroup s v := h.rdBits _ _ _ _

/-! The checks of a command (R331, R346, R355, R440) -/

theorem sanitizeStatus : sanitizeStatus t = Machine.sanitizeStatus s := by
  rw [Machine.sanitizeStatus, Machine.sanitizeStatus, h.getF (by decide)]

theorem resvForbids (v host opc : Nat) : resvForbids t v host opc = Machine.resvForbids s v host opc := by
  simp only [Machine.resvForbids, h.getF (f := F.HFE_RESVTAB_BASE) (i := 0) (j := 0) (by decide), h.rdN]

theorem sglCheck (tcp pi : Bool) (q data : List Byte) : sglCheck t tcp pi q data = Machine.sglCheck s tcp pi q data := by
  simp only [Machine.sglCheck, h.getF (f := F.HFE_CTL_MDTS) (i := 0) (j := 0) (by decide)]

theorem groupChip (g : Nat) : groupChip t g = Machine.groupChip s g := by rw [Machine.groupChip, Machine.groupChip, h.gangChips]

theorem anaState {g : Nat} (hg : g < 1024) : anaState t g = Machine.anaState s g := by
  have haddr : (RegName.SYS_GRP).addr g 0 = 0x1_0000_1000 + g * 8 := rfl
  have hgrp : (RegName.SYS_GRP).addr g 0 < 0x1_0500_0000 := by omega
  rw [Machine.anaState, Machine.anaState, headNo, headNo, h.getF (f := F.SYS_HEAD_STATE) (by decide), h.getF (f := F.SYS_HEAD_ID) (by decide),
    h.getF (f := F.SYS_GRP_POS) (.inl hgrp), h.getF (f := F.SYS_GRP_OWNER) (.inl hgrp)]

theorem entryOffset (e : Nat) : entryOffset t e = Machine.entryOffset s e := by
  have haddr (k : Nat) : (RegName.FSQ_ENTRY).addr k 0 = 0x1_0C00_4000 + k * 8 := rfl
  have hentry : 0x1_0600_0000 ≤ (RegName.FSQ_ENTRY).addr (e / 2) 0 := by rw [haddr]; omega
  rw [Machine.entryOffset, Machine.entryOffset, h.getF (f := F.FSQ_ENTRY_OFF_LO) (.inr hentry), h.getF (f := F.FSQ_ENTRY_OFF_HI) (.inr hentry)]

theorem bindingOf (cls opc : Nat) : bindingOf t cls opc = Machine.bindingOf s cls opc := by
  have haddr (b i : Nat) : (RegName.FSQ_BIND).addr b i = 0x1_0C01_0000 + b * 0x8000 + i * 8 := rfl
  have hbind (b i : Nat) : bindEntry t b i = bindEntry s b i := by
    rw [bindEntry, bindEntry, h.rd (.inr (by rw [haddr]; omega))]
  simp only [Machine.bindingOf, h.getF (f := F.FSQ_PSET_CTL_BANKSEL) (i := 0) (j := 0) (by decide), hbind, h.entryOffset]

end SameReads

end Sys2Proof.Machine
end

section
/-! SUPPORT. What posting a completion, and sending on a queue pair, leave as they were (R332, R333, R343, R360, R365, R376). -/

namespace Sys2Proof.Machine

/-! ### The counts of the front end -/

/-- Two states differ at most in the log, the stored registers, the RDMA engine, the places of the queues, and what the front end counts and logs
of the commands that it has completed. -/
def SameButPosted (s t : State) : Prop := t = { s with
  csr := t.csr, cel := t.cel, rx := t.rx
  host := { s.host with queues := t.host.queues, errs := t.host.errs, errCount := t.host.errCount, mediaErrs := t.host.mediaErrs
                        rdBytes := t.host.rdBytes, wrBytes := t.host.wrBytes } }

theorem SameButPosted.refl (s : State) : SameButPosted s s := rfl

theorem SameButPosted.trans {s t u : State} (h : SameButPosted s t) (k : SameButPosted t u) : SameButPosted s u := by
  unfold SameButPosted at *
  rw [k, h]

theorem SameButPosted.ite {s t u : State} {p : Prop} [Decidable p] (ht : SameButPosted s t) (hu : SameButPosted s u) :
    SameButPosted s (if p then t else u) := by
  split
  · exact ht
  · exact hu

theorem SameButLog.posted {s t : State} (h : SameButLog s t) : SameButPosted s t := by
  unfold SameButLog at h
  rw [h]
  rfl

theorem sameButPosted_sendResponse (qp : Nat) (s : State) : SameButPosted s (sendResponse qp s) := by
  unfold sendResponse
  split
  · exact .ite rfl rfl
  · rfl

theorem sameButPosted_countUnits (opc bytes : Nat) (s : State) : SameButPosted s (countUnits opc bytes s) :=
  .ite rfl (.ite rfl rfl)

/-- A completion is not posted on a queue that is frozen, or gone. -/
theorem postCompletion_of_dead {hq : Nat} {s : State} (h : ∀ q, queueOf s hq = some q → q.frozen = true) (cid st dw0 : Nat) (sqe : List Byte) :
    postCompletion hq cid st dw0 sqe s = s := by
  unfold postCompletion
  split
  · rfl
  · next q hq => exact if_pos (h q hq)

/-- A completion that is posted goes out, and is counted and logged. -/
theorem postCompletion_of_live {hq : Nat} {q : HQueue} {s : State} (h : queueOf s hq = some q) (hfrozen : q.frozen = false) (cid st dw0 : Nat) (sqe : List Byte) :
    ∃ head inv, SameButPosted (emit (.completion hq cid st dw0 head inv) s) (postCompletion hq cid st dw0 sqe s) := by
  have h' : kget s.host.queues hq = some q := h
  simp -zeta only [postCompletion, h', hfrozen, Bool.false_eq_true, if_false]
  refine ⟨q.head, if q.tcp then none else invKey sqe, ?_⟩
  extract_lets _ s1 s2 _ s3 s4 code s5 _ s6 opc s7
  have h2 : SameButPosted (emit (.completion hq cid st dw0 q.head (if q.tcp then none else invKey sqe)) s) s2 :=
    .trans (t := emit (.completion hq cid st dw0 q.head (if q.tcp then none else invKey sqe)) s1) rfl (sameButLog_pmc _ _ _ _).posted
  have h3 : SameButPosted s2 s3 := rfl
  have h4 : SameButPosted s3 s4 := .ite rfl (sameButPosted_sendResponse _ _)
  have h5 : SameButPosted s4 s5 := .ite rfl rfl
  have h6 : SameButPosted s5 s6 := .ite rfl rfl
  have h7 : SameButPosted s6 s7 := .ite rfl (.ite rfl rfl)
  exact h2.trans (h3.trans (h4.trans (h5.trans (h6.trans (.ite rfl (h7.trans (.ite (sameButPosted_countUnits _ _ _) rfl)))))))

/-- Posting sends at most a completion, whatever its queue. -/
theorem postCompletion_out (hq cid st dw0 : Nat) (sqe : List Byte) (s : State) : ∃ l, SameButPosted { s with out := s.out ++ l } (postCompletion hq cid st dw0 sqe s) := by
  by_cases h : ∀ q, queueOf s hq = some q → q.frozen = true
  · refine ⟨[], ?_⟩
    rw [postCompletion_of_dead h, List.append_nil]
    rfl
  · push Not at h
    obtain ⟨q, hq, hfrozen⟩ := h
    obtain ⟨head, inv, hpost⟩ := postCompletion_of_live hq (Bool.eq_false_iff.mpr hfrozen) cid st dw0 sqe
    exact ⟨_, hpost⟩

/-- What a completion leaves of the state. -/
theorem SameButPosted.frame {s t : State} (h : SameButPosted s t) : t.out = s.out ∧ t.mem = s.mem ∧ t.ctxs = s.ctxs ∧ t.host.held = s.host.held ∧
    t.host.fwds = s.host.fwds ∧ t.host.anaSeen = s.host.anaSeen ∧ t.host.anaCount = s.host.anaCount := by
  rw [h]
  exact ⟨rfl, rfl, rfl, rfl, rfl, rfl, rfl⟩

/-! ### Answers -/

theorem Answers.of_out {s u t : State} {hq cid st dw0 : Nat} (h : Answers u t hq cid st dw0) (hout : u.out = s.out) : Answers s t hq cid st dw0 := by
  unfold Answers Sends at *
  rwa [hout] at h

/-- A completion on a live queue answers its command. -/
theorem postCompletion_answers {hq : Nat} {s : State} (h : Live s hq) (cid st dw0 : Nat) (sqe : List Byte) :
    Answers s (postCompletion hq cid st dw0 sqe s) hq cid st dw0 := by
  obtain ⟨q, hq, hfrozen⟩ := h
  obtain ⟨head, inv, hpost⟩ := postCompletion_of_live hq hfrozen cid st dw0 sqe
  exact ⟨head, inv, [_], hpost.frame.1, List.mem_singleton_self _⟩

theorem postCompletion_frame (hq cid st dw0 : Nat) (sqe : List Byte) (s : State) :
    let t := postCompletion hq cid st dw0 sqe s
    t.mem = s.mem ∧ t.ctxs = s.ctxs ∧ t.host.held = s.host.held ∧ t.host.fwds = s.host.fwds ∧ t.host.anaSeen = s.host.anaSeen ∧
      t.host.anaCount = s.host.anaCount := by
  obtain ⟨l, hpost⟩ := postCompletion_out hq cid st dw0 sqe s
  exact hpost.frame.2

/-- A host's own command that is done is answered with its status. -/
theorem ioDone_answers {c : HostCmd} {s : State} (hfwd : c.fwd = false) (h : Live s c.hq) (code : Nat) :
    Answers s (ioDone c code s) c.hq c.cid (status code) 0 ∧ (ioDone c code s).ctxs = s.ctxs ∧ (ioDone c code s).host.held = s.host.held := by
  have hdone : ioDone c code s = postCompletion c.hq c.cid (status code) 0 c.sqe s := by
    rw [ioDone, hfwd]
    rfl
  obtain ⟨-, hctxs, hheld, -⟩ := postCompletion_frame c.hq c.cid (status code) 0 c.sqe s
  rw [hdone]
  exact ⟨postCompletion_answers h _ _ _ _, hctxs, hheld⟩

/-! ### Notices (R343) -/

/-- Notices leave memory, what is held, and the states that have been reported. -/
theorem notify_frame (p : Nat → Ctrl → Bool) (dw0 : Nat) (s : State) :
    let t := notify p dw0 s
    t.mem = s.mem ∧ t.host.held = s.host.held ∧ t.host.anaSeen = s.host.anaSeen ∧ t.host.anaCount = s.host.anaCount := by
  refine List.foldlRecOn (motive := fun t : State => t.mem = s.mem ∧ t.host.held = s.host.held ∧ t.host.anaSeen = s.host.anaSeen ∧ t.host.anaCount = s.host.anaCount)
    s.host.ctrls _ ⟨rfl, rfl, rfl, rfl⟩ fun t ht kv _ => ?_
  split
  · split
    · split
      · next l _ _ =>
        obtain ⟨hmem, -, hheld, -, hseen, hcount⟩ := postCompletion_frame (adminHq kv.1) _ 0 dw0 [] (modCtrl kv.1 (fun x => { x with aers := l }) t)
        obtain ⟨tmem, theld, tseen, tcount⟩ := ht
        exact ⟨hmem.trans tmem, hheld.trans theld, hseen.trans tseen, hcount.trans tcount⟩
      · exact ht
    · exact ht
  · exact ht

/-! ### Sending on a queue pair (R376) -/

/-- What is sent on a queue pair leaves the front end and the staging of forwarded commands. -/
theorem enqueue_frame (q : Nat) (l : List SendEnt) (s : State) : (enqueue q l s).host = s.host ∧ (enqueue q l s).rx.stage = s.rx.stage := by
  have sent (k : Nat) (ents : List SendEnt) (u : State) :
      let t := ents.foldl (fun t e => pmc 0x0A01 (k / 1024) e.data.length (emit (.rdma k e.message) t)) u
      t.host = u.host ∧ t.rx.stage = u.rx.stage := by
    refine List.foldlRecOn (motive := fun t : State => t.host = u.host ∧ t.rx.stage = u.rx.stage) ents _ ⟨rfl, rfl⟩ fun t ht e _ => ?_
    rw [sameButLog_pmc]
    exact ht
  unfold enqueue pump
  split
  · split
    · exact ⟨rfl, rfl⟩
    · exact sent q _ _
  · exact ⟨rfl, rfl⟩

end Sys2Proof.Machine
end

section
/-! PROOFS. I/O capsules (R33, R107, R331, R333, R334). -/

namespace Sys2Proof.Machine

/-! ### Starting a command (R33, R107) -/

section
variable {c : HostCmd} {u : State}

/-- A command that starts has a new context. -/
theorem startCtx_spec (n : Nat) (w : WaitCmd) (u : State) :
    kget (startCtx n w false u).ctxs n = some (newCtx w) ∧ (startCtx n w false u).out = u.out ∧ (startCtx n w false u).rx = u.rx := by
  simp only [startCtx, queueCtx, wrB_ctxs, kget_kput_self]
  exact ⟨rfl, rfl, rfl⟩

/-- A command that is bound receives the lowest free context, while no other waits. -/
theorem bindIo_starts {pc m : Nat} (hopc : sqOpc c.sqe ∉ [0xC4, 0xC8, 0xCC]) (hbind : bindingOf u (volClass u c.vol) (sqOpc c.sqe) = some pc)
    (hwait : u.ctxWait = []) (hfree : freeCtxNo u = some m) :
    bindIo c u = startCtx m ⟨c.hq, c.cid, volClass u c.vol, c.vol, pc, u.bung.epoch, c.sqe, c.fwd⟩ false u := by
  have hopc' : [0xC4, 0xC8, 0xCC].contains (sqOpc c.sqe) = false := by simpa using hopc
  simp only [bindIo, hopc', Bool.false_eq_true, if_false, hbind, hwait, if_true, hfree]

/-- A command of a group that this head owns is bound: the group lies on this chip, or the command came from the head that found out. -/
theorem startIo_of_owned (hchip : c.fwd = true ∨ groupChip u (volGroup u c.vol) = gangChip u) (hana : anaState u (volGroup u c.vol) = 1) :
    startIo c u = bindIo c u := by
  have haway : (decide (groupChip u (volGroup u c.vol) ≠ gangChip u) && !c.fwd) = false := by
    rcases hchip with h | h
    · rw [h, Bool.not_true, Bool.and_false]
    · simp [h]
  simp only [startIo, haway, Bool.false_eq_true, if_false, hana]

/-! ### The checks of a command (R331) -/

/-- A command names a namespace that it may use: attached, not being sanitized, and of a volume that is there. -/
structure NsUsable (u : State) (c : HostCmd) : Prop where
  valid : nsValid u (sqNsid c.sqe) = true
  attached : attachedTo u (cmdCtrl u c.hq) (sqNsid c.sqe) = true
  sane : sanitizeStatus u = none
  volume : volValid u c.vol = true

/-- A Read whose NSID is not attached is refused. -/
theorem admitIo_of_unattached (hopc : sqOpc c.sqe = 2)
    (hns : nsValid u (sqNsid c.sqe) = false ∨ attachedTo u (cmdCtrl u c.hq) (sqNsid c.sqe) = false) (tcp : Bool) (data : List Byte) :
    admitIo c tcp data u = ioDone c 0x00B u := by
  have hbad : (!nsValid u (sqNsid c.sqe) || !attachedTo u (cmdCtrl u c.hq) (sqNsid c.sqe)) = true := by
    rcases hns with h | h
    · rw [h]; rfl
    · rw [h, Bool.not_false, Bool.or_true]
  simp only [admitIo, hopc, hbad, OfNat.ofNat_ne_zero, false_and, decide_false, Bool.not_false, Bool.and_self, if_true]

/-- A Read beyond its volume is refused. -/
theorem admitIo_of_range (hopc : sqOpc c.sqe = 2) (hns : NsUsable u c) (hrange : volSize u c.vol < sqLba c.sqe + sqNlb c.sqe) (tcp : Bool) (data : List Byte) :
    admitIo c tcp data u = ioDone c 0x080 u := by
  have hresv : resvOpc 2 = false := rfl
  have hread : [0x01, 0x02, 0x05, 0x08].contains 2 = true := rfl
  simp only [admitIo, hopc, hns.valid, hns.attached, hns.sane, hns.volume, hresv, hread, hrange, OfNat.ofNat_ne_zero, decide_true, Bool.not_true, Bool.or_self,
    Bool.and_false, Bool.and_self, Bool.false_eq_true, if_false, if_true]

/-- A Read that passes every check goes on. -/
theorem admitIo_of_read (hopc : sqOpc c.sqe = 2) (hns : NsUsable u c) (hrange : sqLba c.sqe + sqNlb c.sqe ≤ volSize u c.vol)
    (hresv : resvForbids u c.vol c.host 2 = false) {tcp : Bool} {data : List Byte} (hsgl : sglCheck u tcp (volFlag u c.vol 4) c.sqe data = none) :
    admitIo c tcp data u = startIo c u := by
  have hresvOpc : resvOpc 2 = false := rfl
  have hwrite : writeType 2 = false := rfl
  simp only [admitIo, hopc, hns.valid, hns.attached, hns.sane, hns.volume, hresvOpc, hwrite, hresv, hsgl, Nat.not_lt.mpr hrange, OfNat.ofNat_ne_zero, decide_false,
    Bool.not_true, Bool.or_self, Bool.and_false, Bool.false_and, Bool.false_eq_true, if_false]

/-- A Flush of one namespace that is not PASS is done at once (R334). -/
theorem admitIo_of_flush (hopc : sqOpc c.sqe = 0) (hns : NsUsable u c) (hone : sqNsid c.sqe ≠ 0xFFFF_FFFF) (hpass : nsPass u (sqNsid c.sqe) = false)
    (tcp : Bool) (data : List Byte) : admitIo c tcp data u = ioDone c 0 u := by
  simp only [admitIo, hopc, hns.valid, hns.attached, hns.sane, hns.volume, flushIo, if_neg hone, hpass, Bool.not_true, Bool.or_self, Bool.and_false,
    Bool.false_eq_true, if_false, if_true]

end

/-! ### The arrival of a capsule (R331 step 1, R333) -/

/-- An attached NSID is one of the 262,144 of a map (R323): none is the NSID of every namespace. -/
theorem nsid_ne_all_of_attachedTo {s : State} {c n : Nat} (h : attachedTo s c n = true) : n ≠ 0xFFFF_FFFF := by
  rw [attachedTo, Bool.and_eq_true, decide_eq_true_eq] at h
  omega

section
variable {hq : Nat} {sqe data : List Byte} {q : HQueue} {c : Ctrl} {s : State}

/-- The state in which a capsule has taken a place of its queue. -/
def arrived (hq : Nat) (q : HQueue) (s : State) : State :=
  { s with host := { s.host with queues := kput s.host.queues hq { q with used := q.used + 1, head := (q.head + 1) % q.size } } }

/-- The state in which the data of the capsule is kept, and its arrival counted. -/
def fetched (hq cid : Nat) (data : List Byte) (q : HQueue) (s : State) : State :=
  pmc 0x0901 0 1 { arrived hq q s with rx := { s.rx with capsule := kput s.rx.capsule (cmdKey hq cid) data } }

/-- The command of a capsule. -/
def capsuleCmd (hq : Nat) (sqe : List Byte) (c : Ctrl) (v : Nat) : HostCmd := ⟨hq, sqCid sqe, c.hostid, sqe, false, v⟩

theorem arrive_of_takes (h : Takes s hq q c) : arrive hq s = (some (arrived hq q s), arrived hq q s) := by
  obtain ⟨hqueue, hfrozen, hc, hcc, hhead, hroom⟩ := h
  simp only [arrive, hqueue, hc]
  rw [if_neg (by simp [hfrozen, hcc, hhead]), if_neg (Nat.not_le.mpr hroom)]
  rfl

/-- A capsule that its queue takes is checked. -/
theorem ioCapsule_of_takes (h : Takes s hq q c) (hio : q.qid ≠ 0) (hopc : resvOpc (sqOpc sqe) = false) (hfetch : fetchStops s hq = false) (bad : Bool) :
    ioCapsule hq sqe data bad s =
      if bad then ioDone (capsuleCmd hq sqe c (cmdVol (arrived hq q s) hq sqe)) 0x022 (fetched hq (sqCid sqe) data q s)
      else admitIo (capsuleCmd hq sqe c (cmdVol (arrived hq q s) hq sqe)) q.tcp data (fetched hq (sqCid sqe) data q s) := by
  have harrive := arrive_of_takes h
  obtain ⟨hqueue, -, hc, -⟩ := h
  have hctrl : cmdCtrl (arrived hq q s) hq = q.ctrl := by
    rw [cmdCtrl, queueOf, arrived, kget_kput_self]
  have hhost : hostOf (arrived hq q s) hq = c.hostid := by
    have hc' : ctrlOf (arrived hq q s) q.ctrl = some c := hc
    rw [hostOf, hctrl, hc']
  have hserve : ¬(q.qid = 0 ∨ resvOpc (sqOpc sqe) = true ∧ svcFull s = true) := by simp [hio, hopc]
  simp only [ioCapsule, hqueue, if_neg hserve, hfetch, Bool.false_eq_true, if_false, harrive, hhost]
  rfl

/-- The volume of a command of one namespace. -/
theorem cmdVol_arrived (h : sqNsid sqe ≠ 0xFFFF_FFFF) : cmdVol (arrived hq q s) hq sqe = nsVol s (sqNsid sqe) := by
  rw [cmdVol, cmdNs, if_neg h]
  rfl

/-- What taking a capsule leaves: what is read, the contexts and those that wait for one, and what has been sent. -/
theorem fetched_frame (hq cid : Nat) (data : List Byte) (q : HQueue) (s : State) :
    let u := fetched hq cid data q s
    SameReads s u ∧ u.ctxs = s.ctxs ∧ u.ctxWait = s.ctxWait ∧ u.out = s.out := by
  have hlog := sameButLog_pmc 0x0901 0 1 { arrived hq q s with rx := { s.rx with capsule := kput s.rx.capsule (cmdKey hq cid) data } }
  refine ⟨sameReads_pmc _ _ _ { arrived hq q s with rx := { s.rx with capsule := kput s.rx.capsule (cmdKey hq cid) data } }, ?_, ?_, ?_⟩ <;>
    rw [fetched, hlog] <;> rfl

/-- The queue of a capsule that has been taken. -/
theorem queueOf_fetched (hq cid : Nat) (data : List Byte) (q : HQueue) (s : State) :
    queueOf (fetched hq cid data q s) hq = some { q with used := q.used + 1, head := (q.head + 1) % q.size } := by
  rw [queueOf, fetched, sameButLog_pmc 0x0901 0 1]
  exact kget_kput_self _ _ _

theorem live_fetched (cid : Nat) (data : List Byte) (hfrozen : q.frozen = false) (s : State) : Live (fetched hq cid data q s) hq :=
  ⟨_, queueOf_fetched hq cid data q s, hfrozen⟩

theorem cmdCtrl_fetched (hq cid : Nat) (data : List Byte) (q : HQueue) (s : State) : cmdCtrl (fetched hq cid data q s) hq = q.ctrl := by
  rw [cmdCtrl, queueOf_fetched]

/-- A namespace that may be used before the capsule has been taken may be used after. -/
theorem nsUsable_fetched {cid : Nat} (hvalid : nsValid s (sqNsid sqe) = true) (hattached : attachedTo s q.ctrl (sqNsid sqe) = true)
    (hsane : sanitizeStatus s = none) {v : Nat} (hvol : volValid s v = true) : NsUsable (fetched hq cid data q s) (capsuleCmd hq sqe c v) := by
  obtain ⟨hreads, -⟩ := fetched_frame hq cid data q s
  exact {
    valid := (hreads.nsValid _).trans hvalid
    attached := by
      show attachedTo _ (cmdCtrl _ hq) _ = true
      rw [cmdCtrl_fetched]
      exact (hreads.attachedTo _ _).trans hattached
    sane := hreads.sanitizeStatus.trans hsane
    volume := (hreads.volFlag v 0).trans hvol }

/-- A capsule that is done at once is answered with its status, and starts no context. -/
theorem capsule_answers (hfrozen : q.frozen = false) {v code : Nat} {i : Instr}
    (hrun : exec i s = .next (ioDone (capsuleCmd hq sqe c v) code (fetched hq (sqCid sqe) data q s))) :
    ∃ t, exec i s = .next t ∧ Answers s t hq (sqCid sqe) (status code) 0 ∧ t.ctxs = s.ctxs := by
  obtain ⟨-, hctxs, -, hout⟩ := fetched_frame hq (sqCid sqe) data q s
  obtain ⟨hanswer, hdone, -⟩ := ioDone_answers (c := capsuleCmd hq sqe c v) rfl (live_fetched (sqCid sqe) data hfrozen s) code
  exact ⟨_, hrun, hanswer.of_out hout, hdone.trans hctxs⟩

/-- A Read that passes every check starts in the lowest free context. -/
theorem capsule_starts {v pc m : Nat} (hopc : sqOpc sqe = 2) (hns : NsUsable (fetched hq (sqCid sqe) data q s) (capsuleCmd hq sqe c v))
    (hrange : sqLba sqe + sqNlb sqe ≤ volSize s v) (hresv : resvForbids s v c.hostid 2 = false) (hsgl : sglCheck s q.tcp (volFlag s v 4) sqe data = none)
    (hchip : groupChip s (volGroup s v) = gangChip s) (hana : anaState s (volGroup s v) = 1) (hbind : bindingOf s (volClass s v) 2 = some pc)
    (hwait : s.ctxWait = []) (hfree : freeCtxNo s = some m) :
    ∃ e, admitIo (capsuleCmd hq sqe c v) q.tcp data (fetched hq (sqCid sqe) data q s) =
      startCtx m ⟨hq, sqCid sqe, volClass s v, v, pc, e, sqe, false⟩ false (fetched hq (sqCid sqe) data q s) := by
  obtain ⟨hreads, hctxs, hctxWait, -⟩ := fetched_frame hq (sqCid sqe) data q s
  generalize fetched hq (sqCid sqe) data q s = u at *
  have hgroup : volGroup s v < 1024 := rdBits_lt _ _ _ _ _
  have hadmit : admitIo (capsuleCmd hq sqe c v) q.tcp data u = startIo (capsuleCmd hq sqe c v) u :=
    admitIo_of_read hopc hns (by rw [hreads.volSize]; exact hrange) ((hreads.resvForbids _ _ _).trans hresv)
      (by rw [hreads.sglCheck, hreads.volFlag]; exact hsgl)
  have hstart : startIo (capsuleCmd hq sqe c v) u = bindIo (capsuleCmd hq sqe c v) u :=
    startIo_of_owned (.inr (by rw [hreads.groupChip, hreads.gangChip, hreads.volGroup]; exact hchip))
      (by rw [show volGroup u (capsuleCmd hq sqe c v).vol = volGroup s v from hreads.volGroup v, hreads.anaState hgroup]; exact hana)
  have hcls : volClass u (capsuleCmd hq sqe c v).vol = volClass s v := hreads.volClass v
  have hgo := bindIo_starts (c := capsuleCmd hq sqe c v) (u := u) (pc := pc) (m := m)
    (by rw [show sqOpc (capsuleCmd hq sqe c v).sqe = 2 from hopc]; decide)
    (by rw [hcls, hreads.bindingOf, show sqOpc (capsuleCmd hq sqe c v).sqe = 2 from hopc]; exact hbind)
    (hctxWait.trans hwait) (by rw [freeCtxNo, hctxs]; exact hfree)
  rw [hcls] at hgo
  exact ⟨_, hadmit.trans (hstart.trans hgo)⟩

/-! ### Capsules that are not taken (R33, R333) -/

/-- The end of what a queue had waiting leaves the queues and what has been sent. -/
theorem cancelQueues_frame (p : Nat → Bool) (s : State) : (cancelQueues p s).host.queues = s.host.queues ∧ (cancelQueues p s).out = s.out := ⟨rfl, rfl⟩

/-- An I/O queue that freezes. -/
theorem freezeQueue_io (hqueue : queueOf s hq = some q) (hfrozen : q.frozen = false) (hio : q.qid ≠ 0) :
    queueOf (freezeQueue hq s) hq = some { q with frozen := true } ∧ (freezeQueue hq s).out = s.out := by
  simp only [freezeQueue, hqueue, hfrozen, Bool.false_eq_true, if_false, if_neg hio]
  exact ⟨kget_kput_self _ _ _, rfl⟩

/-- The capsule that its queue cannot hold freezes it, whether the front end fetches from the queue or not. -/
theorem ioCapsule_freezes (hqueue : queueOf s hq = some q) (hio : q.qid ≠ 0) (hfrozen : q.frozen = false) (hc : ctrlOf s q.ctrl = some c)
    (hcc : bitsN c.cc 15 14 = 0) (hhead : getF s F.SYS_HEAD_STATE < 4) (hfull : q.size ≤ q.used + 1) (hopc : resvOpc (sqOpc sqe) = false) (bad : Bool) :
    ioCapsule hq sqe data bad s = freezeQueue hq s := by
  have hserve : ¬(q.qid = 0 ∨ resvOpc (sqOpc sqe) = true ∧ svcFull s = true) := by simp [hio, hopc]
  have harrive : arrive hq s = (none, freezeQueue hq s) := by
    simp only [arrive, hqueue, hfrozen, hc, hcc, ne_eq, not_true_eq_false, decide_false, Nat.not_le.mpr hhead, Bool.or_self, Bool.false_eq_true, if_false,
      if_pos hfull]
  have hhold (x : Capsule) : holdCapsule hq q x s = freezeQueue hq s := by
    rw [holdCapsule, hfrozen, if_neg Bool.false_ne_true, if_pos (Nat.le_trans hfull (Nat.le_add_right _ _))]
  simp only [ioCapsule, hqueue, if_neg hserve, hhold, harrive, ite_self]

/-- A capsule of a queue from which the front end does not fetch waits. -/
theorem ioCapsule_waits (hqueue : queueOf s hq = some q) (hio : q.qid ≠ 0) (hfrozen : q.frozen = false) (hfetch : fetchStops s hq = true)
    (hopc : resvOpc (sqOpc sqe) = false) (hroom : q.used + 1 + s.host.unfetched.countP (fun x => decide (x.hq = hq)) < q.size) (bad : Bool) :
    ioCapsule hq sqe data bad s = { s with host := { s.host with unfetched := s.host.unfetched ++ [⟨hq, sqe, data, bad⟩] } } := by
  have hserve : ¬(q.qid = 0 ∨ resvOpc (sqOpc sqe) = true ∧ svcFull s = true) := by simp [hio, hopc]
  simp only [ioCapsule, hqueue, if_neg hserve, hfetch, if_true, holdCapsule, hfrozen, Bool.false_eq_true, if_false, Nat.not_le.mpr hroom]

end

/-- I/O capsules. -/
theorem ioCapsules : Claim.IoCapsules := by
  intro hq sqe data q c s hio n v answers known
  refine ⟨fun h hopc hfetch => ?_, fun hqueue hfrozen hc hcc hhead hfull hopc => ?_, fun hqueue hfrozen hfetch hopc hroom =>
    congrArg ok (ioCapsule_waits hqueue hio hfrozen hfetch hopc hroom false)⟩
  · have run (d : List Byte) (bad : Bool) := ioCapsule_of_takes (data := d) h hio hopc hfetch bad
    obtain ⟨-, hfrozen, -⟩ := h
    have usable (d : List Byte) (hk : known = true) :
        sqNsid sqe ≠ 0xFFFF_FFFF ∧ NsUsable (fetched hq.toNat (sqCid sqe) d q s) (capsuleCmd hq.toNat sqe c (cmdVol (arrived hq.toNat q s) hq.toNat sqe)) := by
      simp only [known, Bool.and_eq_true, decide_eq_true_eq] at hk
      obtain ⟨⟨⟨hvalid, hattached⟩, hsane⟩, hvol⟩ := hk
      have hone := nsid_ne_all_of_attachedTo hattached
      exact ⟨hone, nsUsable_fetched hvalid hattached hsane (by rw [cmdVol_arrived hone]; exact hvol)⟩
    have received (bad : Bool) : exec (.ioCapsuleReceived hq sqe data bad) s = .next _ := congrArg ok (run data bad)
    refine ⟨capsule_answers hfrozen (received true), fun hread hns => ?_, fun hread hk hrange => ?_, fun pc m hread hk hrange hresv hsgl hchip hana hbind hwait
      hfree => ?_, fun hflush hone hk hpass => ?_⟩
    · obtain ⟨hreads, -⟩ := fetched_frame hq.toNat (sqCid sqe) data q s
      refine capsule_answers hfrozen ((received false).trans (congrArg ok (admitIo_of_unattached hread ?_ _ _)))
      show nsValid _ n = false ∨ attachedTo _ (cmdCtrl _ hq.toNat) n = false
      rwa [cmdCtrl_fetched, hreads.nsValid, hreads.attachedTo]
    · obtain ⟨hreads, -⟩ := fetched_frame hq.toNat (sqCid sqe) data q s
      obtain ⟨hone, hns⟩ := usable data hk
      refine capsule_answers hfrozen ((received false).trans (congrArg ok (admitIo_of_range hread hns ?_ _ _)))
      show volSize _ (cmdVol _ _ _) < _
      rw [cmdVol_arrived hone, hreads.volSize]
      exact hrange
    · obtain ⟨hone, hns⟩ := usable data hk
      have hrun := run data false
      rw [cmdVol_arrived hone] at hns hrun
      obtain ⟨e, hstart⟩ := capsule_starts hread hns hrange hresv hsgl hchip hana hbind hwait hfree
      obtain ⟨hctx, hout, -⟩ := startCtx_spec m ⟨hq.toNat, sqCid sqe, volClass s v, v, pc, e, sqe, false⟩ (fetched hq.toNat (sqCid sqe) data q s)
      obtain ⟨-, -, -, hsent⟩ := fetched_frame hq.toNat (sqCid sqe) data q s
      exact ⟨_, _, congrArg ok (hrun.trans hstart), hctx, rfl, rfl, rfl, rfl, rfl, hout.trans hsent⟩
    · obtain ⟨hreads, -⟩ := fetched_frame hq.toNat (sqCid sqe) [] q s
      obtain ⟨-, hns⟩ := usable [] hk
      have hrun : exec (.flush hq sqe) s = .next (ioCapsule hq.toNat sqe [] false s) := congrArg ok (if_pos hflush)
      refine capsule_answers hfrozen (hrun.trans (congrArg ok ((run [] false).trans (admitIo_of_flush hflush hns hone ?_ _ _))))
      exact (hreads.nsPass _).trans hpass
  · obtain ⟨hq', hout⟩ := freezeQueue_io hqueue hfrozen hio
    exact ⟨_, congrArg ok (ioCapsule_freezes hqueue hio hfrozen hc hcc hhead hfull hopc false), hq', hout⟩

end Sys2Proof.Machine
end

section
/-! PROOFS. Forwarded commands, and changes of a group's state (R41, R346, R351, R352). -/

namespace Sys2Proof.Machine

/-! ### A forwarded command at its OWNER (R41, R346, R351) -/

section
variable {c : HostCmd} {s : State}

/-- A forwarded command that is done sends its result back. -/
theorem ioDone_forwarded (hfwd : c.fwd = true) (code : Nat) (s : State) : ioDone c code s = returnResult c.hq c.cid (status code) 0 s := if_pos hfwd

/-- A forwarded command of a group that this head does not serve yet is held. -/
theorem startIo_of_unsettled (hfwd : c.fwd = true) (hana : anaState s (volGroup s c.vol) = 2 ∨ anaState s (volGroup s c.vol) = 15) :
    startIo c s = holdIo c s := by
  rcases hana with h | h
  · simp only [startIo, h, hfwd, Bool.not_true, Bool.and_false, Bool.false_eq_true, if_false, if_true]
  · simp only [startIo, h, hfwd, Bool.not_true, Bool.and_false, Bool.false_eq_true, if_false]

end

/-! ### The result of a forwarded command (R41) -/

section
variable {y : HostCmd} {q : HQueue} {s : State}

/-- The one command that is forwarded is found by its queue and CID. -/
theorem fwdOf_of_single (h : s.host.fwds = [y]) : fwdOf s (cmdKey y.hq y.cid) = some y := by
  rw [fwdOf, h]
  exact List.find?_cons_of_pos (by simp)

/-- The completion of a forwarded command goes out, and the command is forwarded no more. -/
theorem postForward_spec (hlive : Live s y.hq) (hfwds : s.host.fwds = [y]) (st dw0 : Nat) :
    Answers s (postForward y st dw0 s) y.hq y.cid st dw0 ∧ (postForward y st dw0 s).host.fwds = [] ∧ ∃ l, (postForward y st dw0 s).out = s.out ++ l := by
  have hlive' : Live (dropForward y s) y.hq := hlive
  obtain ⟨-, -, -, hdropped, -⟩ := postCompletion_frame y.hq y.cid st dw0 y.sqe (dropForward y s)
  obtain ⟨l, hpost⟩ := postCompletion_out y.hq y.cid st dw0 y.sqe (dropForward y s)
  refine ⟨(postCompletion_answers hlive' y.cid st dw0 y.sqe).of_out rfl, hdropped.trans ?_, l, hpost.frame.1⟩
  rw [dropForward, hfwds]
  exact List.erase_cons_head y []

/-- The data for the host of a TCP queue goes out piece by piece, and changes nothing else. -/
theorem foldl_tcpData (hq cid : Nat) (d : List (Nat × List Byte)) (s : State) :
    d.foldl (fun t e => emit (.tcpData hq cid e.1 e.2) t) s = { s with out := s.out ++ d.map fun e => .tcpData hq cid e.1 e.2 } := by
  induction d generalizing s with
  | nil => rw [List.foldl_nil, List.map_nil, List.append_nil]
  | cons e d ih =>
    rw [List.foldl_cons, ih, emit]
    simp only [List.map_cons, List.append_assoc, List.singleton_append]

theorem Answers.of_prefix {s u t : State} {hq cid st dw0 : Nat} {l : List Out} (h : Answers u t hq cid st dw0) (hout : u.out = s.out ++ l) :
    Answers s t hq cid st dw0 := by
  obtain ⟨head, inv, m, hm, hmem⟩ := h
  exact ⟨head, inv, l ++ m, by rw [hm, hout, List.append_assoc], List.mem_append_right _ hmem⟩

/-- What the result of a forwarded command does on a TCP queue: its data and then its completion go out. -/
theorem postForward_tcp (hlive : Live s y.hq) (hfwds : s.host.fwds = [y]) (st dw0 : Nat) (d : List (Nat × List Byte)) :
    let t := postForward y st dw0 (d.foldl (fun t e => emit (.tcpData y.hq y.cid e.1 e.2) t) s)
    Answers s t y.hq y.cid st dw0 ∧ t.host.fwds = [] ∧ ∀ e ∈ d, Sends s t (.tcpData y.hq y.cid e.1 e.2) := by
  rw [foldl_tcpData]
  obtain ⟨hanswer, hdropped, l, hout⟩ := postForward_spec (s := { s with out := s.out ++ d.map fun e => .tcpData y.hq y.cid e.1 e.2 }) hlive hfwds st dw0
  refine ⟨hanswer.of_prefix rfl, hdropped, fun e he => ⟨_, hout.trans (List.append_assoc _ _ _), ?_⟩⟩
  exact List.mem_append_left _ (List.mem_map_of_mem he)

variable {hq cid : BitVec 16} (hfwds : s.host.fwds = [y]) (hhq : y.hq = hq.toNat) (hcid : y.cid = cid.toNat) (hqueue : queueOf s hq.toNat = some q)
include hfwds hhq hcid hqueue

/-- The result of a command whose queue is TCP. -/
theorem exec_forwardedResult_tcp (htcp : q.tcp = true) (st : BitVec 16) (dw : BitVec 32) (d : List (Nat × List Byte)) :
    exec (.forwardedResultReceived hq cid st ⟨dw, d⟩) s =
      .next (postForward y st.toNat dw.toNat (d.foldl (fun t e => emit (.tcpData y.hq y.cid e.1 e.2) t) s)) := by
  have hfound := fwdOf_of_single hfwds
  rw [hhq, hcid] at hfound
  show execForwardedResultReceived hq cid st ⟨dw, d⟩ s = _
  simp only [execForwardedResultReceived, hfound, hqueue, htcp, if_true]
  rfl

/-- The result of a command that has no data for the host, whose queue is RDMA. -/
theorem exec_forwardedResult_noData (htcp : q.tcp = false) (st : BitVec 16) (dw : BitVec 32) :
    exec (.forwardedResultReceived hq cid st ⟨dw, []⟩) s = .next (postForward y st.toNat dw.toNat s) := by
  have hfound := fwdOf_of_single hfwds
  rw [hhq, hcid] at hfound
  have hnone (l : List (Nat × Nat × Nat)) : stageEnts y l [] = [] := rfl
  show execForwardedResultReceived hq cid st ⟨dw, []⟩ s = _
  simp only [execForwardedResultReceived, hfound, hqueue, htcp, Bool.false_eq_true, if_false, hnone]
  refine congrArg ok (if_pos ?_)
  split <;> rfl

/-- The data for the host of a command whose queue is RDMA goes out first: the result is kept with what is staged. -/
theorem exec_forwardedResult_rdma (htcp : q.tcp = false) {l : List (Nat × Nat × Nat)} {st : BitVec 16} {dw : BitVec 32} {d : List (Nat × List Byte)}
    (hsgl : sglOf false ((y.sqe.drop 24).take 16) (kgetD s.rx.capsule (cmdKey hq.toNat cid.toNat) []) = some (.keyed l)) (hents : stageEnts y l d ≠ []) :
    exec (.forwardedResultReceived hq cid st ⟨dw, d⟩) s = .next (enqueue q.conn (stageEnts y l d)
      { s with rx := { s.rx with stage := kput s.rx.stage (cmdKey hq.toNat cid.toNat) { result := some (st.toNat, dw.toNat) } } }) := by
  have hfound := fwdOf_of_single hfwds
  rw [hhq, hcid] at hfound
  show execForwardedResultReceived hq cid st ⟨dw, d⟩ s = _
  simp only [execForwardedResultReceived, hfound, hqueue, htcp, Bool.false_eq_true, if_false, hhq, hcid, hsgl, if_neg hents]
  rfl

end

/-! ### Held commands, and changes of a group's state (R351, R352) -/

/-- Where nothing is held, a group that settles starts nothing. -/
theorem startHeld_of_none {s : State} (h : s.host.held = []) (g : Nat) : startHeld g s = s := by
  rw [startHeld, h]
  exact if_pos (.inr rfl)

/-- A change of a group's state is counted and its notices go out. -/
theorem anaChange_spec {s : State} {g : Nat} (hheld : s.host.held = []) (hnew : kgetD s.host.anaSeen g 15 ≠ anaState s g) :
    kgetD (anaChange g s).host.anaSeen g 15 = anaState s g ∧ (anaChange g s).host.anaCount = s.host.anaCount + 1 ∧ (anaChange g s).mem = s.mem := by
  let seen : State := { s with host := { s.host with anaSeen := kput s.host.anaSeen g (anaState s g), anaCount := s.host.anaCount + 1 } }
  obtain ⟨hmem, hheld', hseen, hcount⟩ := notify_frame (wants 11) (aerDw0 2 3 0x0C) seen
  have hrun : anaChange g s = notify (wants 11) (aerDw0 2 3 0x0C) seen := by
    simp only [anaChange, if_neg hnew]
    exact startHeld_of_none (hheld'.trans hheld) g
  rw [hrun, hseen, hcount, hmem]
  exact ⟨kgetD_kput_self _ _ _ _, rfl, rfl⟩

/-- A group whose state has been reported changes nothing. -/
theorem anaChange_of_seen {s : State} {g : Nat} (hheld : s.host.held = []) (hsame : kgetD s.host.anaSeen g 15 = anaState s g) : anaChange g s = s := by
  simp only [anaChange, if_pos hsame]
  exact startHeld_of_none hheld g

/-- A held command of a host that times out is answered. -/
theorem exec_anaHoldTimeout {hq cid : BitVec 16} {y : HostCmd} {s : State} (h : s.host.held = [y]) (hhq : y.hq = hq.toNat) (hcid : y.cid = cid.toNat) :
    exec (.anaHoldTimeout hq cid) s = .next (ioDone y 0x303 { s with host := { s.host with held := [] } }) := by
  have hfound : [y].find? (fun c => decide (c.hq = hq.toNat ∧ c.cid = cid.toNat)) = some y :=
    List.find?_cons_of_pos (decide_eq_true ⟨hhq, hcid⟩)
  show execAnaHoldTimeout hq cid s = _
  simp only [execAnaHoldTimeout, h, hfound, List.erase_cons_head]
  rfl

/-- Forwarded commands. -/
theorem forwardedCommands : Claim.ForwardedCommands := by
  intro hq cid host vol sqe data s x v key
  let u : State := { s with rx := { s.rx with staged := kput s.rx.staged key data } }
  have refused (h : resvForbids s v host.toNat (sqOpc sqe) = true) : exec (.forwardedCommandReceived hq cid host ⟨vol, sqe, data⟩) s = .next (ioDone x 0x083 u) :=
    congrArg ok (if_pos h)
  have started (h : resvForbids s v host.toNat (sqOpc sqe) = false) : exec (.forwardedCommandReceived hq cid host ⟨vol, sqe, data⟩) s = .next (startIo x u) :=
    congrArg ok (if_neg (Bool.eq_false_iff.mp h))
  refine ⟨fun hresv => ?_, fun pc m hresv hana hopc hbind hwait hfree => ?_, fun hresv hana => ?_, fun y q st dw d hfwds hhq hcid hqueue hfrozen => ⟨fun hd => ?_,
    fun l htcp hsgl hents => ?_⟩, fun y hheld hhq hcid hfwd hlive => ?_, fun g hheld => ⟨fun hnew => ?_, fun hsame => congrArg ok (anaChange_of_seen hheld hsame)⟩⟩
  · exact ⟨_, refused hresv, rfl, rfl, rfl⟩
  · have hgo : startIo x u = _ := (startIo_of_owned (c := x) (u := u) (.inl rfl) hana).trans (bindIo_starts hopc hbind hwait hfree)
    obtain ⟨hctx, hout, hrx⟩ := startCtx_spec m ⟨hq.toNat, cid.toNat, volClass u v, v, pc, u.bung.epoch, sqe, true⟩ u
    refine ⟨_, _, (started hresv).trans (congrArg _ hgo), hctx, rfl, rfl, rfl, ?_, hout⟩
    rw [hrx]
    exact kget_kput_self _ _ _
  · exact ⟨_, (started hresv).trans (congrArg _ (startIo_of_unsettled (c := x) (s := u) rfl hana)), rfl, rfl⟩
  · have hlive : Live s y.hq := ⟨q, hhq ▸ hqueue, hfrozen⟩
    cases htcp : q.tcp with
    | true =>
      have hrun := exec_forwardedResult_tcp hfwds hhq hcid hqueue htcp st dw d
      obtain ⟨hanswer, hdropped, hdata⟩ := postForward_tcp hlive hfwds st.toNat dw.toNat d
      rw [hhq, hcid] at hanswer hdropped hdata
      rw [hhq, hcid] at hrun
      exact ⟨_, hrun, hanswer, hdropped, hdata⟩
    | false =>
      obtain rfl : d = [] := hd.resolve_right (by rw [htcp]; exact Bool.false_ne_true)
      obtain ⟨hanswer, hdropped, -⟩ := postForward_spec hlive hfwds st.toNat dw.toNat
      rw [hhq, hcid] at hanswer
      exact ⟨_, exec_forwardedResult_noData hfwds hhq hcid hqueue htcp st dw, hanswer, hdropped, nofun⟩
  · obtain ⟨hhost, hstage⟩ := enqueue_frame q.conn (stageEnts y l d)
      { s with rx := { s.rx with stage := kput s.rx.stage key { result := some (st.toNat, dw.toNat) } } }
    refine ⟨_, { result := some (st.toNat, dw.toNat) }, exec_forwardedResult_rdma hfwds hhq hcid hqueue htcp hsgl hents, hhost, ?_, rfl⟩
    rw [hstage]
    exact kget_kput_self _ _ _
  · have hlive' : Live { s with host := { s.host with held := [] } } y.hq := by rw [hhq]; exact hlive
    obtain ⟨hanswer, -, hdropped⟩ := ioDone_answers hfwd hlive' 0x303
    rw [hhq, hcid] at hanswer
    exact ⟨_, exec_anaHoldTimeout hheld hhq hcid, hanswer.of_out rfl, hdropped⟩
  · exact ⟨_, rfl, anaChange_spec hheld hnew⟩

/-- Settles O42: I/O capsules and forwarded commands. -/
theorem hostIoResults : Obligations.HostIoResults := ⟨ioCapsules, forwardedCommands⟩

end Sys2Proof.Machine
end

section
/-! SUPPORT. What the frames of metadata pages and the metadata cache leave of the state, and a table of pages that lists one page twice. -/

namespace Sys2Proof.Machine

/-! ### What leaves the pages and the tuns -/

/-- Two states have the same pages and slot references, and the same tuns. -/
def SamePages (s t : State) : Prop := t.me = s.me ∧ t.ta = s.ta

theorem SamePages.trans {s t u : State} (h : SamePages s t) (k : SamePages t u) : SamePages s u := ⟨k.1.trans h.1, k.2.trans h.2⟩

theorem SameButLog.samePages {s t : State} (h : SameButLog s t) : SamePages s t := by
  rw [h]
  exact ⟨rfl, rfl⟩

theorem samePages_installLine (line : Nat) (dirty : Bool) (s : State) : SamePages s (installLine line dirty s) := by
  unfold installLine
  split
  · exact ⟨rfl, rfl⟩
  · split
    · exact ⟨rfl, rfl⟩
    · split <;> exact ⟨rfl, rfl⟩

theorem samePages_touchLine (line : Nat) (write : Bool) (s : State) : SamePages s (touchLine line write s) := by
  unfold touchLine
  split
  · exact ⟨rfl, rfl⟩
  · split
    · next l _ =>
      exact SamePages.trans (t := { s with mc := { s.mc with
        lines := kput s.mc.lines line { l with dirty := l.dirty || write }, side := if write then s.mc.side.erase line else s.mc.side } })
        ⟨rfl, rfl⟩ (sameButLog_pmc _ _ _ _).samePages
    · have hmiss := (sameButLog_pmc 0x1802 (mcSet line / 16384) 1 s).samePages
      dsimp only
      generalize pmc 0x1802 (mcSet line / 16384) 1 s = t at hmiss ⊢
      split
      · exact hmiss.trans (SamePages.trans (t := { t with mc := { t.mc with side := t.mc.side.erase line } }) ⟨rfl, rfl⟩ (samePages_installLine _ _ _))
      · exact hmiss.trans ⟨rfl, rfl⟩

theorem samePages_touchPath (path : List Nat) (lba : Nat) (write : Bool) (s : State) : SamePages s (touchPath path lba write s) := by
  unfold touchPath
  generalize 3 = level
  induction path generalizing level s with
  | nil => exact ⟨rfl, rfl⟩
  | cons id path ih =>
    rw [List.foldl_cons]
    dsimp only
    split
    · exact (samePages_touchLine _ _ _).trans (ih _ _)
    · exact ih _ _

theorem samePages_addLivek (slot c : Nat) (s : State) : SamePages s (addLivek slot c s) := by unfold addLivek; split <;> exact ⟨rfl, rfl⟩

theorem samePages_sendSrt (slot : Nat) (s : State) : SamePages s (sendSrt slot s) := by unfold sendSrt; split <;> exact ⟨rfl, rfl⟩

theorem samePages_fpOnDelta (v w : Nat) (s : State) : SamePages s (fpOnDelta v w s) := by
  unfold fpOnDelta
  split
  · dsimp only
    split <;> exact ⟨rfl, rfl⟩
  · exact ⟨rfl, rfl⟩

/-! ### A frame for a page, and its tuns -/

theorem leaveFrame_ta (id : Nat) (p : Page) (s : State) : (leaveFrame id p s).ta = s.ta := by
  unfold leaveFrame
  dsimp only
  split <;> rfl

theorem makeRoom_ta (s : State) : (makeRoom s).ta = s.ta := by
  unfold makeRoom evictFrame
  split
  · split
    · rw [leaveFrame_ta]
    · rfl
  · rfl

/-- The slot-reference page of a slot that has none is a new one (R241). -/
theorem srtPageFor_of_none {s : State} {slot : Nat} (h : srtPageId s slot = none) : srtPageFor slot s =
    let n := newPage 4 0 (slotPool slot) (bitsN slot 40 9) 0 s
    (n.1, { n.2 with me := { n.2.me with srtPage := kput n.2.me.srtPage (slot / 512) n.1 } }) := by
  rw [srtPageFor, h]

/-! ### A page that is no longer in its frame -/

/-- Page `k` is only on flash. -/
def OnFlash (k : Nat) (s : State) : Prop := ∃ p, pageOf s k = some p ∧ p.st = .flash

theorem OnFlash.of_pages {k : Nat} {s t : State} (h : OnFlash k s) (hp : t.me.pages = s.me.pages) : OnFlash k t := by
  unfold OnFlash pageOf at *
  rw [hp]
  exact h

theorem OnFlash.of_samePages {k : Nat} {s t : State} (h : OnFlash k s) (hs : SamePages s t) : OnFlash k t := h.of_pages (by rw [hs.1])

/-- A page that leaves its frame is only on flash where there is no DDR overflow area (R139). -/
theorem leaveFrame_onFlash {k : Nat} {p q : Page} {s : State} (hddr : ddrFrames s = 0) (hq : pageOf s k = some q) :
    OnFlash k (leaveFrame k p s) ∧ (leaveFrame k p s).me.nextPage = s.me.nextPage := by
  unfold leaveFrame
  dsimp only
  split
  · next h =>
    rw [Bool.and_eq_true, decide_eq_true_eq] at h
    exact absurd (hddr ▸ h.2) (Nat.not_lt_zero _)
  · exact ⟨⟨_, kget_kmod_self hq _, rfl⟩, rfl⟩

/-- A change of a page that brings none into a frame leaves the page on flash. -/
theorem OnFlash.modPage {k : Nat} {s : State} (h : OnFlash k s) (id : Nat) {f : Page → Page} (hf : ∀ p, p.st = .flash → (f p).st = .flash) :
    OnFlash k (modPage id f s) := by
  obtain ⟨p, hp, hst⟩ := h
  by_cases hk : k = id
  · subst hk
    exact ⟨f p, kget_kmod_self hp f, hf p hst⟩
  · exact ⟨p, (kget_kmod_ne _ hk f).trans hp, hst⟩

theorem OnFlash.markDirty {k : Nat} {s : State} (h : OnFlash k s) (id : Nat) (seq : Option RingSeq) : OnFlash k (markDirty id seq s) := by
  refine h.modPage id fun p hp => ?_
  cases seq with
  | none => simp [hp]
  | some q => cases hq : q.mirror <;> simp [hp, hq]

/-! ### A table of pages that lists a page twice -/

/-- A CLEAN page with a home copy: the clock may take its frame (R139). -/
def spare : Page := { ty := 3, level := 0, owner := 0, index := 0, epoch := 0, st := .clean, home := 1 }

/-- It is listed for page `k`, once for each frame of HBM. -/
def spares (k : Nat) : KMap Page := List.replicate hbmFrames (k, spare)

/-- A state without a DDR overflow area lists page `k` twice: among pages that are not CLEAN, and after them as `spares`. The keys of such a table do not
rise. -/
structure TwiceListed (k : Nat) (s : State) : Prop where
  noDdr : ddrFrames s = 0
  listed : ∃ p, pageOf s k = some p
  pages : ∃ l, s.me.pages = l ++ spares k ∧ ∀ e ∈ l, e.2.st ≠ .clean

theorem evictable_spare (s : State) : evictable s false spare = true := rfl

theorem evictable_of_not_clean {s : State} {ddr : Bool} {p : Page} (h : p.st ≠ .clean) : evictable s ddr p = false := by simp [evictable, h]

/-- No frame of HBM is FREE. -/
theorem TwiceListed.freeFrames {k : Nat} {s : State} (h : TwiceListed k s) : freeFrames s = 0 := by
  obtain ⟨l, hl, -⟩ := h.pages
  have hspares : ((spares k).filter fun kv => kv.2.framed && decide (kv.2.ddr = false)).length = hbmFrames := by
    rw [spares, List.filter_replicate_of_pos rfl, List.length_replicate]
  rw [Machine.freeFrames, usedFrames, List.length_map, hl, List.filter_append, List.length_append, hspares]
  omega

/-- The choice of the clock of HBM among the entries that it has passed and one more (R139). -/
def clockChoice (s : State) (b : Option (Nat × Page)) (kv : Nat × Page) : Option (Nat × Page) :=
  if !evictable s false kv.2 then b
  else match b with
    | some x => if handDist s.me.hand kv.2.frame < handDist s.me.hand x.2.frame then some kv else b
    | none => some kv

theorem clockVictim_eq_foldl (s : State) : clockVictim s false = s.me.pages.foldl (clockChoice s) none := rfl

theorem foldl_clockChoice_of_not_clean {s : State} {l : KMap Page} (h : ∀ e ∈ l, e.2.st ≠ .clean) : l.foldl (clockChoice s) none = none := by
  induction l with
  | nil => rfl
  | cons e l ih =>
    have he : clockChoice s none e = none := by simp [clockChoice, evictable_of_not_clean (h e List.mem_cons_self)]
    rw [List.foldl_cons, he, ih fun x hx => h x (List.mem_cons_of_mem _ hx)]

/-- Of equal entries the clock takes the first. -/
theorem foldl_clockChoice_spares (k n : Nat) (s : State) : (List.replicate n (k, spare)).foldl (clockChoice s) (some (k, spare)) = some (k, spare) := by
  induction n with
  | zero => rfl
  | succ n ih =>
    have hstays : clockChoice s (some (k, spare)) (k, spare) = some (k, spare) := by simp [clockChoice]
    rw [List.replicate_succ, List.foldl_cons, hstays, ih]

/-- The clock takes the frame of page `k`, by its later entry. -/
theorem TwiceListed.clockVictim {k : Nat} {s : State} (h : TwiceListed k s) : clockVictim s false = some (k, spare) := by
  obtain ⟨l, hl, hst⟩ := h.pages
  have hfirst : clockChoice s none (k, spare) = some (k, spare) := by simp [clockChoice, evictable_spare]
  rw [clockVictim_eq_foldl, hl, List.foldl_append, foldl_clockChoice_of_not_clean hst, spares, show hbmFrames = 0x27F_FFFF + 1 from rfl,
    List.replicate_succ, List.foldl_cons, hfirst, foldl_clockChoice_spares]

/-- A frame for another page is that of page `k`, which is then only on flash. -/
theorem TwiceListed.makeRoom {k : Nat} {s : State} (h : TwiceListed k s) : OnFlash k (makeRoom s) ∧ (makeRoom s).me.nextPage = s.me.nextPage := by
  obtain ⟨p, hp⟩ := h.listed
  rw [Machine.makeRoom, if_pos h.freeFrames, evictFrame, h.clockVictim]
  exact leaveFrame_onFlash (s := { s with me := { s.me with hand := spare.frame + 1 } }) h.noDdr hp

/-- A new page takes the frame of page `k`. -/
theorem TwiceListed.newPage {k : Nat} {s : State} (h : TwiceListed k s) (hk : k < s.me.nextPage) (ty level owner index epoch : Nat) :
    OnFlash k (newPage ty level owner index epoch s).2 := by
  obtain ⟨⟨p, hp, hst⟩, hnext⟩ := h.makeRoom
  exact ⟨p, (kget_kput_ne _ (by rw [hnext]; exact hk.ne) _).trans hp, hst⟩

/-- The first write of a slot reference entry takes the frame of page `k`, and leaves the tuns. -/
theorem TwiceListed.setSrtBy {k : Nat} {s : State} (h : TwiceListed k s) (hk : k < s.me.nextPage) {slot : Nat} (hpage : srtPageId s slot = none)
    (seq : Option RingSeq) (v : Nat) : OnFlash k (setSrtBy seq slot v s) ∧ (setSrtBy seq slot v s).ta = s.ta := by
  unfold Machine.setSrtBy
  rw [srtPageFor_of_none hpage]
  have hnew := h.newPage hk 4 0 (slotPool slot) (bitsN slot 40 9) 0
  have hta : (Machine.newPage 4 0 (slotPool slot) (bitsN slot 40 9) 0 s).2.ta = s.ta := makeRoom_ta s
  dsimp only
  generalize Machine.newPage 4 0 (slotPool slot) (bitsN slot 40 9) 0 s = n at hnew hta ⊢
  obtain ⟨id, t⟩ := n
  dsimp only at hnew hta ⊢
  generalize hu : ({ t with me := { t.me with srtPage := kput t.me.srtPage (slot / 512) id } } : State) = u
  have hflash : OnFlash k u := hnew.of_pages (by rw [← hu])
  have huta : u.ta = s.ta := by rw [← hu]; exact hta
  split
  · have htouch (line : Nat) : SamePages u (touchLine line true u) := samePages_touchLine line true u
    exact ⟨((hflash.of_samePages (htouch _)).of_pages rfl).markDirty id seq, (htouch _).2.trans huta⟩
  · exact ⟨(hflash.of_pages rfl).markDirty id seq, huta⟩

end Sys2Proof.Machine
end

section
/-! PROOFS. Three statements that fail: nothing in them says that the table of pages has rising keys, and where the page that they follow is listed twice,
the clock takes its frame although it is DIRTY or in flight (R139, R142). -/

namespace Sys2Proof.Machine

/-! ### A delta -/

/-- A DIRTY page of the path to block 0 of volume 0, above a child. -/
def pathPage (level child : Nat) : Page :=
  { ty := 2, level := level, owner := 0, index := 0, epoch := 0, ent := [(0, (pageWord 0, 0))], kid := [(0, child)], st := .dirty }

/-- The leaf of that path maps block 0 to slot 9. -/
def leafPage : Page := { ty := 1, level := 0, owner := 0, index := 0, epoch := 0, ent := [(0, (2 ^ 50 + 9, 0))], st := .dirty }

/-- The device with that volume alone: slot 9 has two references, and its slot-reference page does not exist yet. The leaf is listed twice. -/
def pathState : State :=
  { State.reset with me := {
      pages := (0, pathPage 3 1) :: (1, pathPage 2 2) :: (2, pathPage 1 3) :: (3, leafPage) :: spares 3
      nextPage := 4, root := [(0, 0)], srt := [(9, 2)] } }

theorem ownPath_pathState : OwnPath pathState 0 0 0 1 2 3 leafPage := by
  refine ⟨rfl, by decide, rfl, rfl, by decide, fun i q hi hq => ?_⟩
  simp only [List.mem_cons, List.not_mem_nil, or_false] at hi
  rcases hi with rfl | rfl | rfl | rfl <;> cases hq <;> exact ⟨rfl, rfl, Nat.zero_le _⟩

/-- The delta that unmaps block 0. -/
def unmap : Delta := ⟨0, 0, 0⟩

/-- The leaf once the delta has reached it. -/
def reachedLeaf : Page := { leafPage with ck := some 0, seen := some 0 }

/-- The state once the delta has reached its leaf. -/
def reachedState : State :=
  { pathState with me := { pathState.me with
      pages := (0, pathPage 3 1) :: (1, pathPage 2 2) :: (2, pathPage 1 3) :: (3, reachedLeaf) :: spares 3 } }

theorem leafForUpdate_pathState : leafForUpdate 0 0 (some ⟨false, 0⟩) pathState = (3, pathState) := rfl

theorem markDirty_pathState : markDirty 3 (some ⟨false, 0⟩) pathState = reachedState := rfl

theorem twiceListed_reachedState : TwiceListed 3 reachedState where
  noDdr := rfl
  listed := ⟨_, rfl⟩
  pages := ⟨[(0, pathPage 3 1), (1, pathPage 2 2), (2, pathPage 1 3), (3, reachedLeaf)], rfl, by decide⟩

/-- A slot with several references loses one: only its entry is written (R132). -/
theorem srtSubBy_of_shared {s : State} {slot : Nat} (hshared : 1 < srtCount (srt s slot)) (hsat : srtCount (srt s slot) ≠ 0xFF_FFFF) (seq : Option RingSeq) :
    srtSubBy seq slot s = setSrtBy seq slot (withCount (srt s slot) (srtCount (srt s slot) - 1)) s := by
  have hone : decide (srtCount (srt s slot) = 1) = false := decide_eq_false hshared.ne'
  simp only [srtSubBy, hsat, false_or, if_neg (Nat.ne_of_gt (Nat.lt_of_succ_lt hshared)), hone, Bool.false_and, Bool.false_eq_true, if_false]

/-- A word that a delta replaces takes a reference from its slot, whose slot-reference page does not exist yet (R135, R292). -/
theorem wordSubNew_of_valid {s : State} {w : Nat} (hres : resolve s w = w) (hvalid : swValid w = true) (hlost : w ≠ lostSlotWord)
    (hpage : srtPageId s (swSlot w) = none) (seq : RingSeq) : wordSubNew seq [] w s = srtSubBy (some seq) (swSlot w) s := by
  simp [wordSubNew, wordSubBy, srtIn, hres, hpage, hvalid, hlost]

/-- A delta that unmaps its block brings no page into a frame once it has taken the reference of the old slot away. -/
theorem applyDelta_onFlash {k v l : Nat} {seq : RingSeq} {d : Delta} {p : Page} {s u : State} (hword : resolve s d.word = 0)
    (hleaf : leafForUpdate v d.lba (some seq) s = (l, u)) (hp : pageOf (markDirty l (some seq) u) l = some p)
    (h : OnFlash k (wordSubNew seq [] (p.entry (d.lba % 256)).1 (markDirty l (some seq) u))) : OnFlash k (applyDelta v seq [] d s) := by
  unfold applyDelta
  simp only [hword, hleaf, hp, List.contains_nil, Bool.false_eq_true, if_false, show swValid 0 = false from rfl, Bool.false_and]
  generalize wordSubNew seq [] (p.entry (d.lba % 256)).1 (markDirty l (some seq) u) = t at h ⊢
  refine OnFlash.of_samePages (s := wrN (volAddr v + 40) 8 _ _) ?_ ((sameButLog_pmc 0x0D03 0 1 _).samePages.trans (samePages_touchPath _ d.lba true _))
  refine OnFlash.of_pages (s := fpOnDelta v 0 (modPage l _ t)) (.of_samePages (h.modPage l ?_) (samePages_fpOnDelta v 0 _)) rfl
  exact fun _ hst => hst

/-- Refutes O24: the leaf of `pathState` is listed twice. The delta makes its first entry DIRTY, and then needs a frame for the slot-reference page of the slot
that it unmaps; the clock takes that of the second entry, and the leaf is only on flash. -/
theorem not_deltaChangesTheLeaf : ¬ Obligations.DeltaChangesTheLeaf := by
  intro h
  obtain ⟨q, hq, hchanged, -⟩ := h 0 ⟨false, 0⟩ unmap 0 1 2 3 leafPage pathState ownPath_pathState
  have hsub : OnFlash 3 (wordSubNew ⟨false, 0⟩ [] (reachedLeaf.entry (unmap.lba % 256)).1 reachedState) := by
    rw [show (reachedLeaf.entry (unmap.lba % 256)).1 = 2 ^ 50 + 9 from rfl, wordSubNew_of_valid rfl (by decide) (by decide) rfl,
      srtSubBy_of_shared (by decide) (by decide)]
    exact (twiceListed_reachedState.setSrtBy (by decide) rfl _ _).1
  rw [← markDirty_pathState] at hsub
  obtain ⟨r, hr, hflash⟩ := applyDelta_onFlash (d := unmap) rfl leafForUpdate_pathState (p := reachedLeaf) rfl hsub
  obtain rfl : q = r := Option.some.inj (hq.symm.trans hr)
  rw [Page.changed, hflash] at hchanged
  exact Bool.false_ne_true hchanged

/-! ### A write-back -/

/-- A change outside the pages and the registers keeps a page listed twice. -/
theorem TwiceListed.of_me {k : Nat} {s t : State} (h : TwiceListed k s) (hme : t.me = s.me) (hcsr : t.csr = s.csr) : TwiceListed k t where
  noDdr := by
    rw [ddrFrames, getF_of_csr hcsr]
    exact h.noDdr
  listed := by
    rw [pageOf, hme]
    exact h.listed
  pages := hme ▸ h.pages

/-- A tun with a free block stays open (R244). -/
theorem sealIfFull_of_room {i : Nat} {t : Tun} {s : State} (ht : kget s.ta.tuns i = some t) (hroom : t.next < t.k * 255) : sealIfFull i s = s := by
  rw [sealIfFull, ht]
  exact if_pos hroom

/-- The slot reference entry of a place that is handed out, in a slot-reference page that did not exist, takes the frame of page `k`. -/
theorem TwiceListed.countSlot {k i slot : Nat} {u : State} (h : TwiceListed k u) (hk : k < u.me.nextPage)
    (hroom : ∃ t, kget u.ta.tuns i = some t ∧ t.next < t.k * 255) (hpage : srtPageId u slot = none) (c entry : Nat) :
    OnFlash k (sealIfFull i (pmc 0x1201 c 1 (bump .TA_SLOT_CNT (sendSrt slot (addLivek slot c (setSrt slot entry u)))))) := by
  obtain ⟨t, ht, hroom⟩ := hroom
  obtain ⟨hflash, hta⟩ := h.setSrtBy hk hpage none entry
  rw [← setSrt] at hflash hta
  generalize setSrt slot entry u = w at hflash hta ⊢
  have hsent : SamePages w (sendSrt slot (addLivek slot c w)) := (samePages_addLivek slot c w).trans (samePages_sendSrt _ _)
  generalize sendSrt slot (addLivek slot c w) = x at hsent ⊢
  have hcounted : SamePages w (pmc 0x1201 c 1 (bump .TA_SLOT_CNT x)) :=
    hsent.trans (SamePages.trans (t := bump .TA_SLOT_CNT x) ⟨rfl, rfl⟩ (sameButLog_pmc _ _ _ _).samePages)
  have hopen : kget (pmc 0x1201 c 1 (bump .TA_SLOT_CNT x)).ta.tuns i = some t := by rw [hcounted.2, hta, ht]
  rw [sealIfFull_of_room hopen hroom]
  exact hflash.of_samePages hcounted

theorem TwiceListed.handOut {k i off : Nat} {t : Tun} {s : State} (h : TwiceListed k s) (hk : k < s.me.nextPage) (ht : kget s.ta.tuns i = some t)
    (hroom : t.next < t.k * 255) (hpage : srtPageId s (slotIdent t.pool t.seg off) = none) (ctag c entry : Nat) (isMeta sealed : Bool) :
    OnFlash k (handOut i off ctag c entry isMeta sealed s).2 := by
  rw [Machine.handOut, ht]
  dsimp only
  exact TwiceListed.countSlot (u := wrB _ _ (modTun i _ s)) (h.of_me rfl rfl) hk ⟨_, kget_kmod_self ht _, hroom⟩ hpage c entry

/-- What a write-back does after its place is handed out brings no page into a frame. -/
theorem startWriteback_onFlash {k id i off : Nat} {p : Page} {s u : State} (hp : pageOf s id = some p)
    (hplace : findPlace (pagePool s p) 1 3 s = some (i, off, u))
    (h : OnFlash k (handOut i off 0 3 (1 + 3 * 2 ^ 40 + 2 ^ 42 + 2 ^ 45) true false
      (modPage id (fun p => { p with st := .writing false, cent := p.ent, ckid := p.kid }) u)).2) : OnFlash k (startWriteback id s) := by
  unfold startWriteback
  simp only [hp, hplace]
  generalize handOut i off 0 3 (1 + 3 * 2 ^ 40 + 2 ^ 42 + 2 ^ 45) true false _ = x at h ⊢
  exact OnFlash.modPage (s := wrB _ _ (wrB _ _ (modTun i _ x.2))) (h.of_pages rfl) id fun _ hst => hst

/-- A WBVOL job of volume 0. -/
def wbJob : Job := { owner := .stew 0, tk := 0, cls := 0x0A, desc := 0x090A, phase := .accepted, predCode := none, inst := 0 }

/-- An open META tun of pool 0. -/
def metaTun : Tun := { pool := 0, kind := 1, seg := 0, frame := 0, k := 1 }

/-- The device with that job and that tun, which owns group 0. Volume 0 has one page; it is DIRTY and listed twice. -/
def wbState : State :=
  { State.reset with
    csr := [((RegName.SYS_GRP).addr 0 0, 0)]
    jobs := [(0, wbJob)]
    me := { pages := (0, leafPage) :: spares 0, nextPage := 1 }
    ta := { tuns := [(0, metaTun)] } }

/-- The tun takes the page at its start. -/
theorem findPlace_wbState :
    findPlace (pagePool wbState leafPage) 1 3 wbState = some (0, 0, modTun 0 (fun _ => { metaTun with next := 1 }) wbState) := rfl

theorem rewritePage_wbState : rewritePage 0 wbState = wbState := rfl

/-- The copy of the page gets its place, whose slot-reference page takes the page's frame. -/
theorem rewriteBack_wbState : OnFlash 0 (rewriteBack 0 wbState) := by
  rw [rewriteBack, rewritePage_wbState]
  refine startWriteback_onFlash rfl findPlace_wbState ?_
  have hlisted : TwiceListed 0 (modPage 0 (fun p => { p with st := .writing false, cent := p.ent, ckid := p.kid })
      (modTun 0 (fun _ => { metaTun with next := 1 }) wbState)) :=
    ⟨rfl, ⟨_, rfl⟩, [(0, { leafPage with st := .writing false, cent := leafPage.ent })], rfl, by decide⟩
  exact hlisted.handOut (by decide) (t := { metaTun with next := 1 }) rfl (by decide) rfl _ _ _ _ _

theorem volPages_wbState : volPages wbState 0 = [(0, leafPage)] := by
  rw [volPages, show wbState.me.pages = (0, leafPage) :: spares 0 from rfl, List.filter_cons_of_pos (by decide), spares,
    List.filter_replicate_of_neg (by decide)]

theorem accepted_wbState : accepted wbState 0 cMap 9 = some wbJob := by decide +kernel

theorem mapVol_wbState : mapVol wbState wbJob = 0 := by decide +kernel

theorem ownsVol_wbState : ownsVol wbState 0 = true := by decide +kernel

theorem pageMine_wbState : pageMine wbState leafPage = true := by decide +kernel

theorem mapRuns_wbState : MapRuns wbState 0 9 wbJob [] := ⟨accepted_wbState, by rw [mapVol_wbState, ownsVol_wbState], rfl⟩

theorem notSrtPage_wbState : NotSrtPage wbState 0 := ⟨by decide, nofun⟩

/-- A map job that may run does (R141, R153). -/
theorem runMap_of_runs {id op : Nat} {j : Job} {s : State} {pages : Job → Nat → State → List Nat} (h : MapRuns s id op j (pages j (mapVol s j) s))
    (f : Job → Nat → State → State) : runMap id op pages f s = markStarted id (f j (mapVol s j) s) := by
  obtain ⟨hjob, howns, hpages⟩ := h
  have hjob' : accepted s id cMap op = some j := hjob
  simp only [runMap, runJob, hjob', howns, Bool.not_true, Bool.false_eq_true, if_false, withPages, hpages]

theorem markStarted_me (id : Nat) (s : State) : (markStarted id s).me = s.me := by
  unfold markStarted
  split
  · split <;> rfl
  · rfl

/-- WBVOL writes the one page of its volume back where it is DIRTY, and goes on (R152). -/
theorem exec_wbvol_dirty {id k : Nat} {j : Job} {p : Page} {s : State} (h : MapRuns s id 9 j []) (hpages : volPages s (mapVol s j) = [(k, p)])
    (hst : p.st = .dirty) : ∃ t, exec (.wbvol id) s = .next t ∧ t.me.pages = (rewriteBack k s).me.pages := by
  have hbusy : [(k, p)].filter (fun kv => kv.2.changed) = [(k, p)] := List.filter_cons_of_pos (by rw [Page.changed, hst])
  have hdirty : [(k, p)].filter (fun kv => decide (kv.2.st = .dirty)) = [(k, p)] := List.filter_cons_of_pos (decide_eq_true hst)
  refine ⟨_, rfl, ?_⟩
  simp only [runMap_of_runs (pages := fun _ _ _ => []) h, markStarted_me, hpages, hbusy, hdirty, List.cons_ne_self, if_false,
    List.foldl_cons, List.foldl_nil]

/-- The write-back of a DIRTY page without a pending CKSEQ may start (R140). -/
theorem exec_writebackStart_of_free {k : Nat} {p : Page} {s : State} (hp : pageOf s k = some p) (hst : p.st = .dirty) (hmine : pageMine s p = true)
    (hck : p.ck = none) (hpck : p.pck = none) : exec (.writebackStart k) s = .next (rewriteBack k s) := by
  show execWritebackStart k s = _
  simp only [execWritebackStart, hp]
  exact congrArg ok (if_pos ⟨hst, hmine, .inr (.inl ⟨hck, hpck⟩)⟩)

/-- A page on flash is not in flight. -/
theorem OnFlash.not_writing {k : Nat} {s : State} (h : OnFlash k s) {q : Page} (hq : pageOf s k = some q) {again : Bool}
    (hst : q.st = .writing again) : False := by
  obtain ⟨p, hp, hflash⟩ := h
  obtain rfl : q = p := Option.some.inj (hq.symm.trans hp)
  exact PageSt.noConfusion (hst.symm.trans hflash)

theorem findPlace_isSome_wbState : (findPlace (pagePool wbState leafPage) 1 3 wbState).isSome = true := by rw [findPlace_wbState]; rfl

/-- Refutes O23: the page of `wbState` is listed twice. WBVOL takes a copy of its first entry, and needs a frame for the slot-reference page of the copy's
place; the clock takes that of the second entry, and the page is only on flash. -/
theorem not_mapJobResults : ¬ Obligations.MapJobResults := by
  rintro ⟨-, -, -, h⟩
  have hpages : volPages wbState (mapVol wbState wbJob) = [(0, leafPage)] := by rw [mapVol_wbState, volPages_wbState]
  obtain ⟨-, -, hdirty⟩ := h 0 wbJob wbState
  obtain ⟨t, -, ht, -, -, hwrites, -⟩ := hdirty 0 leafPage mapRuns_wbState hpages rfl rfl rfl notSrtPage_wbState
  obtain ⟨q, hq, hst, -⟩ := hwrites findPlace_isSome_wbState
  obtain ⟨u, hrun, hwritten⟩ := exec_wbvol_dirty mapRuns_wbState hpages rfl
  rw [Host.Outcome.next.inj (ht.symm.trans hrun)] at hq
  exact (rewriteBack_wbState.of_pages hwritten).not_writing hq hst

/-- Refutes O25: WRITEBACK_START of the page of `wbState` takes a copy of its first entry, and loses its frame in the same way. -/
theorem not_pagingAndMetadataCache : ¬ Obligations.PagingAndMetadataCache := by
  rintro ⟨h, -⟩
  obtain ⟨-, -, -, hstart, -⟩ := h 0 leafPage [] wbState rfl rfl rfl
  obtain ⟨t, ht, hwrites, -⟩ := hstart rfl pageMine_wbState rfl rfl notSrtPage_wbState
  obtain ⟨q, hq, hst, -⟩ := hwrites findPlace_isSome_wbState
  have hrun := exec_writebackStart_of_free (s := wbState) (k := 0) rfl rfl pageMine_wbState rfl rfl
  rw [Host.Outcome.next.inj (ht.symm.trans hrun)] at hq
  exact rewriteBack_wbState.not_writing hq hst

end Sys2Proof.Machine
end

section
/-! PROOFS. An index page finds what was added to it (R174). -/

namespace Sys2Proof.Machine

/-! ### The run of a search -/

section
variable {ent : KMap (Nat × Nat)}

/-- Every place of a run holds a VALID entry. -/
theorem valid_of_mem_ixRun {a start n : Nat} (h : a ∈ ixRun ent start n) : ixValid (kgetD ent a (0, 0)).2 = true := by
  induction n generalizing start with
  | zero => simp [ixRun] at h
  | succ n ih =>
    unfold ixRun at h
    split at h
    · next hvalid =>
      rcases List.mem_cons.mp h with rfl | h
      · exact hvalid
      · exact ih h
    · cases h

theorem length_ixRun_le (start n : Nat) : (ixRun ent start n).length ≤ n := by
  induction n generalizing start with
  | zero => rfl
  | succ n ih =>
    unfold ixRun
    split
    · exact Nat.succ_le_succ (ih _)
    · exact Nat.zero_le _

/-- A run that is not full ends before an entry that is not VALID. -/
theorem not_valid_after_ixRun {start n : Nat} (h : (ixRun ent start n).length < n) :
    ixValid (kgetD ent ((start + (ixRun ent start n).length) % 128) (0, 0)).2 = false := by
  induction n generalizing start with
  | zero => cases h
  | succ n ih =>
    unfold ixRun at h ⊢
    split
    · next hvalid =>
      rw [if_pos hvalid] at h
      rw [List.length_cons, Nat.add_comm _ 1, ← Nat.add_assoc]
      exact ih (Nat.lt_of_succ_lt_succ h)
    · next hvalid => exact Bool.eq_false_iff.mpr hvalid

/-- A VALID entry that is put where a run ends makes the run go on through its place. -/
theorem ixRun_kput_end {start n e : Nat} {x : Nat × Nat} (hx : ixValid x.2 = true) (h : (ixRun ent start n).length < n)
    (he : e = (start + (ixRun ent start n).length) % 128) : ∃ l, ixRun (kput ent e x) start n = ixRun ent start n ++ e :: l := by
  have hfree : ixValid (kgetD ent e (0, 0)).2 = false := he ▸ not_valid_after_ixRun h
  induction n generalizing start with
  | zero => cases h
  | succ n ih =>
    unfold ixRun at h he ⊢
    by_cases hvalid : ixValid (kgetD ent (start % 128) (0, 0)).2 = true
    · have hne : start % 128 ≠ e := fun heq => Bool.noConfusion ((heq ▸ hvalid).symm.trans hfree)
      rw [if_pos hvalid, List.length_cons] at h he
      obtain ⟨l, hl⟩ := ih (start := start + 1) (Nat.lt_of_succ_lt_succ h) (by rw [he]; congr 1; omega)
      exact ⟨l, by rw [kgetD_kput_ne _ hne, if_pos hvalid, if_pos hvalid, hl, List.cons_append]⟩
    · rw [if_neg hvalid] at he
      have hplace : start % 128 = e := he.symm
      exact ⟨ixRun (kput ent e x) (start + 1) n, by rw [if_neg hvalid, hplace, kgetD_kput_self, if_pos hx, List.nil_append]⟩

end

/-- Settles O36: the new entry stands where the run from its START ended, and no entry of that run matches. -/
theorem indexPagesFindWhatWasAdded : Obligations.IndexPagesFindWhatWasAdded := by
  intro ent m x hx hnone hadd
  simp only [ixAdd, Option.ite_none_left_eq_some, Option.some.injEq] at hadd
  obtain ⟨hfull, rfl⟩ := hadd
  have hroom : (ixRun ent (fprStart x.1) 128).length < 128 := Nat.lt_of_le_of_ne (length_ixRun_le _ _) hfull
  have hfree := not_valid_after_ixRun hroom
  obtain ⟨l, hl⟩ := ixRun_kput_end hx hroom rfl
  have hlt : (fprStart x.1 + (ixRun ent (fprStart x.1) 128).length) % 128 < 128 := Nat.mod_lt _ (by decide)
  generalize (fprStart x.1 + (ixRun ent (fprStart x.1) 128).length) % 128 = e at *
  refine ⟨e, hlt, ?_, kgetD_kput_self _ _ _ _, fun i h => kgetD_kput_ne _ h _ _⟩
  rw [ixFind, hl, List.find?_append, List.find?_cons_of_pos (by rw [kgetD_kput_self, decide_eq_true_eq]), Option.or_eq_some_iff]
  refine .inr ⟨List.find?_eq_none.mpr fun a ha => ?_, rfl⟩
  have hne : a ≠ e := fun heq => Bool.noConfusion ((heq ▸ valid_of_mem_ixRun ha).symm.trans hfree)
  rw [kgetD_kput_ne _ hne]
  exact List.find?_eq_none.mp hnone a ha

end Sys2Proof.Machine
end

section
/-! SUPPORT. What a record of the device's own leaves of the state, and where it is written (R251, R257, R263). -/

namespace Sys2Proof.Machine

/-- Two states that agree outside what a record of the journal changes: memory, the registers, the log, the tuns, the relocations, the counter of the partner
link, what is sent and the free values. -/
def SameButJournal (s t : State) : Prop := t = { s with
  mem := t.mem, csr := t.csr, cel := t.cel, ta := t.ta, plc := t.plc, xe := t.xe, out := t.out, free := t.free }

theorem SameButJournal.trans {s t u : State} (h : SameButJournal s t) (k : SameButJournal t u) : SameButJournal s u := by
  unfold SameButJournal at *
  rw [k, h]

theorem SameButLog.journal {s t : State} (h : SameButLog s t) : SameButJournal s t := by
  unfold SameButJournal
  rw [h]

/-- A field that a record does not change. -/
theorem SameButJournal.field_eq {s t : State} (h : SameButJournal s t) {α : Type} (f : State → α)
    (hf : ∀ m c l a p x o n, f { s with mem := m, csr := c, cel := l, ta := a, plc := p, xe := x, out := o, free := n } = f s) : f t = f s := by
  rw [h]
  exact hf _ _ _ _ _ _ _ _

theorem sameButJournal_noteSeq (r : JRec) (s : State) : SameButJournal s (noteSeq r s) := by
  unfold noteSeq
  generalize r.acts = l
  induction l generalizing s with
  | nil => rfl
  | cons a l ih =>
    refine SameButJournal.trans ?_ (ih _)
    dsimp only
    split <;> rfl

theorem sameButJournal_putCopies (base : Nat) (l : List (Nat × Nat × List Byte)) (s : State) : SameButJournal s (putCopies base l s) := by
  unfold putCopies
  induction l generalizing s with
  | nil => rfl
  | cons c l ih => exact SameButJournal.trans (t := wrB _ _ s) rfl (ih _)

/-- A record goes to the partner or to the vault, and memory stays. -/
theorem sameButJournal_sendRecord (r : JRec) (s : State) : SameButJournal s (sendRecord r s) ∧ (sendRecord r s).mem = s.mem := by
  unfold sendRecord
  dsimp only
  split
  · exact ⟨rfl, rfl⟩
  · split <;> exact ⟨rfl, rfl⟩

theorem sameButJournal_putRecord (r : JRec) (s : State) : SameButJournal s (putRecord r s) := by
  unfold putRecord
  dsimp only
  refine SameButJournal.trans ?_ (sameButJournal_sendRecord _ _).1
  refine SameButJournal.trans ?_ (sameButLog_pmc _ _ _ _).journal
  refine SameButJournal.trans (t := noteSeq _ (putCopies ownRing r.copies (wrB _ _ s))) ?_ rfl
  exact (SameButJournal.trans (t := wrB _ _ s) rfl (sameButJournal_putCopies _ _ _)).trans (sameButJournal_noteSeq _ _)

theorem sameButJournal_appendOwn (r : JRec) (s : State) : SameButJournal s (appendOwn r s) := by
  unfold appendOwn
  split
  · next t ht =>
    split at ht
    · unfold appendRecord at ht
      dsimp only at ht
      split at ht
      · cases ht
      · cases ht
        refine SameButJournal.trans ?_ (sameButJournal_putRecord _ _)
        split
        · rfl
        · exact sameButJournal_putRecord _ _
    · cases ht
  · rfl

/-- A record of changes of ROOT (R251). -/
theorem sameButJournal_journalRoot (acts : List Act) (s : State) : SameButJournal s (journalRoot acts s) := by
  unfold journalRoot
  exact SameButJournal.trans (t := { s with free := s.free + 3 * acts.length }) rfl (sameButJournal_appendOwn _ _)

/-- The record of a changed domain (R172). -/
theorem sameButJournal_setDomain (d : Nat) (x : Domain) (s : State) : SameButJournal (setDom d x s) (setDomain d x s) := sameButJournal_journalRoot _ _

theorem noteSeq_mem (r : JRec) (s : State) : (noteSeq r s).mem = s.mem := by
  unfold noteSeq
  generalize r.acts = l
  induction l generalizing s with
  | nil => rfl
  | cons a l ih =>
    rw [List.foldl_cons, ih]
    split <;> rfl

/-- The bytes of a record without slot copies are what it writes to memory. -/
theorem putRecord_mem {r : JRec} (hcopies : r.copies = []) (s : State) : (putRecord r s).mem =
    mwrite s.mem (ownRing + s.ta.woff) (recordBytes { r with seq := nextSeq s, off := s.ta.woff, flags := b2n (soloMode s) } s.dtime.toNat) := by
  simp only [putRecord, (sameButJournal_sendRecord _ _).2, (sameButLog_pmc _ _ _ _).mem, setF_mem, noteSeq_mem, hcopies, putCopies, List.foldl_nil, wrB_mem]

/-- The device's own record is written at once where no other waits and the ring has room without a PAD (R257). -/
theorem appendOwn_of_room {r : JRec} {s : State} (hwait : s.ta.waiting = []) (hpad : padFor s r.len = 0) (hroom : ringTakes s r.len = true) :
    appendOwn r s = putRecord r s := by
  simp [appendOwn, hwait, appendRecord, hpad, hroom]

/-- A record begins with its mark (R251). -/
theorem recordBytes_mark (r : JRec) (dtime : Nat) : (recordBytes r dtime).take 4 = leBytes 4 0x4B53_4143 := rfl

end Sys2Proof.Machine
end

section
/-! PROOFS. A statement that fails: an INSERT adopts the key pair of the volume before it reads the fingerprint, and the record of that may be written over
it (R159, R172, R178). -/

namespace Sys2Proof.Machine

/-! ### FPX jobs -/

/-- A page in an HBM frame stays there (R139). -/
theorem bringIn_of_resident {id : Nat} {p : Page} {s : State} (hp : pageOf s id = some p) (hres : p.resident = true) (hddr : p.ddr = false) :
    bringIn id s = s := by
  unfold bringIn
  rw [hp]
  dsimp only
  split
  · next hst => simp [Page.resident, hst] at hres
  · next hst => simp [Page.resident, hst] at hres
  · simp [hddr]
  · rfl
  · rfl
  · rfl

/-- An FPX operation of an owned domain whose pages are resident finishes its job (R153, R181). -/
theorem runFpx_finish {id op : Nat} {j : Job} {s t : State} {r : JobResult} {pages : Job → Nat → State → List Nat} {f : Job → Nat → State → State}
    (h : accepted s id 0x03 op = some j) (howns : owns s (domGroup (fxDom s j)) = true) (hpages : firstAbsent s (pages j (fxDom s j) s) = none)
    (hf : f j (fxDom s j) s = finish id r t) (ht : t.jobs = s.jobs) :
    runFpx id op pages f s = { t with jobs := kput s.jobs id { j with phase := .done r } } :=
  runJob_finish h (by simp only [howns, Bool.not_true, Bool.false_eq_true, if_false, withPages, hpages, hf]) ht

/-- An insertion of a fingerprint that its page already holds does not take place (R178). -/
theorem ixInsert_of_match {d id e word : Nat} {f : List Byte} {p : Page} {s : State} (hid : ixPageId s d (pageNo (domOf s d) (fpH f)) = some id)
    (hp : pageOf s id = some p) (hres : p.resident = true) (hddr : p.ddr = false) (he : ixFind p.ent (fxNum f) = some e) :
    ixInsert d f word s = (false, bump .GL_DUPINS_CNT s) := by
  have hent : entOf s id = p.ent := by rw [entOf, hp]
  simp only [ixInsert, ixPageFor, hid, bringIn_of_resident hp hres hddr, hent, he]

/-- A domain without a key pair adopts that of the volume (R159). -/
theorem adoptKeys_of_unset {d v : Nat} {s : State} (h : (domOf s d).keyset = false) : adoptKeys d v s =
    setDomain d { domOf s d with keyset := true, keyslot := volKeyslot s v, keyepoch := volKeyEpoch s v } s := by
  simp [adoptKeys, h]

theorem sameButJournal_adoptKeys {d v : Nat} {s : State} (h : (domOf s d).keyset = false) :
    SameButJournal (setDom d { domOf s d with keyset := true, keyslot := volKeyslot s v, keyepoch := volKeyEpoch s v } s) (adoptKeys d v s) :=
  adoptKeys_of_unset h ▸ sameButJournal_setDomain _ _ _

/-! ### A fingerprint in the ring of the journal -/

/-- An INSERT of slot 9 of volume 0. The last four bytes of its fingerprint are the first of the ring. -/
def ringJob : Job :=
  { owner := .stew 0, tk := 0, cls := 0x03, desc := 0x0203 + 0x57_FFFF_FFE4 * 2 ^ 64 + (2 ^ 50 + 9) * 2 ^ 128, phase := .accepted, predCode := none, inst := 0 }

/-- An index page that holds the fingerprint which is zero but for its last four bytes, and in these the mark of a record. -/
def markPage : Page :=
  { ty := 3, level := 0, owner := 0, index := 0, epoch := 0, st := .dirty, ent := [(0, (0x4B53_4143 * 2 ^ 176, 2 ^ 47 + 8))] }

/-- The device with that job and that page, which owns group 0. The domain of volume 0 has no key pair yet, the journal is empty, and memory is zero. -/
def ringState : State :=
  { State.reset with
    csr := [((RegName.SYS_GRP).addr 0 0, 0)], jobs := [(0, ringJob)], me := { pages := [(0, markPage)], nextPage := 1 }, gl := { ixPage := [(0, 0)] } }

theorem accepted_ringState : accepted ringState 0 0x03 2 = some ringJob := by decide +kernel

theorem fxDom_ringState : fxDom ringState ringJob = 0 := by decide +kernel

theorem owns_ringState : owns ringState (domGroup (fxDom ringState ringJob)) = true := by decide +kernel

theorem jobFp_ringState : jobFp ringState ringJob = zeros 32 := by decide +kernel

/-- The record of the adoption is at the start of the ring. -/
theorem mem_adopted : ∃ l, l.take 4 = leBytes 4 0x4B53_4143 ∧ (adoptKeys 0 0 ringState).mem = mwrite [] 0x58_0000_0000 l := by
  rw [adoptKeys_of_unset (by decide +kernel)]
  unfold setDomain journalRoot
  dsimp only
  rw [appendOwn_of_room rfl (by decide +kernel) (by decide +kernel), putRecord_mem rfl]
  exact ⟨_, recordBytes_mark _ _, rfl⟩

/-- What the INSERT reads as its fingerprint once the record is written. -/
theorem jobFp_adopted : jobFp (adoptKeys 0 0 ringState) ringJob = zeros 28 ++ leBytes 4 0x4B53_4143 := by
  obtain ⟨l, hl, hmem⟩ := mem_adopted
  have hlen : 4 ≤ l.length := by
    have h := congrArg List.length hl
    rw [List.length_take, leBytes_length] at h
    omega
  have hread (m : List Host.Cell) : mread m 0x57_FFFF_FFE4 32 = mread m 0x57_FFFF_FFE4 28 ++ mread m 0x58_0000_0000 4 := rfl
  have hmark : mread (mwrite [] 0x58_0000_0000 l) 0x58_0000_0000 4 = l.take 4 := mread_mwrite_part rfl 0x58_0000_0000 l (i := 0) hlen
  rw [jobFp, show ringJob.n 8 8 = 0x57_FFFF_FFE4 by decide +kernel, rdB, hmem, hread, mread_mwrite_of_out _ _ _ (.inl (by decide)), hmark, hl]
  rfl

/-- So the INSERT finds the entry of the page, and adds none. -/
theorem ixInsert_adopted (word : Nat) : ixInsert 0 (jobFp (adoptKeys 0 0 ringState) ringJob) word (adoptKeys 0 0 ringState) =
    (false, bump .GL_DUPINS_CNT (adoptKeys 0 0 ringState)) := by
  have hsame := sameButJournal_adoptKeys (d := 0) (v := 0) (s := ringState) (by decide +kernel)
  have hpage : pageOf (adoptKeys 0 0 ringState) 0 = some markPage := hsame.field_eq (pageOf · 0) fun _ _ _ _ _ _ _ _ => rfl
  have hgl := hsame.field_eq State.gl fun _ _ _ _ _ _ _ _ => rfl
  have hid : ixPageId (adoptKeys 0 0 ringState) 0 (pageNo (domOf (adoptKeys 0 0 ringState) 0) (fpH (zeros 28 ++ leBytes 4 0x4B53_4143))) = some 0 := by
    rw [ixPageId, domOf, hgl]
    decide +kernel
  rw [jobFp_adopted]
  exact ixInsert_of_match hid hpage rfl rfl (e := 0) (by decide +kernel)

theorem exec_fpxInsert_ringState : ∃ t, exec (.fpxInsert 0) ringState = .next t ∧ JobDone t 0 ⟨0, 0, 1, 0⟩ := by
  have hjobs := (sameButJournal_adoptKeys (d := 0) (v := 0) (s := ringState) (by decide +kernel)).field_eq State.jobs fun _ _ _ _ _ _ _ _ => rfl
  have hvol : fxVol ringState ringJob = 0 := by decide +kernel
  refine ⟨_, congrArg ok (runFpx_finish (t := bump .GL_DUPINS_CNT (adoptKeys 0 0 ringState)) (r := ⟨0, 0, 1, 0⟩)
    accepted_ringState owns_ringState (by decide +kernel) ?_ hjobs), _, kget_kput_self _ _ _, rfl⟩
  simp only [fxDom_ringState, hvol, ixInsert_adopted, b2n, JobResult.done, Bool.false_eq_true, if_false]

/-- Refutes O37: in `ringState` the record of the domain's new key pair is written over the last bytes of the fingerprint before INSERT reads it. What INSERT
reads stands in the page, so it adds no entry, although the fingerprint that the job was given does not. -/
theorem not_indexResults : ¬ Obligations.IndexResults := by
  rintro ⟨h, -⟩
  obtain ⟨-, -, hpage⟩ := h 0 none ringJob ringState (by decide +kernel)
  obtain ⟨hinsert, -⟩ := hpage 0 markPage (by decide +kernel) rfl rfl rfl
  obtain ⟨t, ht, ⟨j, hj, hdone⟩, -⟩ := hinsert accepted_ringState (by decide +kernel) (by decide +kernel)
  obtain ⟨u, hu, k, hk, hnone⟩ := exec_fpxInsert_ringState
  rw [Host.Outcome.next.inj (ht.symm.trans hu), hk] at hj
  cases hj
  exact absurd (hdone.symm.trans hnone) (by decide)

end Sys2Proof.Machine
end

section
/-! SUPPORT and PROOFS. Fingerprints (R160, R162, R163). -/

namespace Sys2Proof.Machine

/-! ### SHA-512/256 gives 32 bytes -/

theorem shaRound_length (v : List Word) (kw : Word × Word) : (shaRound v kw).length = v.length := by
  unfold shaRound
  split <;> rfl

theorem shaBlock_length (h : List Word) (m : List Byte) : (shaBlock h m).length = h.length := by
  have rounds (l : List (Word × Word)) (v : List Word) : (l.foldl shaRound v).length = v.length := by
    induction l generalizing v with
    | nil => rfl
    | cons kw l ih => rw [List.foldl_cons, ih, shaRound_length]
  simp [shaBlock, rounds]

theorem sha512From_length (h : List Word) (m : List Byte) : (sha512From h m).length = 8 * h.length := by
  have blocks (l : List Nat) (p : List Byte) (h : List Word) :
      (l.foldl (fun h i => shaBlock h ((p.drop (128 * i)).take 128)) h).length = h.length := by
    induction l generalizing h with
    | nil => rfl
    | cons i l ih => rw [List.foldl_cons, ih, shaBlock_length]
  simp [sha512From, List.length_flatMap, beBytes, blocks, mul_comm h.length]

@[simp] theorem sha512t256_length (m : List Byte) : (sha512t256 m).length = 32 := by
  rw [sha512t256, List.length_take, sha512From_length, sha512t256H, List.length_map, List.length_range]
  rfl

/-! ### Lists of blocks, and numbers by their bits -/

section
variable {α : Type} {f : Nat → List α} {k : Nat} (hf : ∀ i, (f i).length = k)
include hf

theorem length_flatMap_range (n : Nat) : ((List.range n).flatMap f).length = k * n := by
  simp [List.length_flatMap, hf, Nat.mul_comm]

/-- Block `i` of a list of blocks of one length. -/
theorem block_flatMap_range {n i : Nat} (hi : i < n) : (((List.range n).flatMap f).drop (k * i)).take k = f i := by
  induction n with
  | zero => cases hi
  | succ n ih =>
    have hlen := length_flatMap_range hf n
    rw [List.range_succ, List.flatMap_append, List.flatMap_singleton]
    rcases Nat.lt_succ_iff_lt_or_eq.mp hi with hlt | rfl
    · have hroom : k * i + k ≤ k * n := by rw [← Nat.mul_succ]; exact Nat.mul_le_mul_left k hlt
      rw [List.drop_append_of_le_length (by omega), List.take_append_of_le_length (by rw [List.length_drop]; omega), ih hlt]
    · rw [List.drop_append, hlen, Nat.sub_self, List.drop_of_length_le (Nat.le_of_eq hlen), List.nil_append, List.drop_zero, List.take_of_length_le (Nat.le_of_eq (hf i))]

end

/-- The number whose bits below `n` are given. -/
theorem sum_pow_of_bits (p : Nat → Bool) (n : Nat) : let x := ((List.range n).map fun i => if p i then 2 ^ i else 0).sum
    x < 2 ^ n ∧ ∀ i, x.testBit i = (decide (i < n) && p i) := by
  induction n with
  | zero => simp
  | succ n ih =>
    obtain ⟨hlt, hbits⟩ := ih
    simp only [List.range_succ, List.map_append, List.map_singleton, List.sum_append, List.sum_singleton] at hlt hbits ⊢
    generalize ((List.range n).map fun i => if p i then 2 ^ i else 0).sum = x at hlt hbits ⊢
    have hor : x + (if p n then 2 ^ n else 0) = (if p n then 2 ^ n else 0) ||| x := by
      split
      · rw [Nat.add_comm, ← Nat.mul_one (2 ^ n), Nat.two_pow_add_eq_or_of_lt hlt]
      · simp
    refine ⟨by rw [Nat.pow_succ]; split <;> omega, fun i => ?_⟩
    have hnew : (if p n then 2 ^ n else 0).testBit i = (decide (n = i) && p n) := by cases p n <;> simp [Nat.testBit_two_pow]
    rw [hor, Nat.testBit_or, hbits, hnew]
    rcases Nat.lt_trichotomy i n with hi | rfl | hi
    · simp [hi, Nat.lt_succ_of_lt hi, Nat.ne_of_gt hi]
    · simp
    · simp [Nat.lt_asymm hi, Nat.ne_of_lt hi, Nat.not_lt.mpr hi]

/-! ### GRIST FP -/

/-- The first 64 zero blocks (R162). -/
theorem testBit_gristZeros (s : State) (j : Job) (n i : Nat) :
    (gristZeros s j n).testBit i = decide (i < n ∧ i < 64 ∧ ∀ b ∈ gristBlock s j i, b = 0) := by
  rw [gristZeros, (sum_pow_of_bits (fun i => (gristBlock s j i).all (· = 0)) (min n 64)).2, Bool.eq_iff_iff]
  simp [and_assoc]

/-- GRIST_FP runs on an accepted job. -/
theorem exec_gristFp {id : Nat} {j : Job} {s : State} (h : accepted s id 0x01 1 = some j) : exec (.gristFp id) s =
    .next { gristOut j (j.n 24 4) s with jobs := kput s.jobs id { j with phase := .done ⟨0, 0, j.n 24 4, gristZeros s j (j.n 24 4)⟩ } } :=
  congrArg ok (runJob_finish h rfl rfl)

theorem fingerprintResults_grist : Claim.FingerprintResults := by
  refine ⟨fun id j s hm h => ?_, fun s => ⟨rfl, fun hidle => ?_, fun hbusy => ?_⟩⟩
  · intro n block
    have hlen : ((List.range n).flatMap fun i => sha512t256 (gristBlock s j i)).length = 32 * n := length_flatMap_range (fun _ => sha512t256_length _) n
    refine ⟨_, _, exec_gristFp h, ⟨_, kget_kput_self _ _ _, rfl⟩, ?_, fun i hi => ?_, testBit_gristZeros s j n⟩
    · exact sameMemBut_wrB (sameMemBut_of_mem rfl _ _) (Nat.le_refl _) (by rw [hlen])
    · refine (rdB_wrB_part hm (j.n 16 8) _ (by rw [hlen]; omega)).trans ?_
      exact block_flatMap_range (fun _ => sha512t256_length _) hi
  · exact congrArg ok (if_pos hidle)
  · exact congrArg ok (if_neg hbusy)

end Sys2Proof.Machine
end

section
/-! SUPPORT and PROOFS. The enable of the lauter filter (R31, R164). -/

namespace Sys2Proof.Machine

/-! ### The capacity -/

/-- The greatest element of a list, or 0. -/
theorem foldl_max_spec (l : List Nat) (m : Nat) : (∀ x ∈ l, x ≤ l.foldl max m) ∧ m ≤ l.foldl max m ∧ (l.foldl max m = m ∨ l.foldl max m ∈ l) := by
  induction l generalizing m with
  | nil => simp
  | cons y l ih =>
    obtain ⟨hle, hm, hmem⟩ := ih (max m y)
    rw [List.foldl_cons]
    refine ⟨fun x hx => ?_, by omega, ?_⟩
    · rcases List.mem_cons.mp hx with rfl | hx
      · omega
      · exact hle x hx
    · rcases hmem with h | h
      · rcases Nat.le_total y m with hy | hy
        · exact .inl (by omega)
        · exact .inr (by rw [h, max_eq_right hy]; exact List.mem_cons_self)
      · exact .inr (List.mem_cons_of_mem y h)

/-- The buckets of the capacity fit half the mapped DDR5, and those of the next one do not (R31). -/
theorem filterLog2_spec {size : Nat} (h4 : 4 ≤ size) (hmax : size < 2 ^ 41) :
    filterLog2 size < 41 ∧ 2 ^ (filterLog2 size + 1) ≤ size / 2 ∧ size / 2 < 2 ^ (filterLog2 size + 2) := by
  have hmem (e : Nat) : e ∈ (List.range 41).filter (fun e => 2 ^ (e + 1) ≤ size / 2) ↔ e < 41 ∧ 2 ^ (e + 1) ≤ size / 2 := by simp
  obtain ⟨hle, -, hm⟩ := foldl_max_spec ((List.range 41).filter fun e => 2 ^ (e + 1) ≤ size / 2) 0
  rw [← filterLog2, hmem] at hm
  rw [← filterLog2] at hle
  have hfits : filterLog2 size < 41 ∧ 2 ^ (filterLog2 size + 1) ≤ size / 2 := by
    rcases hm with h | h
    · rw [h]
      omega
    · exact h
  refine ⟨hfits.1, hfits.2, Nat.lt_of_not_le fun hnext => ?_⟩
  have hsmall : filterLog2 size + 2 < 40 := (Nat.pow_lt_pow_iff_right (by decide : 1 < 2)).mp (by omega)
  have := hle (filterLog2 size + 1) ((hmem _).mpr ⟨by omega, hnext⟩)
  omega

/-! ### A write of GL_CTL -/

/-- The register after a write of it without the hold of R164. -/
def glCtlWritten (v : Word) (s : State) : State := wr .GL_CTL (writeFields (rd s .GL_CTL) v (RegName.info .GL_CTL).fields) s

theorem getF_glCtlWritten (v : Word) (s : State) : getF (glCtlWritten v s) F.GL_CTL_EN = bits v 0 0 ∧ getF (glCtlWritten v s) F.GL_CTL_ADMITEN = bits v 1 1 := by
  have field (f : FieldDef) (hf : f ∈ (RegName.info .GL_CTL).fields) (hty : f.ty = .rw) (hw : f.hi < 64) :
      bits (rd (glCtlWritten v s) .GL_CTL) f.hi f.lo = bits v f.hi f.lo := by
    rw [glCtlWritten, rd_wr_self]
    exact bits_writeFields_of_rw (by decide) hf hty hw _ _
  exact ⟨field ⟨0, 0, .rw, 0x0, .H⟩ (by decide) rfl (by decide), field ⟨1, 1, .rw, 0x1, .H⟩ (by decide) rfl (by decide)⟩

theorem sameRegsBut_glCtlWritten (v : Word) (s : State) : SameRegsBut [(RegName.GL_CTL).addr 0 0] s (glCtlWritten v s) := fun a ha =>
  kget_kput_ne _ (by simpa using ha) _

/-- One bit of a word as a field. -/
theorem bits_one (v : Word) (n : Nat) : bits v n n = b2n (bit v n) := by
  have hbit : b2n (bit v n) = (v.toNat.testBit n).toNat := by rw [bit, BitVec.getLsbD]; cases v.toNat.testBit n <;> rfl
  rw [hbit, Nat.toNat_testBit, bits, bitsN, Nat.add_sub_cancel_left, Nat.pow_one]

/-- While no build is queued a write takes EN; one that sets it fixes the capacity. -/
theorem wrGlCtl_of_idle {v : Word} {s : State} (hbuilds : s.gl.builds = []) (hbuilding : s.gl.building = none) : wrGlCtl v s =
    if bit v 0 && !isF s F.GL_CTL_EN then
      setF F.GL_FCAP_LOG2E (filterLog2 s.ddrcSize) { glCtlWritten v s with gl := { s.gl with evicted := 0 } }
    else glCtlWritten v s := by
  have hheld : ((decide (s.gl.builds ≠ []) || s.gl.building.isSome) && decide (b2n (bit v 0) ≠ getF s F.GL_CTL_EN)) = false := by
    simp [hbuilds, hbuilding]
  simp only [wrGlCtl, hheld, Bool.false_eq_true, if_false]
  rfl

/-- While builds are queued a write that would change EN leaves it, and a record (R164). -/
theorem wrGlCtl_of_builds {v : Word} {s : State} (hbuilds : s.gl.builds ≠ []) (hen : b2n (bit v 0) ≠ getF s F.GL_CTL_EN) : wrGlCtl v s =
    celRefused .GL_CTL v (glCtlWritten (setBits v 0 0 (getF s F.GL_CTL_EN)) s) := by
  have hheld : ((decide (s.gl.builds ≠ []) || s.gl.building.isSome) && decide (b2n (bit v 0) ≠ getF s F.GL_CTL_EN)) = true := by
    simp [hbuilds, hen]
  have hstays : (bit (setBits v 0 0 (getF s F.GL_CTL_EN)) 0 && !isF s F.GL_CTL_EN) = false := by
    by_cases hoff : getF s F.GL_CTL_EN = 0
    · rw [bit, getLsbD_setBits, hoff]
      simp
    · simp [isF, hoff]
  simp only [wrGlCtl, hheld, if_true, hstays, Bool.false_eq_true, if_false]
  rfl

theorem filterEnable : Claim.FilterEnable := by
  intro v s
  refine ⟨fun hbuilds hbuilding hv hen h4 hmax => ?_, fun hbuilds hbuilding hv => ?_, fun hbuilds hen => ?_⟩
  · obtain ⟨hlt, hfits, hnext⟩ := filterLog2_spec h4 hmax
    refine ⟨_, congrArg ok (wrGlCtl_of_idle hbuilds hbuilding), ?_⟩
    rw [hv, hen, Bool.not_false, Bool.and_self, if_pos rfl]
    have hcap (t : State) : fcap (setF F.GL_FCAP_LOG2E (filterLog2 s.ddrcSize) t) = filterLog2 s.ddrcSize :=
      (getF_setF_self (by decide) _ _ _ _).trans (Nat.mod_eq_of_lt (Nat.lt_trans hlt (by decide)))
    have hctl (f : Fld) (hf : f.reg = .GL_CTL) : getF (setF F.GL_FCAP_LOG2E (filterLog2 s.ddrcSize)
        { glCtlWritten v s with gl := { s.gl with evicted := 0 } }) f = getF (glCtlWritten v s) f :=
      (getF_setF_of_addr_ne (by rw [hf]; decide) _ _).trans rfl
    refine ⟨?_, ?_, rfl, ?_⟩
    · rw [isF, hctl _ rfl, (getF_glCtlWritten v s).1, bits_one, hv]
      rfl
    · rw [hctl _ rfl, (getF_glCtlWritten v s).2]
    · rw [hcap]
      exact ⟨hfits, hnext⟩
  · refine ⟨_, congrArg ok (wrGlCtl_of_idle hbuilds hbuilding), ?_⟩
    rw [hv, Bool.false_and, if_neg Bool.false_ne_true]
    refine ⟨?_, rfl, sameRegsBut_glCtlWritten v s⟩
    rw [isF, (getF_glCtlWritten v s).1, bits_one, hv]
    rfl
  · refine ⟨_, congrArg ok (wrGlCtl_of_builds hbuilds hen), ?_, rfl⟩
    rw [(getF_glCtlWritten _ s).1, bits_setBits_self _ (by decide)]
    exact Nat.mod_eq_of_lt (bits_lt _ _ _)

end Sys2Proof.Machine
end

section
/-! SUPPORT. The buckets of the lauter filter in memory (R164, R165): their places lie apart, and what a write of an entry or of a summary leaves. -/

namespace Sys2Proof.Machine

/-! ### Fields of 8 bytes in memory -/

theorem rdN_lt (s : State) (a n : Nat) : rdN s a n < 256 ^ n := by
  have h := leNat_lt (mread s.mem a n)
  rwa [mread_length] at h

theorem rdN_of_mem {s t : State} (h : t.mem = s.mem) (a n : Nat) : rdN t a n = rdN s a n := by rw [rdN, rdN, h]

/-- A field of a word in memory that was written beside it. -/
theorem rdBits_wrBits_of_apart {s : State} (hm : Memory.wf s.mem = true) (a : Nat) {hi lo hi' lo' : Nat} (h : hi' < lo ∨ hi + 1 ≤ lo') (v : Nat) :
    rdBits (wrBits a 8 hi lo v s) a 8 hi' lo' = rdBits s a 8 hi' lo' := by
  have hword : (setBits (BitVec.ofNat 64 (rdN s a 8)) hi lo v).toNat < 256 ^ 8 := (setBits (BitVec.ofNat 64 (rdN s a 8)) hi lo v).isLt
  have hold : (BitVec.ofNat 64 (rdN s a 8)).toNat = rdN s a 8 := by rw [BitVec.toNat_ofNat]; exact Nat.mod_eq_of_lt (rdN_lt s a 8)
  rw [rdBits, wrBits, rdN_wrN hm, Nat.mod_eq_of_lt hword, ← bits, bits_setBits_of_disjoint _ v h, bits, hold, rdBits]

/-! ### The bucket of a fingerprint -/

theorem remOf_lt (f : List Byte) : remOf f < 65536 := Nat.mod_lt _ (by decide)

theorem volGroup_lt (s : State) (v : Nat) : volGroup s v < 1024 := rdBits_lt _ _ _ _ _

theorem fpK_lt (f : List Byte) : fpK f < 2 ^ 64 := by
  refine Nat.lt_of_lt_of_le (leNat_lt _) ?_
  exact Nat.pow_le_pow_right (n := 256) (by decide) (Nat.le_trans (List.length_take_le _ _) (Nat.le_refl 8))

/-- With at most 2^39 entries of capacity there are fewer than 2^33 buckets (R31, R165). -/
theorem bucketOf_lt {s : State} (hcap : fcap s ≤ 39) {g : Nat} (hg : g < 1024) (f : List Byte) : bucketOf s g f < 2 ^ 33 := by
  have hx : (fpK f ^^^ g * 2 ^ 48) < 2 ^ 64 := Nat.xor_lt_two_pow (fpK_lt f) (by omega)
  have hpow : 2 ^ 31 ≤ 2 ^ (70 - fcap s) := Nat.pow_le_pow_right (by decide) (by omega)
  refine Nat.div_lt_of_lt_mul (Nat.lt_of_lt_of_le hx ?_)
  calc 2 ^ 64 = 2 ^ 31 * 2 ^ 33 := by decide
    _ ≤ 2 ^ (70 - fcap s) * 2 ^ 33 := Nat.mul_le_mul_right _ hpow

/-! ### What the filter reads of a state -/

section
variable {s t : State}

theorem sumCount_of_mem (h : t.mem = s.mem) (b : Nat) : sumCount t b = sumCount s b := by rw [sumCount, sumCount, rdBits, rdBits, rdN_of_mem h]

theorem sumOldest_of_mem (h : t.mem = s.mem) (b : Nat) : sumOldest t b = sumOldest s b := by rw [sumOldest, sumOldest, rdBits, rdBits, rdN_of_mem h]

theorem sumMask_of_mem (h : t.mem = s.mem) (b : Nat) : sumMask t b = sumMask s b := by rw [sumMask, sumMask, rdBits, rdBits, rdN_of_mem h]

theorem heldOf_of_mem (h : t.mem = s.mem) (b : Nat) : heldOf t b = heldOf s b := by
  simp only [heldOf, entryAt, ringPos, sumCount_of_mem h, sumOldest_of_mem h, rdN_of_mem h]

end

theorem entryAt_lt (s : State) (b pos : Nat) : entryAt s b pos < 65536 := rdN_lt s _ 2

theorem sumOldest_lt (s : State) (b : Nat) : sumOldest s b < 64 := rdBits_lt _ _ _ _ _

theorem heldOf_length (s : State) (b : Nat) : (heldOf s b).length = sumCount s b := by rw [heldOf, List.length_map, List.length_range]

theorem getElem?_heldOf {s : State} {b i : Nat} (h : i < sumCount s b) : (heldOf s b)[i]? = some (entryAt s b (ringPos s b i)) := by
  rw [heldOf, List.getElem?_map, List.getElem?_range h, Option.map_some]

theorem lt_of_mem_heldOf {s : State} {b r : Nat} (h : r ∈ heldOf s b) : r < 65536 := by
  obtain ⟨i, -, rfl⟩ := List.mem_map.mp h
  exact entryAt_lt _ _ _

/-- A bucket with the same summary and the same entries holds the same. -/
theorem heldOf_congr {s t : State} {b : Nat} (hsum : rdN t (summaryAddr b) 8 = rdN s (summaryAddr b) 8)
    (hent : ∀ pos, pos < 64 → entryAt t b pos = entryAt s b pos) : heldOf t b = heldOf s b := by
  simp only [heldOf, sumCount, rdBits, hsum, ringPos, sumOldest]
  exact List.map_congr_left fun i _ => hent _ (Nat.mod_lt _ (by decide))

/-! ### A write of an entry -/

section
variable {s : State} {b : Nat}

theorem putEntry_eq (b pos v : Nat) (s : State) : putEntry b pos v s = { s with mem := (putEntry b pos v s).mem } := by
  unfold putEntry
  dsimp only
  split <;> rfl

theorem wf_putEntry (hm : Memory.wf s.mem = true) (b pos v : Nat) : Memory.wf (putEntry b pos v s).mem = true := by
  unfold putEntry
  dsimp only
  split
  · exact wf_wrN (wf_wrN hm _ _ _) _ _ _
  · exact wf_wrN hm _ _ _

/-- A write of an entry, to DDR5 and to its line of the hot filter, leaves what lies apart from both. -/
theorem rdN_putEntry_of_apart {pos v a n : Nat} (hent : a + n ≤ bucketAddr b + 2 * pos ∨ bucketAddr b + 2 * pos + 2 ≤ a)
    (hhot : a + n ≤ hotAddr b + 2 * pos ∨ hotAddr b + 2 * pos + 2 ≤ a) : rdN (putEntry b pos v s) a n = rdN s a n := by
  unfold putEntry
  dsimp only
  split
  · rw [rdN_wrN_of_out _ _ _ _ hhot, rdN_wrN_of_out _ _ _ _ hent]
  · rw [rdN_wrN_of_out _ _ _ _ hent]

section
variable (hb : b < 2 ^ 33)
include hb

theorem summary_putEntry (pos v : Nat) : rdN (putEntry b pos v s) (summaryAddr b) 8 = rdN s (summaryAddr b) 8 :=
  rdN_putEntry_of_apart (by unfold bucketAddr summaryAddr; omega) (by unfold hotAddr summaryAddr; omega)

theorem entryAt_putEntry_ne {pos q : Nat} (hpos : pos < 64) (hq : q < 64) (h : q ≠ pos) (v : Nat) : entryAt (putEntry b pos v s) b q = entryAt s b q :=
  rdN_putEntry_of_apart (by omega) (by unfold hotAddr bucketAddr; omega)

theorem entryAt_putEntry_self (hm : Memory.wf s.mem = true) (pos : Nat) {v : Nat} (hv : v < 65536) : entryAt (putEntry b pos v s) b pos = v := by
  have hddr : rdN (wrN (bucketAddr b + 2 * pos) 2 v s) (bucketAddr b + 2 * pos) 2 = v := (rdN_wrN hm _ _ _).trans (Nat.mod_eq_of_lt hv)
  unfold putEntry entryAt
  dsimp only
  split
  · rw [rdN_wrN_of_out _ _ _ _ (by unfold hotAddr bucketAddr; omega), hddr]
  · exact hddr

end

/-! ### A write of a summary -/

theorem putSummary_eq (b count oldest : Nat) (s : State) : putSummary b count oldest s = { s with mem := (putSummary b count oldest s).mem } := rfl

theorem wf_putSummary (hm : Memory.wf s.mem = true) (b count oldest : Nat) : Memory.wf (putSummary b count oldest s).mem = true :=
  wf_wrBits (wf_wrN hm _ _ _) _ _ _ _ _

theorem entryAt_putSummary (hb : b < 2 ^ 33) {pos : Nat} (hpos : pos < 64) (count oldest : Nat) : entryAt (putSummary b count oldest s) b pos = entryAt s b pos := by
  unfold putSummary entryAt wrBits
  rw [rdN_wrN_of_out _ _ _ _ (by unfold bucketAddr summaryAddr; omega), rdN_wrN_of_out _ _ _ _ (by unfold bucketAddr summaryAddr; omega)]

theorem summary_putSummary (hm : Memory.wf s.mem = true) (b : Nat) {count oldest : Nat} (hcount : count < 128) (holdest : oldest < 64) :
    sumCount (putSummary b count oldest s) b = count ∧ sumOldest (putSummary b count oldest s) b = oldest := by
  have hwrite : rdN (wrN (summaryAddr b) 8 (count + oldest * 2 ^ 8) s) (summaryAddr b) 8 = count + oldest * 2 ^ 8 :=
    (rdN_wrN hm _ _ _).trans (Nat.mod_eq_of_lt (by omega))
  have hm' := wf_wrN hm (summaryAddr b) 8 (count + oldest * 2 ^ 8)
  unfold putSummary sumCount sumOldest
  dsimp only
  rw [rdBits_wrBits_of_apart hm' _ (.inl (by decide)), rdBits_wrBits_of_apart hm' _ (.inl (by decide)), rdBits, rdBits, hwrite, bitsN, bitsN]
  omega

/-- The held entries once a summary is written. -/
theorem heldOf_putSummary (hb : b < 2 ^ 33) (hm : Memory.wf s.mem = true) {count oldest : Nat} (hcount : count < 128) (holdest : oldest < 64) :
    heldOf (putSummary b count oldest s) b = (List.range count).map fun i => entryAt s b ((oldest + i) % 64) := by
  obtain ⟨hc, ho⟩ := summary_putSummary hm b hcount holdest
  rw [heldOf, hc]
  refine List.map_congr_left fun i _ => ?_
  rw [ringPos, ho, entryAt_putSummary hb (Nat.mod_lt _ (by decide))]

end

/-! ### The hot filter (R166) -/

/-- A bucket that is installed in the hot filter keeps its entries. -/
theorem heldOf_installHot {b : Nat} (hb : b < 2 ^ 33) (s : State) : heldOf (installHot b s) b = heldOf s b := by
  have hline : (rdB s (bucketAddr b) 128).length = 128 := mread_length _ _ _
  have hout {a n : Nat} (h : a + n ≤ hotAddr b ∨ hotAddr b + 128 ≤ a) : rdN (wrB (hotAddr b) (rdB s (bucketAddr b) 128) s) a n = rdN s a n :=
    rdN_wrB_of_out _ _ _ (by rwa [hline])
  unfold installHot
  split
  · rfl
  · refine (heldOf_of_mem rfl b).trans (heldOf_congr (hout ?_) fun pos hpos => hout ?_)
    · unfold hotAddr summaryAddr
      omega
    · unfold hotAddr bucketAddr
      omega

end Sys2Proof.Machine
end

section
/-! SUPPORT and PROOFS. What the lauter filter does to the bucket of a fingerprint (R165 to R168). -/

namespace Sys2Proof.Machine

/-! ### Probes (R166) -/

/-- A probe answers whether the bucket holds the remainder, and changes only the hot filter. -/
theorem filterProbe_spec {g : Nat} {f : List Byte} {s : State} (hb : bucketOf s g f < 2 ^ 33) :
    let b := bucketOf s g f
    let p := filterProbe g f s
    p.1 = (decide (sumCount s b ≠ 0) && (sumMask s b).testBit (remOf f % 32) && (heldOf s b).contains (remOf f)) ∧
      heldOf p.2 b = heldOf s b ∧ p.2.jobs = s.jobs ∧ p.2.gl.latch = s.gl.latch ∧ p.2.gl.maybe = s.gl.maybe := by
  dsimp only
  unfold filterProbe
  dsimp only
  split
  · next h =>
    refine ⟨?_, rfl, rfl, rfl, rfl⟩
    rcases h with h | h
    · simp [h]
    · rw [Bool.not_eq_true'] at h
      simp only [h, Bool.and_false, Bool.false_and]
  · next h =>
    rw [not_or, Bool.not_eq_true', Bool.not_eq_false] at h
    have hframe : ∀ b : Nat, (installHot b s).jobs = s.jobs ∧ (installHot b s).gl.latch = s.gl.latch ∧ (installHot b s).gl.maybe = s.gl.maybe := by
      intro b
      unfold installHot
      split <;> exact ⟨rfl, rfl, rfl⟩
    exact ⟨by simp only [h.2, ne_eq, h.1, not_false_eq_true, decide_true, Bool.and_self, Bool.true_and], heldOf_installHot hb s, hframe _⟩

/-! ### Insertions (R167) -/

/-- A record whose code is free changes the registers and the log, and draws a free value (R537). -/
theorem sameButLog_celOpen (u p0 p1 p2 : Nat) (s : State) : SameButLog (nextFree s) (celOpen u p0 p1 p2 s) := sameButLog_cel _ _ _ _ _ _ _

section
variable {s : State} {g : Nat} {f : List Byte}

/-- A bucket with room holds the remainder as its newest entry. -/
theorem heldOf_filterInsert_of_room (hm : Memory.wf s.mem = true) (hb : bucketOf s g f < 2 ^ 33) (hroom : sumCount s (bucketOf s g f) < 64) :
    (filterInsert g f s).jobs = s.jobs ∧ heldOf (filterInsert g f s) (bucketOf s g f) = heldOf s (bucketOf s g f) ++ [remOf f] := by
  unfold filterInsert
  dsimp only
  rw [if_pos hroom]
  have hlt := remOf_lt f
  generalize bucketOf s g f = b at *
  generalize remOf f = r at *
  have hold := sumOldest_lt s b
  have hpos : (sumOldest s b + sumCount s b) % 64 < 64 := Nat.mod_lt _ (by decide)
  refine ⟨by rw [putSummary_eq, putEntry_eq], ?_⟩
  rw [heldOf_putSummary hb (wf_putEntry hm _ _ _) (by omega) hold, List.range_succ, List.map_append, List.map_singleton, entryAt_putEntry_self hb hm _ hlt, heldOf]
  congr 1
  refine List.map_congr_left fun i hi => ?_
  have hi := List.mem_range.mp hi
  exact entryAt_putEntry_ne hb hpos (Nat.mod_lt _ (by decide)) (by omega) r

/-- A full bucket loses its oldest entry to the remainder. -/
theorem heldOf_filterInsert_of_full (hm : Memory.wf s.mem = true) (hb : bucketOf s g f < 2 ^ 33) (hfull : sumCount s (bucketOf s g f) = 64) :
    (filterInsert g f s).jobs = s.jobs ∧ heldOf (filterInsert g f s) (bucketOf s g f) = (heldOf s (bucketOf s g f)).drop 1 ++ [remOf f] := by
  generalize hu : putSummary (bucketOf s g f) 64 ((sumOldest s (bucketOf s g f) + 1) % 64) (putEntry (bucketOf s g f) (sumOldest s (bucketOf s g f)) (remOf f) s) = u
  have hframe : (filterInsert g f s).mem = u.mem ∧ (filterInsert g f s).jobs = u.jobs := by
    unfold filterInsert
    dsimp only
    rw [if_neg (by omega), hu]
    split
    · have hlog := sameButLog_celOpen 0x0E 0 0 0 (bump .GL_EVICT_CNT { u with gl := { u.gl with evicted := u.gl.evicted + 1 } })
      exact ⟨hlog.mem, by rw [hlog]; rfl⟩
    · exact ⟨rfl, rfl⟩
  refine ⟨by rw [hframe.2, ← hu, putSummary_eq, putEntry_eq], ?_⟩
  rw [heldOf_of_mem hframe.1, ← hu]
  have hlt := remOf_lt f
  have hold := sumOldest_lt s (bucketOf s g f)
  generalize bucketOf s g f = b at *
  generalize remOf f = r at *
  have hrest : (heldOf s b).drop 1 = (List.range 63).map fun i => entryAt s b (ringPos s b (i + 1)) := by
    rw [heldOf, hfull, List.range_succ_eq_map, List.map_cons, List.map_map]
    rfl
  rw [hrest, heldOf_putSummary hb (wf_putEntry hm _ _ _) (by omega) (Nat.mod_lt _ (by decide)), List.range_succ, List.map_append, List.map_singleton]
  congr 1
  · refine List.map_congr_left fun i hi => ?_
    have hi := List.mem_range.mp hi
    have hplace : ((sumOldest s b + 1) % 64 + i) % 64 = (sumOldest s b + (i + 1)) % 64 := by omega
    rw [hplace]
    exact entryAt_putEntry_ne hb hold (Nat.mod_lt _ (by decide)) (by omega) r
  · have hplace : ((sumOldest s b + 1) % 64 + 63) % 64 = sumOldest s b := by omega
    rw [hplace, entryAt_putEntry_self hb hm _ hlt]

end

/-! ### Deletions (R168) -/

/-- The last element equal to a value. -/
theorem lastIdx_append {l m : List Nat} {r : Nat} (h : r ∉ m) : lastIdx (l ++ r :: m) r = some l.length := by
  have hfirst : decide ((l ++ r :: m).getD l.length 0 = r) = true := by simp
  have hrest : ((List.range m.length).map fun i => l.length + (i + 1)).filter (fun i => decide ((l ++ r :: m).getD i 0 = r)) = [] := by
    rw [List.filter_eq_nil_iff]
    intro x hx hr
    obtain ⟨i, hi, rfl⟩ := List.mem_map.mp hx
    have hi := List.mem_range.mp hi
    have hplace : (l ++ r :: m).getD (l.length + (i + 1)) 0 = m[i] := by
      rw [List.getD_append_right _ _ _ _ (by omega), Nat.add_sub_cancel_left, List.getD_cons_succ, List.getD_eq_getElem _ _ hi]
    rw [hplace, decide_eq_true_eq] at hr
    exact h (hr ▸ List.getElem_mem hi)
  rw [lastIdx, List.length_append, List.length_cons, List.range_add, List.range_succ_eq_map, List.map_cons, List.map_map, List.filter_append, Nat.add_zero,
    List.filter_cons_of_pos (p := fun i => decide ((l ++ r :: m).getD i 0 = r)) hfirst]
  refine (congrArg (fun t => List.getLast? (_ ++ l.length :: t)) hrest).trans ?_
  rw [List.getLast?_append]
  rfl

theorem lastIdx_of_not_mem {l : List Nat} {r : Nat} (h : r ∉ l) : lastIdx l r = none := by
  rw [lastIdx, List.getLast?_eq_none_iff, List.filter_eq_nil_iff]
  intro i hi hr
  rw [List.mem_range] at hi
  rw [List.getD_eq_getElem _ _ hi, decide_eq_true_eq] at hr
  exact h (hr ▸ List.getElem_mem hi)

section
variable {s : State} {b : Nat}

/-- The entries of a bucket from the `i`-th on are those of a list, up to the `n`-th. -/
def shifted (b i : Nat) (l : List Nat) (n : Nat) (s : State) : State :=
  (List.range n).foldl (fun t k => if i ≤ k then putEntry b (ringPos t b k) (l.getD k 0) t else t) s

theorem shifted_succ (b i : Nat) (l : List Nat) (n : Nat) (s : State) : shifted b i l (n + 1) s =
    if i ≤ n then putEntry b (ringPos (shifted b i l n s) b n) (l.getD n 0) (shifted b i l n s) else shifted b i l n s := by
  rw [shifted, List.range_succ, List.foldl_append]
  rfl

theorem shifted_eq (b i : Nat) (l : List Nat) (n : Nat) (s : State) : shifted b i l n s = { s with mem := (shifted b i l n s).mem } := by
  induction n with
  | zero => rfl
  | succ n ih =>
    rw [shifted_succ]
    split
    · rw [putEntry_eq, ih]
    · exact ih

/-- Closing the ring writes the entries from the `i`-th on, and leaves the others and the summary. -/
theorem shifted_spec (hb : b < 2 ^ 33) (hm : Memory.wf s.mem = true) (i : Nat) {l : List Nat} (hl : ∀ x ∈ l, x < 65536) {n : Nat} (hn : n ≤ 64) :
    let t := shifted b i l n s
    Memory.wf t.mem = true ∧ rdN t (summaryAddr b) 8 = rdN s (summaryAddr b) 8 ∧
      ∀ k, k < 64 → entryAt t b (ringPos s b k) = if i ≤ k ∧ k < n then l.getD k 0 else entryAt s b (ringPos s b k) := by
  induction n with
  | zero => exact ⟨hm, rfl, fun k _ => by simp [shifted]⟩
  | succ n ih =>
    obtain ⟨hwf, hsum, hent⟩ := ih (by omega)
    have hring : ringPos (shifted b i l n s) b n = ringPos s b n := by simp only [ringPos, sumOldest, rdBits, hsum]
    have hpos : ringPos s b n < 64 := Nat.mod_lt _ (by decide)
    dsimp only at hwf hsum hent ⊢
    rw [shifted_succ, hring]
    split
    · next hin =>
      refine ⟨wf_putEntry hwf _ _ _, (summary_putEntry hb _ _).trans hsum, fun k hk => ?_⟩
      have hv : l.getD n 0 < 65536 := by
        rw [List.getD_eq_getElem?_getD]
        rcases hx : l[n]? with _ | x
        · decide
        · exact hl x (List.mem_of_getElem? hx)
      by_cases hkn : k = n
      · subst hkn
        rw [entryAt_putEntry_self hb hwf _ hv, if_pos ⟨hin, Nat.lt_succ_self k⟩]
      · have hne : ringPos s b k ≠ ringPos s b n := by unfold ringPos; omega
        have hput := entryAt_putEntry_ne (s := shifted b i l n s) hb hpos (q := ringPos s b k) (Nat.mod_lt _ (by decide)) hne (l.getD n 0)
        rw [hput, hent k hk]
        exact if_congr (by omega) rfl rfl
    · next hin =>
      refine ⟨hwf, hsum, fun k hk => ?_⟩
      rw [hent k hk]
      exact if_congr (by omega) rfl rfl

/-- A deletion takes the newest equal entry out. -/
theorem heldOf_filterDelete {g : Nat} {f : List Byte} {l m : List Nat} (hm : Memory.wf s.mem = true) (hb : bucketOf s g f < 2 ^ 33)
    (hcount : sumCount s (bucketOf s g f) ≤ 64) (hheld : heldOf s (bucketOf s g f) = l ++ remOf f :: m) (hnew : remOf f ∉ m) :
    (filterDelete g f s).jobs = s.jobs ∧ heldOf (filterDelete g f s) (bucketOf s g f) = l ++ m := by
  have herase : (l ++ remOf f :: m).eraseIdx l.length = l ++ m := by
    rw [List.eraseIdx_append_of_length_le (Nat.le_refl _), Nat.sub_self, List.eraseIdx_cons_zero]
  have hrun : filterDelete g f s = putSummary (bucketOf s g f) (l ++ m).length (sumOldest (shifted (bucketOf s g f) l.length (l ++ m) (l ++ m).length s) (bucketOf s g f))
      (shifted (bucketOf s g f) l.length (l ++ m) (l ++ m).length s) := by
    simp only [filterDelete, hheld, lastIdx_append hnew, herase]
    rfl
  have hlen : (l ++ m).length < 64 := by
    rw [← heldOf_length, hheld] at hcount
    simp only [List.length_append, List.length_cons] at hcount ⊢
    omega
  have hsmall : ∀ x ∈ l ++ m, x < 65536 := fun x hx => lt_of_mem_heldOf (s := s) (b := bucketOf s g f) (by
    rw [hheld]
    rcases List.mem_append.mp hx with hx | hx
    · exact List.mem_append_left _ hx
    · exact List.mem_append_right _ (List.mem_cons_of_mem _ hx))
  have hentry {k : Nat} (hk : k < l.length) : entryAt s (bucketOf s g f) (ringPos s (bucketOf s g f) k) = l[k] := by
    have hin : k < sumCount s (bucketOf s g f) := by
      rw [← heldOf_length, hheld, List.length_append]
      omega
    have h := getElem?_heldOf hin
    rw [hheld, List.getElem?_append_left hk, List.getElem?_eq_getElem hk] at h
    exact (Option.some.inj h).symm
  generalize bucketOf s g f = b at *
  obtain ⟨hwf, hsum, hent⟩ := shifted_spec hb hm l.length hsmall (Nat.le_of_lt hlen)
  have hold : sumOldest (shifted b l.length (l ++ m) (l ++ m).length s) b = sumOldest s b := by rw [sumOldest, sumOldest, rdBits, rdBits, hsum]
  rw [hrun, hold]
  refine ⟨by rw [putSummary_eq, shifted_eq], ?_⟩
  rw [heldOf_putSummary hb hwf (by omega) (sumOldest_lt s b)]
  refine List.ext_getElem (by simp) fun k hk hk' => ?_
  rw [List.getElem_map, List.getElem_range]
  refine (hent k (by omega)).trans ?_
  split
  · exact List.getD_eq_getElem _ _ hk'
  · next hbefore =>
    have hk : k < l.length := by omega
    rw [hentry hk, List.getElem_append_left hk]

end

end Sys2Proof.Machine
end

section
/-! PROOFS. The LAUTER jobs and the admission windows (R159, R165 to R168, R170, R171, R177). -/

namespace Sys2Proof.Machine

/-! ### What a count leaves to the filter -/

/-- What the filter reads, and what its jobs hold, is the same in two states. -/
structure SameFilter (s t : State) : Prop where
  mem : t.mem = s.mem
  jobs : t.jobs = s.jobs
  latch : t.gl.latch = s.gl.latch
  maybe : t.gl.maybe = s.gl.maybe
  dom : t.gl.dom = s.gl.dom
  cap : fcap t = fcap s

namespace SameFilter
variable {s t u : State}

theorem refl (s : State) : SameFilter s s := ⟨rfl, rfl, rfl, rfl, rfl, rfl⟩

theorem trans (h : SameFilter s t) (k : SameFilter t u) : SameFilter s u where
  mem := k.mem.trans h.mem
  jobs := k.jobs.trans h.jobs
  latch := k.latch.trans h.latch
  maybe := k.maybe.trans h.maybe
  dom := k.dom.trans h.dom
  cap := k.cap.trans h.cap

/-- A change of the registers and the log that leaves the capacity. -/
theorem of_log (h : SameButLog s t) (hcap : rd t .GL_FCAP = rd s .GL_FCAP) : SameFilter s t where
  mem := h.mem
  jobs := by rw [h]
  latch := by rw [h]
  maybe := by rw [h]
  dom := by rw [h]
  cap := by rw [fcap, fcap, getF, getF, hcap]

theorem pmc (ev inst k : Nat) (s : State) : SameFilter s (pmc ev inst k s) :=
  of_log (sameButLog_pmc _ _ _ _) (rd_of_kget (kget_pmc (by decide) _ _ _ _))

theorem bump {r : RegName} (h : (RegName.GL_FCAP).addr 0 0 ≠ r.addr 0 0) (s : State) : SameFilter s (bump r s) :=
  of_log rfl (rd_wr_of_addr_ne h _ _)

theorem setAdmit (v : Nat) (a : Admit) (s : State) : SameFilter s (setAdmit v a s) := ⟨rfl, rfl, rfl, rfl, rfl, rfl⟩

theorem admitEnd (v : Nat) (s : State) : SameFilter s (admitEnd v s) := by
  unfold Machine.admitEnd
  dsimp only
  split
  · exact setAdmit v _ s
  · exact (setAdmit v _ s).trans (of_log (sameButLog_govRecord _ _ _ _ _) (rd_govRecord (by decide) (by decide) _ _ _ _ _))

theorem admitProbe (v : Nat) (s : State) : SameFilter s (admitProbe v s) := by
  unfold Machine.admitProbe
  dsimp only
  split
  · exact refl _
  · split
    · exact (admitEnd v s).trans (setAdmit v _ _)
    · exact setAdmit v _ _

variable (h : SameFilter s t)
include h

theorem volGroup (v : Nat) : volGroup t v = Machine.volGroup s v := by rw [Machine.volGroup, Machine.volGroup, rdBits, rdBits, rdN_of_mem h.mem]

theorem bucketOf (g : Nat) (f : List Byte) : bucketOf t g f = Machine.bucketOf s g f := by rw [Machine.bucketOf, Machine.bucketOf, h.cap]

theorem volFlag (v b : Nat) : volFlag t v b = Machine.volFlag s v b := by rw [Machine.volFlag, Machine.volFlag, volFlags, volFlags, rdN_of_mem h.mem]

theorem dedups (v : Nat) : dedups t v = Machine.dedups s v := by
  have hdom : domOf t (volDom t v) = domOf s (volDom s v) := by
    rw [domOf, domOf, h.dom, volDom, volDom, h.volGroup, volPool, volPool, rdBits, rdBits, rdN_of_mem h.mem]
  have hkey : keyMismatch t v = keyMismatch s v := by
    rw [keyMismatch, keyMismatch, hdom, volKeyslot, volKeyslot, volKeyEpoch, volKeyEpoch, rdN_of_mem h.mem, rdN_of_mem h.mem]
  rw [Machine.dedups, Machine.dedups, volSealed, volSealed, h.volFlag, h.volFlag, hkey]

end SameFilter

/-! ### LAUTER jobs -/

section
variable {id : Nat} {j : Job} {s : State}

/-- The state in which a probe begins: it has been counted. -/
def probed (v : Nat) (s : State) : State := admitProbe v (bump .GL_PROBE_CNT s)

theorem sameFilter_probed (v : Nat) (s : State) : SameFilter s (probed v s) := (SameFilter.bump (by decide) s).trans (.admitProbe v _)

/-- A PROBE for a volume that does not deduplicate answers 0 and clears the latch (R159, R177). -/
theorem exec_lauterProbe_noDedupe (h : accepted s id 0x02 1 = some j) (hded : dedups s (jobVol s j 16) = false) (hkeys : keysFrom 0 s.gl.latch = true) :
    ∃ t, exec (.lauterProbe id) s = .next t ∧ JobDone t id ⟨0, 0, 1, 0⟩ ∧ latchOf t j.owner = none ∧ t.mem = s.mem := by
  have hsame := sameFilter_probed (jobVol s j 16) s
  have hoff := (hsame.dedups _).trans hded
  have hclear (u : State) : SameFilter (putLatch j.owner none u) (noDedupe j.owner (jobVol s j 16) u) := by
    unfold noDedupe
    dsimp only
    split
    · exact .bump (by decide) _
    · exact .refl _
  have hend := hclear (probed (jobVol s j 16) s)
  refine ⟨_, congrArg ok (runJob_finish (t := noDedupe j.owner (jobVol s j 16) (probed (jobVol s j 16) s)) (r := ⟨0, 0, 1, 0⟩) h ?_ (hend.jobs.trans hsame.jobs)),
    ⟨_, kget_kput_self _ _ _, rfl⟩, ?_, hend.mem.trans hsame.mem⟩
  · rw [probed] at hoff
    simp only [hoff, Bool.not_false, if_true]
    rfl
  · refine (congrArg (kget · (agentKey j.owner)) hend.latch).trans ?_
    refine kget_kdel_self (lo := 0) ?_ _
    rw [hsame.latch]
    exact hkeys

/-- The state after the answer of a probe: the agent is marked where it is "maybe seen", and its latch is set. -/
def probeEnds (a : Agent) (l : Latch) (bank : Nat) (yes : Bool) (s : State) : State :=
  let t := if yes then pmc 0x0E02 bank 1 (bump .GL_MAYBE_CNT s) else s
  let m := t.gl.maybe.erase (agentKey a)
  putLatch a (some l) { t with gl := { t.gl with maybe := if yes then agentKey a :: m else m } }

theorem probeEnds_spec (a : Agent) (l : Latch) (bank : Nat) (yes : Bool) (s : State) :
    (probeEnds a l bank yes s).mem = s.mem ∧ (probeEnds a l bank yes s).jobs = s.jobs ∧ latchOf (probeEnds a l bank yes s) a = some l ∧
      (agentKey a ∈ (probeEnds a l bank yes s).gl.maybe ↔ yes = true ∨ agentKey a ∈ s.gl.maybe.erase (agentKey a)) := by
  have hcount : SameFilter s (if yes then pmc 0x0E02 bank 1 (bump .GL_MAYBE_CNT s) else s) := by
    split
    · exact (SameFilter.bump (by decide) s).trans (.pmc _ _ _ _)
    · exact .refl s
  refine ⟨hcount.mem, hcount.jobs, kget_kput_self _ _ _, ?_⟩
  rw [← hcount.maybe]
  cases yes <;> simp [probeEnds, putLatch]

/-- The filter as a probe finds it. -/
def probeFound (v : Nat) (f : List Byte) (s : State) : Bool × State :=
  filterProbe (volGroup (probed v s) v) f (pmc 0x0E01 (bucketOf (probed v s) (volGroup (probed v s) v) f % 8) 1 (probed v s))

theorem probeFound_spec (hcap : fcap s ≤ 39) (v : Nat) (f : List Byte) :
    let b := bucketOf s (volGroup s v) f
    let p := probeFound v f s
    p.1 = (decide (sumCount s b ≠ 0) && (sumMask s b).testBit (remOf f % 32) && (heldOf s b).contains (remOf f)) ∧
      heldOf p.2 b = heldOf s b ∧ p.2.jobs = s.jobs ∧ p.2.gl.maybe = s.gl.maybe := by
  have hsame := sameFilter_probed v s
  unfold probeFound
  generalize bucketOf (probed v s) (volGroup (probed v s) v) f % 8 = bank
  have hcount := hsame.trans (.pmc 0x0E01 bank 1 (probed v s))
  have hprobe := filterProbe_spec (s := pmc 0x0E01 bank 1 (probed v s)) (g := volGroup s v) (f := f)
    (hcount.bucketOf _ f ▸ bucketOf_lt hcap (volGroup_lt s v) f)
  dsimp only at hprobe
  rw [hcount.bucketOf, sumCount_of_mem hcount.mem, sumMask_of_mem hcount.mem, heldOf_of_mem hcount.mem] at hprobe
  obtain ⟨hyes, hheld, hjobs, -, hmaybe⟩ := hprobe
  rw [hsame.volGroup]
  exact ⟨hyes, hheld, hjobs.trans hcount.jobs, hmaybe.trans hcount.maybe⟩

/-- A PROBE for a volume that deduplicates answers what the filter finds (R166, R171). -/
theorem exec_lauterProbe (hcap : fcap s ≤ 39) (h : accepted s id 0x02 1 = some j) (hded : dedups s (jobVol s j 16) = true) :
    let f := jobFp s j
    let b := bucketOf s (volGroup s (jobVol s j 16)) f
    let yes := decide (sumCount s b ≠ 0) && (sumMask s b).testBit (remOf f % 32) && (heldOf s b).contains (remOf f)
    ∃ t, exec (.lauterProbe id) s = .next t ∧ JobDone t id ⟨0, 0, 1, b2n yes⟩ ∧ latchOf t j.owner = some ⟨f, jobVol s j 16⟩ ∧
      heldOf t b = heldOf s b ∧ (agentKey j.owner ∈ t.gl.maybe ↔ yes = true ∨ agentKey j.owner ∈ s.gl.maybe.erase (agentKey j.owner)) := by
  intro f b yes
  have hon : dedups (admitProbe (jobVol s j 16) (bump .GL_PROBE_CNT s)) (jobVol s j 16) = true := ((sameFilter_probed _ s).dedups _).trans hded
  obtain ⟨hyes, hheld, hjobs, hmaybe⟩ := probeFound_spec hcap (jobVol s j 16) f
  generalize hbank : bucketOf (probed (jobVol s j 16) s) (volGroup (probed (jobVol s j 16) s) (jobVol s j 16)) f % 8 = bank
  obtain ⟨hmem, hends, hlatch, hmark⟩ := probeEnds_spec j.owner ⟨f, jobVol s j 16⟩ bank yes (probeFound (jobVol s j 16) f s).2
  refine ⟨_, congrArg ok (runJob_finish (r := ⟨0, 0, 1, b2n yes⟩)
    (t := probeEnds j.owner ⟨f, jobVol s j 16⟩ bank yes (probeFound (jobVol s j 16) f s).2) h ?_ (hends.trans hjobs)), ⟨_, kget_kput_self _ _ _, rfl⟩, hlatch, ?_, ?_⟩
  · have hyes' : (probeFound (jobVol s j 16) f s).1 = yes := hyes
    rw [← hyes', ← hbank]
    simp only [hon, Bool.not_true, Bool.false_eq_true, if_false]
    rfl
  · exact (heldOf_of_mem hmem b).trans hheld
  · rw [← hmaybe]
    exact hmark

/-- An INSERT ends with the bucket as `filterInsert` leaves it. -/
theorem exec_lauterInsert (h : accepted s id 0x02 2 = some j) {l : List Nat}
    (hins : let b := bucketOf s (volGroup s (jobVol s j 16)) (jobFp s j)
      (filterInsert (volGroup s (jobVol s j 16)) (jobFp s j) s).jobs = s.jobs ∧ heldOf (filterInsert (volGroup s (jobVol s j 16)) (jobFp s j) s) b = l) :
    ∃ t, exec (.lauterInsert id) s = .next t ∧ JobDone t id ⟨0, 0, 1, 0⟩ ∧ heldOf t (bucketOf s (volGroup s (jobVol s j 16)) (jobFp s j)) = l :=
  ⟨_, congrArg ok (runJob_finish (t := filterInsert (volGroup s (jobVol s j 16)) (jobFp s j) s) (r := ⟨0, 0, 1, 0⟩) h rfl hins.1),
    ⟨_, kget_kput_self _ _ _, rfl⟩, (heldOf_of_mem rfl _).trans hins.2⟩

/-- A DELETE ends with the filter as `filterDelete` leaves it. -/
theorem exec_lauterDelete (h : accepted s id 0x02 3 = some j) (hjobs : (filterDelete (volGroup s (jobVol s j 16)) (jobFp s j) s).jobs = s.jobs) :
    ∃ t, exec (.lauterDelete id) s = .next t ∧ JobDone t id ⟨0, 0, 1, 0⟩ ∧ t.mem = (filterDelete (volGroup s (jobVol s j 16)) (jobFp s j) s).mem :=
  ⟨_, congrArg ok (runJob_finish (t := filterDelete (volGroup s (jobVol s j 16)) (jobFp s j) s) (r := ⟨0, 0, 1, 0⟩) h rfl hjobs),
    ⟨_, kget_kput_self _ _ _, rfl⟩, rfl⟩

end

/-- A deletion of a remainder that the bucket does not hold changes nothing. -/
theorem filterDelete_of_not_mem {s : State} {g : Nat} {f : List Byte} (h : remOf f ∉ heldOf s (bucketOf s g f)) : filterDelete g f s = s := by
  unfold filterDelete
  dsimp only
  rw [lastIdx_of_not_mem h]

/-- LAUTER jobs. -/
theorem filterJobs : Claim.FilterJobs := by
  intro id j s hm hcap v f b r yes
  have hb : bucketOf s (volGroup s (jobVol s j 16)) (jobFp s j) < 2 ^ 33 := bucketOf_lt hcap (volGroup_lt s _) _
  refine ⟨exec_lauterProbe hcap, exec_lauterProbe_noDedupe, fun h hroom => ?_, fun h hfull => ?_, fun l m h hcount hheld hnew => ?_, fun h hnone => ?_⟩
  · exact exec_lauterInsert h (heldOf_filterInsert_of_room hm hb hroom)
  · exact exec_lauterInsert h (heldOf_filterInsert_of_full hm hb hfull)
  · obtain ⟨hjobs, hrest⟩ := heldOf_filterDelete hm hb hcount hheld hnew
    obtain ⟨t, hexec, hdone, hmem⟩ := exec_lauterDelete h hjobs
    exact ⟨t, hexec, hdone, (heldOf_of_mem hmem _).trans hrest⟩
  · have hsame : filterDelete (volGroup s (jobVol s j 16)) (jobFp s j) s = s := filterDelete_of_not_mem hnone
    obtain ⟨t, hexec, hdone, hmem⟩ := exec_lauterDelete h (congrArg State.jobs hsame)
    exact ⟨t, hexec, hdone, hmem.trans (congrArg State.mem hsame)⟩

/-! ### The end of an admission window (R170) -/

/-- The end of a window sets the bit by the hits, and starts the counts again. -/
theorem admitOf_admitEnd {s : State} (hkeys : keysFrom 0 s.gl.admission = true) (v : Nat) :
    admitOf (admitEnd v s) v = ⟨decide (getF s F.GL_ADMIT_THRESH * (admitOf s v).probes ≤ (admitOf s v).hits * 65536), 0, 0⟩ := by
  have hset (a : Admit) : admitOf (setAdmit v a s) v = a := kgetD_kputD_self hkeys v a
  unfold admitEnd
  dsimp only
  split
  · exact hset _
  · rw [sameButLog_govRecord]
    exact hset _

theorem admissionWindows : Claim.AdmissionWindows := by
  intro vol s hkeys a
  refine ⟨fun hon hprobes => ?_, fun hoff => ?_⟩
  · exact ⟨admitEnd vol.toNat s, congrArg ok (if_pos ⟨hon, hprobes⟩), admitOf_admitEnd hkeys _, (SameFilter.admitEnd _ s).mem⟩
  · refine congrArg ok (if_neg fun h => ?_)
    obtain ⟨hon, hprobes⟩ := h
    rcases hoff with hoff | hfew
    · exact absurd hon (hoff ▸ Bool.false_ne_true)
    · exact Nat.not_lt.mpr hprobes hfew

/-- Settles O35: each clause by what the operation does to the buffer, the registers, the bucket of the fingerprint and the window's counts. -/
theorem fingerprintResults : Obligations.FingerprintResults := ⟨fingerprintResults_grist, filterEnable, filterJobs, admissionWindows⟩

end Sys2Proof.Machine
end

section
/-! SUPPORT. The coded block: what a decoding and a coding that succeed give (R188 to R194). -/

namespace Sys2Proof.Machine

/-! ### Decoding (R190, R191) -/

theorem literals_length (st p n : Nat) (out : List Byte) : (literals st p n out).length = out.length + n := by
  induction n generalizing p out with
  | zero => rfl
  | succ n ih => rw [literals, ih, List.length_cons, Nat.add_right_comm, Nat.add_assoc]

theorem copyBack_length (d m : Nat) (out : List Byte) : (copyBack d m out).length = out.length + m := by
  induction m generalizing out with
  | zero => rfl
  | succ m ih => rw [copyBack, ih, List.length_cons, Nat.add_right_comm, Nat.add_assoc]

/-- The tokens of a stream stop at exactly 4,096 bytes: none may go past them, and they go on below. -/
theorem decodeTokens_length {st sbits fuel p q : Nat} {out l : List Byte} (hout : out.length ≤ 4096)
    (h : decodeTokens st sbits fuel p out = some (q, l)) : l.length = 4096 := by
  induction fuel generalizing p out with
  | zero => cases h
  | succ fuel ih =>
    unfold decodeTokens at h
    split at h
    · next hfull =>
      obtain ⟨rfl, rfl⟩ := Prod.mk.inj (Option.some.inj h)
      exact Nat.le_antisymm hout hfull
    · dsimp only at h
      split at h
      · split at h
        · cases h
        · next hfits => exact ih (by rw [literals_length]; omega) h
      · split at h
        · cases h
        · next hfits => exact ih (by rw [copyBack_length]; omega) h

/-- A coded block that decodes gives 4,096 bytes, of which it holds the GUARD. -/
theorem decodeBlock_eq_some {img out : List Byte} (h : decodeBlock img = some out) : out.length = 4096 ∧ crc64 out = codedGuard img := by
  unfold decodeBlock at h
  dsimp only at h
  split at h
  · cases h
  · split at h
    · next p l htokens =>
      split at h
      · cases h
      · next hgood =>
        obtain rfl := Option.some.inj h
        rw [not_or, not_or, not_ne_iff, not_ne_iff, not_ne_iff] at hgood
        obtain ⟨-, -, hguard⟩ := hgood
        rw [List.length_reverse]
        exact ⟨decodeTokens_length (Nat.zero_le _) htokens, hguard⟩
    · cases h

/-! ### Coding (R193, R194) -/

/-- No LIMIT allows more than the three coded classes. -/
theorem limitClasses_le {limit : Nat} (h : limit < 4) : limitClasses limit ≤ 3 := by
  unfold limitClasses
  split <;> omega

/-- A block that is coded has a class that LIMIT allows, an image of exactly its size, and is what the image decodes to. -/
theorem codeBlock_eq_coded {k limit c need : Nat} {src img : List Byte} (h : codeBlock k limit src = .coded c need img) :
    c < limitClasses limit ∧ img.length = classSize c ∧ decodeBlock img = some src := by
  unfold codeBlock at h
  dsimp only at h
  split at h
  · cases h
  · next d hfind =>
    have hallowed : d < limitClasses limit := List.mem_range.mp (List.mem_of_find?_eq_some hfind)
    have hfits : 16 + ((Config.coder k src).1 + 7) / 8 ≤ classSize d := by simpa using List.find?_some hfind
    split at h
    · next hverified =>
      obtain ⟨rfl, rfl, rfl⟩ := Coded.coded.inj h
      refine ⟨hallowed, ?_, hverified⟩
      simp only [zeros, List.length_append, leBytes_length, List.length_cons, List.length_nil, List.length_replicate, List.length_take]
      omega
    · cases h

end Sys2Proof.Machine
end

section
/-! PROOFS. CODE and DECODE of one block, and the trials of the skip window (R191, R193 to R199, R204, R206). -/

namespace Sys2Proof.Machine

/-! ### What one write and its counts leave -/

/-- Two states that agree outside the registers and the log still do once each takes a free value. -/
theorem SameButLog.nextFree {s t : State} (h : SameButLog s t) : SameButLog (nextFree s) (nextFree t) := congrArg Machine.nextFree h

/-- Two states that agree outside the registers and the log still do once each takes the same write of memory. -/
theorem SameButLog.wrB {s t : State} (h : SameButLog s t) (a : Nat) (l : List Byte) : SameButLog (wrB a l s) (wrB a l t) := congrArg (Machine.wrB a l) h

theorem SameButLog.bump {s t : State} (h : SameButLog s t) (r : RegName) : SameButLog s (bump r t) := h.trans (sameButLog_wr _ _ _ _ _)

/-- Where all that was done to memory is one write, it reads back there, and the rest is as before. -/
theorem rdB_and_sameMemBut_of_wrB {s t : State} (hm : Memory.wf s.mem = true) {a n : Nat} {l : List Byte} (hlen : l.length = n)
    (hmem : t.mem = (wrB a l s).mem) : rdB t a n = l ∧ SameMemBut a n s t := by
  subst hlen
  exact ⟨(congrArg (mread · a l.length) hmem).trans (rdB_wrB hm a l), fun b hb => (congrArg (mget · b) hmem).trans (mget_mwrite_of_out _ _ _ hb)⟩

/-! ### CODE (R193 to R198) -/

/-- What a CODE job of one block reports of its outcome (R196). -/
def Coded.result : Coded → JobResult
  | .coded c need _ => ⟨0, 0, 1, c + 2 ^ 16 * need⟩
  | .noshrink => ⟨rNoshrink, 0, 1, 3⟩
  | .mismatch _ => ⟨rVerify, 0, 1, 3⟩

/-- What a CODE job of one block stores: its image, or nothing (R194, R196). -/
def Coded.stored : Coded → List Byte
  | .coded _ _ img => img
  | .noshrink | .mismatch _ => []

section
variable {id : Nat} {j : Job} {s : State}

/-- Keeping the outcomes of a job for the governor changes nothing but the governor's record of them. -/
theorem noteOutcomes_eq (vol : Nat) (l : List Bool) : ∃ c, noteOutcomes id j vol l s = { s with comp := c } := by
  unfold noteOutcomes
  split
  · exact ⟨_, rfl⟩
  · exact ⟨s.comp, rfl⟩

/-- A job that names no more than one block is for one (R200). -/
theorem compNblk_one (h : j.n 32 4 ≤ 1) : compNblk j = 1 := Nat.max_eq_left h

/-- The first block of a CODE job, with room for the largest image: its outcome is the result, its image is stored, and the rest is counted and recorded. -/
theorem codeBlocks_one (vol : Nat) (hlimit : j.n 52 1 < 4) (hroom : 3072 ≤ compDstLen j) :
    let a := codeBlocks j vol 1 s
    let x := codeBlock s.free (j.n 52 1) (rdB s (j.n 8 8) 4096)
    a.full = false ∧ a.last = x.result ∧ SameButLog (wrB (j.n 16 8) x.stored (nextFree s)) a.st := by
  intro a x
  have ha : a = codeStep j vol ⟨0, [], [], JobResult.of 0, false, bumpBy (compNblk j) .CE_CODE_CNT s⟩ 0 := rfl
  have hblock : codeBlock (bumpBy (compNblk j) .CE_CODE_CNT s).free (j.n 52 1) (rdB (bumpBy (compNblk j) .CE_CODE_CNT s) (j.n 8 8 + 4096 * 0) 4096) = x := rfl
  rw [codeStep, if_neg Bool.false_ne_true] at ha
  dsimp only at ha
  rw [hblock] at ha
  have hstart : SameButLog (nextFree s) (nextFree (bumpBy (compNblk j) .CE_CODE_CNT s)) := .nextFree (sameButLog_wr _ _ _ _ _)
  cases hx : x with
  | coded c need img =>
    obtain ⟨hc, -, -⟩ := codeBlock_eq_coded hx
    have hthree := limitClasses_le hlimit
    have hfits : ¬compDstLen j < 1024 * 0 + classSize c := by rw [classSize]; omega
    rw [hx] at ha
    dsimp only at ha
    rw [if_neg hfits] at ha
    rw [ha]
    exact ⟨rfl, rfl, ((hstart.wrB (j.n 16 8) img).bump _).trans (sameButLog_pmc _ _ _ _)⟩
  | noshrink =>
    rw [hx] at ha
    rw [ha]
    exact ⟨rfl, rfl, (hstart.bump .CE_NOSHRINK_CNT).trans (sameButLog_pmc _ _ _ _)⟩
  | mismatch c =>
    rw [hx] at ha
    rw [ha]
    exact ⟨rfl, rfl, (((hstart.bump .CE_VERIFY_CNT).trans (sameButLog_raise _ _ _)).trans (sameButLog_cel _ _ _ _ _ _ _)).trans (sameButLog_pmc _ _ _ _)⟩

/-- A CODE job of one block ends with the result of its outcome, and its image is all that it stores. -/
theorem exec_compCode_one (h : accepted s id 0x04 1 = some j) (hone : j.n 32 4 ≤ 1) (hcomp : volFlag s (jobVol s j 48) 3 = false)
    (hlimit : j.n 52 1 < 4) (hroom : 3072 ≤ compDstLen j) :
    let x := codeBlock s.free (j.n 52 1) (rdB s (j.n 8 8) 4096)
    ∃ t, exec (.compCode id) s = .next t ∧ JobDone t id x.result ∧ t.mem = (wrB (j.n 16 8) x.stored s).mem := by
  intro x
  obtain ⟨hroomy, hresult, hsame⟩ := codeBlocks_one (s := s) (jobVol s j 48) hlimit hroom
  generalize ha : codeBlocks j (jobVol s j 48) 1 s = a at hroomy hresult hsame
  obtain ⟨c, hnote⟩ := noteOutcomes_eq (id := id) (j := j) (s := a.st) (jobVol s j 48) a.outcomes
  refine ⟨_, congrArg ok (runJob_finish (t := noteOutcomes id j (jobVol s j 48) a.outcomes a.st) (r := x.result) h ?_ ?_),
    ⟨_, kget_kput_self _ _ _, rfl⟩, ?_⟩
  · simp only [hcomp, compNblk_one hone, ha, hroomy, hresult, Bool.false_eq_true, if_false, if_true]
    rfl
  · rw [hnote, hsame]
    rfl
  · exact (congrArg State.mem hnote).trans hsame.mem

end

/-- CODE of one block. -/
theorem compressionResults_code : Claim.CompressionResults := by
  intro id j s hm h hone hcomp hlimit hroom src
  obtain ⟨t, hexec, hdone, hmem⟩ := exec_compCode_one h hone hcomp hlimit hroom
  refine ⟨t, hexec, ?_⟩
  cases hx : codeBlock s.free (j.n 52 1) src with
  | coded c need img =>
    obtain ⟨-, hlen, hdecodes⟩ := codeBlock_eq_coded hx
    rw [hx] at hdone hmem
    obtain ⟨himg, hrest⟩ := rdB_and_sameMemBut_of_wrB hm hlen hmem
    exact ⟨hdone, himg, himg.symm ▸ hdecodes, hrest⟩
  | noshrink =>
    rw [hx] at hdone hmem
    exact ⟨hdone, hmem⟩
  | mismatch c =>
    rw [hx] at hdone hmem
    exact ⟨hdone, hmem⟩

/-! ### DECODE (R191, R199) -/

/-- The first block of a DECODE job without SLOT, whose FMT gives its size. -/
def firstImage (j : Job) (s : State) : List Byte := rdB s (j.n 8 8) (classSize (fmtClass (rdB s (j.n 8 8) 1)))

/-- The state once a block has been decoded, stored at DST and counted. -/
def decodedTo (j : Job) (out : List Byte) (s : State) : State :=
  pmc 0x0F02 (instNumber cDecomp j.inst) 1 (bump .CE_DECODE_CNT (wrB (j.n 16 8) out s))

theorem sameButLog_decodedTo (j : Job) (out : List Byte) (s : State) : SameButLog (wrB (j.n 16 8) out s) (decodedTo j out s) :=
  ((SameButLog.refl _).bump _).trans (sameButLog_pmc _ _ _ _)

/-- The state once a block without SLOT has failed as the first of its job: it is counted and recorded. -/
def decodeFailed (j : Job) (s : State) : State := cel 0x0F11 (instNumber cDecomp j.inst) 3 0 0 0 (bump .CE_CHECK_CNT s)

theorem sameButLog_decodeFailed (j : Job) (s : State) : SameButLog s (decodeFailed j s) :=
  ((SameButLog.refl _).bump _).trans (sameButLog_cel _ _ _ _ _ _ _)

section
variable {id : Nat} {j : Job} {s : State} {out : List Byte} (h : accepted s id 0x05 1 = some j) (hone : j.n 32 4 ≤ 1) (hslot : j.n 24 8 = 0)
  (hcap : classSize (fmtClass (rdB s (j.n 8 8) 1)) ≤ j.cap)
include hslot hcap

/-- A first block that is not cut off by what the job may read is decoded, or ends the job. -/
theorem decodeBlocks_one : decodeBlocks j 1 0 0 s =
    ((decodeBlock (firstImage j s)).elim (0, 0, false, 0, s) fun out =>
      (1, classSize (fmtClass (rdB s (j.n 8 8) 1)), true, codedGuard (firstImage j s), decodedTo j out s)) := by
  have hwithin : ¬j.cap < 0 + classSize (fmtClass (rdB s (j.n 8 8 + 0) 1)) := by rw [Nat.zero_add, Nat.add_zero]; exact Nat.not_lt.mpr hcap
  have himage : rdB s (j.n 8 8 + 0) (classSize (fmtClass (rdB s (j.n 8 8 + 0) 1))) = firstImage j s := rfl
  show decodeBlocks j (0 + 1) 0 0 s = _
  simp only [decodeBlocks, hslot, if_true, himage, hwithin, ne_eq, not_true_eq_false, decide_false, Bool.false_and, Bool.or_self, Bool.false_eq_true, if_false]
  cases decodeBlock (firstImage j s) with
  | none => rfl
  | some out => simp only [Nat.zero_add, Nat.mul_zero, Nat.add_zero]; rfl

include h hone

/-- A DECODE job of one block that decodes stores it and ends with its GUARD. -/
theorem exec_decompDecode_of_some (hgood : decodeBlock (firstImage j s) = some out) :
    ∃ t, exec (.decompDecode id) s = .next t ∧ JobDone t id ⟨0, 0, 1, codedGuard (firstImage j s)⟩ ∧ t.mem = (wrB (j.n 16 8) out s).mem := by
  refine ⟨_, congrArg ok (runJob_finish (t := decodedTo j out s) (r := ⟨0, 0, 1, codedGuard (firstImage j s)⟩) h ?_ ?_), ⟨_, kget_kput_self _ _ _, rfl⟩,
    (sameButLog_decodedTo _ _ _).mem⟩
  · simp only [compNblk_one hone, decodeBlocks_one hslot hcap, hgood, Option.elim]
    rfl
  · rw [sameButLog_decodedTo]
    rfl

/-- A DECODE job of one block that fails the procedure ends with CHECK and stores nothing. -/
theorem exec_decompDecode_of_none (hbad : decodeBlock (firstImage j s) = none) :
    ∃ t, exec (.decompDecode id) s = .next t ∧ JobDone t id ⟨rCheck, 0, 0, 0⟩ ∧ t.mem = s.mem := by
  refine ⟨_, congrArg ok (runJob_finish (t := decodeFailed j s) (r := ⟨rCheck, 0, 0, 0⟩) h ?_ ?_), ⟨_, kget_kput_self _ _ _, rfl⟩,
    (sameButLog_decodeFailed _ _).mem⟩
  · simp only [compNblk_one hone, decodeBlocks_one hslot hcap, hbad, Option.elim, hslot]
    rfl
  · rw [sameButLog_decodeFailed]

end

/-- DECODE of one block without SLOT. -/
theorem decompressionResults : Claim.DecompressionResults := by
  intro id j s hm h hone hslot n img hcap
  cases hdecode : decodeBlock img with
  | some out =>
    obtain ⟨hlen, hguard⟩ := decodeBlock_eq_some hdecode
    obtain ⟨t, hexec, hdone, hmem⟩ := exec_decompDecode_of_some h hone hslot hcap hdecode
    exact ⟨t, hexec, hdone, hlen, hguard, rdB_and_sameMemBut_of_wrB hm hlen hmem⟩
  | none => exact exec_decompDecode_of_none h hone hslot hcap hdecode

/-! ### The skip window (R204, R206) -/

section
variable {v : BitVec 18} {s : State} (hfull : trialFull s v.toNat = true)
include hfull

/-- The end of a trial with enough NOSHRINK blocks opens a window, whose size SKIP takes. -/
theorem exec_skipTrialEnd_opens (hm : Memory.wf s.mem = true) (hopens : (skipOf s v.toNat).par.thresh ≤ (skipOf s v.toNat).noshrink) :
    ∃ t, exec (.skipTrialEnd v) s = .next t ∧ rdN t (volAddr v.toNat + 24) 8 = windowSize s v.toNat % 2 ^ 64 ∧
      SameMemBut (volAddr v.toNat + 24) 8 s t ∧ skipOf t v.toNat = ⟨windowSize s v.toNat, 0, 0, true, {}⟩ := by
  have hrun : exec (.skipTrialEnd v) s = ok (if trialFull s v.toNat then trialEnd v.toNat s else s) := rfl
  rw [if_pos hfull, trialEnd, trialOpens, if_pos (decide_eq_true hopens)] at hrun
  have hsame := sameButLog_govRecord 2 v.toNat (windowSize s v.toNat) (skipSize s v.toNat) (openWindow v.toNat s)
  generalize govRecord 2 v.toNat (windowSize s v.toNat) (skipSize s v.toNat) (openWindow v.toNat s) = u at hrun hsame
  have hmem : (openWindow v.toNat s).mem = (wrB (volAddr v.toNat + 24) (leBytes 8 (windowSize s v.toNat)) s).mem := rfl
  obtain ⟨hread, hrest⟩ := rdB_and_sameMemBut_of_wrB hm (leBytes_length _ _) (hsame.mem.trans hmem)
  refine ⟨u, hrun, ?_, hrest, ?_⟩
  · rw [rdN, ← rdB, hread, leNat_leBytes, show 256 ^ 8 = 2 ^ 64 from rfl]
  · have hcomp : u.comp = (openWindow v.toNat s).comp := by rw [hsame]
    rw [skipOf, hcomp, ← skipOf, skipOf_openWindow]

/-- The end of any other trial starts the governor's record of the volume afresh. -/
theorem exec_skipTrialEnd_closed (hfew : (skipOf s v.toNat).noshrink < (skipOf s v.toNat).par.thresh) :
    exec (.skipTrialEnd v) s = .next (setSkip v.toNat { n := 2 ^ (skipOf s v.toNat).par.lmin } s) := by
  have hrun : exec (.skipTrialEnd v) s = ok (if trialFull s v.toNat then trialEnd v.toNat s else s) := rfl
  rw [if_pos hfull, trialEnd, trialOpens, decide_eq_false (Nat.not_le.mpr hfew), if_neg Bool.false_ne_true] at hrun
  exact hrun

end

/-- A record with a window size is the record of its volume. -/
theorem skipOf_setSkip {k : SkipSt} (h : k.n ≠ 0) (v : Nat) (s : State) : skipOf (setSkip v k s) v = k := by
  have hne : k ≠ {} := fun hk => h (congrArg SkipSt.n hk)
  show kgetD (kputD {} s.comp.skip v k) v {} = k
  rw [kputD, if_neg hne, kgetD_kput_self]

/-- The trials of the skip window. -/
theorem skipTrials : Claim.SkipTrials := by
  intro v s hm hfull k opens
  refine ⟨fun hopens hfirst => ?_, fun hopens hagain => ?_, fun hfew => ?_⟩
  · have hsize : windowSize s v.toNat = 2 ^ k.par.lmin := by rw [windowSize, if_neg (Bool.eq_false_iff.mp hfirst)]
    exact hsize ▸ exec_skipTrialEnd_opens hfull hm hopens
  · have hsize : windowSize s v.toNat = min (2 * k.n) (2 ^ k.par.lmax) := if_pos hagain
    exact hsize ▸ exec_skipTrialEnd_opens hfull hm hopens
  · exact ⟨_, exec_skipTrialEnd_closed hfull hfew, skipOf_setSkip (Nat.ne_of_gt (Nat.two_pow_pos _)) _ _, rfl, rfl⟩

/-- Settles O26: what one block of a job stores and reports, and what the end of a trial writes. -/
theorem compressionResults : Obligations.CompressionResults := ⟨compressionResults_code, decompressionResults, skipTrials⟩

end Sys2Proof.Machine
end

section
/-! SUPPORT. The lengths of what the ciphers give, and that counter mode opens what it seals (R214, R216, R219, R222). -/

namespace Sys2Proof.Machine

/-! ### AES -/

@[simp] theorem beBytes_length (n v : Nat) : (beBytes n v).length = n := by rw [beBytes, List.length_reverse, leBytes_length]

@[simp] theorem xorB_length (a b : List Byte) : (xorB a b).length = min a.length b.length := List.length_zipWith

@[simp] theorem shiftRows_length (inv : Bool) (s : List Nat) : (shiftRows inv s).length = 16 := by rw [shiftRows, List.length_map, List.length_range]

theorem addKey_length {s k : List Nat} (hs : s.length = 16) (hk : k.length = 16) : (addKey s k).length = 16 := by
  rw [addKey, List.length_zipWith, hs, hk, Nat.min_self]

/-- A block is encrypted to 16 bytes where the last round key has 16. -/
theorem aesEnc_length {ks : List (List Nat)} (hlast : (ks.getD 14 []).length = 16) (b : List Byte) : (aesEnc ks b).length = 16 := by
  rw [aesEnc, List.length_map]
  exact addKey_length (shiftRows_length _ _) hlast

/-- A block is decrypted to 16 bytes where the first round key has 16. -/
theorem aesDec_length {ks : List (List Nat)} (hfirst : (ks.getD 0 []).length = 16) (b : List Byte) : (aesDec ks b).length = 16 := by
  rw [aesDec, List.length_map]
  exact addKey_length (by rw [List.length_map, shiftRows_length]) hfirst

/-- A step of the key schedule puts a word of 4 bytes before at least 8 of them. -/
theorem aesExpand_words (n i : Nat) {w : List (List Nat)} (hcount : 8 ≤ w.length) (hwords : ∀ x ∈ w, x.length = 4) :
    (aesExpand n i w).length = n + w.length ∧ ∀ x ∈ aesExpand n i w, x.length = 4 := by
  induction n generalizing i w with
  | zero => exact ⟨(Nat.zero_add _).symm, hwords⟩
  | succ n ih =>
    have word {k : Nat} (hk : k < 8) : (w.getD k []).length = 4 := by
      rw [List.getD_eq_getElem _ _ (by omega)]
      exact hwords _ (List.getElem_mem _)
    unfold aesExpand
    dsimp only
    generalize ht : (if i % 8 = 0 then _ else _ : List Nat) = t
    have htlen : t.length = 4 := by
      rw [← ht]
      split
      · simp only [List.length_zipWith, List.length_map, List.length_append, List.length_drop, List.length_take, word (Nat.zero_lt_succ 7), List.length_cons,
          List.length_nil]
        rfl
      · split
        · rw [List.length_map, word (by decide)]
        · exact word (by decide)
    have hnew : (List.zipWith (· ^^^ ·) (w.getD 7 []) t).length = 4 := by rw [List.length_zipWith, word (by decide), htlen, Nat.min_self]
    obtain ⟨hlen, hall⟩ := ih (i + 1) (w := List.zipWith (· ^^^ ·) (w.getD 7 []) t :: w) (Nat.le_succ_of_le hcount)
      (List.forall_mem_cons.mpr ⟨hnew, hwords⟩)
    exact ⟨by rw [hlen, List.length_cons]; omega, hall⟩

/-- The words of a list of bytes, four at a time, have 4 bytes. -/
theorem words_of_bytes {k : List Nat} (h : k.length = 32) : ∀ x ∈ (List.range 8).map fun i => (k.drop (4 * i)).take 4, x.length = 4 := by
  intro x hx
  obtain ⟨i, hi, rfl⟩ := List.mem_map.mp hx
  rw [List.mem_range] at hi
  rw [List.length_take, List.length_drop, h]
  omega

/-- A list of lists of one length has that length for each of them. -/
theorem length_flatten_of_forall {α : Type} {n : Nat} {l : List (List α)} (h : ∀ x ∈ l, x.length = n) : l.flatten.length = l.length * n := by
  rw [List.length_flatten, List.sum_eq_card_nsmul _ n (by simpa using h), List.length_map, smul_eq_mul]

/-- The round keys of a key of 32 bytes have 16 bytes. -/
theorem aesKeys_length {key : List Byte} (h : key.length = 32) {r : Nat} (hr : r < 15) : ((aesKeys key).getD r []).length = 16 := by
  unfold aesKeys
  dsimp only
  generalize hw : (aesExpand 52 8 _).reverse = w
  obtain ⟨hlen, hall⟩ := aesExpand_words 52 8 (w := ((List.range 8).map fun i => ((key.map BitVec.toNat).drop (4 * i)).take 4).reverse)
    (by rw [List.length_reverse, List.length_map, List.length_range])
    (fun x hx => words_of_bytes (by rw [List.length_map, h]) x (List.mem_reverse.mp hx))
  rw [← List.length_reverse, hw, List.length_reverse, List.length_map, List.length_range] at hlen
  have hwords : ∀ x ∈ w, x.length = 4 := fun x hx => hall x (List.mem_reverse.mp (hw ▸ hx))
  rw [List.getD_eq_getElem _ _ (by rw [List.length_map, List.length_range]; exact hr), List.getElem_map, List.getElem_range,
    length_flatten_of_forall fun x hx => hwords x (List.mem_of_mem_drop (List.mem_of_mem_take hx)), List.length_take, List.length_drop, hlen]
  omega

/-! ### Derived keys (R214) -/

theorem cmac_length {key : List Byte} (h : key.length = 32) (m : List Byte) : (cmac key m).length = 16 :=
  aesEnc_length (aesKeys_length h (by decide)) _

/-- A derived key has the bytes that were asked for. -/
theorem kdf_length {key : List Byte} (h : key.length = 32) (label : String) (ty ident epoch nbits : Nat) :
    (kdf key label ty ident epoch nbits).length = nbits / 8 := by
  have hblocks (f : Nat → List Byte) : (((List.range ((nbits + 127) / 128)).flatMap fun i => cmac key (f i))).length = (nbits + 127) / 128 * 16 := by
    rw [List.flatMap_def, length_flatten_of_forall (n := 16), List.length_map, List.length_range]
    intro x hx
    obtain ⟨i, -, rfl⟩ := List.mem_map.mp hx
    exact cmac_length h _
  rw [kdf, List.length_take, hblocks]
  omega

/-! ### Pieces -/

theorem chunksOf_nil {n : Nat} (hn : 0 < n) : chunksOf n [] = [] := by
  rw [chunksOf, List.length_nil, Nat.zero_add, Nat.div_eq_of_lt (Nat.sub_lt hn Nat.one_pos)]
  rfl

/-- The first piece of a text, and the pieces of the rest. -/
theorem chunksOf_of_ne_nil {n : Nat} (hn : 0 < n) {l : List Byte} (hl : l ≠ []) : chunksOf n l = l.take n :: chunksOf n (l.drop n) := by
  have hpos : 0 < l.length := List.length_pos_iff.mpr hl
  have hcount : (l.length + n - 1) / n = (l.length - n + n - 1) / n + 1 := by
    rw [← Nat.add_div_right _ hn]
    rcases Nat.le_total n l.length with h | h
    · congr 1
      omega
    · rw [Nat.div_eq_of_lt_le (k := 1) (by omega) (by omega), Nat.div_eq_of_lt_le (k := 1) (by omega) (by omega)]
  rw [chunksOf, chunksOf, hcount, List.range_succ_eq_map, List.map_cons, Nat.mul_zero, List.drop_zero, List.map_map, List.length_drop]
  congr 1
  apply List.map_congr_left
  intro i _
  rw [Function.comp_apply, List.drop_drop, Nat.mul_succ, Nat.add_comm]

theorem chunksOf_length (n : Nat) (l : List Byte) : (chunksOf n l).length = (l.length + n - 1) / n := by
  rw [chunksOf, List.length_map, List.length_range]

/-! ### XTS -/

/-- Steps that each add `n` to what they put out. -/
theorem length_foldl_of_step {α β : Type} {f : β × List Byte → α → β × List Byte} {n : Nat} (hf : ∀ acc x, (f acc x).2.length = acc.2.length + n)
    (l : List α) (acc : β × List Byte) : (l.foldl f acc).2.length = acc.2.length + n * l.length := by
  induction l generalizing acc with
  | nil => rfl
  | cons x l ih => rw [List.foldl_cons, ih, hf, List.length_cons, Nat.mul_succ, Nat.add_assoc, Nat.add_comm n]

/-- XTS gives 16 bytes for each piece of the text. -/
theorem xts_length {key : List Byte} (h : key.length = 64) (enc : Bool) (tweak : Nat) {d : List Byte} (hd : d.length % 16 = 0) :
    (xts enc key tweak d).length = d.length := by
  have hkey : (key.take 32).length = 32 := by rw [List.length_take, h]; rfl
  have hblock (b : List Byte) : ((if enc then aesEnc else aesDec) (aesKeys (key.take 32)) b).length = 16 := by
    cases enc with
    | true => exact aesEnc_length (aesKeys_length hkey (by decide)) b
    | false => exact aesDec_length (aesKeys_length hkey (by decide)) b
  rw [xts, length_foldl_of_step (n := 16), chunksOf_length, List.length_nil]
  · omega
  · intro acc b
    rw [List.length_append, xorB_length, leBytes_length, hblock]
    rfl

/-! ### Counter mode (R219, R222) -/

/-- Exclusive or with a pad that is long enough, done twice, gives the text back. -/
theorem xorB_xorB {a b : List Byte} (h : a.length ≤ b.length) : xorB (xorB a b) b = a := by
  apply List.ext_getElem
  · rw [xorB_length, xorB_length]
    omega
  · intro i _ _
    simp only [xorB, List.getElem_zipWith, BitVec.xor_assoc, BitVec.xor_self, BitVec.xor_zero]

/-- A text in counter mode whose pads are given, from pad `k` on. -/
def padText (pad : Nat → List Byte) (k : Nat) (d : List Byte) : List Byte :=
  (((chunksOf 16 d).zipIdx k).map fun (b, i) => xorB b (pad i)).flatten

theorem gcmText_eq_padText (ks : List (List Nat)) (nonce d : List Byte) :
    gcmText ks nonce d = padText (fun i => aesEnc ks (nonce ++ beBytes 4 (i + 2))) 0 d := rfl

section
variable {pad : Nat → List Byte}

theorem padText_nil (k : Nat) : padText pad k [] = [] := by
  rw [padText, chunksOf_nil (by decide)]
  rfl

/-- The first piece is padded with the first pad, and the rest with the next ones. -/
theorem padText_of_ne_nil (k : Nat) {d : List Byte} (hd : d ≠ []) : padText pad k d = xorB (d.take 16) (pad k) ++ padText pad (k + 1) (d.drop 16) := by
  rw [padText, chunksOf_of_ne_nil (by decide) hd]
  rfl

variable (hpad : ∀ i, (pad i).length = 16)
include hpad

/-- Counter mode keeps the length of a text, and opens what it seals. -/
theorem padText_spec (n k : Nat) {d : List Byte} (hn : d.length ≤ n) : (padText pad k d).length = d.length ∧ padText pad k (padText pad k d) = d := by
  induction n generalizing k d with
  | zero =>
    obtain rfl := List.eq_nil_of_length_eq_zero (Nat.le_zero.mp hn)
    rw [padText_nil, padText_nil]
    exact ⟨rfl, rfl⟩
  | succ n ih =>
    by_cases hd : d = []
    · subst hd
      rw [padText_nil, padText_nil]
      exact ⟨rfl, rfl⟩
    · have hpos : 0 < d.length := List.length_pos_iff.mpr hd
      obtain ⟨hrest, hopens⟩ := ih (k + 1) (d := d.drop 16) (by rw [List.length_drop]; omega)
      have hfirst : (xorB (d.take 16) (pad k)).length = min 16 d.length := by rw [xorB_length, List.length_take, hpad]; omega
      have hlen : (padText pad k d).length = d.length := by
        rw [padText_of_ne_nil k hd, List.length_append, hfirst, hrest, List.length_drop]
        omega
      have hne : padText pad k d ≠ [] := List.length_pos_iff.mp (by rw [hlen]; exact hpos)
      have htake : (padText pad k d).take 16 = xorB (d.take 16) (pad k) := by
        rw [padText_of_ne_nil k hd]
        rcases Nat.le_total 16 d.length with h | h
        · exact List.take_left' (by rw [hfirst]; omega)
        · rw [List.drop_eq_nil_of_le h, padText_nil, List.append_nil, List.take_of_length_le (by rw [hfirst]; omega)]
      have hdrop : (padText pad k d).drop 16 = padText pad (k + 1) (d.drop 16) := by
        rw [padText_of_ne_nil k hd]
        rcases Nat.le_total 16 d.length with h | h
        · exact List.drop_left' (by rw [hfirst]; omega)
        · rw [List.drop_eq_nil_of_le h, padText_nil, List.append_nil, List.drop_eq_nil_of_le (by rw [hfirst]; omega)]
      refine ⟨hlen, ?_⟩
      rw [padText_of_ne_nil k hne, htake, hdrop, hopens, xorB_xorB (by rw [List.length_take, hpad]; omega), List.take_append_drop]

end

section
variable {ks : List (List Nat)} (hlast : (ks.getD 14 []).length = 16)
include hlast

/-- The text in counter mode has the length of the plain text, and opens to it. -/
theorem gcmText_spec (nonce d : List Byte) : (gcmText ks nonce d).length = d.length ∧ gcmText ks nonce (gcmText ks nonce d) = d := by
  simp only [gcmText_eq_padText]
  exact padText_spec (fun i => aesEnc_length hlast _) d.length 0 (Nat.le_refl _)

theorem gcmTag_length (nonce aad c : List Byte) : (gcmTag ks nonce aad c).length = 16 := by
  rw [gcmTag, xorB_length, beBytes_length, aesEnc_length hlast, Nat.min_self]

end

/-- Settles O28: each piece is added to the same pad of 16 bytes twice. -/
theorem counterModeOpensWhatItSeals : Obligations.CounterModeOpensWhatItSeals := fun _ nonce d hlast => (gcmText_spec hlast nonce d).2

end Sys2Proof.Machine
end

section
/-! SUPPORT and PROOFS. The key commands, and the purge of derived keys (R212, R213). -/

namespace Sys2Proof.Machine

theorem SameButLog.xe {s t : State} (h : SameButLog s t) : t.xe = s.xe := by rw [h]

/-! ### Words stored one after another -/

/-- Stores a value in each of the first `n` registers of an array. -/
def wrWords (r : RegName) (v : Nat → Word) (n : Nat) (s : State) : State := (List.range n).foldl (fun t i => wr r (v i) t i) s

theorem zeroKeyIn_eq_wrWords (s : State) : zeroKeyIn s = wrWords .SEC_KEYIN (fun _ => 0) 7 s := rfl

theorem putKeyOut_eq_wrWords (l : List Byte) (s : State) : putKeyOut l s = wrWords .SEC_KEYOUT (fun i => BitVec.ofNat 64 (fieldN l (8 * i) 8)) 7 s := rfl

section
variable (r : RegName) (v : Nat → Word) (n : Nat) (s : State)

theorem wrWords_succ : wrWords r v (n + 1) s = wr r (v n) (wrWords r v n s) n := by rw [wrWords, List.range_succ, List.foldl_append]; rfl

theorem sameButLog_wrWords : SameButLog s (wrWords r v n s) := sameButLog_foldl _ (fun _ _ => sameButLog_wr _ _ _ _ _) _ _

variable {r n}

theorem rd_wrWords_of_addr_ne {q : RegName} {k l : Nat} (h : ∀ i < n, q.addr k l ≠ r.addr i 0) : rd (wrWords r v n s) q k l = rd s q k l := by
  induction n with
  | zero => rfl
  | succ n ih => rw [wrWords_succ, rd_wr_of_addr_ne (h n (Nat.lt_succ_self n)), ih fun i hi => h i (Nat.lt_succ_of_lt hi)]

theorem rd_wrWords_self (hs : 0 < r.info.s1) {k : Nat} (hk : k < n) : rd (wrWords r v n s) r k = v k := by
  induction n with
  | zero => exact absurd hk (Nat.not_lt_zero k)
  | succ n ih =>
    rw [wrWords_succ]
    rcases Nat.lt_succ_iff_lt_or_eq.mp hk with hlt | rfl
    · have hoff : k * r.info.s1 < n * r.info.s1 := Nat.mul_lt_mul_of_pos_right hlt hs
      rw [rd_wr_of_addr_ne (by rw [RegName.addr, RegName.addr]; omega), ih hlt]
    · exact rd_wr_self _ _ _ _ _

end

/-! ### How a key command ends (R212) -/

section
variable (s : State)

theorem sameButLog_zeroKeyIn : SameButLog s (zeroKeyIn s) := sameButLog_wrWords _ _ _ _

theorem sameButLog_putKeyOut (l : List Byte) : SameButLog s (putKeyOut l s) := sameButLog_wrWords _ _ _ _

theorem sameButLog_keyRefuse (err : Nat) : SameButLog s (keyRefuse err s) := (SameButLog.refl s).setF.setF.trans (sameButLog_zeroKeyIn _)

theorem sameButLog_keyDone : SameButLog s (keyDone s) := (SameButLog.refl s).setF.setF.trans (sameButLog_zeroKeyIn _)

@[simp] theorem putKeyOut_xe (l : List Byte) : (putKeyOut l s).xe = s.xe := (sameButLog_putKeyOut s l).xe

@[simp] theorem putKeyOut_mem (l : List Byte) : (putKeyOut l s).mem = s.mem := (sameButLog_putKeyOut s l).mem

@[simp] theorem zeroKeyIn_xe : (zeroKeyIn s).xe = s.xe := (sameButLog_zeroKeyIn s).xe

@[simp] theorem zeroKeyIn_mem : (zeroKeyIn s).mem = s.mem := (sameButLog_zeroKeyIn s).mem

@[simp] theorem keyRefuse_xe (err : Nat) : (keyRefuse err s).xe = s.xe := (sameButLog_keyRefuse s err).xe

@[simp] theorem keyRefuse_mem (err : Nat) : (keyRefuse err s).mem = s.mem := (sameButLog_keyRefuse s err).mem

@[simp] theorem keyDone_xe : (keyDone s).xe = s.xe := (sameButLog_keyDone s).xe

@[simp] theorem keyDone_mem : (keyDone s).mem = s.mem := (sameButLog_keyDone s).mem

theorem getF_zeroKeyIn {f : Fld} (h : ∀ i < 7, f.reg.addr 0 0 ≠ (RegName.SEC_KEYIN).addr i 0) : getF (zeroKeyIn s) f = getF s f := by
  rw [getF, zeroKeyIn_eq_wrWords, rd_wrWords_of_addr_ne _ _ h, getF]

theorem getF_putKeyOut {f : Fld} (h : ∀ i < 7, f.reg.addr 0 0 ≠ (RegName.SEC_KEYOUT).addr i 0) (l : List Byte) : getF (putKeyOut l s) f = getF s f := by
  rw [getF, putKeyOut_eq_wrWords, rd_wrWords_of_addr_ne _ _ h, getF]

theorem rd_zeroKeyIn {i : Nat} (h : i < 7) : rd (zeroKeyIn s) .SEC_KEYIN i = 0 := by
  rw [zeroKeyIn_eq_wrWords, rd_wrWords_self _ _ (by decide) h]

theorem rd_putKeyOut (l : List Byte) {i : Nat} (h : i < 7) : rd (putKeyOut l s) .SEC_KEYOUT i = BitVec.ofNat 64 (fieldN l (8 * i) 8) := by
  rw [putKeyOut_eq_wrWords, rd_wrWords_self _ _ (by decide) h]

/-- A refused command leaves its error. -/
theorem keyRefuse_stat {err : Nat} (herr : err < 256) :
    isF (keyRefuse err s) F.SEC_KEYSTAT_REFUSED = true ∧ getF (keyRefuse err s) F.SEC_KEYSTAT_ERR = err := by
  unfold keyRefuse isF
  simp (disch := decide) only [getF_zeroKeyIn, getF_setF_of_disjoint, getF_setF_self]
  exact ⟨rfl, Nat.mod_eq_of_lt herr⟩

/-- A command that has ended sets DONE without an error, and zeroes SEC_KEYIN. -/
theorem keyDone_stat : isF (keyDone s) F.SEC_KEYSTAT_DONE = true ∧ getF (keyDone s) F.SEC_KEYSTAT_ERR = 0 ∧
    (∀ i, i < 7 → rd (keyDone s) .SEC_KEYIN i = 0) ∧ isF (keyDone s) F.SEC_KEYSTAT_BUSY = isF s F.SEC_KEYSTAT_BUSY := by
  unfold keyDone isF
  simp (disch := decide) only [getF_zeroKeyIn, getF_setF_of_disjoint, getF_setF_self]
  exact ⟨rfl, rfl, fun i hi => rd_zeroKeyIn _ hi, trivial⟩

/-- A command that ends leaves what it put out. -/
theorem rd_keyDone_keyOut {i : Nat} (hi : i < 7) : rd (keyDone s) .SEC_KEYOUT i = rd s .SEC_KEYOUT i := by
  have haddr : ∀ i < 7, ∀ k < 7, (RegName.SEC_KEYOUT).addr i 0 ≠ (RegName.SEC_KEYIN).addr k 0 := by decide
  have hstat : ∀ i < 7, (RegName.SEC_KEYOUT).addr i 0 ≠ (RegName.SEC_KEYSTAT).addr 0 0 := by decide
  rw [keyDone, zeroKeyIn_eq_wrWords, rd_wrWords_of_addr_ne _ _ (haddr i hi), setF, rd_wr_of_addr_ne (hstat i hi), setF, rd_wr_of_addr_ne (hstat i hi)]

/-- A key that has been loaded is its slot's. -/
theorem kget_keys_loadKey (k : Nat) (x : KeySlot) : kget (loadKey k x s).xe.keys k = some x := kget_kput_self _ _ _

end

/-! ### A GO (R212) -/

/-- The word that a steward writes to SEC_KEYCMD for an operation on a slot. -/
def keyWord (op : Nat) (slot : BitVec 16) : Word := BitVec.ofNat 64 (slot.toNat * 2 ^ 16 + op * 2 + 1)

theorem keyWord_fields {op : Nat} (hop : op < 8) (slot : BitVec 16) :
    bit (keyWord op slot) 0 = true ∧ bits (keyWord op slot) 31 16 = slot.toNat ∧ bits (keyWord op slot) 3 1 = op := by
  have hslot := slot.isLt
  have hword : (keyWord op slot).toNat = slot.toNat * 2 ^ 16 + op * 2 + 1 := by
    rw [keyWord, BitVec.toNat_ofNat]
    omega
  refine ⟨?_, ?_, ?_⟩
  · rw [bit, BitVec.getLsbD, hword, Nat.testBit_zero, decide_eq_true_eq]
    omega
  · rw [bits, bitsN, hword]
    omega
  · rw [bits, bitsN, hword]
    omega

/-- The state in which a GO starts its operation: SEC_KEYCMD holds it, and SEC_KEYOUT is zero. -/
def keyStarted (op : Nat) (slot : BitVec 16) (s : State) : State :=
  putKeyOut [] (wr .SEC_KEYCMD (writeFields (rd s .SEC_KEYCMD) (keyWord op slot) (RegName.info .SEC_KEYCMD).fields) s)

section
variable (op : Nat) (slot : BitVec 16) (s : State)

theorem sameButLog_keyStarted : SameButLog s (keyStarted op slot s) := (sameButLog_wr _ _ _ _ _).trans (sameButLog_putKeyOut _ _)

theorem rd_keyIn_keyStarted {i : Nat} (hi : i < 7) : rd (keyStarted op slot s) .SEC_KEYIN i = rd s .SEC_KEYIN i := by
  have haddr : ∀ i < 7, ∀ k < 7, (RegName.SEC_KEYIN).addr i 0 ≠ (RegName.SEC_KEYOUT).addr k 0 := by decide
  have hcmd : ∀ i < 7, (RegName.SEC_KEYIN).addr i 0 ≠ (RegName.SEC_KEYCMD).addr 0 0 := by decide
  rw [keyStarted, putKeyOut_eq_wrWords, rd_wrWords_of_addr_ne _ _ (haddr i hi), rd_wr_of_addr_ne (hcmd i hi)]

theorem isF_busy_keyStarted : isF (keyStarted op slot s) F.SEC_KEYSTAT_BUSY = isF s F.SEC_KEYSTAT_BUSY := by
  rw [isF, isF, keyStarted, getF_putKeyOut _ (by decide), getF, rd_wr_of_addr_ne (by decide), getF]

@[simp] theorem keyStarted_xe : (keyStarted op slot s).xe = s.xe := (sameButLog_keyStarted op slot s).xe

@[simp] theorem keyStarted_mem : (keyStarted op slot s).mem = s.mem := (sameButLog_keyStarted op slot s).mem

theorem minSerial_keyStarted (k : Nat) : minSerial (keyStarted op slot s) k = minSerial s k := by
  rw [minSerial, keyStarted_xe, minSerial]

theorem keyIn_keyStarted {n : Nat} (hn : n ≤ 7) : keyIn (keyStarted op slot s) n = keyIn s n := by
  rw [keyIn, keyIn, List.flatMap_def, List.flatMap_def]
  congr 1
  apply List.map_congr_left
  intro i hi
  rw [List.mem_range] at hi
  rw [rd_keyIn_keyStarted op slot s (Nat.lt_of_lt_of_le hi hn)]

/-- The operation of a GO, by its number. -/
def keyOp (op k : Nat) (s : State) : State :=
  match op with
  | 1 => keyGenerate k s
  | 2 => keyWrap k s
  | 3 => keyLoad k s
  | 4 => keyClear false k s
  | 5 => keyClear true k s
  | _ => keyRefuse 0x02 s

/-- Where no command is under way, a GO performs its operation. -/
theorem keyGo_of_idle (hidle : isF s F.SEC_KEYSTAT_BUSY = false) (hop : op < 8) :
    keyGo op slot s = .next (keyOp op slot.toNat (keyStarted op slot s)) := by
  obtain ⟨hgo, hslot, hopf⟩ := keyWord_fields hop slot
  have hbusy := (isF_busy_keyStarted op slot s).trans hidle
  unfold keyStarted at hbusy ⊢
  rw [keyGo, ← keyWord, wrKeyCmd]
  simp only [hgo, hslot, hopf, hbusy, Bool.not_true, Bool.false_eq_true, if_false]
  rfl

end

/-! ### The commands (R212, R213) -/

/-- A command has ended: DONE is set without an error, SEC_KEYIN is zero, and memory is as before. -/
def KeyEnded (s t : State) : Prop :=
  isF t F.SEC_KEYSTAT_DONE = true ∧ getF t F.SEC_KEYSTAT_ERR = 0 ∧ (∀ i, i < 7 → rd t .SEC_KEYIN i = 0) ∧ t.mem = s.mem

/-- A command has been refused: REFUSED is set with its error, and key store and memory are as before. -/
def KeyRefused (s t : State) (err : Nat) : Prop :=
  isF t F.SEC_KEYSTAT_REFUSED = true ∧ getF t F.SEC_KEYSTAT_ERR = err ∧ t.xe = s.xe ∧ t.mem = s.mem

theorem keyEnded_keyDone {s u : State} (hmem : u.mem = s.mem) : KeyEnded s (keyDone u) := by
  obtain ⟨hdone, herr, hin, -⟩ := keyDone_stat u
  exact ⟨hdone, herr, hin, (keyDone_mem u).trans hmem⟩

theorem keyRefused_keyRefuse {s u : State} {err : Nat} (herr : err < 256) (hxe : u.xe = s.xe) (hmem : u.mem = s.mem) : KeyRefused s (keyRefuse err u) err := by
  obtain ⟨href, hcode⟩ := keyRefuse_stat u herr
  exact ⟨href, hcode, (keyRefuse_xe u err).trans hxe, (keyRefuse_mem u err).trans hmem⟩

/-- The record of a refusal leaves its status. -/
theorem KeyRefused.celOpen {s t : State} {err : Nat} (h : KeyRefused s t err) (u p0 p1 p2 : Nat) : KeyRefused s (celOpen u p0 p1 p2 t) err := by
  obtain ⟨href, hcode, hxe, hmem⟩ := h
  have hsame := sameButLog_celOpen u p0 p1 p2 t
  have hget {f : Fld} (hf : f.reg.addr 0 0 ≠ (RegName.CEL_LOST).addr 0 0) : getF (Machine.celOpen u p0 p1 p2 t) f = getF t f := getF_cel hf _ _ _ _ _ _ _
  exact ⟨by rw [isF, hget (by decide)]; exact href, by rw [hget (by decide)]; exact hcode, hsame.xe.trans hxe, hsame.mem.trans hmem⟩

theorem freeBytes_length (s : State) (n : Nat) : (freeBytes s n).length = n := by rw [freeBytes, List.length_map, List.length_range]

section
variable {slot : BitVec 16} {s : State}

/-- Every command that loads a key refuses a slot that is not EMPTY. -/
theorem keyOp_loaded {op k : Nat} (hop : op = 1 ∨ op = 2 ∨ op = 3) (h : kget s.xe.keys k ≠ none) : keyOp op k s = keyRefuse 0x01 s := by
  have hsome : (kget s.xe.keys k).isSome = true := Option.isSome_iff_ne_none.mpr h
  rcases hop with rfl | rfl | rfl <;> exact if_pos hsome

/-- What GENERATE loads into an EMPTY slot: 32 free bytes as the key. -/
def generatedKey (k : Nat) (s : State) : KeySlot := ⟨freeBytes s 32, (rd s .SEC_KEYIN 4).toNat, minSerial s k⟩

/-- GENERATE for an EMPTY slot is refused where the generator fails its health test. -/
theorem keyGenerate_unhealthy {k : Nat} (h : kget s.xe.keys k = none) (hbad : bit (Config.freeWord s.free) 0 = true) :
    KeyRefused s (keyGenerate k s) 5 := by
  have hrun : keyGenerate k s = celOpen 0x06 k 0 0 (keyRefuse 0x05 (nextFree s)) := by
    rw [keyGenerate, h, Option.isSome_none, if_neg Bool.false_ne_true, if_pos hbad]
  rw [hrun]
  exact (keyRefused_keyRefuse (by decide) (nextFree_xe s) (nextFree_mem s)).celOpen _ _ _ _

theorem keyGenerate_healthy {k : Nat} (h : kget s.xe.keys k = none) (hgood : ¬bit (Config.freeWord s.free) 0 = true) :
    keyGenerate k s = keyDone (putKeyOut (kwWrap kek (blobText k (generatedKey k (nextFree s))))
      (loadKey k (generatedKey k (nextFree s)) { nextFree s with free := (nextFree s).free + 32 })) := by
  rw [keyGenerate, h, Option.isSome_none, if_neg Bool.false_ne_true, if_neg hgood]
  rfl

/-- What a command loads and puts out is in its slot. -/
theorem keys_of_keyDone (l : List Byte) (k : Nat) (x : KeySlot) (u : State) : kget (keyDone (putKeyOut l (loadKey k x u))).xe.keys k = some x := by
  rw [keyDone_xe, putKeyOut_xe]
  exact kget_keys_loadKey _ _ _

/-- GENERATE for an EMPTY slot loads a key of 32 bytes, or is refused. -/
theorem keyGenerate_empty {k : Nat} (h : kget s.xe.keys k = none) :
    (∃ x, kget (keyGenerate k s).xe.keys k = some x ∧ x.key.length = 32 ∧ x.mask = (rd s .SEC_KEYIN 4).toNat ∧ x.serial = minSerial s k ∧
      KeyEnded s (keyGenerate k s)) ∨ KeyRefused s (keyGenerate k s) 5 := by
  by_cases hbad : bit (Config.freeWord s.free) 0 = true
  · exact .inr (keyGenerate_unhealthy h hbad)
  · rw [keyGenerate_healthy h hbad]
    exact .inl ⟨generatedKey k (nextFree s), keys_of_keyDone _ _ _ _, freeBytes_length _ _, rfl, rfl, keyEnded_keyDone (putKeyOut_mem _ _)⟩

/-- What WRAP loads into an EMPTY slot. -/
def wrappedKey (k : Nat) (s : State) : KeySlot := ⟨keyIn s 4, (rd s .SEC_KEYIN 4).toNat, minSerial s k⟩

theorem wrappedKey_keyStarted (op k : Nat) : wrappedKey k (keyStarted op slot s) = wrappedKey k s := by
  rw [wrappedKey, wrappedKey, keyIn_keyStarted op slot s (by decide), rd_keyIn_keyStarted op slot s (by decide), minSerial_keyStarted]

theorem keyWrap_empty {k : Nat} (h : kget s.xe.keys k = none) :
    keyWrap k s = keyDone (putKeyOut (kwWrap kek (blobText k (wrappedKey k s))) (loadKey k (wrappedKey k s) s)) := by
  rw [keyWrap, h]
  rfl

/-- LOAD of an EMPTY slot loads what SEC_KEYIN unwraps to, where it is a blob of the slot with a SERIAL that is high enough. -/
theorem keyLoad_empty {k : Nat} (h : kget s.xe.keys k = none) : keyLoad k s =
    match kwUnwrap kek (keyIn s 7) with
    | none => keyRefuse 0x02 s
    | some p =>
      if fieldN p 42 2 ≠ 0 then keyRefuse 0x02 s
      else if fieldN p 40 2 ≠ k then keyRefuse 0x03 s
      else if fieldN p 44 4 < minSerial s k then keyRefuse 0x04 s
      else keyDone (loadKey k ⟨p.take 32, fieldN p 32 8, fieldN p 44 4⟩ s) := by
  rw [keyLoad, h]
  rfl

/-- CLEAR and ERASE start: the slot is EMPTY, and MINSERIAL is raised by ERASE alone; the purge is still to come. -/
theorem keyClear_spec (erase : Bool) (k : Nat) (hkeys : keysFrom 0 s.xe.keys = true) :
    let t := keyClear erase k s
    kget t.xe.keys k = none ∧ t.xe.drain = some k ∧ isF t F.SEC_KEYSTAT_BUSY = true ∧ t.mem = s.mem ∧
      minSerial t k = (if erase then (minSerial s k + 1) % 2 ^ 32 else minSerial s k) ∧ ∀ m, m ≠ k → kget t.xe.keys m = kget s.xe.keys m := by
  have hxe : (keyClear erase k s).xe = { s.xe with
      keys := kdel s.xe.keys k
      minSerial := if erase then kput s.xe.minSerial k ((minSerial s k + 1) % 2 ^ 32) else s.xe.minSerial
      drain := some k } := by rw [keyClear, zeroKeyIn_xe]; rfl
  refine ⟨?_, by rw [hxe], ?_, ?_, ?_, fun m hm => ?_⟩
  · rw [hxe]
    exact kget_kdel_self hkeys k
  · unfold keyClear isF
    simp (disch := decide) only [getF_zeroKeyIn, getF_setF_of_disjoint, getF_setF_self]
    rfl
  · rw [keyClear, zeroKeyIn_mem]
    rfl
  · rw [minSerial, hxe]
    cases erase with
    | true => exact kgetD_kput_self _ _ _ _
    | false => rfl
  · rw [hxe]
    exact kget_kdel_ne _ hm

end

/-- The key commands. -/
theorem keyCommands : Claim.KeyCommands := by
  intro slot s hidle k ended refused
  have run (op : Nat) (hop : op < 8) : keyGo op slot s = .next (keyOp op k (keyStarted op slot s)) := keyGo_of_idle op slot s hidle hop
  have hmem (op : Nat) : (keyStarted op slot s).mem = s.mem := keyStarted_mem op slot s
  have hxe (op : Nat) : (keyStarted op slot s).xe = s.xe := keyStarted_xe op slot s
  have empty (op : Nat) (h : kget s.xe.keys k = none) : kget (keyStarted op slot s).xe.keys k = none := by rw [hxe, h]
  have refuses (op err : Nat) (herr : err < 256) : refused (keyRefuse err (keyStarted op slot s)) err := keyRefused_keyRefuse herr (hxe op) (hmem op)
  refine ⟨fun h => ⟨_, run 1 (by decide), ?_⟩, fun h => ⟨_, wrappedKey k s, run 2 (by decide), ?_⟩, fun h => ⟨_, run 3 (by decide), ?_⟩, ?_, ?_⟩
  · rcases keyGenerate_empty (empty 1 h) with ⟨x, hx, hlen, hmask, hserial, hdone, herr, hin, hm⟩ | ⟨href, herr, hx, hm⟩
    · exact .inl ⟨x, hx, hlen, by rw [hmask, rd_keyIn_keyStarted 1 slot s (by decide)], by rw [hserial, minSerial_keyStarted], hdone, herr, hin, hm.trans (hmem 1)⟩
    · exact .inr ⟨href, herr, hx.trans (hxe 1), hm.trans (hmem 1)⟩
  · have hwrap : keyOp 2 k (keyStarted 2 slot s) = _ := keyWrap_empty (empty 2 h)
    rw [wrappedKey_keyStarted] at hwrap
    rw [hwrap]
    refine ⟨keys_of_keyDone _ _ _ _, rfl, rfl, rfl, keyEnded_keyDone ((putKeyOut_mem _ _).trans (hmem 2)), fun i hi => ?_⟩
    rw [rd_keyDone_keyOut _ hi, rd_putKeyOut _ _ hi]
  · have hload : keyOp 3 k (keyStarted 3 slot s) = _ := keyLoad_empty (empty 3 h)
    rw [hload, keyIn_keyStarted 3 slot s (by decide), minSerial_keyStarted]
    cases kwUnwrap kek (keyIn s 7) with
    | none => exact refuses 3 2 (by decide)
    | some p =>
      dsimp only
      split
      · exact refuses 3 2 (by decide)
      · split
        · exact refuses 3 3 (by decide)
        · split
          · exact refuses 3 4 (by decide)
          · refine ⟨?_, keyEnded_keyDone (hmem 3)⟩
            rw [keyDone_xe]
            exact kget_keys_loadKey _ _ _
  · intro i hi hkeys
    have clear (op : Nat) (erase : Bool) := keyClear_spec (s := keyStarted op slot s) erase k (by rw [hxe]; exact hkeys)
    simp only [hxe, hmem, minSerial_keyStarted] at clear
    rcases hi with rfl | rfl
    · exact ⟨_, run 4 (by decide), clear 4 false⟩
    · refine ⟨_, run 5 (by decide), ?_⟩
      rw [if_pos rfl]
      exact clear 5 true
  · intro h i hi
    have loaded (op : Nat) (hop : op = 1 ∨ op = 2 ∨ op = 3) : refused (keyOp op k (keyStarted op slot s)) 1 := by
      rw [keyOp_loaded hop (by rw [hxe]; exact h)]
      exact refuses op 1 (by decide)
    rcases hi with rfl | rfl | rfl
    · exact ⟨_, run 1 (by decide), loaded 1 (.inl rfl)⟩
    · exact ⟨_, run 2 (by decide), loaded 2 (.inr (.inl rfl))⟩
    · exact ⟨_, run 3 (by decide), loaded 3 (.inr (.inr rfl))⟩

/-! ### The purge (R213) -/

/-- KEY_PURGE_DONE. -/
theorem keyPurge : Claim.KeyPurge := by
  intro k s hdrain
  refine ⟨fun ⟨i, x, hmem, hslot⟩ => ?_, fun hfree => ?_⟩
  · have hheld : (s.xe.held.any fun kv => kv.2.slot = k) = true := List.any_eq_true.mpr ⟨(i, x), hmem, decide_eq_true hslot⟩
    show execKeyPurgeDone s = _
    simp only [execKeyPurgeDone, hdrain, hheld, if_true]
    rfl
  · have hheld : (s.xe.held.any fun kv => kv.2.slot = k) = false := List.any_eq_false.mpr fun kv hkv => by simpa using hfree kv.1 kv.2 hkv
    let purged : State := { s with xe := { s.xe with
      drain := none
      dkc0 := s.xe.dkc0.filter fun t => t.slot ≠ k
      dkc1 := s.xe.dkc1.filter fun t => t.slot ≠ k } }
    have hrun : exec .keyPurgeDone s = .next (keyDone (setF F.SEC_KEYSTAT_BUSY 0 purged)) := by
      show execKeyPurgeDone s = _
      simp only [execKeyPurgeDone, hdrain, hheld, Bool.false_eq_true, if_false]
      rfl
    obtain ⟨hdone, -, -, hbusy⟩ := keyDone_stat (setF F.SEC_KEYSTAT_BUSY 0 purged)
    refine ⟨_, hrun, ?_, ?_, ?_, hdone, keyDone_mem _⟩
    · rw [keyDone_xe]
      rfl
    · rw [keyDone_xe]
      intro x hx
      rcases List.mem_append.mp hx with hx | hx
      · exact of_decide_eq_true (List.mem_filter.mp hx).2
      · exact of_decide_eq_true (List.mem_filter.mp hx).2
    · rw [hbusy, isF, getF_setF_self (by decide)]
      rfl

end Sys2Proof.Machine
end

section
/-! SUPPORT and PROOFS. The cipher jobs: streams and slots (R216 to R218, R221, R222). -/

namespace Sys2Proof.Machine

/-! ### What leaves the jobs, the tuns and memory -/

theorem SameButLog.jobs {s t : State} (h : SameButLog s t) : t.jobs = s.jobs := by rw [h]

theorem SameButLog.ta {s t : State} (h : SameButLog s t) : t.ta = s.ta := by rw [h]

theorem rdB_of_mem {s t : State} (h : t.mem = s.mem) (a n : Nat) : rdB t a n = rdB s a n := congrArg (mread · a n) h

theorem tunOf_of_ta {s t : State} (h : t.ta = s.ta) (p seg : Nat) : tunOf t p seg = tunOf s p seg := by rw [tunOf, tunOf, h]

/-- The use of a derived key changes its cache and the count of misses. -/
theorem useKey_eq (die : Nat) (k : KeyTag) (s : State) : ∃ c x, useKey die k s = { s with csr := c, xe := x } := by
  have hbump (hit : Bool) : ∃ c, (if hit then s else bump .XE_DKMISS_CNT s) = { s with csr := c } := by
    cases hit with
    | true => exact ⟨_, rfl⟩
    | false => exact ⟨_, rfl⟩
  obtain ⟨c, hc⟩ := hbump ((if die = 0 then s.xe.dkc0 else s.xe.dkc1).contains k)
  unfold useKey
  dsimp only
  rw [hc]
  split
  · exact ⟨_, _, rfl⟩
  · exact ⟨_, _, rfl⟩

section
variable (die : Nat) (k : KeyTag) (s : State)

@[simp] theorem useKey_mem : (useKey die k s).mem = s.mem := by
  obtain ⟨c, x, h⟩ := useKey_eq die k s
  rw [h]

@[simp] theorem useKey_jobs : (useKey die k s).jobs = s.jobs := by
  obtain ⟨c, x, h⟩ := useKey_eq die k s
  rw [h]

@[simp] theorem useKey_ta : (useKey die k s).ta = s.ta := by
  obtain ⟨c, x, h⟩ := useKey_eq die k s
  rw [h]

end

/-! ### A cipher job ends (R213, R226) -/

/-- The state in which a cipher job reads its source: its bytes in are counted. -/
def cipherIn (j : Job) (s : State) : State := pmc 0x1001 (instNumber cCipher j.inst) (xSrcLen j) s

section
variable (j : Job) (s : State)

@[simp] theorem cipherIn_mem : (cipherIn j s).mem = s.mem := (sameButLog_pmc _ _ _ _).mem

@[simp] theorem cipherIn_jobs : (cipherIn j s).jobs = s.jobs := (sameButLog_pmc _ _ _ _).jobs

@[simp] theorem cipherIn_ta : (cipherIn j s).ta = s.ta := (sameButLog_pmc _ _ _ _).ta

@[simp] theorem rdB_cipherIn (a n : Nat) : rdB (cipherIn j s) a n = rdB s a n := rdB_of_mem (cipherIn_mem j s) a n

/-- The count of the bytes out is a count. -/
theorem sameButLog_countOut (id : Nat) : SameButLog s (countOut id j s) := by
  unfold countOut
  split
  · split
    · exact sameButLog_pmc _ _ _ _
    · exact .refl s
  · exact .refl s

end

theorem markStarted_of_done {id : Nat} {r : JobResult} {t : State} (h : JobDone t id r) : markStarted id t = t := by
  obtain ⟨k, hk, hphase⟩ := h
  simp only [markStarted, hk, hphase, reduceCtorEq, false_and, if_false]

theorem jobDone_of_jobs {id : Nat} {r : JobResult} {s t : State} (h : t.jobs = s.jobs) (hdone : JobDone s id r) : JobDone t id r := by
  rw [JobDone, h]
  exact hdone

section
variable {id : Nat} {j : Job} {x : XeJob} {s : State}

/-- An accepted cipher job whose operation ends it: beside its result and its key, its counts are all that is still to change. -/
theorem runCipher_ended {op : Nat} {f : Job → XeJob → State → State} {u : State} {r : JobResult} {m : List Host.Cell} {ta : TaSt}
    (h : accepted s id 0x06 op = some j) (hx : kget s.xe.held id = some x) (hf : f j x (cipherIn j s) = endCipher id r u)
    (hu : u.jobs = s.jobs) (hm : u.mem = m) (hta : u.ta = ta) : ∃ t, ok (runCipher id op f s) = .next t ∧ JobDone t id r ∧ t.mem = m ∧ t.ta = ta := by
  obtain ⟨hj, -⟩ := accepted_eq_some h
  have hrun : runCipher id op f s = markStarted id (countOut id j (endCipher id r u)) := by
    rw [← hf, runCipher, runJob, show accepted s id cCipher op = some j from h]
    simp only [hx]
    rfl
  have hended : JobDone (endCipher id r u) id r := ⟨_, finish_phase (s := { u with xe := { u.xe with held := kdel u.xe.held id } }) (hu ▸ hj) r, rfl⟩
  have hsame := sameButLog_countOut j (endCipher id r u) id
  have hdone := jobDone_of_jobs hsame.jobs hended
  refine ⟨_, congrArg ok (hrun.trans (markStarted_of_done hdone)), hdone, hsame.mem.trans hm, hsame.ta.trans hta⟩

/-- What a job puts out that ends with CHECK (R221, R222). -/
def checkOut (j : Job) (s : State) : State := bump .XE_CHECK_CNT (wrFree (j.n 16 8) (xDstLen j) s)

theorem cipherCheck_eq (id : Nat) (j : Job) (s : State) : cipherCheck id j s = endCipher id (xCount j (JobResult.of rCheck)) (checkOut j s) := rfl

/-- An accepted cipher job whose operation ends it with CHECK: its output is undefined. -/
theorem runCipher_check {op : Nat} {f : Job → XeJob → State → State} {k : KeyTag} (h : accepted s id 0x06 op = some j) (hx : kget s.xe.held id = some x)
    (hf : f j x (cipherIn j s) = cipherCheck id j (useKey j.die k (cipherIn j s))) :
    ∃ t l, ok (runCipher id op f s) = .next t ∧ JobDone t id (xCount j (JobResult.of rCheck)) ∧ l.length = xDstLen j ∧ t.mem = (wrB (j.n 16 8) l s).mem := by
  let v := useKey j.die k (cipherIn j s)
  have hjobs : (checkOut j v).jobs = s.jobs := by rw [checkOut, bump_jobs, wrFree_jobs, useKey_jobs, cipherIn_jobs]
  have hmem : (checkOut j v).mem = (wrB (j.n 16 8) (freeBytes v (xDstLen j)) s).mem := by
    rw [checkOut, bump_mem, wrFree_mem, useKey_mem, cipherIn_mem, wrB_mem]
  obtain ⟨t, hrun, hdone, hm, -⟩ := runCipher_ended h hx hf hjobs hmem rfl
  exact ⟨t, _, hrun, hdone, freeBytes_length _ _, hm⟩

/-! ### Streams (R222) -/

/-- The open part of a record of a stream, and its other part. -/
def strAad (j : Job) (s : State) : List Byte := (rdB s (j.n 8 8) (xLen j)).take (xAad j)
@[inherit_doc strAad] def strBody (j : Job) (s : State) : List Byte := (rdB s (j.n 8 8) (xLen j)).drop (xAad j)

/-- The other part, sealed or opened. -/
def strCrypt (j : Job) (x : XeJob) (s : State) : List Byte := gcmText (strKeys j x) (strNonce j) (strBody j s)

/-- The tag of a record with a sealed part. -/
def strTag (j : Job) (x : XeJob) (c : List Byte) (s : State) : List Byte := gcmTag (strKeys j x) (strNonce j) (strAad j s) c

theorem strTag_cipherIn : strTag j x (strBody j (cipherIn j s)) (cipherIn j s) = rdB (cipherIn j s) (j.n 8 8 + xLen j) 16 ↔
    strTag j x (strBody j s) s = rdB s (j.n 8 8 + xLen j) 16 := by
  simp only [strTag, strBody, strAad, rdB_cipherIn]

section
variable (hkey : x.key.length = 32)
include hkey

theorem strKeys_last : ((strKeys j x).getD 14 []).length = 16 := aesKeys_length (kdf_length hkey _ _ _ _ _) (by decide)

theorem strRecord_length : (strAad j s ++ strCrypt j x s).length = xLen j := by
  obtain ⟨hcrypt, -⟩ := gcmText_spec (strKeys_last hkey) (strNonce j) (strBody j s)
  rw [List.length_append, strCrypt, hcrypt, strAad, strBody, ← List.length_append, List.take_append_drop]
  exact mread_length _ _ _

end

section
variable (hx : kget s.xe.held id = some x)
include hx

/-- SENC stores the open part, the sealed one and the tag. -/
theorem exec_cipherSenc (h : accepted s id 0x06 3 = some j) : ∃ t, exec (.cipherSenc id) s = .next t ∧ JobDone t id ⟨0, 0, xLen j, 0⟩ ∧
    t.mem = (wrB (j.n 16 8) (strAad j s ++ strCrypt j x s ++ strTag j x (strCrypt j x s) s) s).mem ∧ t.ta = s.ta := by
  refine runCipher_ended h hx rfl ?_ ?_ ?_
  · simp only [bump_jobs, wrB_jobs, useKey_jobs, cipherIn_jobs]
  · simp only [bump_mem, wrB_mem, useKey_mem, cipherIn_mem, rdB_cipherIn]
    rfl
  · simp only [bump_ta, wrB_ta, useKey_ta, cipherIn_ta]

/-- SDEC of a record with the right tag stores the open part and the opened one. -/
theorem exec_cipherSdec_good (h : accepted s id 0x06 4 = some j) (hgood : strTag j x (strBody j s) s = rdB s (j.n 8 8 + xLen j) 16) :
    ∃ t, exec (.cipherSdec id) s = .next t ∧ JobDone t id ⟨0, 0, xLen j, 0⟩ ∧
      t.mem = (wrB (j.n 16 8) (strAad j s ++ strCrypt j x s) s).mem ∧ t.ta = s.ta := by
  refine runCipher_ended h hx (if_pos (strTag_cipherIn.mpr hgood)) ?_ ?_ ?_
  · simp only [bump_jobs, wrB_jobs, useKey_jobs, cipherIn_jobs]
  · simp only [bump_mem, wrB_mem, useKey_mem, cipherIn_mem, rdB_cipherIn]
    rfl
  · simp only [bump_ta, wrB_ta, useKey_ta, cipherIn_ta]

/-- SDEC of any other record ends with CHECK, and leaves its output undefined. -/
theorem exec_cipherSdec_bad (h : accepted s id 0x06 4 = some j) (hbad : ¬strTag j x (strBody j s) s = rdB s (j.n 8 8 + xLen j) 16) :
    ∃ t l, exec (.cipherSdec id) s = .next t ∧ JobDone t id (xCount j (JobResult.of rCheck)) ∧ l.length = xDstLen j ∧
      t.mem = (wrB (j.n 16 8) l s).mem :=
  runCipher_check h hx (if_neg (strTag_cipherIn.not.mpr hbad))

end

/-- Streams. -/
theorem streamCipherResults : Claim.StreamCipherResults := by
  intro id j x s hm hx hkey _ r aad body crypt
  have hrecord : (aad ++ crypt).length = xLen j := strRecord_length hkey
  refine ⟨fun h => ?_, fun h => ?_⟩
  · obtain ⟨t, hexec, hdone, hmem, -⟩ := exec_cipherSenc hx h
    have htag : (strTag j x crypt s).length = 16 := gcmTag_length (strKeys_last hkey) _ _ _
    have hlen : (aad ++ crypt ++ strTag j x crypt s).length = xLen j + 16 := by rw [List.length_append, hrecord, htag]
    obtain ⟨-, hrest⟩ := rdB_and_sameMemBut_of_wrB hm hlen hmem
    have part (i n : Nat) (h : i + n ≤ xLen j + 16) : rdB t (j.n 16 8 + i) n = ((aad ++ crypt ++ strTag j x crypt s).drop i).take n :=
      (rdB_of_mem hmem _ _).trans (rdB_wrB_part hm _ _ (h.trans (Nat.le_of_eq hlen.symm)))
    refine ⟨t, hexec, hdone, ?_, ?_, hrest⟩
    · exact (part 0 (xLen j) (by omega)).trans (List.take_left' hrecord)
    · rw [part (xLen j) 16 (Nat.le_refl _), List.drop_left' hrecord]
      exact List.take_of_length_le (Nat.le_of_eq htag)
  · obtain ⟨-, -, -, hop⟩ := accepted_eq_some h
    by_cases hgood : gcmTag (strKeys j x) (strNonce j) aad body = rdB s (j.n 8 8 + xLen j) 16
    · obtain ⟨t, hexec, hdone, hmem, -⟩ := exec_cipherSdec_good hx h hgood
      obtain ⟨hread, hrest⟩ := rdB_and_sameMemBut_of_wrB hm hrecord hmem
      refine ⟨t, hexec, hrest, ?_⟩
      rw [if_pos hgood]
      exact ⟨hdone, hread⟩
    · obtain ⟨t, l, hexec, hdone, hlen, hmem⟩ := exec_cipherSdec_bad hx h hgood
      have hdst : xDstLen j = xLen j := by simp only [xDstLen, hop]
      have hcount : xCount j (JobResult.of rCheck) = ⟨0x04, 0, 0, 0⟩ := by rw [xCount, Job.stream, hop]; rfl
      obtain ⟨-, hrest⟩ := rdB_and_sameMemBut_of_wrB hm (hlen.trans hdst) hmem
      refine ⟨t, hexec, hrest, ?_⟩
      rw [if_neg hgood]
      exact hcount ▸ hdone

end
/-! ### The place of a slot in its tun (R217, R233, R242) -/

theorem take_putBytes_of_le {l v : List Byte} {lo n : Nat} (hn : n ≤ lo) (hl : lo ≤ l.length) : (putBytes l lo v).take n = l.take n := by
  rw [putBytes, List.append_assoc, List.take_append_of_le_length (by rw [List.length_take]; omega), List.take_take, Nat.min_eq_left hn]

theorem take_putBytes_zero (l v : List Byte) : (putBytes l 0 v).take v.length = v := by
  rw [putBytes, List.take_zero, List.nil_append, List.take_left]

theorem putBytes_length {l v : List Byte} {lo : Nat} (h : lo + v.length ≤ l.length) : (putBytes l lo v).length = l.length := by
  rw [putBytes, List.length_append, List.length_append, List.length_take, List.length_drop]
  omega

/-- The trailer that the engine writes for an XTS slot: its GUARD and DOMKEY; the other bytes stay. -/
def xtsTrailer (x : XeJob) (guard : Nat) (t : List Byte) : List Byte :=
  putBytes (putBytes t 0 (leBytes 8 guard)) 10 (leBytes 1 (putBitsN (fieldN t 10 1) 2 2 (b2n x.dom)))

section
variable {t : List Byte} (h : t.length = 16) (x : XeJob) (guard : Nat)
include h

theorem xtsTrailer_length : (xtsTrailer x guard t).length = 16 := by
  have hguard : (putBytes t 0 (leBytes 8 guard)).length = 16 := (putBytes_length (by rw [leBytes_length, h]; decide)).trans h
  exact (putBytes_length (by rw [leBytes_length, hguard]; decide)).trans hguard

/-- The trailer starts with the GUARD. -/
theorem take_xtsTrailer : (xtsTrailer x guard t).take 8 = leBytes 8 guard := by
  have hguard : (putBytes t 0 (leBytes 8 guard)).length = 16 := (putBytes_length (by rw [leBytes_length, h]; decide)).trans h
  have hfirst := take_putBytes_zero t (leBytes 8 guard)
  rw [leBytes_length] at hfirst
  rw [xtsTrailer, take_putBytes_of_le (by decide) (by rw [hguard]; decide), hfirst]

end

/-- A tun in which the place of a slot holds its bytes and its trailer. -/
def slotWritten (w : Nat) (d : List Byte) (tr : List Byte → List Byte) (t : Tun) : Tun :=
  (t.write (slotData (slotOff (swSlot w))) d).write (slotTrailer (slotOff (swSlot w))) (tr (t.read (slotTrailer (slotOff (swSlot w))) 16))

theorem slotWritten_buf (w : Nat) (d : List Byte) (tr : List Byte → List Byte) (t : Tun) : (slotWritten w d tr t).buf =
    mwrite (mwrite t.buf (slotData (slotOff (swSlot w))) d) (slotTrailer (slotOff (swSlot w))) (tr (t.read (slotTrailer (slotOff (swSlot w))) 16)) := rfl

theorem putSlot_of_tunOf {w i : Nat} {tun : Tun} {s : State} (h : tunOf s (slotPool (swSlot w)) (slotSeg (swSlot w)) = some (i, tun)) (d : List Byte)
    (tr : List Byte → List Byte) : putSlot w d tr s = modTun i (slotWritten w d tr) s := by
  rw [putSlot, h]
  rfl

/-- The four slots of a block lie before its trailers. -/
theorem slotData_le_slotTrailer {off : Nat} (h : off % 4 = 0) : slotData off + 4096 ≤ slotTrailer off := by
  simp only [slotData, slotTrailer, imgData, imgMeta, offStrip, offBlock, offPos, h]
  omega

/-- A tun whose slot of a whole block was written holds it, and its trailer. -/
theorem slotWritten_read {w guard : Nat} (x : XeJob) {d : List Byte} {tun : Tun} (hbuf : Memory.wf tun.buf = true)
    (hoff : slotOff (swSlot w) % 4 = 0) (hd : d.length = 4096) :
    (slotWritten w d (xtsTrailer x guard) tun).read (slotData (slotOff (swSlot w))) 4096 = d ∧
      (slotWritten w d (xtsTrailer x guard) tun).read (slotTrailer (slotOff (swSlot w))) 8 = leBytes 8 guard := by
  have hplace := slotData_le_slotTrailer hoff
  have htrailer : (tun.read (slotTrailer (slotOff (swSlot w))) 16).length = 16 := mread_length _ _ _
  constructor
  · have hread := mread_mwrite hbuf (slotData (slotOff (swSlot w))) d
    rw [hd] at hread
    rw [Tun.read, slotWritten_buf, mread_mwrite_of_out _ _ _ (.inl hplace), hread]
  · have hpart := mread_mwrite_part (wf_mwrite hbuf (slotData (slotOff (swSlot w))) d) (slotTrailer (slotOff (swSlot w)))
      (xtsTrailer x guard (tun.read (slotTrailer (slotOff (swSlot w))) 16)) (i := 0) (n := 8) (by rw [xtsTrailer_length htrailer]; decide)
    rw [Nat.add_zero, List.drop_zero, take_xtsTrailer htrailer] at hpart
    rw [Tun.read, slotWritten_buf, hpart]

/-! ### Slots (R216 to R218, R221) -/

section
variable {id : Nat} {j : Job} {x : XeJob} {s : State}

theorem xtsKey_length (hkey : x.key.length = 32) (dom : Bool) : (xtsKey x dom).length = 64 := by
  unfold xtsKey
  split
  · exact kdf_length hkey _ _ _ _ _
  · exact kdf_length hkey _ _ _ _ _

/-- A slot that opens gives as many bytes as it has. -/
theorem openSlot_length (hkey : x.key.length = 32) {sealed : Bool} {c lba gen : Nat} {d tr p : List Byte} (hd : d.length % 16 = 0)
    (h : openSlot x sealed c lba gen d tr = some p) : p.length = d.length := by
  unfold openSlot at h
  split at h
  · dsimp only at h
    split at h
    · obtain rfl := Option.some.inj h
      exact (gcmText_spec (aesKeys_length (kdf_length hkey _ _ _ _ _) (by decide)) _ _).1
    · cases h
  · dsimp only at h
    split at h
    · cases h
    · obtain rfl := Option.some.inj h
      exact xts_length (xtsKey_length hkey _) _ _ hd

/-- The slot that a job reads from its source. -/
def slotIn (j : Job) (s : State) : List Byte := rdB s (j.n 8 8) (classSize (swClass (xSlot j)))

theorem slotIn_length (j : Job) (s : State) : (slotIn j s).length = classSize (swClass (xSlot j)) := mread_length _ _ _

theorem slotIn_cipherIn : slotIn j (cipherIn j s) = slotIn j s := rdB_cipherIn _ _ _ _

/-- What a job finds in the slot that it reads with its trailer. -/
def slotFound (j : Job) (x : XeJob) (s : State) : Option (List Byte) :=
  openSlot x (swSealed (xSlot j)) (swClass (xSlot j)) (xLba j) (xGen j) (slotIn j s) (rdB s (j.n 8 8 + classSize (swClass (xSlot j))) 16)

theorem slotFound_cipherIn : slotFound j x (cipherIn j s) = slotFound j x s := by rw [slotFound, slotIn_cipherIn, rdB_cipherIn, slotFound]

/-- The guard of the plain slot of an ENC job. -/
def slotGuard (j : Job) (s : State) : Nat := plainGuard (swClass (xSlot j)) (slotIn j s)

/-- The plain slot of an ENC job, encrypted under XTS. -/
def slotSealed (j : Job) (x : XeJob) (s : State) : List Byte := xts true (xtsKey x x.dom) (xtsTweak x.dom (slotGuard j s) (xLba j)) (slotIn j s)

/-- A slot under XTS has been put into its place. -/
def slotStored (j : Job) (x : XeJob) (s : State) : State :=
  bump .XE_ENC_CNT (putSlot (xSlot j) (slotSealed j x s) (xtsTrailer x (slotGuard j s))
    (useKey j.die (if x.dom then ⟨x.slot, 1, x.group, x.epoch⟩ else ⟨x.slot, 0, x.vol, x.epoch⟩) s))

theorem slotStored_of_tunOf {i : Nat} {tun : Tun} (h : tunOf s (slotPool (swSlot (xSlot j))) (slotSeg (swSlot (xSlot j))) = some (i, tun)) :
    (slotStored j x s).jobs = s.jobs ∧ (slotStored j x s).mem = s.mem ∧
      (slotStored j x s).ta.tuns = kmod s.ta.tuns i (slotWritten (xSlot j) (slotSealed j x s) (xtsTrailer x (slotGuard j s))) := by
  unfold slotStored
  generalize (if x.dom then _ else _ : KeyTag) = k
  rw [putSlot_of_tunOf ((tunOf_of_ta (useKey_ta j.die k s) _ _).trans h)]
  refine ⟨useKey_jobs j.die k s, useKey_mem j.die k s, ?_⟩
  rw [bump_ta, modTun, useKey_ta]

variable (hx : kget s.xe.held id = some x)
include hx

/-- ENC of an XTS volume puts the encrypted block and its trailer into the slot's tun, and gives the guard. -/
theorem exec_cipherEnc_xts (h : accepted s id 0x06 1 = some j) (hclass : swClass (xSlot j) = 3) (hxts : x.sealed = false) {i : Nat} {tun : Tun}
    (htun : tunOf s (slotPool (swSlot (xSlot j))) (slotSeg (swSlot (xSlot j))) = some (i, tun)) :
    ∃ t, exec (.cipherEnc id) s = .next t ∧ JobDone t id ⟨0, 0, 1, slotGuard j s⟩ ∧ t.mem = s.mem ∧
      t.ta.tuns = kmod s.ta.tuns i (slotWritten (xSlot j) (slotSealed j x s) (xtsTrailer x (slotGuard j s))) := by
  have hguard : slotGuard j (cipherIn j s) = slotGuard j s := by rw [slotGuard, slotIn_cipherIn, slotGuard]
  have hsealed : slotSealed j x (cipherIn j s) = slotSealed j x s := by rw [slotSealed, hguard, slotIn_cipherIn, slotSealed]
  obtain ⟨hjobs, hmem, htuns⟩ := slotStored_of_tunOf (x := x) ((tunOf_of_ta (cipherIn_ta j s) _ _).trans htun)
  have hplain (p : Prop) : ¬(swClass (xSlot j) ≠ 3 ∧ p) := fun hcoded => hcoded.1 hclass
  obtain ⟨t, hexec, hdone, hm, hta⟩ : ∃ t, exec (.cipherEnc id) s = .next t ∧ _ :=
    runCipher_ended (u := slotStored j x (cipherIn j s)) (r := ⟨0, 0, 1, slotGuard j (cipherIn j s)⟩) h hx
      ((if_neg (hplain _)).trans (if_neg (Bool.eq_false_iff.mp hxts))) (hjobs.trans (cipherIn_jobs j s)) (hmem.trans (cipherIn_mem j s)) rfl
  rw [hguard] at hdone
  rw [← hta, hguard, hsealed, cipherIn_ta] at htuns
  exact ⟨t, hexec, hdone, hm, htuns⟩

/-- DEC of a slot that opens stores it, and gives its guard. -/
theorem exec_cipherDec_of_some (h : accepted s id 0x06 2 = some j) {p : List Byte} (hopens : slotFound j x s = some p) :
    ∃ t, exec (.cipherDec id) s = .next t ∧ JobDone t id ⟨0, 0, 1, plainGuard (swClass (xSlot j)) p⟩ ∧ t.mem = (wrB (j.n 16 8) p s).mem ∧ t.ta = s.ta := by
  have hopens' := slotFound_cipherIn.trans hopens
  unfold slotFound slotIn at hopens'
  refine runCipher_ended (u := bump .XE_DEC_CNT (wrB (j.n 16 8) p (useKey j.die _ (cipherIn j s)))) h hx (by simp only [hopens']; rfl) ?_ ?_ ?_
  · simp only [bump_jobs, wrB_jobs, useKey_jobs, cipherIn_jobs]
  · simp only [bump_mem, wrB_mem, useKey_mem, cipherIn_mem]
  · simp only [bump_ta, wrB_ta, useKey_ta, cipherIn_ta]

/-- DEC of a slot that does not open ends with CHECK, and leaves its output undefined. -/
theorem exec_cipherDec_of_none (h : accepted s id 0x06 2 = some j) (hbad : slotFound j x s = none) :
    ∃ t l, exec (.cipherDec id) s = .next t ∧ JobDone t id (xCount j (JobResult.of rCheck)) ∧ l.length = xDstLen j ∧ t.mem = (wrB (j.n 16 8) l s).mem := by
  have hbad' := slotFound_cipherIn.trans hbad
  unfold slotFound slotIn at hbad'
  exact runCipher_check h hx (by simp only [hbad']; rfl)

end

/-- Slots. -/
theorem slotCipherResults : Claim.SlotCipherResults := by
  intro id j x s hm hx w c src
  refine ⟨fun i tun h hkey hxts hclass hoff htun hheld hbuf => ?_, fun h hkey => ?_⟩
  · have hguard : slotGuard j s = crc64 src := if_pos hclass
    have hsize : (slotIn j s).length = 4096 := (slotIn_length j s).trans (congrArg classSize hclass)
    have hsealed : (slotSealed j x s).length = 4096 := (xts_length (xtsKey_length hkey _) _ _ (by rw [hsize])).trans hsize
    obtain ⟨t, hexec, hdone, hmem, htuns⟩ := exec_cipherEnc_xts hx h hclass hxts htun
    obtain ⟨hdata, htrailer⟩ := slotWritten_read (guard := slotGuard j s) x hbuf hoff hsealed
    rw [hguard] at hdone htuns hdata htrailer
    refine ⟨t, _, hexec, hdone, hmem, htuns ▸ kget_kmod_self hheld _, hdata.trans ?_, htrailer⟩
    rw [slotSealed, hguard]
    rfl
  · obtain ⟨-, -, -, hop⟩ := accepted_eq_some h
    cases hfound : slotFound j x s with
    | none =>
      obtain ⟨t, l, hexec, hdone, hlen, hmem⟩ := exec_cipherDec_of_none hx h hfound
      have hdst : xDstLen j = classSize c := by simp only [xDstLen, hop]; rfl
      have hcount : xCount j (JobResult.of rCheck) = ⟨0x04, 0, 1, 0⟩ := by rw [xCount, Job.stream, hop]; rfl
      obtain ⟨-, hrest⟩ := rdB_and_sameMemBut_of_wrB hm (hlen.trans hdst) hmem
      refine ⟨t, hexec, hrest, ?_⟩
      rw [show openSlot x (swSealed w) c (xLba j) (xGen j) src (rdB s (j.n 8 8 + classSize c) 16) = none from hfound]
      exact hcount ▸ hdone
    | some p =>
      obtain ⟨t, hexec, hdone, hmem, -⟩ := exec_cipherDec_of_some hx h hfound
      have hlen : p.length = classSize c := (openSlot_length hkey (by rw [slotIn_length, classSize]; omega) hfound).trans (slotIn_length j s)
      obtain ⟨hread, hrest⟩ := rdB_and_sameMemBut_of_wrB hm hlen hmem
      refine ⟨t, hexec, hrest, ?_⟩
      rw [show openSlot x (swSealed w) c (xLba j) (xGen j) src (rdB s (j.n 8 8 + classSize c) 16) = some p from hfound]
      exact ⟨hdone, hread⟩

/-- Settles O27: the key commands and the purge, and what the cipher jobs store. -/
theorem keysAndCiphers : Obligations.KeysAndCiphers := ⟨keyCommands, keyPurge, streamCipherResults, slotCipherResults⟩

end Sys2Proof.Machine
end

section
/-! PROOFS. The place of a slot in a tun (R242). -/

namespace Sys2Proof.Machine

/-- A place in a tun of `k` data strips, an offset and a length in KiB, lies in one block of a data strip, and not in the strip's header block (R236, R242). -/
def InBlock (k : Nat) (h : Nat × Nat) : Prop := h.1 / 1024 < k ∧ h.1 % 1024 / 4 < 255 ∧ h.1 % 4 + h.2 ≤ 4

/-- The first KiB of a place, and what is left of it. -/
theorem InBlock.split {k n : Nat} {h : Nat × Nat} (hb : InBlock k h) (hn : n < h.2) : InBlock k (h.1, n) ∧ InBlock k (h.1 + n, h.2 - n) := by
  simp only [InBlock] at *
  omega

/-- A block of the strips in order, and what a slot that takes its first KiB leaves. -/
theorem inBlock_next {k n c off : Nat} (hnext : n < k * 255) (hoff : off = n / 255 * 1024 + n % 255 * 4) (hc : c ≤ 3) :
    InBlock k (off, c + 1) ∧ (c < 3 → InBlock k (off + c + 1, 3 - c)) := by
  have hstrip : n / 255 < k := Nat.div_lt_of_lt_mul (Nat.mul_comm k 255 ▸ hnext)
  simp only [InBlock]
  omega

/-- The choice of the smallest larger hole, among the holes passed and one more. -/
def smallerHole (n : Nat) (b : Option (Nat × Nat)) (h : Nat × Nat) : Option (Nat × Nat) :=
  if h.2 ≤ n then b
  else match b with
    | some x => if h.2 < x.2 then some h else b
    | none => some h

theorem largerHole_eq_foldl (t : Tun) (n : Nat) : largerHole t n = t.holes.foldl (smallerHole n) none := rfl

theorem smallerHole_eq_some {n : Nat} {b : Option (Nat × Nat)} {h x : Nat × Nat} (hx : smallerHole n b h = some x) : (x = h ∧ n < h.2) ∨ b = some x := by
  unfold smallerHole at hx
  split at hx
  · exact .inr hx
  · next hlarge =>
    have hsome : some h = some x → (x = h ∧ n < h.2) ∨ b = some x := fun e => .inl ⟨(Option.some.inj e).symm, by omega⟩
    split at hx
    · split at hx
      · exact hsome hx
      · exact .inr hx
    · exact hsome hx

/-- A larger hole is a hole that is larger. -/
theorem largerHole_eq_some {t : Tun} {n : Nat} {x : Nat × Nat} (hx : largerHole t n = some x) : x ∈ t.holes ∧ n < x.2 := by
  rw [largerHole_eq_foldl] at hx
  have fold : ∀ (l : List (Nat × Nat)) (b : Option (Nat × Nat)), l.foldl (smallerHole n) b = some x → (x ∈ l ∧ n < x.2) ∨ b = some x := by
    intro l
    induction l with
    | nil => exact fun b hb => .inr hb
    | cons h l ih =>
      intro b hb
      rcases ih _ hb with ⟨hmem, hlt⟩ | hfirst
      · exact .inl ⟨List.mem_cons_of_mem h hmem, hlt⟩
      · rcases smallerHole_eq_some hfirst with ⟨rfl, hlt⟩ | hb
        · exact .inl ⟨List.mem_cons_self, hlt⟩
        · exact .inr hb
  exact (fold t.holes none hx).resolve_right (by simp)

/-- What a place that is found is (R242): a hole of exactly the slot's size, the start of a larger one, or the next block; and the holes that are left. -/
theorem place_cases {x y : Tun} {c off : Nat} (h : x.place c = some (off, y)) :
    ((off, c + 1) ∈ x.holes ∧ y.holes = x.holes.erase (off, c + 1)) ∨
    (∃ n, (off, n) ∈ x.holes ∧ c + 1 < n ∧ y.holes = x.holes.map fun z => if z = (off, n) then (off + c + 1, n - (c + 1)) else z) ∨
    (x.next < x.k * 255 ∧ off = x.next / 255 * 1024 + x.next % 255 * 4 ∧
      y.holes = if c < 3 then x.holes ++ [(off + c + 1, 3 - c)] else x.holes) := by
  unfold Tun.place at h
  split at h
  · next hole hexact =>
    obtain ⟨hoff, rfl⟩ := Prod.mk.inj (Option.some.inj h)
    have hsize : hole.2 = c + 1 := by simpa using List.find?_some hexact
    have hhole : hole = (off, c + 1) := Prod.ext hoff hsize
    exact .inl ⟨hhole ▸ List.mem_of_find?_eq_some hexact, by rw [hhole]⟩
  · split at h
    · next hole hlarger =>
      obtain ⟨rfl, rfl⟩ := Prod.mk.inj (Option.some.inj h)
      obtain ⟨hmem, hlt⟩ := largerHole_eq_some hlarger
      exact .inr (.inl ⟨hole.2, hmem, hlt, rfl⟩)
    · split at h
      · next hnext =>
        obtain ⟨rfl, rfl⟩ := Prod.mk.inj (Option.some.inj h)
        exact .inr (.inr ⟨hnext, rfl, rfl⟩)
      · cases h

/-- Settles O31: an exact hole and the rest of a larger one lie in the block of the hole, and a new block is a data block of its strip. -/
theorem placesLieInOneBlock : Obligations.PlacesLieInOneBlock := by
  intro x y c off hc hholes hplace
  have hin : ∀ h ∈ x.holes, InBlock x.k h := hholes
  suffices InBlock x.k (off, c + 1) ∧ ∀ h ∈ y.holes, InBlock x.k h from ⟨this.1.1, this.1.2.1, this.1.2.2, this.2⟩
  rcases place_cases hplace with ⟨hmem, hy⟩ | ⟨n, hmem, hlt, hy⟩ | ⟨hnext, hoff, hy⟩
  · exact ⟨hin _ hmem, fun h hh => hin h (List.mem_of_mem_erase (hy ▸ hh))⟩
  · obtain ⟨hfirst, hrest⟩ := (hin _ hmem).split hlt
    refine ⟨hfirst, fun h hh => ?_⟩
    rw [hy] at hh
    obtain ⟨z, hz, rfl⟩ := List.mem_map.mp hh
    split
    · exact hrest
    · exact hin z hz
  · rw [hy]
    obtain ⟨hfirst, hrest⟩ := inBlock_next hnext hoff hc
    refine ⟨hfirst, fun h hh => ?_⟩
    split at hh
    · next hlt =>
      rcases List.mem_append.mp hh with hh | hh
      · exact hin h hh
      · exact List.mem_singleton.mp hh ▸ hrest hlt
    · exact hin h hh

end Sys2Proof.Machine
end

section
/-! PROOFS. Parity generation and reconstruction (R246, R247). -/

namespace Sys2Proof.Machine

/-! ### The field of R246 keeps to bytes -/

theorem gfMul_lt {a : Nat} (ha : a < 256) (fuel b : Nat) : gfMul 0x11D 8 a fuel b < 256 := by
  induction fuel generalizing a b with
  | zero => exact Nat.two_pow_pos 8
  | succ fuel ih =>
    have hdouble : ∀ a < 256, (if a.testBit 7 then (2 * a) ^^^ 0x11D else 2 * a) < 256 := by decide +kernel
    refine Nat.xor_lt_two_pow (n := 8) ?_ (ih (hdouble a ha) _)
    split
    · exact ha
    · decide

theorem pqPow_lt (n : Nat) : pqPow n < 256 := by
  cases n with
  | zero => decide
  | succ n => exact gfMul_lt (by decide) _ _

theorem foldl_xor_lt {l : List Nat} (h : ∀ x ∈ l, x < 256) {a : Nat} (ha : a < 256) : l.foldl (· ^^^ ·) a < 256 := by
  induction l generalizing a with
  | nil => exact ha
  | cons x l ih => exact ih (fun y hy => h y (List.mem_cons_of_mem x hy)) (Nat.xor_lt_two_pow (n := 8) ha (h x List.mem_cons_self))

theorem pCol_lt {l : List Nat} (h : ∀ x ∈ l, x < 256) : pCol l < 256 := foldl_xor_lt h (by decide)

theorem qCol_lt (l : List Nat) : qCol l < 256 := by
  refine foldl_xor_lt (fun x hx => ?_) (by decide)
  obtain ⟨d, -, rfl⟩ := List.mem_map.mp hx
  exact gfMul_lt (pqPow_lt _) _ _

/-! ### One column -/

section
variable {k : Nat} {l : List (Option Nat)}

/-- The data bytes of a column, zero where one is missing. -/
def dataOf (k : Nat) (l : List (Option Nat)) : List Nat := (List.range k).map fun i => (l.getD i none).getD 0

/-- A column without a missing data byte gives its P and its Q. -/
theorem solveCol_of_data (h : ∀ i < k, l.getD i none ≠ none) : solveCol k l = dataOf k l ++ [pCol (dataOf k l), qCol (dataOf k l)] := by
  have hmiss : (((List.range (k + 2)).filter fun i => l.getD i none = none).filter fun i => i < k) = [] := by
    refine List.filter_eq_nil_iff.mpr fun i hi hlt => h i (of_decide_eq_true hlt) ?_
    exact of_decide_eq_true (List.mem_filter.mp hi).2
  simp only [solveCol, hmiss]
  rfl

/-- The missing positions of a column in which one is missing. -/
theorem missing_one {x : Nat} (hx : x < k + 2) (hmiss : l.getD x none = none) (hrest : ∀ i < k + 2, i ≠ x → l.getD i none ≠ none) :
    ((List.range (k + 2)).filter fun i => l.getD i none = none) = [x] := by
  have hsame : ((List.range (k + 2)).filter fun i => l.getD i none = none) = (List.range (k + 2)).filter (· == x) := by
    refine List.filter_congr fun i hi => ?_
    by_cases hix : i = x
    · subst hix
      simp only [hmiss, decide_true, beq_self_eq_true]
    · simp only [hrest i (List.mem_range.mp hi) hix, decide_false, beq_eq_false_iff_ne.mpr hix]
  rw [hsame, List.filter_beq, List.count_eq_one_of_mem List.nodup_range (List.mem_range.mpr hx), List.replicate_one]

/-- A column with one missing data byte gives it back from the others and P. -/
theorem solveCol_of_one {x : Nat} (hx : x < k) (hmiss : l.getD x none = none) (hrest : ∀ i < k + 2, i ≠ x → l.getD i none ≠ none) :
    (solveCol k l).getD x 0 = pCol (dataOf k l) ^^^ (l.getD k none).getD 0 := by
  have hk : ([x].contains k) = false := by simpa using hx.ne'
  have hlen : x < (dataOf k l).length := by simpa [dataOf] using hx
  simp only [solveCol, missing_one (by omega) hmiss hrest, List.filter_cons, List.filter_nil, hx, decide_true, if_true, hk, Bool.false_eq_true, if_false]
  rw [List.getD_append _ _ _ _ (by simpa using hx), ← dataOf, List.getD_eq_getElem _ _ (by simpa using hlen), List.getElem_set_self]

end

/-! ### The strips of a job -/

section
variable {id op : Nat} {j : Job} {s : State}

/-- The address of a strip. -/
def stripAddr (s : State) (j : Job) (p : Nat) : Nat := rdN s (j.n 8 8 + 8 * p) 8

/-- A byte column of a job's strips, without those that it computes. -/
def jobCol (s : State) (j : Job) (i : Nat) : List (Option Nat) :=
  (List.range (j.n 16 1 + 2)).map fun p => if (pMiss j).contains p then none else some (mget s.mem (stripAddr s j p + i)).toNat

/-- A strip that a job computes. -/
def jobStrip (s : State) (j : Job) (p : Nat) : List Byte :=
  (List.range (j.n 20 4)).map fun i => BitVec.ofNat 8 ((solveCol (j.n 16 1) (jobCol s j i)).getD p 0)

@[simp] theorem jobStrip_length (s : State) (j : Job) (p : Nat) : (jobStrip s j p).length = j.n 20 4 := by simp [jobStrip]

theorem getD_jobCol {p : Nat} (hp : p < j.n 16 1 + 2) (i : Nat) :
    (jobCol s j i).getD p none = if (pMiss j).contains p then none else some (mget s.mem (stripAddr s j p + i)).toNat := by
  rw [jobCol, List.getD_eq_getElem _ _ (by simpa using hp), List.getElem_map, List.getElem_range]

/-- What the solver gets of a job's strips, column by column. -/
theorem jobCol_eq {i : Nat} (hi : i < j.n 20 4) :
    ((pStrips s j).zipIdx.map fun (a, i) => if (pMiss j).contains i then none else some (rdB s a (j.n 20 4))).map
      (fun o => o.map fun b => (b.getD i 0).toNat) = jobCol s j i := by
  refine List.ext_getElem (by simp [pStrips, jobCol]) fun p hp _ => ?_
  simp only [pStrips, jobCol, List.getElem_map, List.getElem_zipIdx, List.getElem_range, Nat.zero_add]
  split
  · rfl
  · rw [Option.map_some, List.getD_eq_getElem?_getD, getElem?_rdB s _ hi]
    rfl

/-- The solver's strips are those of the columns. -/
theorem solveStrips_eq {p : Nat} (hp : p < j.n 16 1 + 2) :
    (solveStrips (j.n 16 1) (j.n 20 4)
      ((pStrips s j).zipIdx.map fun (a, i) => if (pMiss j).contains i then none else some (rdB s a (j.n 20 4)))).getD p [] = jobStrip s j p := by
  rw [solveStrips, List.getD_eq_getElem _ _ (by simpa using hp), List.getElem_map, List.getElem_range, jobStrip, List.map_map]
  refine List.map_congr_left fun i hi => ?_
  rw [Function.comp_apply, jobCol_eq (List.mem_range.mp hi)]

/-- The strips that a job computes stand at their addresses. -/
def stripsStored (j : Job) (s : State) : State := (pMiss j).foldl (fun t p => wrB (stripAddr s j p) (jobStrip s j p) t) s

theorem stripsStored_jobs (j : Job) (s : State) : (stripsStored j s).jobs = s.jobs := by
  have fold (l : List Nat) (t : State) : (l.foldl (fun t p => wrB (stripAddr s j p) (jobStrip s j p) t) t).jobs = t.jobs := by
    induction l generalizing t with
    | nil => rfl
    | cons p l ih => exact ih _
  exact fold _ _

/-- A job stores the strips that it computes. -/
theorem runParity_spec (h : accepted s id 0x07 op = some j) (hmiss : ∀ p ∈ pMiss j, p < j.n 16 1 + 2) (cnt : RegName) :
    JobDone (runParity id op cnt s) id ⟨0, 0, j.n 20 4, 0⟩ ∧ (runParity id op cnt s).mem = (stripsStored j s).mem := by
  have hstored : (pMiss j).foldl (fun t i => wrB ((pStrips s j).getD i 0) ((solveStrips (j.n 16 1) (j.n 20 4)
      ((pStrips s j).zipIdx.map fun (a, i) => if (pMiss j).contains i then none else some (rdB s a (j.n 20 4)))).getD i []) t) s = stripsStored j s := by
    refine List.foldl_ext _ _ _ fun u p hp => ?_
    rw [solveStrips_eq (hmiss p hp), pStrips, List.getD_eq_getElem _ _ (by simpa using hmiss p hp), List.getElem_map, List.getElem_range, stripAddr]
  let u := bump cnt (pmc 0x1101 (instNumber cParity j.inst) (j.n 20 4 * (pMiss j).length) (stripsStored j s))
  have hu : u.jobs = s.jobs ∧ u.mem = (stripsStored j s).mem :=
    ⟨((sameButLog_pmc _ _ _ _).jobs).trans (stripsStored_jobs j s), (sameButLog_pmc _ _ _ _).mem⟩
  have hrun : runParity id op cnt s = { u with jobs := kput s.jobs id { j with phase := .done ⟨0, 0, j.n 20 4, 0⟩ } } :=
    runJob_finish (cls := 0x07) (r := ⟨0, 0, j.n 20 4, 0⟩) h (by simp only [hstored]; rfl) hu.1
  rw [hrun]
  exact ⟨⟨_, kget_kput_self _ _ _, rfl⟩, hu.2⟩

/-- A byte of a strip that stands in memory. -/
theorem toNat_mget_jobStrip {m : List Host.Cell} (hm : Memory.wf m = true) {p i : Nat} (hi : i < j.n 20 4) (a : Nat)
    (hbyte : (solveCol (j.n 16 1) (jobCol s j i)).getD p 0 < 256) :
    (mget (mwrite m a (jobStrip s j p)) (a + i)).toNat = (solveCol (j.n 16 1) (jobCol s j i)).getD p 0 := by
  rw [mget_mwrite_of_in hm _ _ (by simpa using hi)]
  simp only [jobStrip, List.getElem_map, List.getElem_range, BitVec.toNat_ofNat]
  exact Nat.mod_eq_of_lt hbyte

/-! ### GEN and REC -/

/-- The data bytes of a column. -/
def colBytes (s : State) (j : Job) (i : Nat) : List Nat := (List.range (j.n 16 1)).map fun p => (mget s.mem (stripAddr s j p + i)).toNat

theorem lt_of_mem_colBytes {i x : Nat} (hx : x ∈ colBytes s j i) : x < 256 := by
  obtain ⟨p, -, rfl⟩ := List.mem_map.mp hx
  exact BitVec.isLt _

/-- GEN computes P and Q of each column. -/
theorem solveCol_gen (hmiss : pMiss j = [j.n 16 1, j.n 16 1 + 1]) (i : Nat) : (solveCol (j.n 16 1) (jobCol s j i)).getD (j.n 16 1) 0 = pCol (colBytes s j i) ∧
    (solveCol (j.n 16 1) (jobCol s j i)).getD (j.n 16 1 + 1) 0 = qCol (colBytes s j i) := by
  have hget {p : Nat} (hp : p < j.n 16 1) : (jobCol s j i).getD p none = some (mget s.mem (stripAddr s j p + i)).toNat := by
    have hout : (pMiss j).contains p = false := by
      rw [hmiss]
      simp only [List.contains_cons, List.contains_nil, Bool.or_false, Bool.or_eq_false_iff, beq_eq_false_iff_ne]
      omega
    rw [getD_jobCol (by omega), hout]
    rfl
  have hdata : dataOf (j.n 16 1) (jobCol s j i) = colBytes s j i := by
    refine List.map_congr_left fun p hp => ?_
    rw [hget (List.mem_range.mp hp), Option.getD_some]
  have hlen : (colBytes s j i).length = j.n 16 1 := by simp [colBytes]
  rw [solveCol_of_data (fun p hp => by rw [hget hp]; exact Option.some_ne_none _), hdata]
  constructor
  · rw [List.getD_append_right _ _ _ _ hlen.le, hlen, Nat.sub_self]
    rfl
  · rw [List.getD_append_right _ _ _ _ (by omega), hlen, Nat.add_sub_cancel_left]
    rfl

theorem bitsSet_two_pow {n x : Nat} (hx : x < n) : bitsSet n (2 ^ x) = [x] := by
  have hsame : bitsSet n (2 ^ x) = (List.range n).filter (· == x) := by
    refine List.filter_congr fun i _ => ?_
    rw [Nat.testBit_two_pow]
    exact decide_eq_decide.mpr eq_comm
  rw [hsame, List.filter_beq, List.count_eq_one_of_mem List.nodup_range (List.mem_range.mpr hx), List.replicate_one]

/-- The bytes that REC combines, as a number. -/
theorem toNat_foldl_xor (l : List Byte) (a : Byte) : (l.foldl (· ^^^ ·) a).toNat = (l.map BitVec.toNat).foldl (· ^^^ ·) a.toNat := by
  induction l generalizing a with
  | nil => rfl
  | cons b l ih => rw [List.foldl_cons, ih, BitVec.toNat_xor, List.map_cons, List.foldl_cons]

/-- Bytes that are zero may be left out. -/
theorem foldl_xor_filter (f : Nat → Nat) (x : Nat) (l : List Nat) (a : Nat) :
    (l.map fun p => if p = x then 0 else f p).foldl (· ^^^ ·) a = ((l.filter (· ≠ x)).map f).foldl (· ^^^ ·) a := by
  induction l generalizing a with
  | nil => rfl
  | cons p l ih =>
    rw [List.map_cons, List.foldl_cons, ih, List.filter_cons]
    by_cases hp : p = x
    · simp [hp]
    · simp [hp]

/-- REC gives the missing byte of each column. -/
theorem solveCol_rec {x : Nat} (hx : x < j.n 16 1) (hmiss : pMiss j = [x]) (i : Nat) : (solveCol (j.n 16 1) (jobCol s j i)).getD x 0 =
    ((((List.range (j.n 16 1 + 1)).filter (· ≠ x)).map fun p => mget s.mem (stripAddr s j p + i)).foldl (· ^^^ ·) 0).toNat := by
  have hget {p : Nat} (hp : p < j.n 16 1 + 2) :
      (jobCol s j i).getD p none = if p = x then none else some (mget s.mem (stripAddr s j p + i)).toNat := by
    rw [getD_jobCol hp, hmiss]
    simp only [List.contains_cons, List.contains_nil, Bool.or_false, beq_iff_eq]
  have hdata : dataOf (j.n 16 1) (jobCol s j i) = (List.range (j.n 16 1)).map fun p => if p = x then 0 else (mget s.mem (stripAddr s j p + i)).toNat := by
    refine List.map_congr_left fun p hp => ?_
    rw [hget (by have := List.mem_range.mp hp; omega)]
    split <;> rfl
  rw [solveCol_of_one hx (by rw [hget (by omega), if_pos rfl]) (fun p hp hpx => by rw [hget hp, if_neg hpx]; exact Option.some_ne_none _), hdata,
    hget (by omega), if_neg hx.ne', Option.getD_some, toNat_foldl_xor, List.map_map, List.range_succ, List.filter_append, List.map_append,
    List.foldl_append, pCol, foldl_xor_filter (fun p => (mget s.mem (stripAddr s j p + i)).toNat)]
  simp only [List.filter_cons, List.filter_nil, ne_eq, hx.ne', not_false_eq_true, decide_true, if_true, List.map_cons, List.map_nil, List.foldl_cons,
    List.foldl_nil, Function.comp_apply]
  rfl

end

/-- The jobs of the parity engines. -/
theorem parityResults : Claim.ParityResults := by
  intro id j s hm hk k len a col
  constructor
  · intro h hapart
    obtain ⟨-, -, -, hop⟩ := accepted_eq_some h
    have hmiss : pMiss j = [k, k + 1] := if_pos hop
    obtain ⟨hdone, hmem⟩ := runParity_spec h (fun p hp => by
      rw [hmiss] at hp
      simp only [List.mem_cons, List.not_mem_nil, or_false] at hp
      omega) .PE_GEN_CNT
    have hpq : (runParity id 1 .PE_GEN_CNT s).mem = mwrite (mwrite s.mem (a k) (jobStrip s j k)) (a (k + 1)) (jobStrip s j (k + 1)) := by
      rw [hmem, stripsStored, hmiss]
      rfl
    have hlen (p : Nat) : (jobStrip s j p).length = len := jobStrip_length s j p
    refine ⟨_, rfl, hdone, fun i hi => ?_, fun b hp hq => ?_⟩
    · obtain ⟨hP, hQ⟩ := solveCol_gen (s := s) hmiss i
      rw [hpq]
      constructor
      · rw [mget_mwrite_of_out _ _ _ (by rw [hlen]; omega), toNat_mget_jobStrip hm hi _ (hP ▸ pCol_lt fun _ => lt_of_mem_colBytes)]
        exact hP
      · rw [toNat_mget_jobStrip (wf_mwrite hm _ _) hi _ (hQ ▸ qCol_lt _)]
        exact hQ
    · rw [hpq, mget_mwrite_of_out _ _ _ (by rw [hlen]; exact hq), mget_mwrite_of_out _ _ _ (by rw [hlen]; exact hp)]
  · intro x h hx hlost
    obtain ⟨-, -, -, hop⟩ := accepted_eq_some h
    have hmiss : pMiss j = [x] := by
      rw [pMiss, hop, if_neg (by decide), hlost, bitsSet_two_pow (by omega)]
    obtain ⟨hdone, hmem⟩ := runParity_spec h (fun p hp => by
      rw [hmiss, List.mem_singleton] at hp
      omega) .PE_REC_CNT
    have hone : (runParity id 2 .PE_REC_CNT s).mem = mwrite s.mem (a x) (jobStrip s j x) := by
      rw [hmem, stripsStored, hmiss]
      rfl
    refine ⟨_, rfl, hdone, fun b hb => ?_, fun i hi => ?_⟩
    · rw [hone, mget_mwrite_of_out _ _ _ (by rw [jobStrip_length]; exact hb)]
    · have hbyte := solveCol_rec (s := s) hx hmiss i
      apply BitVec.eq_of_toNat_eq
      rw [hone, toNat_mget_jobStrip hm hi _ (hbyte ▸ BitVec.isLt _), hbyte]
      rfl

end Sys2Proof.Machine
end

section
/-! PROOFS. The load of a placement table (R238, R264). -/

namespace Sys2Proof.Machine

/-- A table after another: the first that lists a key gives its value. -/
theorem kget_append {α : Type} (l m : KMap α) (i : Nat) : kget (l ++ m) i = (kget l i).or (kget m i) := by
  induction l with
  | nil => rfl
  | cons kv l ih =>
    obtain ⟨k, v⟩ := kv
    rw [List.cons_append, kget_cons, kget_cons, ih]
    split <;> rfl

/-- The values of consecutive keys. -/
theorem kget_map_range {α : Type} (lo n : Nat) (f : Nat → α) (i : Nat) :
    kget ((List.range n).map fun i => (lo + i, f i)) i = if lo ≤ i ∧ i < lo + n then some (f (i - lo)) else none := by
  induction n with
  | zero => rw [if_neg (by omega)]; rfl
  | succ n ih =>
    rw [List.range_succ, List.map_append, kget_append, ih]
    by_cases hin : lo ≤ i ∧ i < lo + n
    · rw [if_pos hin, if_pos (by omega)]
      rfl
    · rw [if_neg hin, Option.none_or, List.map_cons, List.map_nil, kget_cons, kget_nil]
      by_cases hlast : i = lo + n
      · rw [if_pos hlast, if_pos (by omega), hlast, Nat.add_sub_cancel_left]
      · rw [if_neg hlast, if_neg (by omega)]

section
variable {p : Nat} {s : State}

/-- The placement tables with that of a pool replaced by an image. -/
def tableLoaded (p a : Nat) (s : State) : KMap Nat :=
  (s.plc.place.filter fun kv => decide (kv.1 < p * 131072)) ++ imageTable s a p ++ s.plc.place.filter fun kv => decide ((p + 1) * 131072 ≤ kv.1)

theorem kget_tableLoaded (p a : Nat) (s : State) (i : Nat) : kget (tableLoaded p a s) i =
    if p * 131072 ≤ i ∧ i < p * 131072 + 131072 then some (rdN s (a + 4 * (i - p * 131072)) 4) else kget s.plc.place i := by
  rw [tableLoaded, kget_append, kget_append, imageTable, kget_map_range,
    kget_filter_key s.plc.place (fun k => decide (k < p * 131072)), kget_filter_key s.plc.place fun k => decide ((p + 1) * 131072 ≤ k)]
  simp only [decide_eq_true_eq]
  by_cases hlow : i < p * 131072
  · rw [if_pos hlow, if_neg (by omega), if_neg (by omega), if_neg (by omega), Option.or_none, Option.or_none]
  · rw [if_neg hlow, Option.none_or]
    by_cases hin : i < p * 131072 + 131072
    · have hboth : p * 131072 ≤ i ∧ i < p * 131072 + 131072 := ⟨by omega, hin⟩
      rw [if_pos hboth, if_pos hboth, Option.some_or]
    · have hnot : ¬(p * 131072 ≤ i ∧ i < p * 131072 + 131072) := fun h => hin h.2
      rw [if_neg hnot, if_neg hnot, if_pos (by omega), Option.none_or]

end

/-- The image of a table is in memory. -/
theorem badRow_of_mem {s t : State} (h : t.mem = s.mem) : badRow t = badRow s := by
  unfold badRow imageRow rdN
  rw [h]

section
variable (p : BitVec 3) (s : State)

/-- The write of PLC_PTCMD that loads the table of a pool. -/
def loadWord (p : BitVec 3) : Word := BitVec.ofNat 64 (2 * p.toNat + 1)

theorem bit_loadWord : bit (loadWord p) 0 = true := by revert p; decide +kernel

theorem bits_loadWord : bits (loadWord p) 3 1 = p.toNat := by revert p; decide +kernel

/-- The state in which the command register holds that write. -/
def loadCommand (p : BitVec 3) (s : State) : State :=
  wr .PLC_PTCMD (writeFields (rd s .PLC_PTCMD) (loadWord p) (RegName.info .PLC_PTCMD).fields) s

theorem loadCommand_mem : (loadCommand p s).mem = s.mem := rfl

theorem getF_loadCommand {f : Fld} {i : Nat} (h : f.reg.addr i 0 ≠ (RegName.PLC_PTCMD).addr 0 0) : getF (loadCommand p s) f i = getF s f i := by
  rw [getF, loadCommand, rd_wr_of_addr_ne h, getF]

/-- The geometry of a pool is not the command register. -/
theorem geom_ne_ptcmd (i : Nat) : (RegName.PLC_GEOM).addr i 0 ≠ (RegName.PLC_PTCMD).addr 0 0 := by
  have geom : (RegName.PLC_GEOM).addr i 0 = 0x10B000100 + i * 0x40 := rfl
  have command : (RegName.PLC_PTCMD).addr 0 0 = 0x10B000048 := rfl
  omega

/-- The first row of the image at PLC_PTADDR that breaks a rule (R238). -/
def badImageRow (p : BitVec 3) (s : State) : Option Nat :=
  badRow s (getF s F.PLC_PTADDR_BASE * 4096) (getF s F.PLC_GEOM_K p.toNat) (poolMembers s p.toNat) (getF s F.PLC_GEOM_EPOCHCH p.toNat)

/-- The state in which the pool has the table of the image. -/
def tableInForce (p : BitVec 3) (s : State) : State :=
  { loadCommand p s with plc := { s.plc with place := tableLoaded p.toNat (getF s F.PLC_PTADDR_BASE * 4096) s } }

/-- What the command does (R238). -/
theorem exec_placementLoad : exec (.placementLoad p) s = .next (
    if poolEn s p.toNat then setF F.PLC_PTSTAT_REFUSED 1 (loadCommand p s)
    else match badImageRow p s with
      | some r => setF F.PLC_PTSTAT_ERR r (setF F.PLC_PTSTAT_REFUSED 1 (loadCommand p s))
      | none => setF F.PLC_PTSTAT_DONE 1 (tableInForce p s)) := by
  have hgeom (f : Fld) (hf : f.reg = .PLC_GEOM) : getF (loadCommand p s) f p.toNat = getF s f p.toNat :=
    getF_loadCommand p s (hf ▸ geom_ne_ptcmd _)
  have hen : poolEn (loadCommand p s) p.toNat = poolEn s p.toNat := congrArg (fun n => decide (n ≠ 0)) (hgeom F.PLC_GEOM_EN rfl)
  have hmembers : poolMembers (loadCommand p s) p.toNat = poolMembers s p.toNat := hgeom F.PLC_GEOM_MEMBERS rfl
  have hbase : getF (loadCommand p s) F.PLC_PTADDR_BASE = getF s F.PLC_PTADDR_BASE := getF_loadCommand (f := F.PLC_PTADDR_BASE) p s (by decide)
  show ok (wrPtCmd (loadWord p) s) = _
  unfold wrPtCmd
  rw [← loadCommand]
  simp only [bit_loadWord, bits_loadWord, Bool.not_true, Bool.false_eq_true, if_false, hen, hmembers, hbase, hgeom F.PLC_GEOM_K rfl,
    hgeom F.PLC_GEOM_EPOCHCH rfl, badRow_of_mem (loadCommand_mem p s)]
  rw [← badImageRow]
  split
  · rfl
  · cases badImageRow p s <;> rfl

end

/-- A row's number fits ERR. -/
theorem badRow_lt {s : State} {a k members epochch r : Nat} (h : badRow s a k members epochch = some r) : r < 4096 := by
  unfold badRow at h
  exact List.mem_range.mp (List.mem_of_find?_eq_some h)

/-- Placement loads. -/
theorem placementLoads : Claim.PlacementLoads := by
  intro p s _ a bad
  have hexec := exec_placementLoad p s
  constructor
  · intro hen
    rw [hen, if_pos rfl] at hexec
    exact ⟨_, hexec, isF_setF_one (by decide) (by decide) _, rfl, rfl⟩
  · intro hdis
    rw [hdis, if_neg Bool.false_ne_true] at hexec
    dsimp only [bad, a]
    rw [← badImageRow]
    cases hbad : badImageRow p s with
    | some r =>
      rw [hbad] at hexec
      dsimp only at hexec
      refine ⟨_, hexec, rfl, ?_, ?_, rfl⟩
      · rw [isF, getF_setF_of_disjoint (f := F.PLC_PTSTAT_ERR) (g := F.PLC_PTSTAT_REFUSED) rfl (by decide)]
        exact isF_setF_one (by decide) (by decide) _
      · rw [getF_setF_self (by decide)]
        exact Nat.mod_eq_of_lt ((badRow_lt hbad).trans (by decide))
    | none =>
      rw [hbad] at hexec
      dsimp only at hexec
      have hplace (i : Nat) := kget_tableLoaded p.toNat (getF s F.PLC_PTADDR_BASE * 4096) s i
      refine ⟨_, hexec, rfl, isF_setF_one (by decide) (by decide) _, fun i hi => (hplace _).trans ?_, fun i hi => (hplace _).trans ?_⟩
      · rw [if_pos (by omega), Nat.add_sub_cancel_left]
      · rw [if_neg (by omega)]

/-- Settles O32: parity by byte columns, and what a load of the placement table leaves. -/
theorem parityAndPlacement : Obligations.ParityAndPlacement := ⟨parityResults, placementLoads⟩

end Sys2Proof.Machine
end

section
/-! SUPPORT. The registers of one CSR unit, and where a pool's slots lie as those of the placement unit say (R9, R237, R238, R283). -/

namespace Sys2Proof.Machine

/-! ### The registers of a unit -/

/-- The registers of a CSR unit are as before. -/
def SameUnit (u : Nat) (s t : State) : Prop := ∀ a, csrBase ≤ a → unitOf a = u → kget t.csr a = kget s.csr a

theorem csrBase_le_addr (r : RegName) (i j : Nat) : csrBase ≤ r.addr i j := by
  unfold RegName.addr
  omega

namespace SameUnit
variable {u : Nat} {s t v : State}

theorem of_csr (h : t.csr = s.csr) : SameUnit u s t := fun a _ _ => by rw [h]

theorem refl (s : State) : SameUnit u s s := .of_csr rfl

theorem trans (h : SameUnit u s t) (k : SameUnit u t v) : SameUnit u s v := fun a ha hu => (k a ha hu).trans (h a ha hu)

theorem wr {r : RegName} {i j : Nat} (hr : unitOf (r.addr i j) ≠ u) (x : Word) (s : State) : SameUnit u s (wr r x s i j) := fun _ _ hu =>
  kget_kput_ne _ (fun h => hr ((congrArg unitOf h).symm.trans hu)) _

theorem setF {f : Fld} {i j : Nat} (hr : unitOf (f.reg.addr i j) ≠ u) (x : Nat) (s : State) : SameUnit u s (setF f x s i j) := .wr hr _ s

theorem bumpBy {r : RegName} {i : Nat} (hr : unitOf (r.addr i 0) ≠ u) (n : Nat) (s : State) : SameUnit u s (bumpBy n r s i) := .wr hr _ s

theorem bump {r : RegName} {i : Nat} (hr : unitOf (r.addr i 0) ≠ u) (s : State) : SameUnit u s (bump r s i) := .wr hr _ s

theorem pmc (hu : u ≠ 5) (ev inst k : Nat) (s : State) : SameUnit u s (pmc ev inst k s) := by
  intro a ha hunit
  refine kget_pmc ?_ ev inst k s
  have firstCnt : RegName.PMC_CNT.addr 0 0 = 0x105002000 := rfl
  have lastCnt : RegName.PMC_CNT.addr 1023 0 = 0x105003FF8 := rfl
  have firstOvf : RegName.PMC_OVF.addr 0 0 = 0x105000100 := rfl
  have lastOvf : RegName.PMC_OVF.addr 15 0 = 0x105000178 := rfl
  simp only [isPmcReg, Bool.or_eq_false_iff, Bool.and_eq_false_iff, decide_eq_false_iff_not]
  unfold unitOf csrBase at hunit
  unfold csrBase at ha
  omega

theorem celPush (hu : u ≠ 4) (r : CelRec) (s : State) : SameUnit u s (celPush r s) := fun a _ hunit =>
  sameRegsBut_celPush r s a fun hmem => hu (hunit.symm.trans (congrArg unitOf (List.mem_singleton.mp hmem)))

theorem cel (hu : u ≠ 4) (code un sev p0 p1 p2 : Nat) (s : State) : SameUnit u s (cel code un sev p0 p1 p2 s) := .celPush hu _ s

theorem celOpen (hu : u ≠ 4) (un p0 p1 p2 : Nat) (s : State) : SameUnit u s (celOpen un p0 p1 p2 s) := .cel hu _ _ _ _ _ _ _

theorem raise (src param : Nat) (s : State) : SameUnit u s (raise src param s) := .of_csr (raise_csr _ _ _)

theorem govRecord (h4 : u ≠ 4) (h5 : u ≠ 5) (kind object new old : Nat) (s : State) : SameUnit u s (govRecord kind object new old s) :=
  (SameUnit.cel h4 _ _ _ _ _ _ s).trans (.pmc h5 _ _ _ _)

theorem driveWr (hu : u ≠ 5) (p m lba : Nat) (d md : List Byte) (s : State) : SameUnit u s (driveWr p m lba d md s) := .pmc hu _ _ _ _

theorem rd (h : SameUnit u s t) {r : RegName} {i j : Nat} (hr : unitOf (r.addr i j) = u) : rd t r i j = rd s r i j :=
  rd_of_kget (h _ (csrBase_le_addr r i j) hr)

theorem getF (h : SameUnit u s t) {f : Fld} {i j : Nat} (hr : unitOf (f.reg.addr i j) = u) : getF t f i j = getF s f i j := by
  rw [Machine.getF, Machine.getF, h.rd hr]

theorem isF (h : SameUnit u s t) {f : Fld} {i j : Nat} (hr : unitOf (f.reg.addr i j) = u) : isF t f i j = isF s f i j := by
  rw [Machine.isF, Machine.isF, h.getF hr]

end SameUnit

/-! ### The registers of the pools -/

section
variable {p : Nat} (hp : p < 8)
include hp

theorem unitOf_plcGeom : unitOf (RegName.PLC_GEOM.addr p 0) = 0xB := by
  have addr : RegName.PLC_GEOM.addr p 0 = 0x10B000100 + p * 0x40 := rfl
  rw [addr, unitOf, csrBase]
  omega

theorem unitOf_plcBand : unitOf (RegName.PLC_BAND.addr p 0) = 0xB := by
  have addr : RegName.PLC_BAND.addr p 0 = 0x10B000400 + p * 0x10 := rfl
  rw [addr, unitOf, csrBase]
  omega

theorem unitOf_plcMem {m : Nat} (hm : m < 256) : unitOf (RegName.PLC_MEM.addr p m) = 0xB := by
  have addr : RegName.PLC_MEM.addr p m = 0x10B010000 + p * 0x800 + m * 8 := rfl
  rw [addr, unitOf, csrBase]
  omega

theorem unitOf_plcSst : unitOf (RegName.PLC_SST.addr p 0) = 0xB := by
  have addr : RegName.PLC_SST.addr p 0 = 0x10B000118 + p * 0x40 := rfl
  rw [addr, unitOf, csrBase]
  omega

end

/-! ### Where a slot lies -/

section
variable {s t : State} {p : Nat} (hu : SameUnit 0xB s t) (hp : p < 8)
include hu hp

theorem memState_of_sameUnit {m : Nat} (hm : m < 256) : memState t p m = memState s p m := hu.getF (unitOf_plcMem hp hm)

theorem bandOn_of_sameUnit : bandOn t p = bandOn s p := hu.isF (unitOf_plcBand hp)

theorem bandAddr_of_sameUnit (e : Nat) : bandAddr t p e = bandAddr s p e := by
  rw [bandAddr, bandAddr, hu.getF (f := F.PLC_BAND_BASE) (unitOf_plcBand hp)]

theorem segAddr_of_sameUnit (g : Nat) : segAddr t p g = segAddr s p g := by
  rw [segAddr, segAddr, hu.getF (f := F.PLC_SST_BASE) (unitOf_plcSst hp)]

variable {f : Nat} (hband : ∀ e, bandOf t p e = bandOf s p e)
include hband

theorem frameGen_of_sameUnit : frameGen t p f = frameGen s p f := by
  rw [frameGen, frameGen, bandOn_of_sameUnit hu hp, hband]

theorem frameK_of_sameUnit : frameK t p f = frameK s p f := by
  rw [frameK, frameK, frameGen_of_sameUnit hu hp hband, hu.getF (f := F.PLC_RKGEOM_K) rfl, hu.getF (f := F.PLC_GEOM_K) (unitOf_plcGeom hp)]

theorem placeOf_of_sameUnit (htarget : t.plc.target = s.plc.target) (hplace : t.plc.place = s.plc.place) (pos : Nat) :
    placeOf t p f pos = placeOf s p f pos := by
  rw [placeOf, placeOf, frameGen_of_sameUnit hu hp hband, htarget, hplace]

theorem posMember_of_sameUnit (htarget : t.plc.target = s.plc.target) (hplace : t.plc.place = s.plc.place) (pos : Nat) :
    posMember t p f pos = posMember s p f pos := by
  rw [posMember, posMember, placeOf_of_sameUnit hu hp hband htarget hplace]

end

theorem bandOf_of_sameUnit {s t : State} {p : Nat} (hu : SameUnit 0xB s t) (hp : p < 8) (hmem : t.mem = s.mem) (e : Nat) : bandOf t p e = bandOf s p e := by
  rw [bandOf, bandOf, bandAddr_of_sameUnit hu hp, rdN_of_mem hmem]

end Sys2Proof.Machine
end

section
/-! SUPPORT. What a record of the device's own and a change of a slot reference leave of the state (R131, R139, R143, R251). -/

namespace Sys2Proof.Machine

/-! ### A record of the device's own -/

/-- A tun without the numbers that its records give it. -/
def Tun.unnumbered (t : Tun) : Tun := { t with seq := 0, ck := 0 }

/-- What a record of the device's own leaves: all but memory from the record ring on, the counters, the state of the journal, and the numbers that tuns and
relocations keep of their records. -/
structure Journalled (s t : State) : Prop where
  same : SameButJournal s t
  units : ∀ u, u ≠ 5 → u ≠ 0x12 → SameUnit u s t
  mem : ∀ a, a < ownRing → mget t.mem a = mget s.mem a
  wf : Memory.wf s.mem = true → Memory.wf t.mem = true
  ta : t.ta = { s.ta with recs := t.ta.recs, woff := t.ta.woff, waiting := t.ta.waiting, tuns := t.ta.tuns }
  tuns : ∀ i, (kget t.ta.tuns i).map Tun.unnumbered = (kget s.ta.tuns i).map Tun.unnumbered
  plc : t.plc = { s.plc with reloc := t.plc.reloc }

/-- A change of memory from the record ring on. -/
theorem mget_wrB_of_below {base : Nat} {l : List Byte} {s : State} (h : ownRing ≤ base) {a : Nat} (ha : a < ownRing) :
    mget (wrB base l s).mem a = mget s.mem a := mget_mwrite_of_out _ _ _ (Or.inl (Nat.lt_of_lt_of_le ha h))

namespace Journalled
variable {s t v : State}

theorem refl (s : State) : Journalled s s := ⟨rfl, fun _ _ _ => .refl s, fun _ _ => rfl, id, rfl, fun _ => rfl, rfl⟩

theorem trans (h : Journalled s t) (k : Journalled t v) : Journalled s v where
  same := h.same.trans k.same
  units u h5 h12 := (h.units u h5 h12).trans (k.units u h5 h12)
  mem a ha := (k.mem a ha).trans (h.mem a ha)
  wf hm := k.wf (h.wf hm)
  ta := by rw [k.ta, h.ta]
  tuns i := (k.tuns i).trans (h.tuns i)
  plc := by rw [k.plc, h.plc]

theorem of_log (h : SameButLog s t) (hunits : ∀ u, u ≠ 5 → u ≠ 0x12 → SameUnit u s t) : Journalled s t where
  same := h.journal
  units := hunits
  mem a _ := by rw [h.mem]
  wf hm := by rw [h.mem]; exact hm
  ta := by rw [h]
  tuns i := by rw [h]
  plc := by rw [h]

theorem wrB {base : Nat} (hbase : ownRing ≤ base) (l : List Byte) (s : State) : Journalled s (wrB base l s) :=
  ⟨rfl, fun _ _ _ => .of_csr rfl, fun _ ha => mget_wrB_of_below hbase ha, fun hm => wf_wrB hm _ _, rfl, fun _ => rfl, rfl⟩

theorem modTun (i : Nat) {f : Tun → Tun} (hf : ∀ x, (f x).unnumbered = x.unnumbered) (s : State) : Journalled s (modTun i f s) := by
  refine ⟨rfl, fun _ _ _ => .of_csr rfl, fun _ _ => rfl, id, rfl, fun k => ?_, rfl⟩
  show (kget (kmod s.ta.tuns i f) k).map _ = _
  by_cases hk : k = i
  · subst hk
    rw [kget_kmod, Option.map_map]
    exact congrArg (Option.map · _) (funext hf)
  · rw [kget_kmod_ne _ hk]

theorem noteSeq (r : JRec) (s : State) : Journalled s (noteSeq r s) := by
  unfold Machine.noteSeq
  generalize r.acts = l
  induction l generalizing s with
  | nil => exact .refl s
  | cons a l ih =>
    refine trans ?_ (ih _)
    dsimp only
    split
    · exact .modTun _ (by intro _; rfl) s
    · exact ⟨rfl, fun _ _ _ => .of_csr rfl, fun _ _ => rfl, id, rfl, fun _ => rfl, rfl⟩
    · exact .refl s

theorem putCopies (l : List (Nat × Nat × List Byte)) (s : State) : Journalled s (putCopies ownRing l s) := by
  unfold Machine.putCopies
  induction l generalizing s with
  | nil => exact .refl s
  | cons c l ih =>
    refine trans (.wrB ?_ c.2.2 s) (ih _)
    unfold imageAddr
    omega

theorem sendRecord (r : JRec) (s : State) : Journalled s (sendRecord r s) := by
  obtain ⟨hsame, hmem⟩ := sameButJournal_sendRecord r s
  have hrest : (Machine.sendRecord r s).csr = s.csr ∧ (Machine.sendRecord r s).ta = s.ta ∧ (Machine.sendRecord r s).plc = s.plc := by
    unfold Machine.sendRecord
    dsimp only
    split
    · exact ⟨rfl, rfl, rfl⟩
    · split <;> exact ⟨rfl, rfl, rfl⟩
  obtain ⟨hcsr, hta, hplc⟩ := hrest
  exact ⟨hsame, fun _ _ _ => .of_csr hcsr, fun _ _ => by rw [hmem], fun hm => by rw [hmem]; exact hm, by rw [hta], fun _ => by rw [hta], by rw [hplc]⟩

theorem putRecord (r : JRec) (s : State) : Journalled s (putRecord r s) := by
  unfold Machine.putRecord
  dsimp only
  refine trans ?_ (.sendRecord _ _)
  refine trans ?_ (.of_log (sameButLog_pmc _ _ _ _) fun u h5 _ => .pmc h5 _ _ _ _)
  generalize hu : Machine.noteSeq _ _ = u
  have hput : Journalled s u := by
    rw [← hu]
    exact ((Journalled.wrB (Nat.le_add_right _ _) _ s).trans (.putCopies _ _)).trans (.noteSeq _ _)
  refine hput.trans ⟨rfl, fun w _ h12 => ?_, fun _ _ => rfl, id, rfl, fun _ => rfl, rfl⟩
  exact (SameUnit.of_csr rfl).trans (.setF (f := F.TA_JSEQ_NEXT) (fun h => h12 h.symm) _ _)

theorem appendRecord {r : JRec} (h : appendRecord r s = some t) : Journalled s t := by
  unfold Machine.appendRecord at h
  dsimp only at h
  split at h
  · cases h
  · cases h
    refine trans ?_ (.putRecord _ _)
    split
    · exact .refl s
    · exact .putRecord _ s

theorem appendOwn (r : JRec) (s : State) : Journalled s (appendOwn r s) := by
  unfold Machine.appendOwn
  split
  · next t ht =>
    split at ht
    · exact .appendRecord ht
    · cases ht
  · exact ⟨rfl, fun _ _ _ => .of_csr rfl, fun _ _ => rfl, id, rfl, fun _ => rfl, rfl⟩

theorem free (n : Nat) (s : State) : Journalled s { s with free := s.free + n } :=
  ⟨rfl, fun _ _ _ => .of_csr rfl, fun _ _ => rfl, id, rfl, fun _ => rfl, rfl⟩

theorem journal (ty arg entBytes : Nat) (acts : List Act) (tun : Option Nat) (copies : List (Nat × Nat × List Byte)) (s : State) :
    Journalled s (journal ty arg entBytes acts tun copies s) := (Journalled.free _ s).trans (.appendOwn _ _)

theorem journalPool (acts : List Act) (s : State) : Journalled s (journalPool acts s) := .journal _ _ _ _ _ _ s

theorem journalRoot (acts : List Act) (s : State) : Journalled s (journalRoot acts s) := (Journalled.free _ s).trans (.appendOwn _ _)

variable (h : Journalled s t)
include h

theorem jobs : t.jobs = s.jobs := h.same.field_eq State.jobs fun _ _ _ _ _ _ _ _ => rfl

theorem me : t.me = s.me := h.same.field_eq State.me fun _ _ _ _ _ _ _ _ => rfl

theorem gl : t.gl = s.gl := h.same.field_eq State.gl fun _ _ _ _ _ _ _ _ => rfl

end Journalled

/-! ### Pages and the metadata cache -/

/-- What a use of a metadata page leaves: all but the pages and their frames, the metadata cache and the counters. -/
structure SameButFrames (s t : State) : Prop where
  eq : t = { s with me := { t.me with srt := s.me.srt }, mc := t.mc, csr := t.csr, cel := t.cel, free := t.free }
  units : ∀ u, u ≠ 5 → u ≠ 0xD → SameUnit u s t

namespace SameButFrames
variable {s t v : State}

theorem refl (s : State) : SameButFrames s s := ⟨rfl, fun _ _ _ => .refl s⟩

theorem trans (h : SameButFrames s t) (k : SameButFrames t v) : SameButFrames s v := by
  refine ⟨?_, fun u h5 hd => (h.units u h5 hd).trans (k.units u h5 hd)⟩
  rw [k.eq, h.eq]

theorem of_log (h : SameButLog s t) (hunits : ∀ u, u ≠ 5 → u ≠ 0xD → SameUnit u s t) : SameButFrames s t := by
  refine ⟨?_, hunits⟩
  rw [h]

theorem pmc (ev inst k : Nat) (s : State) : SameButFrames s (pmc ev inst k s) := .of_log (sameButLog_pmc _ _ _ _) fun _ h5 _ => .pmc h5 _ _ _ _

theorem of_me {m : MapEng} (h : m.srt = s.me.srt) : SameButFrames s { s with me := m } := by
  refine ⟨?_, fun _ _ _ => .of_csr rfl⟩
  rw [← h]

theorem of_mc (m : McState) (s : State) : SameButFrames s { s with mc := m } := ⟨rfl, fun _ _ _ => .of_csr rfl⟩

theorem modPage (id : Nat) (f : Page → Page) (s : State) : SameButFrames s (modPage id f s) := .of_me rfl

theorem installLine (line : Nat) (dirty : Bool) (s : State) : SameButFrames s (installLine line dirty s) := by
  unfold Machine.installLine
  split
  · exact .of_mc _ s
  · split
    · exact .of_mc _ s
    · split
      · exact ⟨rfl, fun _ _ _ => .of_csr rfl⟩
      · exact .refl s

theorem touchLine (line : Nat) (write : Bool) (s : State) : SameButFrames s (touchLine line write s) := by
  unfold Machine.touchLine
  split
  · exact .refl s
  · split
    · exact (SameButFrames.of_mc _ s).trans (.pmc _ _ _ _)
    · have hmiss := SameButFrames.pmc 0x1802 (mcSet line / 16384) 1 s
      dsimp only
      generalize Machine.pmc 0x1802 (mcSet line / 16384) 1 s = t at hmiss ⊢
      split
      · exact hmiss.trans ((SameButFrames.of_mc _ t).trans (.installLine _ _ _))
      · exact hmiss.trans (.of_mc _ t)

theorem leaveFrame (id : Nat) (p : Page) (s : State) : SameButFrames s (leaveFrame id p s) := by
  unfold Machine.leaveFrame
  dsimp only
  split <;> exact (SameButFrames.of_mc _ s).trans (.modPage _ _ _)

theorem makeRoom (s : State) : SameButFrames s (makeRoom s) := by
  unfold Machine.makeRoom evictFrame
  split
  · split
    · exact (SameButFrames.of_me (by split <;> rfl)).trans (.leaveFrame _ _ _)
    · exact .refl s
  · exact .refl s

theorem newPage (ty level owner index epoch : Nat) (s : State) : SameButFrames s (newPage ty level owner index epoch s).2 :=
  (SameButFrames.makeRoom s).trans (.of_me rfl)

theorem bringIn (id : Nat) (s : State) : SameButFrames s (bringIn id s) := by
  have hroom (b : Bool) : SameButFrames s (if b then s else Machine.makeRoom s) := by
    split
    · exact .refl s
    · exact .makeRoom s
  have hpaged (f : Page → Page) (t : State) : SameButFrames t (bump .ME_FAULT_CNT (Machine.modPage id f t)) :=
    (SameButFrames.modPage id f t).trans ⟨rfl, fun u _ hd => .bump (fun h => hd h.symm) _⟩
  unfold Machine.bringIn
  split
  · split
    · exact (hroom _).trans (hpaged _ _)
    · exact (hroom _).trans (hpaged _ _)
    · split
      · exact .refl s
      · exact (SameButFrames.makeRoom s).trans (.modPage _ _ _)
    · exact .refl s
    · exact .refl s
    · exact .refl s
  · exact .refl s

theorem srtPageFor (slot : Nat) (s : State) : SameButFrames s (srtPageFor slot s).2 := by
  cases hpage : srtPageId s slot with
  | some id =>
    rw [Machine.srtPageFor, hpage]
    exact .bringIn id s
  | none =>
    rw [srtPageFor_of_none hpage]
    exact (SameButFrames.newPage _ _ _ _ _ s).trans (.of_me rfl)

theorem markDirty (id : Nat) (seq : Option RingSeq) (s : State) : SameButFrames s (markDirty id seq s) := .modPage id _ s

/-- The slot references change beside the frames. -/
theorem withSrt (h : SameButFrames s t) (l : KMap Nat) :
    SameButFrames { s with me := { s.me with srt := l } } { t with me := { t.me with srt := l } } := by
  refine ⟨?_, h.units⟩
  rw [h.eq]

/-- A change of a slot reference entry is that of the table of entries, beside the frames (R131). -/
theorem setSrtBy (seq : Option RingSeq) (slot x : Nat) (s : State) :
    SameButFrames { s with me := { s.me with srt := kputD 0 s.me.srt slot x } } (setSrtBy seq slot x s) := by
  have hpage := SameButFrames.srtPageFor slot s
  unfold Machine.setSrtBy
  generalize Machine.srtPageFor slot s = q at hpage ⊢
  obtain ⟨id, t⟩ := q
  dsimp only at hpage ⊢
  refine trans ?_ (.markDirty id seq _)
  have hput {u : State} (hu : SameButFrames s u) : SameButFrames { s with me := { s.me with srt := kputD 0 s.me.srt slot x } }
      { u with me := { u.me with srt := kputD 0 u.me.srt slot x } } := by
    rw [show u.me.srt = s.me.srt by rw [hu.eq]]
    exact hu.withSrt _
  split
  · exact hput (hpage.trans (.touchLine _ _ _))
  · exact hput hpage

theorem setSrt (slot x : Nat) (s : State) : SameButFrames { s with me := { s.me with srt := kputD 0 s.me.srt slot x } } (setSrt slot x s) :=
  .setSrtBy none slot x s

variable (h : SameButFrames s t)
include h

theorem mem : t.mem = s.mem := by rw [h.eq]

theorem jobs : t.jobs = s.jobs := by rw [h.eq]

theorem ta : t.ta = s.ta := by rw [h.eq]

theorem plc : t.plc = s.plc := by rw [h.eq]

theorem gl : t.gl = s.gl := by rw [h.eq]

theorem srt : t.me.srt = s.me.srt := by rw [h.eq]

end SameButFrames

/-! ### A job that runs on -/

/-- A job whose operation does not finish it has started (R93). -/
theorem runJob_runsOn {id cls op : Nat} {j : Job} {s t : State} (h : accepted s id cls op = some j) {f : Job → State → State} (hf : f j s = t)
    (ht : t.jobs = s.jobs) : ∃ l, runJob id cls op f s = { t with jobs := l } ∧ kget l id = some { j with started := true } := by
  obtain ⟨hj, hphase, -⟩ := accepted_eq_some h
  have hjt : kget t.jobs id = some j := by rw [ht, hj]
  simp only [runJob, h, hf, markStarted, hjt]
  split
  · exact ⟨_, rfl, kget_kput_self _ _ _⟩
  · next hstarted =>
    rw [not_and, Bool.not_eq_false] at hstarted
    refine ⟨_, rfl, hjt.trans (congrArg some ?_)⟩
    rw [← hstarted hphase]

end Sys2Proof.Machine
end

section
/-! PROOFS. Slot reads, recovery, block jobs and slow members (R248, R249, R269 to R271, R274, R358). -/

namespace Sys2Proof.Machine

/-! ### Memory, jobs and outputs that stay -/

/-- A step that leaves memory, the jobs and what was sent. -/
structure SameData (s t : State) : Prop where
  mem : t.mem = s.mem
  jobs : t.jobs = s.jobs
  out : t.out = s.out

namespace SameData
variable {s t u : State}

theorem refl (s : State) : SameData s s := ⟨rfl, rfl, rfl⟩

theorem trans (h : SameData s t) (k : SameData t u) : SameData s u := ⟨k.mem.trans h.mem, k.jobs.trans h.jobs, k.out.trans h.out⟩

theorem of_log (h : SameButLog s t) : SameData s t := ⟨h.mem, h.jobs, by rw [h]⟩

theorem pmc (ev inst k : Nat) (s : State) : SameData s (pmc ev inst k s) := .of_log (sameButLog_pmc ev inst k s)

theorem bump (r : RegName) (s : State) : SameData s (bump r s) := ⟨rfl, rfl, rfl⟩

theorem celOpen (un p0 p1 p2 : Nat) (s : State) : SameData s (celOpen un p0 p1 p2 s) :=
  (⟨rfl, rfl, rfl⟩ : SameData s (nextFree s)).trans (.of_log (sameButLog_celOpen un p0 p1 p2 s))

theorem issued (port n : Nat) (s : State) : SameData s (issued port n s) := (SameData.pmc _ _ _ s).trans (.pmc _ _ _ _)

theorem answered (p m : Nat) (s : State) : SameData s (answered p m s) := ⟨rfl, rfl, rfl⟩

theorem countRa (p r a : Nat) (s : State) : SameData s (countRa p r a s) := ⟨rfl, rfl, rfl⟩

theorem cacheSlot (w : Nat) (d tr : List Byte) (s : State) : SameData s (cacheSlot w d tr s) := ⟨rfl, rfl, rfl⟩

end SameData

/-! ### The end of a drive I/O job -/

section
variable {id op : Nat} {j : Job} {s t : State} {ins : Instr} {f : Job → State → State} {code v : Nat}

theorem dropRead_eq (id : Nat) (s : State) : dropRead id s = { s with ta := (dropRead id s).ta } := by
  unfold dropRead
  split <;> rfl

/-- The state in which `endDrive` finishes its job. -/
def driveEnded (id : Nat) (s : State) : State := nextFree (dropRead id { s with plc := { s.plc with around := s.plc.around.erase id } })

theorem driveEnded_eq (id : Nat) (s : State) : driveEnded id s =
    { s with plc := { s.plc with around := s.plc.around.erase id }, free := (driveEnded id s).free, ta := (driveEnded id s).ta } := by
  rw [driveEnded, dropRead_eq]
  rfl

theorem endDrive_eq (id code v : Nat) (s : State) :
    endDrive id code v s = finish id ⟨code, 0, (Config.freeWord s.free).toNat % 2 ^ 32, v⟩ (driveEnded id s) := rfl

/-- A drive I/O operation that ends its job in a state with the same jobs. -/
theorem exec_endDrive (h : accepted s id 0x08 op = some j) (hexec : exec ins s = ok (runJob id 0x08 op f s)) (hf : f j s = endDrive id code v t)
    (hjobs : t.jobs = s.jobs) : ∃ u c, exec ins s = .next u ∧ JobDone u id ⟨code, 0, c, v⟩ ∧ u.mem = t.mem ∧ u.out = t.out ∧ u.csr = t.csr := by
  have hrun := runJob_finish h (t := driveEnded id t) (hf.trans (endDrive_eq id code v t)) (by rw [driveEnded_eq]; exact hjobs)
  refine ⟨_, _, hexec.trans (congrArg ok hrun), ⟨_, kget_kput_self _ _ _, rfl⟩, ?_, ?_, ?_⟩
  all_goals
    dsimp only
    rw [driveEnded_eq]

/-- A job that gives a slot and its trailer: they stand at DST. -/
theorem exec_giveSlot (hm : Memory.wf s.mem = true) (h : accepted s id 0x08 op = some j) (hexec : exec ins s = ok (runJob id 0x08 op f s)) {d tr : List Byte}
    (hf : f j s = giveSlot id j d tr v t) (ht : t.mem = s.mem ∧ t.jobs = s.jobs) :
    ∃ u c, exec ins s = .next u ∧ JobDone u id ⟨0, 0, c, v⟩ ∧ rdB u (j.n 16 8) (d.length + tr.length) = d ++ tr ∧
      SameMemBut (j.n 16 8) (d.length + tr.length) s u ∧ u.out = t.out := by
  obtain ⟨u, c, hnext, hdone, hmem, hout, -⟩ := exec_endDrive h hexec hf ht.2
  obtain ⟨hread, hsame⟩ := rdB_and_sameMemBut_of_wrB hm (List.length_append (as := d) (bs := tr)) (hmem.trans (congrArg (mwrite · _ _) ht.1))
  exact ⟨u, c, hnext, hdone, hread, hsame, hout⟩

/-- A slot read that ends without data: only the bytes of its buffer change. -/
theorem exec_endNoData (h : accepted s id 0x08 op = some j) (hexec : exec ins s = ok (runJob id 0x08 op f s))
    (hf : f j s = endNoData id j code v t) (ht : t.mem = s.mem ∧ t.jobs = s.jobs) :
    ∃ u c, exec ins s = .next u ∧ JobDone u id ⟨code, 0, c, v⟩ ∧ SameMemBut (j.n 16 8) (dvSlotLen j) s u ∧ u.csr = t.csr := by
  obtain ⟨u, c, hnext, hdone, hmem, -, hcsr⟩ := exec_endDrive (t := wrFree (j.n 16 8) (dvSlotLen j) t) h hexec hf ((wrFree_jobs _ _ _).trans ht.2)
  refine ⟨u, c, hnext, hdone, ?_, hcsr.trans (wrFree_csr _ _ _)⟩
  have hbase : SameMemBut (j.n 16 8) (dvSlotLen j) s t := sameMemBut_of_mem ht.1 _ _
  have hwrite := sameMemBut_wrB hbase (l := freeBytes t (dvSlotLen j)) (le_refl _) (by rw [freeBytes_length])
  intro a ha
  rw [hmem]
  exact hwrite a ha

end

/-! ### SLOTRD (R249, R269, R274) -/

theorem markSlot_jobs (p slot : Nat) (s : State) : (markSlot p slot s).jobs = s.jobs := by
  have queue (t : State) : (queueLost slot t).jobs = t.jobs := by
    unfold queueLost
    dsimp only
    split <;> rfl
  unfold markSlot
  dsimp only
  split
  · rfl
  · rw [(sameButLog_cel _ _ _ _ _ _ _).jobs, bump_jobs, queue, (Journalled.journalPool _ _).jobs, (SameButFrames.setSrt _ _ s).jobs]

theorem markLost_jobs (p f b : Nat) (missing : List Nat) (s : State) : (markLost p f b missing s).jobs = s.jobs := by
  have fold (l : List Nat) (t : State) : (l.foldl (fun t slot => markSlot p slot t) t).jobs = t.jobs := by
    induction l generalizing t with
    | nil => rfl
    | cons x l ih => rw [List.foldl_cons, ih, markSlot_jobs]
  unfold markLost
  split
  · split
    · rfl
    · exact fold _ s
  · rfl

/-- A row's answers change nothing but the counts of consecutive timeouts (R267). -/
theorem rowAnswered_eq (p f : Nat) (ans : List DriveAns) (s : State) :
    rowAnswered p f ans s = { s with plc := { s.plc with tmo := (rowAnswered p f ans s).plc.tmo } } := by
  unfold rowAnswered
  generalize positions s p f = l
  induction l generalizing s with
  | nil => rfl
  | cons pos l ih =>
    rw [List.foldl_cons]
    split
    · rw [ih]
      rfl
    · rw [ih]
      rfl
    · exact ih s

theorem slotPool_lt (n : Nat) : slotPool n < 8 := bitsN_lt n 47 45

section
variable {id : Nat} {j : Job} {s : State} {w : Nat} {ans : List DriveAns}

/-- A slot of a position without a readable copy: three erasures lose it, else it is that of the reconstructed row (R269). -/
theorem readDegraded_spec (id : Nat) (j : Job) (w : Nat) (ans : List DriveAns) (s : State) :
    let pl := dvPlace s w
    let row := rowOf s pl.1 pl.2.1 ans
    ∃ t, SameData s t ∧ readDegraded id j w ans s =
      if 3 ≤ (erased row).length then endDrive id 0x08 4 (markLost pl.1 pl.2.1 pl.2.2.1 (erased row) t)
      else giveRow id j w pl.2.2.2 4 (solvedRow (frameK s pl.1 pl.2.1) row) t := by
  intro pl row
  have hrow := rowAnswered_eq pl.1 pl.2.1 ans s
  generalize hm : (rowAnswered pl.1 pl.2.1 ans s).plc.tmo = tmo at hrow
  refine ⟨bump .DRV_DEGR_CNT { s with plc := { s.plc with tmo := tmo } }, ⟨rfl, rfl, rfl⟩, ?_⟩
  have hunit : SameUnit 0xB s (bump .DRV_DEGR_CNT { s with plc := { s.plc with tmo := tmo } }) :=
    (SameUnit.of_csr (t := { s with plc := { s.plc with tmo := tmo } }) rfl).trans (.bump (by decide) _)
  have hk : frameK (bump .DRV_DEGR_CNT { s with plc := { s.plc with tmo := tmo } }) pl.1 pl.2.1 = frameK s pl.1 pl.2.1 :=
    frameK_of_sameUnit hunit (slotPool_lt _) (bandOf_of_sameUnit hunit (slotPool_lt _) rfl)
  rw [← hk, ← hrow]
  rfl

theorem giveRow_of_ok {pos v : Nat} {full : List (List Byte)} (h : rtagOk w (ofBlock w (full.getD pos [])).2 = true) :
    giveRow id j w pos v full s = giveSlot id j (ofBlock w (full.getD pos [])).1 (ofBlock w (full.getD pos [])).2 v
      (cacheSlot w (ofBlock w (full.getD pos [])).1 (ofBlock w (full.getD pos [])).2 s) := by
  simp only [giveRow, h, if_true]

theorem giveRow_of_bad {pos v : Nat} {full : List (List Byte)} (h : rtagOk w (ofBlock w (full.getD pos [])).2 = false) :
    giveRow id j w pos v full s = endNoData id j 0x04 v (bump .DRV_RTAG_CNT s) := by
  simp only [giveRow, h, Bool.false_eq_true, if_false]
  rfl

/-- No read-around runs. -/
theorem readAround_of_none (h : s.plc.around = []) : readAround id j w ans s = none := by simp [readAround, h]

/-- The state in which a slot read takes its member's answer. -/
def memberAsked (w m : Nat) (s : State) : State := countRa (dvPlace s w).1 1 0 (issued (getF s F.PLC_MEM_PORT (dvPlace s w).1 m) 4096 s)

theorem sameData_memberAsked (w m : Nat) (s : State) : SameData s (memberAsked w m s) := (SameData.issued _ _ s).trans (.countRa _ _ _ _)

theorem around_memberAsked (w m : Nat) (s : State) : (memberAsked w m s).plc.around = s.plc.around := by
  have hissued (port n : Nat) : (issued port n s).plc.around = s.plc.around := by
    rw [issued, sameButLog_pmc, sameButLog_pmc]
  exact hissued _ _

variable {m : Nat} (haround : s.plc.around = [])

/-- The member's own answer is used where its RTAG is right (R249). -/
theorem readMember_of_ok {data md : List Byte} (hans : ans.getD (dvPlace s w).2.2.2 .timeout = .block data md)
    (h : rtagOk w (slotInBlock (slotOff (swSlot w)) (swClass w) data md).2 = true) :
    readMember id j w m ans s = giveSlot id j (slotInBlock (slotOff (swSlot w)) (swClass w) data md).1
      (slotInBlock (slotOff (swSlot w)) (swClass w) data md).2 0
      (cacheSlot w (slotInBlock (slotOff (swSlot w)) (swClass w) data md).1 (slotInBlock (slotOff (swSlot w)) (swClass w) data md).2
        (answered (dvPlace s w).1 m (memberAsked w m s))) := by
  simp only [readMember, hans, h, if_true]
  rfl

include haround

/-- Without a read-around an answer whose RTAG is wrong ends the job with CHECK. -/
theorem readMember_of_bad {data md : List Byte} (hans : ans.getD (dvPlace s w).2.2.2 .timeout = .block data md)
    (h : rtagOk w (slotInBlock (slotOff (swSlot w)) (swClass w) data md).2 = false) :
    readMember id j w m ans s = endNoData id j 0x04 0 (bump .DRV_RTAG_CNT (answered (dvPlace s w).1 m (memberAsked w m s))) := by
  have hnone : readAround id j w ans (answered (dvPlace s w).1 m (memberAsked w m s)) = none :=
    readAround_of_none ((around_memberAsked w m s).trans haround)
  rw [memberAsked] at hnone
  simp only [readMember, hans, h, Bool.false_eq_true, if_false, hnone, Option.getD_none]
  rfl

theorem readMember_of_media (hans : ans.getD (dvPlace s w).2.2.2 .timeout = .media) :
    readMember id j w m ans s = endNoData id j 0x07 0 (bump .DRV_MEDIA_CNT (answered (dvPlace s w).1 m (memberAsked w m s))) := by
  have hnone : readAround id j w ans (memberAsked w m s) = none := readAround_of_none ((around_memberAsked w m s).trans haround)
  rw [memberAsked] at hnone
  simp only [readMember, hans, hnone, Option.getD_none]
  rfl

theorem readMember_of_timeout (hans : ans.getD (dvPlace s w).2.2.2 .timeout = .timeout) :
    readMember id j w m ans s = endNoData id j 0x0C 0 (memberAsked w m s) := by
  have hnone : readAround id j w ans (memberAsked w m s) = none := readAround_of_none ((around_memberAsked w m s).trans haround)
  rw [memberAsked] at hnone
  simp only [readMember, hans, hnone, Option.getD_none]
  rfl

end

end Sys2Proof.Machine
end

section
/-! PROOFS. SLOTRD and SLOTREC as their statements give them (R249, R269, R270, R274). -/

namespace Sys2Proof.Machine

/-! ### SLOTRD -/

/-- What SLOTRD does with its job. -/
def slotrdBody (id : Nat) (reads : List DriveAns) (j : Job) (s : State) : State :=
  let w := resolve s (dvSlot j)
  if w = lostSlotWord ∨ srtLost (srt s (swSlot w)) then endDrive id rLost 0 s
  else
    match fromHbm s id w with
    | some (d, tr) => if rtagOk w tr then giveSlot id j d tr 1 s else endNoData id j rCheck 1 (bump .DRV_RTAG_CNT s)
    | none =>
      match posRead s (dvPlace s w).1 (dvPlace s w).2.1 (dvPlace s w).2.2.2 with
      | some (m, _) => readMember id j w m reads s
      | none => readDegraded id j w reads s

section
variable {id : Nat} {reads : List DriveAns} {j : Job} {s t : State} {v : Nat}

theorem exec_slotrd : exec (.slotrd id reads) s = ok (runJob id 0x08 1 (slotrdBody id reads) s) := rfl

theorem slotrdBody_of_lost (h : resolve s (dvSlot j) = lostSlotWord ∨ srtLost (srt s (swSlot (resolve s (dvSlot j)))) = true) :
    slotrdBody id reads j s = endDrive id 0x08 0 s := if_pos h

variable (hword : resolve s (dvSlot j) ≠ lostSlotWord) (hsrt : srtLost (srt s (swSlot (resolve s (dvSlot j)))) = false)
include hword hsrt

theorem slotrdBody_of_hbm {d tr : List Byte} (hbm : fromHbm s id (resolve s (dvSlot j)) = some (d, tr)) : slotrdBody id reads j s =
    if rtagOk (resolve s (dvSlot j)) tr then giveSlot id j d tr 1 s else endNoData id j 0x04 1 (bump .DRV_RTAG_CNT s) := by
  simp only [slotrdBody, hword, hsrt, Bool.false_eq_true, or_self, if_false, hbm]
  rfl

variable (hbm : fromHbm s id (resolve s (dvSlot j)) = none)
include hbm

theorem slotrdBody_of_member {m c : Nat} (hpos : let pl := dvPlace s (resolve s (dvSlot j))
    posRead s pl.1 pl.2.1 pl.2.2.2 = some (m, c)) : slotrdBody id reads j s = readMember id j (resolve s (dvSlot j)) m reads s := by
  simp only [slotrdBody, hword, hsrt, Bool.false_eq_true, or_self, if_false, hbm, hpos]

theorem slotrdBody_of_degraded (hpos : let pl := dvPlace s (resolve s (dvSlot j))
    posRead s pl.1 pl.2.1 pl.2.2.2 = none) : slotrdBody id reads j s = readDegraded id j (resolve s (dvSlot j)) reads s := by
  simp only [slotrdBody, hword, hsrt, Bool.false_eq_true, or_self, if_false, hbm, hpos]

end

theorem slotReads : Claim.SlotReads := by
  intro id reads j s hm h w dst pl ended given fails
  have hgive {t : State} {d tr : List Byte} {v : Nat} (hf : slotrdBody id reads j s = giveSlot id j d tr v t) (ht : SameData s t) : given d tr v := by
    obtain ⟨u, c, hnext, hdone, hread, hsame, -⟩ := exec_giveSlot hm h exec_slotrd hf ⟨ht.mem, ht.jobs⟩
    exact ⟨u, hnext, ⟨c, hdone⟩, hread, hsame⟩
  have hfail {t : State} {code v : Nat} (hf : slotrdBody id reads j s = endNoData id j code v t) (ht : SameData s t) : fails code v := by
    obtain ⟨u, c, hnext, hdone, hsame, -⟩ := exec_endNoData h exec_slotrd hf ⟨ht.mem, ht.jobs⟩
    exact ⟨u, hnext, ⟨c, hdone⟩, hsame⟩
  refine ⟨fun hlost => ?_, fun hword hsrt => ⟨fun d tr hbm => ?_, fun m c hbm hpos haround => ?_, fun hbm hpos => ?_⟩⟩
  · obtain ⟨t, c, hnext, hdone, hmem, -⟩ := exec_endDrive h exec_slotrd (slotrdBody_of_lost hlost) rfl
    exact ⟨t, hnext, ⟨c, hdone⟩, hmem⟩
  · have hbody := slotrdBody_of_hbm (reads := reads) hword hsrt hbm
    exact ⟨fun hok => hgive (hbody.trans (if_pos hok)) (.refl s), fun hbad => hfail (hbody.trans (if_neg (Bool.not_eq_true _ ▸ hbad))) (.bump _ s)⟩
  · have hbody := slotrdBody_of_member (reads := reads) hword hsrt hbm hpos
    have hasked := sameData_memberAsked w m s
    refine ⟨fun data md hans => ⟨fun hok => ?_, fun hbad => ?_⟩, fun hans => ?_, fun hans => ?_⟩
    · exact hgive (hbody.trans (readMember_of_ok hans hok)) ((hasked.trans (.answered _ _ _)).trans (.cacheSlot _ _ _ _))
    · exact hfail (hbody.trans (readMember_of_bad haround hans hbad)) ((hasked.trans (.answered _ _ _)).trans (.bump _ _))
    · exact hfail (hbody.trans (readMember_of_media haround hans)) ((hasked.trans (.answered _ _ _)).trans (.bump _ _))
    · exact hfail (hbody.trans (readMember_of_timeout haround hans)) hasked
  · intro row x
    obtain ⟨t, ht, hdegraded⟩ := readDegraded_spec id j w reads s
    have hbody := (slotrdBody_of_degraded (reads := reads) hword hsrt hbm hpos).trans hdegraded
    refine ⟨fun hgone => ?_, fun hfew hok => ?_, fun hfew hbad => ?_⟩
    · obtain ⟨u, c, hnext, hdone, -⟩ := exec_endDrive h exec_slotrd (hbody.trans (if_pos hgone)) ((markLost_jobs _ _ _ _ _).trans ht.jobs)
      exact ⟨u, hnext, c, hdone⟩
    · exact hgive ((hbody.trans (if_neg (Nat.not_le.mpr hfew))).trans (giveRow_of_ok hok)) (ht.trans (.cacheSlot _ _ _ _))
    · exact hfail ((hbody.trans (if_neg (Nat.not_le.mpr hfew))).trans (giveRow_of_bad hbad)) (ht.trans (.bump _ _))

/-! ### SLOTREC -/

/-- The state in which SLOTREC gives its slot: the blocks that it reconstructed or corrected are rewritten where the descriptor asks for it (R270 step 5). -/
def rewritten (j : Job) (p f b : Nat) (full : List (List Byte)) (l : List Nat) (s : State) : State :=
  if (j.hflags / 256).testBit 0 then
    l.foldl (fun t q => if (posRead t p f q).isSome then bump .DRV_REPAIR_CNT (rewriteBlock p f b q (full.getD q []) t) else t) s
  else s

/-- What SLOTREC does with its job once the members have answered, by what becomes of the row. -/
def slotrecEnds (id : Nat) (j : Job) (w : Nat) (pl : Nat × Nat × Nat × Nat) (fate : RowFate) (s : State) : State :=
  let (p, f, b, pos) := pl
  match fate with
  | .gone l => endDrive id rLost 4 (markLost p f b l s)
  | .unlocatable => recCheck id j f b 0 s
  | .good full rebuilt fixed =>
    let v := 4 * b2n (decide (rebuilt ≠ [])) + 8 * b2n (decide (fixed ≠ []))
    let x := ofBlock w (full.getD pos [])
    if !rtagOk w x.2 then recCheck id j f b v s else giveSlot id j x.1 x.2 v (rewritten j p f b full (rebuilt ++ fixed) s)

/-- What SLOTREC does with its job. -/
def slotrecBody (id : Nat) (reads : List DriveAns) (j : Job) (s : State) : State :=
  let w := resolve s (dvSlot j)
  let pl := dvPlace s w
  if w = lostSlotWord then endDrive id rLost 0 s
  else
    let t := rowAnswered pl.1 pl.2.1 reads s
    slotrecEnds id j w pl (repairRow (frameK t pl.1 pl.2.1) (rowOf t pl.1 pl.2.1 reads)) t

section
variable {id : Nat} {reads : List DriveAns} {j : Job} {s : State} {w : Nat}

theorem exec_slotrec : exec (.slotrec id reads) s = ok (runJob id 0x08 4 (slotrecBody id reads) s) := rfl

theorem driveWr_data (p m lba : Nat) (d md : List Byte) (s : State) : (driveWr p m lba d md s).mem = s.mem ∧ (driveWr p m lba d md s).jobs = s.jobs :=
  ⟨(sameButLog_pmc _ _ _ _).mem, (sameButLog_pmc _ _ _ _).jobs⟩

theorem rewriteBlock_data (p f b pos : Nat) (bytes : List Byte) (s : State) :
    (rewriteBlock p f b pos bytes s).mem = s.mem ∧ (rewriteBlock p f b pos bytes s).jobs = s.jobs := by
  unfold rewriteBlock
  split
  · exact driveWr_data _ _ _ _ _ s
  · exact ⟨rfl, rfl⟩

/-- Rewriting blocks leaves memory and the jobs, and sends nothing where it is not asked for. -/
theorem rewritten_data (j : Job) (p f b : Nat) (full : List (List Byte)) (l : List Nat) (s : State) :
    (rewritten j p f b full l s).mem = s.mem ∧ (rewritten j p f b full l s).jobs = s.jobs ∧
      ((j.hflags / 256).testBit 0 = false → (rewritten j p f b full l s).out = s.out) := by
  have fold (t : State) : let u := l.foldl (fun t q => if (posRead t p f q).isSome then bump .DRV_REPAIR_CNT (rewriteBlock p f b q (full.getD q []) t) else t) t
      u.mem = t.mem ∧ u.jobs = t.jobs := by
    induction l generalizing t with
    | nil => exact ⟨rfl, rfl⟩
    | cons q l ih =>
      rw [List.foldl_cons]
      split
      · obtain ⟨hmem, hjobs⟩ := rewriteBlock_data p f b q (full.getD q []) t
        exact ⟨(ih _).1.trans hmem, (ih _).2.trans hjobs⟩
      · exact ih t
  unfold rewritten
  split
  · next hflag => exact ⟨(fold s).1, (fold s).2, fun hoff => by rw [hoff] at hflag; cases hflag⟩
  · exact ⟨rfl, rfl, fun _ => rfl⟩

/-- SLOTREC repairs the row as its members answered (R270). -/
theorem slotrecBody_of_word (hword : resolve s (dvSlot j) ≠ lostSlotWord) : ∃ t, SameData s t ∧ t.csr = s.csr ∧ slotrecBody id reads j s =
    let pl := dvPlace s (resolve s (dvSlot j))
    slotrecEnds id j (resolve s (dvSlot j)) pl (repairRow (frameK s pl.1 pl.2.1) (rowOf s pl.1 pl.2.1 reads)) t := by
  let pl := dvPlace s (resolve s (dvSlot j))
  refine ⟨rowAnswered pl.1 pl.2.1 reads s, ?_, ?_, (if_neg hword).trans ?_⟩
  all_goals rw [rowAnswered_eq]
  · exact ⟨rfl, rfl, rfl⟩
  · rfl

/-- A row that gives no slot ends SLOTREC with CHECK, counted (R270). -/
theorem exec_recCheck {ins : Instr} {body : Job → State → State} {f b v : Nat} {t : State} (h : accepted s id 0x08 4 = some j)
    (hexec : exec ins s = ok (runJob id 0x08 4 body s)) (hf : body j s = recCheck id j f b v t) (ht : SameData s t) (hcsr : t.csr = s.csr) :
    ∃ u c, exec ins s = .next u ∧ JobDone u id ⟨0x04, 0, c, v⟩ ∧ SameMemBut (j.n 16 8) (dvSlotLen j) s u ∧
      getF u ⟨.DRV_CONSIST_CNT, 47, 0⟩ = (getF s ⟨.DRV_CONSIST_CNT, 47, 0⟩ + 1) % 2 ^ 48 := by
  have hdata := ht.trans ((SameData.bump .DRV_CONSIST_CNT t).trans (.celOpen 0x17 f b 0 _))
  obtain ⟨u, c, hnext, hdone, hsame, hucsr⟩ := exec_endNoData h hexec hf ⟨hdata.mem, hdata.jobs⟩
  refine ⟨u, c, hnext, hdone, hsame, ?_⟩
  have hlog : getF (celOpen 0x17 f b 0 (bump .DRV_CONSIST_CNT t)) ⟨.DRV_CONSIST_CNT, 47, 0⟩ = getF (bump .DRV_CONSIST_CNT t) ⟨.DRV_CONSIST_CNT, 47, 0⟩ :=
    (SameUnit.celOpen (u := 0x17) (by decide) 0x17 f b 0 _).getF (i := 0) (j := 0) (by decide)
  rw [getF_of_csr hucsr, hlog, ← getF_of_csr hcsr]
  exact bumpBy_count 1 .DRV_CONSIST_CNT t 0

end

theorem slotRecovery : Claim.SlotRecovery := by
  intro id reads j s hm h w pl fate
  refine ⟨fun hlost => ?_, fun hword => ?_⟩
  · obtain ⟨t, c, hnext, hdone, hmem, -⟩ := exec_endDrive h (exec_slotrec (reads := reads)) (if_pos hlost) rfl
    exact ⟨t, c, hnext, hdone, hmem⟩
  · obtain ⟨t, ht, hcsr, hbody⟩ := slotrecBody_of_word (id := id) (reads := reads) hword
    have hends : slotrecBody id reads j s = slotrecEnds id j w pl fate t := hbody
    cases hfate : fate with
    | gone l =>
      rw [hfate] at hends
      obtain ⟨u, c, hnext, hdone, -⟩ := exec_endDrive h exec_slotrec hends ((markLost_jobs _ _ _ _ _).trans ht.jobs)
      exact ⟨u, c, hnext, hdone⟩
    | unlocatable =>
      rw [hfate] at hends
      obtain ⟨u, c, hnext, hdone, hsame, hcount⟩ := exec_recCheck h exec_slotrec hends ht hcsr
      exact ⟨u, c, hnext, hdone, hcount, hsame⟩
    | good full rebuilt fixed =>
      rw [hfate] at hends
      by_cases hok : rtagOk w (ofBlock w (full.getD pl.2.2.2 [])).2 = true
      · obtain ⟨hmem, hjobs, hout⟩ := rewritten_data j pl.1 pl.2.1 pl.2.2.1 full (rebuilt ++ fixed) t
        obtain ⟨u, c, hnext, hdone, hread, hsame, huout⟩ := exec_giveSlot hm h exec_slotrec (hends.trans (if_neg (by rw [Bool.not_eq_true', Bool.not_eq_false]; exact hok)))
          ⟨hmem.trans ht.mem, hjobs.trans ht.jobs⟩
        refine ⟨u, c, hnext, ?_⟩
        dsimp only
        rw [if_pos hok]
        exact ⟨hdone, hread, hsame, fun hoff => huout.trans ((hout hoff).trans ht.out)⟩
      · obtain ⟨u, c, hnext, hdone, hsame, -⟩ := exec_recCheck h exec_slotrec (hends.trans (if_pos (by rw [Bool.not_eq_true', ← Bool.not_eq_true]; exact hok))) ht hcsr
        refine ⟨u, c, hnext, ?_⟩
        dsimp only
        rw [if_neg hok]
        exact ⟨hdone, hsame⟩

end Sys2Proof.Machine
end

section
/-! PROOFS. Block jobs and slow members (R248, R271, R358). -/

namespace Sys2Proof.Machine

/-! ### BLKRD, BLKWR and PASS -/

section
variable {id : Nat} {j : Job} {s : State}

/-- A run of answers that all give their block. -/
theorem joinAnswers_blocks (bl : List (List Byte × List Byte)) :
    joinAnswers (bl.map fun b => .block b.1 b.2) = .inr (bl.flatMap Prod.fst, bl.flatMap Prod.snd) := by
  induction bl with
  | nil => rfl
  | cons b bl ih => rw [List.map_cons, joinAnswers, ih, List.flatMap_cons, List.flatMap_cons]

theorem map_range_getD {α : Type} {l : List α} {n : Nat} (h : l.length = n) (x : α) : ((List.range n).map fun i => l.getD i x) = l := by
  refine List.ext_getElem (by simp [h]) fun i _ hi => ?_
  simp [hi]

theorem length_flatMap_of_all {α : Type} {k : Nat} {f : α → List Byte} {l : List α} (h : ∀ x ∈ l, (f x).length = k) :
    (l.flatMap f).length = k * l.length := by
  induction l with
  | nil => rfl
  | cons x l ih =>
    rw [List.flatMap_cons, List.length_append, h x List.mem_cons_self, ih fun y hy => h y (List.mem_cons_of_mem x hy), List.length_cons]
    ring

/-- BLKRD stores the blocks and then their metadata. -/
theorem exec_blkrd_blocks {bl : List (List Byte × List Byte)} (h : accepted s id 0x08 2 = some j) (hlen : bl.length = dvNblk j) :
    ∃ u c, exec (.blkrd id (bl.map fun b => .block b.1 b.2)) s = .next u ∧ JobDone u id ⟨0, 0, c, 0⟩ ∧
      u.mem = (wrB (j.n 24 8) (bl.flatMap Prod.snd) (wrB (j.n 16 8) (bl.flatMap Prod.fst) s)).mem := by
  let t := issued (blkPort s j) (4096 * dvNblk j) s
  have ht : SameData s t := .issued _ _ s
  have hjoin : joinAnswers ((List.range (dvNblk j)).map fun i => (bl.map fun b => DriveAns.block b.1 b.2).getD i .timeout) =
      .inr (bl.flatMap Prod.fst, bl.flatMap Prod.snd) := by
    rw [map_range_getD (by rw [List.length_map, hlen]), joinAnswers_blocks]
  obtain ⟨u, c, hnext, hdone, hmem, -⟩ := exec_endDrive (ins := .blkrd id (bl.map fun b => .block b.1 b.2)) (code := 0) (v := 0)
    (t := wrB (j.n 24 8) (bl.flatMap Prod.snd) (wrB (j.n 16 8) (bl.flatMap Prod.fst) (answered (dvPool j) (dvMember j) t))) h rfl
    (by simp only [hjoin]; rfl) ht.jobs
  refine ⟨u, c, hnext, hdone, hmem.trans ?_⟩
  show mwrite (mwrite t.mem _ _) _ _ = _
  rw [ht.mem]
  rfl

theorem driveWr_out (p m lba : Nat) (d md : List Byte) (s : State) : (driveWr p m lba d md s).out = s.out ++ [.driveWrite p m lba d md] := by
  rw [driveWr, sameButLog_pmc]
  rfl

/-- The state in which the drive has the blocks of a BLKWR. -/
def blkWritten (j : Job) (s : State) : State :=
  driveWr (dvPool j) (dvMember j) (j.n 32 8) (rdB s (j.n 48 8) (4096 * dvNblk j)) (rdB s (j.n 24 8) (64 * dvNblk j)) s

/-- BLKWR sends the blocks of the buffers to the drive, and ends as the drive answers. -/
theorem exec_blkwr_spec (h : accepted s id 0x08 3 = some j) (ans : DriveAns) : ∃ u c, exec (.blkwr id ans) s = .next u ∧
    JobDone u id ⟨match ans with | .block _ _ => 0 | .media => 0x07 | .timeout => 0x0C, 0, c, 0⟩ ∧ u.mem = s.mem ∧ u.out = (blkWritten j s).out := by
  obtain ⟨hmem, hjobs⟩ : (blkWritten j s).mem = s.mem ∧ (blkWritten j s).jobs = s.jobs := driveWr_data _ _ _ _ _ s
  cases ans with
  | block d md =>
    obtain ⟨u, c, hnext, hdone, humem, hout, -⟩ := exec_endDrive (ins := .blkwr id (.block d md)) (code := 0) (v := 0)
      (t := answered (dvPool j) (dvMember j) (blkWritten j s)) h rfl rfl hjobs
    exact ⟨u, c, hnext, hdone, humem.trans hmem, hout⟩
  | media =>
    obtain ⟨u, c, hnext, hdone, humem, hout, -⟩ := exec_endDrive (ins := .blkwr id .media) (code := 0x07) (v := 0)
      (t := answered (dvPool j) (dvMember j) (blkWritten j s)) h rfl rfl hjobs
    exact ⟨u, c, hnext, hdone, humem.trans hmem, hout⟩
  | timeout =>
    obtain ⟨u, c, hnext, hdone, humem, hout, -⟩ := exec_endDrive (ins := .blkwr id .timeout) (code := 0x0C) (v := 0)
      (t := blkWritten j s) h rfl rfl hjobs
    exact ⟨u, c, hnext, hdone, humem.trans hmem, hout⟩

/-- The state in which the drive has the command of a PASS. -/
def passSent (j : Job) (s : State) : State :=
  let e := passEntry s (passVol s j)
  let opc := j.n 20 1
  pmc 0x1701 (e % 256) 1 (emit (.drivePass (e % 256) (bitsN e 15 8) (bitsN e 47 16) opc (leBytes 24 (j.n 32 24))
    (if opc = 1 ∨ opc = 5 ∨ opc = 9 then rdB s (j.n 8 8) (j.n 16 4) else [])) s)

theorem passSent_spec (j : Job) (s : State) : (passSent j s).mem = s.mem ∧ (passSent j s).jobs = s.jobs ∧
    (passSent j s).out = s.out ++ [.drivePass (passEntry s (passVol s j) % 256) (bitsN (passEntry s (passVol s j)) 15 8)
      (bitsN (passEntry s (passVol s j)) 47 16) (j.n 20 1) (leBytes 24 (j.n 32 24))
      (if j.n 20 1 = 1 ∨ j.n 20 1 = 5 ∨ j.n 20 1 = 9 then rdB s (j.n 8 8) (j.n 16 4) else [])] := by
  unfold passSent
  dsimp only
  rw [sameButLog_pmc]
  exact ⟨rfl, rfl, rfl⟩

/-- PASS for a volume that this head has lost (R358). -/
theorem exec_drvioPass_fenced (h : accepted s id 0x08 6 = some j) (hown : ownsVol s (passVol s j) = false)
    (ans : Option (BitVec 15 × BitVec 32 × List Byte)) : exec (.drvioPass id ans) s = .next (finish id ⟨0x09, 0, 0, 0⟩ s) := by
  obtain ⟨hj, -⟩ := accepted_eq_some h
  show ok (runJob id 0x08 6 _ s) = _
  rw [runJob_finish (t := s) (r := ⟨0x09, 0, 0, 0⟩) h (by simp only [hown, Bool.not_false, if_true]; rfl) rfl, finish, modJob, kmod_of_kget hj]
  rfl

/-- The state of a PASS whose drive has answered. -/
def passAnswered (j : Job) (d : List Byte) (s : State) : State :=
  if j.n 20 1 = 2 then pmc 0x1702 (passEntry s (passVol s j) % 256) (j.n 16 4) (wrB (j.n 8 8) (d.take (j.n 16 4)) (passSent j s)) else passSent j s

/-- The state of a PASS whose drive has not answered. -/
def passUnanswered (j : Job) (s : State) : State :=
  if j.n 20 1 = 2 then wrFree (j.n 8 8) (j.n 16 4) (passSent j s) else passSent j s

section
variable (h : accepted s id 0x08 6 = some j) (hown : ownsVol s (passVol s j) = true)
include h hown

theorem exec_drvioPass_some (st : BitVec 15) (dw0 : BitVec 32) (d : List Byte) : ∃ u c, exec (.drvioPass id (some (st, dw0, d))) s = .next u ∧
    JobDone u id ⟨0, 0, c, st.toNat + dw0.toNat * 2 ^ 32⟩ ∧ u.mem = (passAnswered j d s).mem ∧ u.out = (passSent j s).out := by
  have hdata : (passAnswered j d s).jobs = s.jobs ∧ (passAnswered j d s).out = (passSent j s).out := by
    obtain ⟨-, hjobs, -⟩ := passSent_spec j s
    unfold passAnswered
    split
    · rw [sameButLog_pmc]
      exact ⟨hjobs, rfl⟩
    · exact ⟨hjobs, rfl⟩
  obtain ⟨u, c, hnext, hdone, hmem, hout, -⟩ := exec_endDrive (ins := .drvioPass id (some (st, dw0, d))) (code := 0) (v := st.toNat + dw0.toNat * 2 ^ 32)
    (t := passAnswered j d s) h rfl (by simp only [hown, Bool.not_true, Bool.false_eq_true, if_false]; rfl) hdata.1
  exact ⟨u, c, hnext, hdone, hmem, hout.trans hdata.2⟩

theorem exec_drvioPass_none : ∃ u c, exec (.drvioPass id none) s = .next u ∧ JobDone u id ⟨0x0C, 0, c, 0⟩ ∧ u.out = (passSent j s).out ∧
    SameMemBut (j.n 8 8) (j.n 16 4) s u := by
  obtain ⟨hmem, hjobs, -⟩ := passSent_spec j s
  have hdata : (passUnanswered j s).jobs = s.jobs ∧ (passUnanswered j s).out = (passSent j s).out ∧
      SameMemBut (j.n 8 8) (j.n 16 4) s (passUnanswered j s) := by
    unfold passUnanswered
    split
    · exact ⟨hjobs, rfl, sameMemBut_wrB (sameMemBut_of_mem hmem _ _) (l := freeBytes (passSent j s) (j.n 16 4)) le_rfl (by rw [freeBytes_length])⟩
    · exact ⟨hjobs, rfl, sameMemBut_of_mem hmem _ _⟩
  obtain ⟨hends, ho, hm⟩ := hdata
  obtain ⟨u, c, hnext, hdone, humem, hout, -⟩ := exec_endDrive (ins := .drvioPass id none) (code := 0x0C) (v := 0) (t := passUnanswered j s) h rfl
    (by simp only [hown, Bool.not_true, Bool.false_eq_true, if_false]; rfl) hends
  refine ⟨u, c, hnext, hdone, hout.trans ho, fun a ha => ?_⟩
  rw [humem]
  exact hm a ha

end

end

theorem blockJobs : Claim.BlockJobs := by
  intro id j s hm n
  refine ⟨fun bl h hlen hblocks hapart => ?_, fun ans h => ?_, fun h hown ans => exec_drvioPass_fenced h hown ans, fun h hown => ?_⟩
  · obtain ⟨u, c, hnext, hdone, hmem⟩ := exec_blkrd_blocks h hlen
    have hdata : (bl.flatMap Prod.fst).length = 4096 * n := by rw [length_flatMap_of_all fun b hb => (hblocks b hb).1, hlen]
    have hmd : (bl.flatMap Prod.snd).length = 64 * n := by rw [length_flatMap_of_all fun b hb => (hblocks b hb).2, hlen]
    refine ⟨u, c, hnext, hdone, ?_, ?_, fun a ha hb => ?_⟩
    · rw [rdB_of_mem hmem, rdB_wrB_of_out _ _ _ (by rwa [hmd]), ← hdata]
      exact rdB_wrB hm _ _
    · rw [rdB_of_mem hmem, ← hmd]
      exact rdB_wrB (wf_wrB hm _ _) _ _
    · rw [hmem, wrB_mem, mget_mwrite_of_out _ _ _ (by rw [hmd]; exact hb), wrB_mem, mget_mwrite_of_out _ _ _ (by rw [hdata]; exact ha)]
  · obtain ⟨u, c, hnext, hdone, hmem, hout⟩ := exec_blkwr_spec h ans
    exact ⟨u, c, hnext, hdone, hmem, hout.trans (driveWr_out _ _ _ _ _ s)⟩
  · intro e opc sent
    obtain ⟨hmem, hjobs, hout⟩ := passSent_spec j s
    refine ⟨fun st dw0 d => ?_, ?_⟩
    · obtain ⟨u, c, hnext, hdone, humem, huout⟩ := exec_drvioPass_some h hown st dw0 d
      refine ⟨u, c, hnext, hdone, huout.trans hout, fun hopc => ?_, fun hopc hlen => ?_⟩
      · rw [humem, passAnswered, if_neg hopc, hmem]
      · rw [passAnswered, if_pos hopc, List.take_of_length_le hlen.le, (sameButLog_pmc _ _ _ _).mem, wrB_mem, hmem] at humem
        exact rdB_and_sameMemBut_of_wrB hm hlen humem
    · obtain ⟨u, c, hnext, hdone, huout, hsame⟩ := exec_drvioPass_none h hown
      exact ⟨u, c, hnext, hdone, huout.trans hout, hsame⟩

/-! ### Slow members (R271) -/

/-- The record of a decision of the governor leaves memory and the pools. -/
theorem govRecord_spec (kind object new old : Nat) (s : State) : SameButLog s (govRecord kind object new old s) :=
  (sameButLog_cel _ _ _ _ _ _ s).trans (sameButLog_pmc _ _ _ _)

theorem slowSet_of_above {s : State} {p k mean : Nat} (hp : k / 256 = p) (hlat : s.plc.lat = [(k, mean)]) (hmax : 0 < getF s F.DRV_RA_MAXSLOW)
    (h : getF s F.DRV_RA_SLOWUS < mean) : slowSet s p = [k] := by
  simp [slowSet, hlat, hp, h, hmax]

theorem slowSet_of_below {s : State} {p k mean : Nat} (hlat : s.plc.lat = [(k, mean)]) (hslow : s.plc.slow = [])
    (h : mean ≤ getF s F.DRV_RA_SLOWUS) : slowSet s p = [] := by
  simp [slowSet, hlat, hslow, h]

/-- Where one member alone is SLOW, no other position of the frame is on a SLOW member. -/
theorem countP_slow_eq_zero {s : State} {p f pos m : Nat} (hslow : s.plc.slow = [p * 256 + m])
    (hothers : ∀ q, q ∈ positions s p f → q ≠ pos → ∃ x y, posRead s p f q = some (x, y) ∧ x ≠ m) :
    ((positions s p f).filter fun q => q ≠ pos).countP (fun q => match posRead s p f q with
      | some (x, _) => s.plc.slow.contains (p * 256 + x)
      | none => true) = 0 := by
  rw [List.countP_eq_zero]
  intro q hq
  obtain ⟨hq, hne⟩ := List.mem_filter.mp hq
  obtain ⟨x, y, hread, hx⟩ := hothers q hq (by simpa using hne)
  rw [hread, hslow]
  simpa using hx

/-- Whether a slot read of member `m` may start a read-around (R271). -/
def mayReadAround (id w m : Nat) (s : State) : Bool :=
  let pl := dvPlace s w
  let win := raWindow s pl.1
  let bad := ((positions s pl.1 pl.2.1).filter fun q => q ≠ pl.2.2.2).countP fun q => match posRead s pl.1 pl.2.1 q with
    | some (x, _) => s.plc.slow.contains (pl.1 * 256 + x)
    | none => true
  isF s F.DRV_RA_EN && s.plc.slow.contains (pl.1 * 256 + m) && decide (bad ≤ 1) && !s.plc.around.contains id &&
    decide ((win.2 + 1) * 100 ≤ getF s F.DRV_RA_BUDGET * win.1) && decide (w ≠ lostSlotWord) && (fromHbm s id w).isNone

/-- The state with the read-around of a job of pool `p`. -/
def readingAround (id p : Nat) (s : State) : State :=
  countRa p 0 1 (bump .DRV_RA_CNT { s with plc := { s.plc with around := id :: s.plc.around } })

/-- What READ_AROUND_START does with its job. -/
def readAroundBody (id : Nat) (j : Job) (s : State) : State :=
  let w := resolve s (dvSlot j)
  let pl := dvPlace s w
  match posRead s pl.1 pl.2.1 pl.2.2.2 with
  | some (m, _) => if mayReadAround id w m s then readingAround id pl.1 s else s
  | none => s

theorem exec_readAroundStart (id : Nat) (s : State) : exec (.readAroundStart id) s = ok (runJob id 0x08 1 (readAroundBody id) s) := rfl

theorem readAroundBody_of_member {id m c : Nat} {j : Job} {s : State} (hpos : let pl := dvPlace s (resolve s (dvSlot j))
    posRead s pl.1 pl.2.1 pl.2.2.2 = some (m, c)) : readAroundBody id j s =
    if mayReadAround id (resolve s (dvSlot j)) m s then readingAround id (dvPlace s (resolve s (dvSlot j))).1 s else s := by
  simp only [readAroundBody, hpos]

theorem mayReadAround_of_slow {id w m : Nat} {s : State} (hen : isF s F.DRV_RA_EN = true) (hword : w ≠ lostSlotWord) (hbm : fromHbm s id w = none)
    (hslow : s.plc.slow = [(dvPlace s w).1 * 256 + m]) (haround : s.plc.around = [])
    (hothers : ∀ q, q ∈ positions s (dvPlace s w).1 (dvPlace s w).2.1 → q ≠ (dvPlace s w).2.2.2 →
      ∃ x y, posRead s (dvPlace s w).1 (dvPlace s w).2.1 q = some (x, y) ∧ x ≠ m)
    (hbudget : ((raWindow s (dvPlace s w).1).2 + 1) * 100 ≤ getF s F.DRV_RA_BUDGET * (raWindow s (dvPlace s w).1).1) : mayReadAround id w m s = true := by
  rw [mayReadAround]
  rw [countP_slow_eq_zero hslow hothers]
  simp [hen, hslow, haround, hbudget, hword, hbm]

theorem mayReadAround_of_off {id w m : Nat} {s : State} (hen : isF s F.DRV_RA_EN = false) : ¬mayReadAround id w m s = true := by simp [mayReadAround, hen]

/-- The members that are SLOW change, and the governor records it. -/
theorem exec_slowMark_of_above {p : BitVec 3} {m : Byte} {mean : Nat} {s : State} (hlat : s.plc.lat = []) (hslow : s.plc.slow = [])
    (hset : slowSet { s with plc := { s.plc with lat := [(p.toNat * 256 + m.toNat, mean)] } } p.toNat = [p.toNat * 256 + m.toNat]) :
    exec (.slowMark p m mean) s = .next (govRecord 5 (p.toNat * 256 + m.toNat) 1 0
      { s with plc := { s.plc with lat := [(p.toNat * 256 + m.toNat, mean)], slow := [p.toNat * 256 + m.toNat] } }) := by
  show execSlowMark p m mean s = _
  simp only [execSlowMark, hlat, kput, hset]
  simp only [hslow, List.filter_nil, List.nil_append, List.contains_nil, Bool.not_false, List.filter_true, List.foldl_cons,
    List.foldl_nil]
  rfl

theorem exec_slowMark_of_below {p : BitVec 3} {m : Byte} {mean : Nat} {s : State} (hlat : s.plc.lat = []) (hslow : s.plc.slow = [])
    (hset : slowSet { s with plc := { s.plc with lat := [(p.toNat * 256 + m.toNat, mean)] } } p.toNat = []) :
    exec (.slowMark p m mean) s = .next { s with plc := { s.plc with lat := [(p.toNat * 256 + m.toNat, mean)] } } := by
  show execSlowMark p m mean s = _
  simp only [execSlowMark, hlat, kput, hset]
  simp only [hslow, List.filter_nil, List.nil_append, List.foldl_nil]
  rw [← hslow]
  rfl

theorem slowMembers : Claim.SlowMembers := by
  intro s
  refine ⟨?_, fun p m mean hlat hslow hmax => ⟨fun habove => ?_, fun hbelow => ?_⟩⟩
  · intro id j m c h w pl hpos hword hbm hslow haround hothers hbudget
    have hbody := readAroundBody_of_member (id := id) hpos
    refine ⟨fun hen => ?_, fun hen => ?_⟩
    · obtain ⟨l, hrun, hl⟩ := runJob_runsOn h (hbody.trans (if_pos (mayReadAround_of_slow hen hword hbm hslow haround hothers hbudget))) rfl
      exact ⟨_, congrArg ok hrun, congrArg (id :: ·) haround, rfl, hl, bumpBy_count 1 .DRV_RA_CNT _ 0⟩
    · obtain ⟨l, hrun, -⟩ := runJob_runsOn h (hbody.trans (if_neg (mayReadAround_of_off hen))) rfl
      exact ⟨_, congrArg ok hrun, rfl, rfl, rfl⟩
  · have hkey : (p.toNat * 256 + m.toNat) / 256 = p.toNat := by omega
    have hgov := govRecord_spec 5 (p.toNat * 256 + m.toNat) 1 0
      { s with plc := { s.plc with lat := [(p.toNat * 256 + m.toNat, mean)], slow := [p.toNat * 256 + m.toNat] } }
    refine ⟨_, exec_slowMark_of_above hlat hslow (slowSet_of_above hkey rfl hmax habove), ?_, hgov.mem⟩
    rw [hgov]
  · exact exec_slowMark_of_below hlat hslow (slowSet_of_below rfl hslow hbelow)

/-- Settles O33: what slot reads, recovery and block jobs give, by what HBM, the drives and the row's reconstruction answer, and which members are SLOW. -/
theorem driveJobResults : Obligations.DriveJobResults := ⟨slotReads, slotRecovery, blockJobs, slowMembers⟩

end Sys2Proof.Machine
end

section
/-! PROOFS. The states of tuns and what a failed strip write leaves (R244, R245, R258, R266). -/

namespace Sys2Proof.Machine

/-! ### A strip is written, or a member fails -/

theorem memState_of_csr {s t : State} (h : t.csr = s.csr) (p m : Nat) : memState t p m = memState s p m := getF_of_csr h _ _ _

section
variable {u : Nat} (h5 : u ≠ 5) (h12 : u ≠ 0x12)
include h5 h12

theorem sameUnit_relocate (p f pos m c : Nat) (s : State) : SameUnit u s (relocate p f pos m c s) := by
  unfold relocate
  refine SameUnit.trans ?_ ((Journalled.journalPool _ _).units u h5 h12)
  exact .of_csr rfl

/-- A strip that is written changes the counters and the journal's registers alone. -/
theorem sameUnit_sealStrip (i : Nat) (x : Tun) (pos : Nat) (s : State) : SameUnit u s (sealStrip i x pos s) := by
  unfold sealStrip
  dsimp only
  split
  · exact .driveWr h5 _ _ _ _ _ s
  · split
    · exact ((sameUnit_relocate h5 h12 _ _ _ _ _ s).trans (.driveWr h5 _ _ _ _ _ _)).trans (.bump (fun h => h12 h.symm) _)
    · exact .of_csr rfl

theorem sameUnit_sealStrips (l : List (Nat × Tun × Nat)) (s : State) : SameUnit u s (l.foldl (fun t x => sealStrip x.1 x.2.1 x.2.2 t) s) := by
  induction l generalizing s with
  | nil => exact .refl s
  | cons x l ih => exact (sameUnit_sealStrip h5 h12 _ _ _ s).trans (ih _)

end

section
variable {p : Nat} (hp : p < 8)
include hp

theorem addr_plcMem_ne {m : Nat} (hm : m < 256) : RegName.PLC_MEM.addr p m ≠ RegName.PLC_RBSTAT.addr p 0 ∧
    RegName.PLC_MEM.addr p m ≠ RegName.PLC_RKSTAT.addr 0 0 := by
  have mem : RegName.PLC_MEM.addr p m = 0x10B010000 + p * 0x800 + m * 8 := rfl
  have rb : RegName.PLC_RBSTAT.addr p 0 = 0x10B000130 + p * 0x40 := rfl
  have rk : RegName.PLC_RKSTAT.addr 0 0 = 0x10B000078 := rfl
  omega

theorem unitOf_plcRbstat : unitOf (RegName.PLC_RBSTAT.addr p 0) = 0xB := by
  have addr : RegName.PLC_RBSTAT.addr p 0 = 0x10B000130 + p * 0x40 := rfl
  rw [addr, unitOf, csrBase]
  omega

omit hp in
theorem markPause_csr (p : Nat) (s : State) : (markPause p s).csr = s.csr := by
  unfold markPause
  split <;> rfl

theorem memState_noteRepair {m : Nat} (hm : m < 256) (s : State) : memState (noteRepair p s) p m = memState s p m := by
  have hne := (addr_plcMem_ne hp hm).1
  have hset (f : Fld) (hf : f.reg = .PLC_RBSTAT) (v : Nat) (t : State) : memState (setF f v t p) p m = memState t p m :=
    getF_setF_of_addr_ne (f := f) (g := F.PLC_MEM_STATE) (by rw [hf]; exact hne) v t
  unfold noteRepair putRbstat
  rw [hset _ rfl, hset _ rfl, hset _ rfl, memState_of_csr (markPause_csr p s)]

theorem memState_restartScan {m : Nat} (hm : m < 256) (s : State) : memState (restartScan p s) p m = memState s p m := by
  unfold restartScan putScan
  exact (memState_noteRepair hp hm _).trans (memState_of_csr rfl p m)

omit hp in
theorem putMember_of_failed {m : Nat} {s : State} (h : memState s p m = 2) : putMember p m 2 s = noteRepair p (setF F.PLC_MEM_STATE 2 s p m) := by
  simp [putMember, h]

/-- What was copied back onto a member of a pool counts no more. -/
def withoutBack (p m : Nat) (s : State) : State :=
  { s with plc := { s.plc with back := s.plc.back.filter fun k => !(decide (k / 2 ^ 31 = p) && decide (posMember s p (k / 32 % 2 ^ 26) (k % 32) = m)) } }

omit hp in
theorem withoutBack_csr (p m : Nat) (s : State) : (withoutBack p m s).csr = s.csr := rfl

omit hp in
/-- A member that becomes FAILED: the scan of its pool restarts, and racking is held (R266, R280, R286). -/
theorem putMember_of_failing {m : Nat} {s : State} (h : memState s p m ≠ 2) : putMember p m 2 s =
    let t := withoutBack p m (restartScan p (setF F.PLC_MEM_STATE 2 s p m))
    if t.plc.rack = some p then setF F.PLC_RKSTAT_PAUSED 1 t else t := by
  unfold putMember
  simp only [ne_eq, h, not_false_eq_true, decide_true, Bool.and_self, Bool.not_true, Bool.false_eq_true, if_false]
  rfl

theorem memState_putMember {m : Nat} (hm : m < 256) (s : State) : memState (putMember p m 2 s) p m = 2 := by
  have hself : memState (setF F.PLC_MEM_STATE 2 s p m) p m = 2 := getF_setF_self (f := F.PLC_MEM_STATE) (by decide) 2 s p m
  by_cases h : memState s p m = 2
  · rw [putMember_of_failed h, memState_noteRepair hp hm, hself]
  · rw [putMember_of_failing h]
    dsimp only
    have hback : memState (withoutBack p m (restartScan p (setF F.PLC_MEM_STATE 2 s p m))) p m = 2 :=
      (memState_of_csr (withoutBack_csr p m _) p m).trans ((memState_restartScan hp hm _).trans hself)
    split
    · exact (getF_setF_of_addr_ne (f := F.PLC_RKSTAT_PAUSED) (g := F.PLC_MEM_STATE) (addr_plcMem_ne hp hm).2 _ _).trans hback
    · exact hback

theorem sameUnit_noteRepair {u : Nat} (hu : u ≠ 0xB) (s : State) : SameUnit u s (noteRepair p s) := by
  have hset (f : Fld) (hf : f.reg = .PLC_RBSTAT) (v : Nat) (t : State) : SameUnit u t (setF f v t p) :=
    .setF (by rw [hf, unitOf_plcRbstat hp]; exact hu.symm) v t
  unfold noteRepair putRbstat
  exact (((SameUnit.of_csr (markPause_csr p s)).trans (hset _ rfl _ _)).trans (hset _ rfl _ _)).trans (hset _ rfl _ _)

theorem sameUnit_putMember {u : Nat} (hu : u ≠ 0xB) {m : Nat} (hm : m < 256) (s : State) : SameUnit u s (putMember p m 2 s) := by
  have hself : SameUnit u s (setF F.PLC_MEM_STATE 2 s p m) :=
    .setF (f := F.PLC_MEM_STATE) (fun h => hu (h.symm.trans (unitOf_plcMem hp hm))) 2 s
  have hscan (t : State) : SameUnit u t (restartScan p t) := by
    unfold restartScan putScan
    exact SameUnit.trans (.of_csr rfl) (sameUnit_noteRepair hp hu _)
  by_cases h : memState s p m = 2
  · rw [putMember_of_failed h]
    exact hself.trans (sameUnit_noteRepair hp hu _)
  · rw [putMember_of_failing h]
    dsimp only
    have hback : SameUnit u s (withoutBack p m (restartScan p (setF F.PLC_MEM_STATE 2 s p m))) := (hself.trans (hscan _)).trans (.of_csr (withoutBack_csr p m _))
    split
    · exact hback.trans (.setF (f := F.PLC_RKSTAT_PAUSED) (fun h => hu h.symm) _ _)
    · exact hback

/-- A member that becomes FAILED is FAILED then (R266), and nothing outside its pool's registers, the journal's, the log and the counters changes. -/
theorem memberTo_failed {m : Nat} (hm : m < 256) (s : State) :
    memState (memberTo p m 2 s) p m = 2 ∧ ∀ u, u ≠ 4 → u ≠ 5 → u ≠ 0xB → u ≠ 0x12 → SameUnit u s (memberTo p m 2 s) := by
  unfold memberTo
  dsimp only
  split
  · next h => exact ⟨h, fun _ _ _ _ _ => .refl s⟩
  · have hjournal := Journalled.journalPool [.member p m 2] (putMember p m 2 s)
    have hnote (u : Nat) (h4 : u ≠ 4) (t : State) : SameUnit u t (memberNote p m (memState s p m) 2 t) := by
      unfold memberNote
      exact ((SameUnit.of_csr rfl).trans (.raise _ _ (nextFree t))).trans (.cel h4 _ _ _ _ _ _ _)
    refine ⟨?_, fun u h4 h5 hb h12 => ((sameUnit_putMember hp hb hm s).trans (hjournal.units u h5 h12)).trans (hnote u h4 _)⟩
    rw [memState_of_sameUnit (hnote 0xB (by decide) _) hp hm, memState_of_sameUnit (hjournal.units 0xB (by decide) (by decide)) hp hm,
      memState_putMember hp hm]

end

/-- The strips of the WRITING tuns that go to member `m` of a pool. -/
def stripsOn (s : State) (p m : Nat) : List (Nat × Tun × Nat) := s.ta.tuns.flatMap fun kv =>
  if kv.2.phase = .writing ∧ kv.2.pool = p then (kv.2.left.filter fun q => stripMember s kv.2 q = m).map fun q => (kv.1, kv.2, q) else []

theorem exec_stripWriteFail {i pos : Nat} {x : Tun} {s : State} (hx : kget s.ta.tuns i = some x) (hphase : x.phase = .writing) (hpos : pos ∈ x.left) :
    exec (.stripWriteFail i pos) s = .next ((stripsOn s x.pool (stripMember s x pos)).foldl (fun t x => sealStrip x.1 x.2.1 x.2.2 t)
      (memberTo x.pool (stripMember s x pos) 2 (bump .DRV_WERR_CNT s))) := by
  show execStripWriteFail i pos s = _
  simp only [execStripWriteFail, hx, hphase, ne_eq, not_true_eq_false, false_or, not_not.mpr hpos, if_false]
  rfl

theorem stripWritesFail : Claim.StripWritesFail := by
  intro i pos x s hx hphase hp hpos hm
  obtain ⟨hfailed, hunits⟩ := memberTo_failed hp hm (bump .DRV_WERR_CNT s)
  have hstrips (u : Nat) (h5 : u ≠ 5) (h12 : u ≠ 0x12) := sameUnit_sealStrips h5 h12 (stripsOn s x.pool (stripMember s x pos))
    (memberTo x.pool (stripMember s x pos) 2 (bump .DRV_WERR_CNT s))
  refine ⟨_, exec_stripWriteFail hx hphase hpos, ?_, ?_⟩
  · rw [memState_of_sameUnit (hstrips 0xB (by decide) (by decide)) hp hm, hfailed]
  · have hsame := (hunits 0x17 (by decide) (by decide) (by decide) (by decide)).trans (hstrips 0x17 (by decide) (by decide))
    rw [hsame.getF (by decide)]
    exact bumpBy_count 1 .DRV_WERR_CNT s 0

end Sys2Proof.Machine
end

section
/-! PROOFS. Tuns are sealed (R236, R239, R244, R245). -/

namespace Sys2Proof.Machine

/-! ### A segment's entry -/

theorem bits_setBits_part (w : Word) {hi hi' lo' : Nat} (h : hi < 64) (hle : hi' ≤ hi) (v : Nat) : bits (setBits w hi 0 v) hi' lo' = bitsN v hi' lo' := by
  apply Nat.eq_of_testBit_eq
  intro i
  rw [bits, bitsN_eq_testBit, bitsN_eq_testBit, ← BitVec.getLsbD, getLsbD_setBits]
  by_cases hi : i < hi' + 1 - lo'
  · rw [if_pos (by omega), decide_eq_true (by omega : lo' + i < 64), Bool.true_and, Nat.sub_zero]
  · rw [decide_eq_false hi, Bool.false_and, Bool.false_and]

/-- Bits of a field of memory read as what was written over them from bit 0 on. -/
theorem rdBits_wrBits_part {s : State} (hm : Memory.wf s.mem = true) (a : Nat) {hi hi' lo' : Nat} (h : hi < 64) (hle : hi' ≤ hi) (v : Nat) :
    rdBits (wrBits a 8 hi 0 v s) a 8 hi' lo' = bitsN v hi' lo' := by
  have hword : (setBits (BitVec.ofNat 64 (rdN s a 8)) hi 0 v).toNat < 256 ^ 8 := (setBits (BitVec.ofNat 64 (rdN s a 8)) hi 0 v).isLt
  rw [rdBits, wrBits, rdN_wrN hm, Nat.mod_eq_of_lt hword, ← bits, bits_setBits_part _ h hle]

theorem segState_of_sameUnit {s t : State} {p : Nat} (hu : SameUnit 0xB s t) (hp : p < 8) (hmem : t.mem = s.mem) (g : Nat) :
    segState t p g = segState s p g := by
  rw [segState, segState, segEntry, segEntry, segAddr_of_sameUnit hu hp, rdN_of_mem hmem]

/-- An entry of the segment table has the state that a TUN record of this head gives it (R239). -/
theorem segState_applyTun {s : State} (hm : Memory.wf s.mem = true) {frame st : Nat} (hframe : frame < 2 ^ 26) (hst : st < 16) (seq img p kind g : Nat) :
    segState (applyTun true seq img p kind g frame st s) p g = st := by
  have hread : segState (applyTun true seq img p kind g frame st s) p g =
      bitsN (frame + st * 2 ^ 26 + (if kind = 1 then 2 ^ 30 else 0)) 29 26 :=
    rdBits_wrBits_part hm (segAddr s p g) (by decide) (by decide) _
  rw [hread, bitsN]
  split <;> omega

/-! ### A TUN record -/

theorem applyTun_own (seq img p kind g frame st : Nat) (s : State) : applyTun true seq img p kind g frame st s =
    { s with mem := (applyTun true seq img p kind g frame st s).mem, plc := (applyTun true seq img p kind g frame st s).plc } := rfl

section
variable {i : Nat} {x : Tun} {st mask : Nat} {copies : List (Nat × Nat × List Byte)} {s : State}

/-- A TUN record is journalled, and then its effect on the segment's entry and the frames is that of applying it (R245). -/
theorem tunRecord_eq (i : Nat) (x : Tun) (st mask : Nat) (copies : List (Nat × Nat × List Byte)) (s : State) :
    ∃ t, Journalled s t ∧ tunRecord i x st mask copies s = applyTun true 0 i x.pool x.kind x.seg x.frame st t := ⟨_, .journal _ _ _ _ _ _ s, rfl⟩

theorem segState_tunRecord (hm : Memory.wf s.mem = true) (hframe : x.frame < 2 ^ 26) (hst : st < 16) :
    segState (tunRecord i x st mask copies s) x.pool x.seg = st := by
  obtain ⟨t, ht, heq⟩ := tunRecord_eq i x st mask copies s
  rw [heq]
  exact segState_applyTun (ht.wf hm) hframe hst _ _ _ _ _

theorem sameButJournal_tunRecord : SameButJournal s (tunRecord i x st mask copies s) := by
  obtain ⟨t, ht, heq⟩ := tunRecord_eq i x st mask copies s
  rw [heq, applyTun_own]
  exact ht.same.trans rfl

theorem tuns_tunRecord (k : Nat) : (kget (tunRecord i x st mask copies s).ta.tuns k).map Tun.unnumbered = (kget s.ta.tuns k).map Tun.unnumbered := by
  obtain ⟨t, ht, heq⟩ := tunRecord_eq i x st mask copies s
  rw [heq, applyTun_own]
  exact ht.tuns k

/-- A tun after a TUN record has its phase, its pool and its segment as before. -/
theorem kget_tunRecord_of_some {k : Nat} {y : Tun} (h : kget s.ta.tuns k = some y) :
    ∃ z, kget (tunRecord i x st mask copies s).ta.tuns k = some z ∧ z.unnumbered = y.unnumbered := by
  have htuns := tuns_tunRecord (i := i) (x := x) (st := st) (mask := mask) (copies := copies) (s := s) k
  rw [h, Option.map_some, Option.map_eq_some_iff] at htuns
  exact htuns

theorem kget_of_tunRecord {k : Nat} {z : Tun} (h : kget (tunRecord i x st mask copies s).ta.tuns k = some z) :
    ∃ y, kget s.ta.tuns k = some y ∧ z.unnumbered = y.unnumbered := by
  have htuns := tuns_tunRecord (i := i) (x := x) (st := st) (mask := mask) (copies := copies) (s := s) k
  rw [h, Option.map_some, eq_comm, Option.map_eq_some_iff] at htuns
  obtain ⟨y, hy, heq⟩ := htuns
  exact ⟨y, hy, heq.symm⟩

end

theorem phase_of_unnumbered {x y : Tun} (h : x.unnumbered = y.unnumbered) : x.phase = y.phase := by
  have hphase := congrArg Tun.phase h
  exact hphase

theorem pool_of_unnumbered {x y : Tun} (h : x.unnumbered = y.unnumbered) : x.pool = y.pool := by
  have hpool := congrArg Tun.pool h
  exact hpool

/-! ### A tun starts sealing -/

/-- The header blocks of a tun (R236). -/
def headerBlocks (i dtime : Nat) (x : Tun) : List (Nat × Nat × List Byte) := (List.range x.k).flatMap fun strip =>
  [(i, imgData strip 255, segHeader x strip dtime), (i, imgMeta strip 255, zeros 64)]

/-- A tun that is SEALING, with its header blocks in its buffer. -/
def sealingTun (i dtime : Nat) (x : Tun) : Tun := { (headerBlocks i dtime x).foldl (fun u b => u.write b.2.1 b.2.2) x with phase := .sealing }

theorem sealingTun_spec (i dtime : Nat) (x : Tun) : (sealingTun i dtime x).pool = x.pool ∧ (sealingTun i dtime x).seg = x.seg ∧
    (sealingTun i dtime x).frame = x.frame ∧ (sealingTun i dtime x).phase = .sealing := by
  have fold (l : List (Nat × Nat × List Byte)) (y : Tun) : let z := l.foldl (fun u b => u.write b.2.1 b.2.2) y
      z.pool = y.pool ∧ z.seg = y.seg ∧ z.frame = y.frame := by
    induction l generalizing y with
    | nil => exact ⟨rfl, rfl, rfl⟩
    | cons b l ih => exact ih (y.write b.2.1 b.2.2)
  obtain ⟨hpool, hseg, hframe⟩ := fold (headerBlocks i dtime x) x
  exact ⟨hpool, hseg, hframe, rfl⟩

/-- The state in which a tun is SEALING before its record is journalled. -/
def sealBegun (i : Nat) (x : Tun) (s : State) : State :=
  let t := bumpBy (((sealingTun i s.dtime.toNat x).holes.map Prod.snd).sum) .TA_PADK_CNT s
  { t with ta := { t.ta with tuns := kput t.ta.tuns i (sealingTun i s.dtime.toNat x) } }

section
variable {i : Nat} {x : Tun} {s : State}

theorem startSeal_of_open (hx : kget s.ta.tuns i = some x) (hopen : x.phase = .opened) : startSeal i s =
    tunRecord i (sealingTun i s.dtime.toNat x) 2 0 (headerBlocks i s.dtime.toNat x) (sealBegun i x s) := by
  simp only [startSeal, hx, hopen, ne_eq, not_true_eq_false, if_false]
  rfl

theorem startSeal_of_not_open (hx : ∀ y, kget s.ta.tuns i = some y → y.phase ≠ .opened) : startSeal i s = s := by
  unfold startSeal
  split
  · next y hy => exact if_pos (hx y hy)
  · rfl

theorem sameButJournal_startSeal (i : Nat) (s : State) : SameButJournal s (startSeal i s) := by
  by_cases h : ∃ y, kget s.ta.tuns i = some y ∧ y.phase = .opened
  · obtain ⟨y, hy, hopen⟩ := h
    rw [startSeal_of_open hy hopen]
    exact SameButJournal.trans (t := sealBegun i y s) rfl sameButJournal_tunRecord
  · rw [startSeal_of_not_open fun y hy hopen => h ⟨y, hy, hopen⟩]
    rfl

/-- A tun that is open after another starts sealing was open before, and is another. -/
theorem open_of_startSeal {k : Nat} (h : kget (startSeal i s).ta.tuns k = some x) (hopen : x.phase = .opened) :
    k ≠ i ∧ ∃ y, kget s.ta.tuns k = some y ∧ y.phase = .opened ∧ y.pool = x.pool := by
  by_cases hi : ∃ y, kget s.ta.tuns i = some y ∧ y.phase = .opened
  · obtain ⟨y, hy, hyopen⟩ := hi
    rw [startSeal_of_open hy hyopen] at h
    obtain ⟨z, hz, heq⟩ := kget_of_tunRecord h
    have hphase : z.phase = .opened := (phase_of_unnumbered heq).symm.trans hopen
    by_cases hk : k = i
    · subst hk
      have hself : kget (sealBegun k y s).ta.tuns k = some (sealingTun k s.dtime.toNat y) := kget_kput_self _ _ _
      rw [hself] at hz
      obtain rfl := Option.some.inj hz
      rw [(sealingTun_spec k s.dtime.toNat y).2.2.2] at hphase
      cases hphase
    · exact ⟨hk, z, (kget_kput_ne _ hk _).symm.trans hz, hphase, (pool_of_unnumbered heq).symm⟩
  · rw [startSeal_of_not_open fun y hy hyopen => hi ⟨y, hy, hyopen⟩] at h
    refine ⟨?_, x, h, hopen, rfl⟩
    rintro rfl
    exact hi ⟨x, h, hopen⟩

end

/-- Of the tuns of a list that start sealing none is open. -/
theorem open_of_startSeals {l : List (Nat × Tun)} {s : State} {k : Nat} {x : Tun} (h : kget (l.foldl (fun t kv => startSeal kv.1 t) s).ta.tuns k = some x)
    (hopen : x.phase = .opened) : k ∉ l.map Prod.fst ∧ ∃ y, kget s.ta.tuns k = some y ∧ y.phase = .opened ∧ y.pool = x.pool := by
  induction l generalizing s with
  | nil => exact ⟨List.not_mem_nil, x, h, hopen, rfl⟩
  | cons kv l ih =>
    obtain ⟨hout, y, hy, hyopen, hpool⟩ := ih h
    obtain ⟨hne, z, hz, hzopen, hzpool⟩ := open_of_startSeal hy hyopen
    exact ⟨by simpa [hne] using hout, z, hz, hzopen, hzpool.trans hpool⟩

theorem sameButJournal_sealTuns (p : Nat → Tun → Bool) (s : State) : SameButJournal s (sealTuns p s) := by
  have fold (l : List (Nat × Tun)) (t : State) : SameButJournal t (l.foldl (fun t kv => startSeal kv.1 t) t) := by
    induction l generalizing t with
    | nil => rfl
    | cons kv l ih => exact (sameButJournal_startSeal kv.1 t).trans (ih _)
  exact fold _ s

/-! ### The strips of a tun are written -/

/-- The write of a strip of a tun to its place (R245). -/
def stripWrite (s : State) (x : Tun) (pos : Nat) : Out := .driveWrite x.pool (posMember s x.pool x.frame pos) (driveLba (posChunk s x.pool x.frame pos) 0)
  ((x.strip pos).take 1048576) ((x.strip pos).drop 1048576)

/-- Where the strips of a tun lie as in another state: its pool's registers, its band table and its placement tables are as there. -/
structure SamePlaces (p : Nat) (s t : State) : Prop where
  unit : SameUnit 0xB s t
  mem : t.mem = s.mem
  plc : t.plc = s.plc

section
variable {p : Nat} {s t : State} (h : SamePlaces p s t) (hp : p < 8)
include h hp

theorem SamePlaces.posMember (f pos : Nat) : posMember t p f pos = posMember s p f pos :=
  posMember_of_sameUnit h.unit hp (bandOf_of_sameUnit h.unit hp h.mem) (by rw [h.plc]) (by rw [h.plc]) pos

theorem SamePlaces.posChunk (f pos : Nat) : posChunk t p f pos = posChunk s p f pos := by
  have hband := bandOf_of_sameUnit h.unit hp h.mem
  have hplace : placeOf t p f pos = placeOf s p f pos := placeOf_of_sameUnit h.unit hp hband (by rw [h.plc]) (by rw [h.plc]) pos
  rw [Machine.posChunk, Machine.posChunk, bandOn_of_sameUnit h.unit hp, hband, h.unit.getF (f := F.PLC_GEOM_EPOCHCH) (unitOf_plcGeom hp), hplace]

theorem SamePlaces.memState_posMember (f pos : Nat) : memState t p (Machine.posMember t p f pos) = memState s p (Machine.posMember s p f pos) := by
  rw [h.posMember hp]
  exact memState_of_sameUnit h.unit hp (Nat.mod_lt _ (by decide))

end

theorem samePlaces_driveWr (p q m lba : Nat) (d md : List Byte) (s : State) :
    SamePlaces p s (driveWr q m lba d md s) ∧ (driveWr q m lba d md s).ta = s.ta := by
  have hlog := sameButLog_pmc 0x1701 (getF (emit (.driveWrite q m lba d md) s) F.PLC_MEM_PORT q m) 1 (emit (.driveWrite q m lba d md) s)
  exact ⟨⟨.driveWr (by decide) _ _ _ _ _ s, hlog.mem, by rw [driveWr, sameButLog_pmc]; rfl⟩, hlog.ta⟩

/-- Strips whose members are ACTIVE are written to their places, in order. -/
theorem foldl_sealStrip {x : Tun} (hp : x.pool < 8) (i : Nat) {l : List Nat} {s : State}
    (hactive : ∀ pos ∈ l, memState s x.pool (posMember s x.pool x.frame pos) = 1) :
    let t := l.foldl (fun u pos => sealStrip i x pos u) s
    t.mem = s.mem ∧ t.ta = s.ta ∧ t.out = s.out ++ l.map (stripWrite s x) := by
  induction l generalizing s with
  | nil => exact ⟨rfl, rfl, (List.append_nil _).symm⟩
  | cons pos l ih =>
    have hseal : sealStrip i x pos s = driveWr x.pool (posMember s x.pool x.frame pos) (driveLba (posChunk s x.pool x.frame pos) 0)
        ((x.strip pos).take 1048576) ((x.strip pos).drop 1048576) s := by
      unfold sealStrip
      dsimp only
      rw [if_pos (Or.inl (hactive pos List.mem_cons_self))]
      rfl
    obtain ⟨hplaces, hta⟩ := samePlaces_driveWr x.pool x.pool (posMember s x.pool x.frame pos) (driveLba (posChunk s x.pool x.frame pos) 0)
      ((x.strip pos).take 1048576) ((x.strip pos).drop 1048576) s
    have hout := driveWr_out x.pool (posMember s x.pool x.frame pos) (driveLba (posChunk s x.pool x.frame pos) 0)
      ((x.strip pos).take 1048576) ((x.strip pos).drop 1048576) s
    rw [← hseal] at hplaces hta hout
    obtain ⟨hmem, htta, htout⟩ := ih (s := sealStrip i x pos s) fun q hq => by
      rw [hplaces.memState_posMember hp]
      exact hactive q (List.mem_cons_of_mem _ hq)
    have hwrite : stripWrite (sealStrip i x pos s) x = stripWrite s x := by
      funext q
      rw [stripWrite, stripWrite, hplaces.posMember hp, hplaces.posChunk hp]
    rw [List.foldl_cons]
    refine ⟨hmem.trans hplaces.mem, htta.trans hta, ?_⟩
    rw [htout, hout, hwrite, List.append_assoc]
    rfl

theorem mem_of_kget {α : Type} {m : KMap α} {i : Nat} {x : α} (h : kget m i = some x) : (i, x) ∈ m := by
  induction m with
  | nil => cases h
  | cons kv m ih =>
    obtain ⟨k, v⟩ := kv
    unfold kget at h
    split at h
    · next hk =>
      obtain rfl := Option.some.inj h
      rw [hk]
      exact List.mem_cons_self
    · exact List.mem_cons_of_mem _ (ih h)

/-! ### The states of a tun -/

section
variable {s : State} {i : Nat} {x : Tun}

/-- FLUSH leaves no open tun in its pool (R244). -/
theorem exec_allocFlush {id : Nat} {j : Job} (h : accepted s id 0x0B 2 = some j) : ∃ t, exec (.allocFlush id) s = .next t ∧ JobDone t id ⟨0, 0, 1, 0⟩ ∧
    ∀ i x, kget t.ta.tuns i = some x → x.pool = j.n 9 1 → x.phase ≠ .opened := by
  have hsame := sameButJournal_sealTuns (fun _ t => t.pool = j.n 9 1) s
  have hrun := runJob_finish h (f := fun j s => finish id (JobResult.done 1 0) (sealTuns (fun _ t => t.pool = j.n 9 1) s)) rfl
    (hsame.field_eq State.jobs fun _ _ _ _ _ _ _ _ => rfl)
  refine ⟨_, congrArg ok hrun, ⟨_, kget_kput_self _ _ _, rfl⟩, fun k y hy hpool hopen => ?_⟩
  obtain ⟨hout, z, hz, hzopen, hzpool⟩ := open_of_startSeals hy hopen
  refine hout (List.mem_map_of_mem (f := Prod.fst) (List.mem_filter.mpr ⟨mem_of_kget hz, ?_⟩))
  simp [hzopen, hzpool, hpool]

variable (hx : kget s.ta.tuns i = some x)
include hx

theorem exec_sealTimer (hframe : x.frame < 2 ^ 26) (hopen : x.phase = .opened) (hused : x.used = true) (hm : Memory.wf s.mem = true) :
    ∃ t y, exec (.sealTimer i) s = .next t ∧ kget t.ta.tuns i = some y ∧ y.phase = .sealing ∧ segState t x.pool x.seg = 2 := by
  obtain ⟨hpool, hseg, hf, hphase⟩ := sealingTun_spec i s.dtime.toNat x
  have hself : kget (sealBegun i x s).ta.tuns i = some (sealingTun i s.dtime.toNat x) := kget_kput_self _ _ _
  obtain ⟨y, hy, heq⟩ := kget_tunRecord_of_some (i := i) (x := sealingTun i s.dtime.toNat x) (st := 2) (mask := 0)
    (copies := headerBlocks i s.dtime.toNat x) hself
  refine ⟨_, y, ?_, hy, (phase_of_unnumbered heq).trans hphase, ?_⟩
  · rw [← startSeal_of_open hx hopen]
    show execSealTimer i s = _
    simp only [execSealTimer, hx, hused, if_true]
    rfl
  · rw [← hpool, ← hseg]
    exact segState_tunRecord hm (by rw [hf]; exact hframe) (by decide)

theorem exec_tunParityDone (hp : x.pool < 8) (hphase : x.phase = .parity)
    (hactive : ∀ pos, pos < x.k + 2 → memState s x.pool (posMember s x.pool x.frame pos) = 1) :
    ∃ t, exec (.tunParityDone i) s = .next t ∧ kget t.ta.tuns i = some { x with phase := .writing, left := List.range (x.k + 2) } ∧ t.mem = s.mem ∧
      t.out = s.out ++ (List.range (x.k + 2)).map (stripWrite s x) := by
  let u := modTun i (fun t => { t with phase := .writing, left := List.range (x.k + 2) }) s
  have hu : kget u.ta.tuns i = some { x with phase := .writing, left := List.range (x.k + 2) } := kget_kmod_self hx _
  have hplaces : SamePlaces x.pool s u := ⟨.of_csr rfl, rfl, rfl⟩
  obtain ⟨hmem, hta, hout⟩ := foldl_sealStrip hp i (l := List.range (x.k + 2)) (s := u) fun pos hpos => by
    rw [hplaces.memState_posMember hp]
    exact hactive pos (List.mem_range.mp hpos)
  have hwrite : stripWrite u x = stripWrite s x := by
    funext q
    rw [stripWrite, stripWrite, hplaces.posMember hp, hplaces.posChunk hp]
  refine ⟨_, ?_, (congrArg (fun a => kget a.tuns i) hta).trans hu, hmem, hout.trans (by rw [hwrite]; rfl)⟩
  show execTunParityDone i s = _
  simp only [execTunParityDone, hx, hphase, ne_eq, not_true_eq_false, if_false]
  rfl

theorem exec_tunStripsWritten (hm : Memory.wf s.mem = true) (hp : x.pool < 8) (hframe : x.frame < 2 ^ 26) (hphase : x.phase = .writing) :
    ∃ t y, exec (.tunStripsWritten i) s = .next t ∧ kget t.ta.tuns i = some y ∧ y.phase = .sealed ∧ segState t x.pool x.seg = 3 := by
  let u := { s with ta := { s.ta with tuns := kput s.ta.tuns i { x with phase := .sealed } } }
  have hu : kget u.ta.tuns i = some { x with phase := .sealed } := kget_kput_self _ _ _
  obtain ⟨y, hy, heq⟩ := kget_tunRecord_of_some (i := i) (x := { x with phase := .sealed }) (st := 3) (mask := (x.left.map (2 ^ ·)).sum) (copies := []) hu
  refine ⟨bump .TA_SEAL_CNT (tunRecord i { x with phase := .sealed } 3 ((x.left.map (2 ^ ·)).sum) [] u), y, ?_, hy, phase_of_unnumbered heq, ?_⟩
  · show execTunStripsWritten i s = _
    simp only [execTunStripsWritten, hx, hphase, ne_eq, not_true_eq_false, if_false]
    rfl
  · have hstate := segState_tunRecord (i := i) (x := { x with phase := .sealed }) (st := 3) (mask := (x.left.map (2 ^ ·)).sum) (copies := []) (s := u) hm hframe
      (by decide)
    rw [segState_of_sameUnit (.bump (by decide) _) hp rfl]
    exact hstate

end

theorem tunsAreSealed : Claim.TunsAreSealed := by
  intro s hm hkeys
  refine ⟨fun id j h => exec_allocFlush h, fun i x hx hframe hp => ⟨fun hopen hused => exec_sealTimer hx hframe hopen hused hm, fun hphase hdone => ?_,
    fun hphase hactive => exec_tunParityDone hx hp hphase hactive, fun hphase => exec_tunStripsWritten hx hm hp hframe hphase⟩⟩
  show execTunSealingDurable i s = _
  simp only [execTunSealingDurable, hx, hphase, hdone, decide_true, Bool.and_self, if_true, modTun, kmod_of_kget hx]
  rfl

end Sys2Proof.Machine
end

section
/-! PROOFS. Slots are handed out, and lees reclaim (R132, R233, R242, R243, R259, R260). -/

namespace Sys2Proof.Machine

/-! ### Crossing LOW or HARD -/

/-- What the record of a crossing of LOW or HARD leaves (R259). -/
structure Crossed (s t : State) : Prop where
  eq : t = { s with csr := t.csr, cel := t.cel, free := t.free, plc := { s.plc with low := t.plc.low, hard := t.plc.hard } }
  units : ∀ u, u ≠ 4 → SameUnit u s t

theorem Crossed.trans {s t u : State} (h : Crossed s t) (k : Crossed t u) : Crossed s u := by
  refine ⟨?_, fun n hn => (h.units n hn).trans (k.units n hn)⟩
  rw [k.eq, h.eq]

theorem crossed_celOpen (p b n : Nat) (s : State) (low hard : List Nat) :
    Crossed s (celOpen 0x12 p b n { s with plc := { s.plc with low := low, hard := hard } }) := by
  refine ⟨?_, fun u hu => ?_⟩
  · rw [sameButLog_celOpen 0x12 p b n { s with plc := { s.plc with low := low, hard := hard } }]
    rfl
  · exact SameUnit.trans (.of_csr rfl) (.celOpen hu _ _ _ _ _)

theorem crossed_crossing (p : Nat) (s : State) : Crossed s (crossing p s) := by
  have hlow (b : Prop) (hb : Decidable b) (n : Nat) (l : List Nat) :
      Crossed s (if b then s else celOpen 0x12 p n 0 { s with plc := { s.plc with low := l } }) := by
    split
    · exact ⟨rfl, fun _ _ => .refl s⟩
    · exact crossed_celOpen p n 0 s l s.plc.hard
  have hhard (t : State) (ht : Crossed s t) (b : Prop) (hb : Decidable b) (n : Nat) (l : List Nat) :
      Crossed s (if b then t else celOpen 0x12 p n 1 { t with plc := { t.plc with hard := l } }) := by
    split
    · exact ht
    · exact ht.trans (crossed_celOpen p n 1 t t.plc.low l)
  exact hhard _ (hlow _ _ _ _) _ _ _ _

/-! ### What handing out a slot leaves -/

/-- A step that leaves the jobs and the slot references. -/
structure SameRefs (s t : State) : Prop where
  jobs : t.jobs = s.jobs
  srt : t.me.srt = s.me.srt

namespace SameRefs
variable {s t u : State}

theorem trans (h : SameRefs s t) (k : SameRefs t u) : SameRefs s u := ⟨k.jobs.trans h.jobs, k.srt.trans h.srt⟩

theorem of_log (h : SameButLog s t) : SameRefs s t := ⟨h.jobs, by rw [h]⟩

theorem of_journal (h : SameButJournal s t) : SameRefs s t := by
  refine ⟨h.field_eq State.jobs fun _ _ _ _ _ _ _ _ => rfl, ?_⟩
  rw [h.field_eq State.me fun _ _ _ _ _ _ _ _ => rfl]

theorem sealIfFull (i : Nat) (s : State) : SameRefs s (sealIfFull i s) := by
  unfold Machine.sealIfFull
  split
  · split
    · exact ⟨rfl, rfl⟩
    · exact .of_journal (sameButJournal_startSeal i s)
  · exact ⟨rfl, rfl⟩

theorem addLivek (slot c : Nat) (s : State) : SameRefs s (addLivek slot c s) := by
  unfold Machine.addLivek
  split <;> exact ⟨rfl, rfl⟩

theorem sendSrt (slot : Nat) (s : State) : SameRefs s (sendSrt slot s) := by
  unfold Machine.sendSrt
  split <;> exact ⟨rfl, rfl⟩

theorem skipAlloc (v : Nat) (s : State) : SameRefs s (skipAlloc v s) := by
  unfold Machine.skipAlloc
  split <;> exact ⟨rfl, rfl⟩

theorem putPending (w : Nat) (l : Option Latch) (s : State) : SameRefs s (putPending w l s) := by
  unfold Machine.putPending
  split
  · exact ⟨rfl, rfl⟩
  · split <;> exact ⟨rfl, rfl⟩

theorem crossing (p : Nat) (s : State) : SameRefs s (crossing p s) := by
  rw [(crossed_crossing p s).eq]
  exact ⟨rfl, rfl⟩

theorem wrBits (a n hi lo v : Nat) (s : State) : SameRefs s (wrBits a n hi lo v s) := ⟨rfl, rfl⟩

theorem openTun {p kind i : Nat} (h : openTun p kind s = some (i, t)) : SameRefs s t := by
  unfold Machine.openTun at h
  dsimp only at h
  split at h
  · cases h
  · split at h
    · split at h
      · cases h
      · cases h
        refine ((SameRefs.trans ?_ (.of_journal sameButJournal_tunRecord)).trans (.wrBits _ _ _ _ _ _)).trans (.crossing _ _)
        exact ⟨rfl, rfl⟩
    · cases h

theorem findPlace {p kind c i off : Nat} (h : findPlace p kind c s = some (i, off, t)) : SameRefs s t := by
  unfold Machine.findPlace at h
  split at h
  · rw [Option.map_eq_some_iff] at h
    obtain ⟨y, -, hy⟩ := h
    cases hy
    exact ⟨rfl, rfl⟩
  · split at h
    · next k u hopen =>
      split at h
      · cases h
        exact (SameRefs.openTun hopen).trans ⟨rfl, rfl⟩
      · cases h
    · cases h

end SameRefs

/-- A slot is handed out with its word, and its entry is what it is given (R132, R242). -/
theorem handOut_spec {i off ctag c entry : Nat} {isMeta sealed : Bool} {s : State} {x : Tun} (hx : kget s.ta.tuns i = some x) (hentry : entry ≠ 0) :
    let r := handOut i off ctag c entry isMeta sealed s
    r.1 = newWord (slotIdent x.pool x.seg off) c sealed ∧ r.2.jobs = s.jobs ∧ srt r.2 (slotIdent x.pool x.seg off) = entry := by
  simp only [handOut, hx]
  generalize hu : wrB _ _ _ = u
  have hrefs : SameRefs s u := by
    rw [← hu]
    exact ⟨rfl, rfl⟩
  have hset := SameButFrames.setSrt (slotIdent x.pool x.seg off) entry u
  have hrest (t : State) := (((SameRefs.addLivek (slotIdent x.pool x.seg off) c t).trans (.sendSrt (slotIdent x.pool x.seg off) _)).trans
    (SameRefs.trans (t := bump .TA_SLOT_CNT _) ⟨rfl, rfl⟩ (.of_log (sameButLog_pmc 0x1201 c 1 _)))).trans (.sealIfFull i _)
  refine ⟨trivial, (hrest _).jobs.trans (hset.jobs.trans hrefs.jobs), ?_⟩
  rw [srt, (hrest _).srt, hset.srt]
  show kgetD (kputD 0 u.me.srt _ entry) _ 0 = entry
  rw [kputD, if_neg hentry, kgetD, kget_kput_self, Option.getD_some]

end Sys2Proof.Machine
end

section
/-! PROOFS. The ALLOC jobs SLOT and MOVE, and lees reclaim, as their statements give them (R242, R243, R259, R260). -/

namespace Sys2Proof.Machine

/-- A job whose operation does not finish it runs on. -/
theorem exec_runsOn {id cls op : Nat} {j : Job} {s t : State} {ins : Instr} {f : Job → State → State} (h : accepted s id cls op = some j)
    (hexec : exec ins s = ok (runJob id cls op f s)) (hf : f j s = t) (ht : t.jobs = s.jobs) :
    ∃ l, exec ins s = .next { t with jobs := l } ∧ kget l id = some { j with started := true } := by
  obtain ⟨l, hrun, hl⟩ := runJob_runsOn h hf ht
  exact ⟨l, hexec.trans (congrArg ok hrun), hl⟩

/-! ### SLOT and MOVE -/

/-- The fingerprint tag that a new slot of an agent takes from the agent's latch (R177). -/
def latchTag (a : Agent) (s : State) : Nat := match latchOf s a with | some l => fieldN l.fp 0 2 | none => 0

/-- The entry of a new slot (R132). -/
def newEntry (tag c : Nat) : Nat := 1 + tag * 2 ^ 24 + c * 2 ^ 40 + 2 ^ 42

theorem takeLatch_spec (a : Agent) (s : State) : (takeLatch a s).1 = latchTag a s ∧ ∃ g, (takeLatch a s).2.2 = { s with gl := g } := by
  unfold takeLatch latchTag
  cases latchOf s a with
  | some l => exact ⟨rfl, _, rfl⟩
  | none => exact ⟨rfl, s.gl, rfl⟩

section
variable {id i off : Nat} {x : Tun} {j : Job} {s u : State}

/-- The state and the word of a slot that an agent is given. -/
def slotGiven (a : Agent) (i off c : Nat) (sealed : Bool) (u : State) : Nat × State :=
  handOut i off (takeLatch a u).1 c (newEntry (takeLatch a u).1 c) false sealed (takeLatch a u).2.2

theorem slotGiven_spec (hx : kget u.ta.tuns i = some x) (a : Agent) (off c : Nat) (sealed : Bool) :
    let r := slotGiven a i off c sealed u
    r.1 = newWord (slotIdent x.pool x.seg off) c sealed ∧ r.2.jobs = u.jobs ∧ srt r.2 (slotIdent x.pool x.seg off) = newEntry (latchTag a u) c := by
  obtain ⟨htag, g, hstate⟩ := takeLatch_spec a u
  have hentry : newEntry (latchTag a u) c ≠ 0 := by
    unfold newEntry
    omega
  unfold slotGiven
  rw [htag, hstate]
  exact handOut_spec (s := { u with gl := g }) hx hentry

theorem volSealed_takeLatch (a : Agent) (u : State) (v : Nat) : volSealed (takeLatch a u).2.2 v = volSealed u v := by
  obtain ⟨-, g, hstate⟩ := takeLatch_spec a u
  rw [hstate]
  rfl

/-- The state in which SLOT has its slot: a flow's own one takes a block of an open skip window (R205), and its fingerprint waits for the index (R178). -/
def slotTaken (j : Job) (l : Option Latch) (r : Nat × State) : State :=
  putPending r.1 l (match ownAlloc r.2 j with | some v => skipAlloc v r.2 | none => r.2)

theorem sameRefs_slotTaken (j : Job) (l : Option Latch) (r : Nat × State) : SameRefs r.2 (slotTaken j l r) := by
  unfold slotTaken
  split
  · exact (SameRefs.skipAlloc _ _).trans (.putPending _ _ _)
  · exact .putPending _ _ _

/-- A job that ends with the word of a new slot. -/
theorem exec_slotGiven {op c : Nat} {sealed : Bool} {ins : Instr} {f : Job → State → State} {t : State} (h : accepted s id 0x0B op = some j)
    (hexec : exec ins s = ok (runJob id 0x0B op f s)) (hf : f j s = finish id (JobResult.done 1 (slotGiven j.owner i off c sealed u).1) t)
    (hplace : SameRefs s u) (hx : kget u.ta.tuns i = some x) (ht : SameRefs (slotGiven j.owner i off c sealed u).2 t) :
    ∃ t, exec ins s = .next t ∧ JobDone t id ⟨0, 0, 1, newWord (slotIdent x.pool x.seg off) c sealed⟩ ∧
      srt t (slotIdent x.pool x.seg off) = newEntry (latchTag j.owner u) c := by
  obtain ⟨hword, hjobs, hsrt⟩ := slotGiven_spec hx j.owner off c sealed
  rw [hword] at hf
  refine ⟨_, hexec.trans (congrArg ok (runJob_finish h hf (ht.jobs.trans (hjobs.trans hplace.jobs)))), ⟨_, kget_kput_self _ _ _, rfl⟩, ?_⟩
  refine Eq.trans ?_ hsrt
  rw [srt, srt, ← ht.srt]

/-- SLOT hands out a place of a BODY tun (R243). -/
theorem exec_allocSlot (hown : ownsVol s (jobVol s j 12) = true) (h : accepted s id 0x0B 1 = some j) (hheld : id ∉ s.ta.held)
    (hroom : j.fromStew = true ∨ belowPercent s (volPool s (jobVol s j 12)) (getF s F.TA_LEES_HARD) = false)
    (hplace : findPlace (volPool s (jobVol s j 12)) 0 (j.n 8 1) s = some (i, off, u)) (hx : kget u.ta.tuns i = some x) :
    ∃ t, exec (.allocSlot id) s = .next t ∧ JobDone t id ⟨0, 0, 1, newWord (slotIdent x.pool x.seg off) (j.n 8 1) (volSealed u (jobVol s j 12))⟩ ∧
      srt t (slotIdent x.pool x.seg off) = newEntry (latchTag j.owner u) (j.n 8 1) := by
  have herase : { s with ta := { s.ta with held := s.ta.held.erase id } } = s := by rw [List.erase_of_not_mem hheld]
  have hfree : (!j.fromStew && belowPercent s (volPool s (jobVol s j 12)) (getF s F.TA_LEES_HARD)) = false := by
    rcases hroom with hroom | hroom <;> simp [hroom]
  rw [← volSealed_takeLatch j.owner u]
  refine exec_slotGiven h rfl ?_ (.findPlace hplace) hx (sameRefs_slotTaken j (takeLatch j.owner u).2.1 _)
  simp only [allocVol, hown, Bool.not_true, Bool.false_eq_true, if_false, hfree, herase, hplace]
  rfl

/-- MOVE hands out a place of a RECLAIM tun (R243). -/
theorem exec_allocMove (hown : ownsVol s (jobVol s j 12) = true) (h : accepted s id 0x0B 3 = some j)
    (hplace : findPlace (swPool (j.n 16 8)) 2 (swClass (j.n 16 8)) s = some (i, off, u)) (hx : kget u.ta.tuns i = some x) :
    ∃ t, exec (.allocMove id) s = .next t ∧ JobDone t id ⟨0, 0, 1, newWord (slotIdent x.pool x.seg off) (swClass (j.n 16 8)) (swSealed (j.n 16 8))⟩ ∧
      srt t (slotIdent x.pool x.seg off) = newEntry (latchTag j.owner u) (swClass (j.n 16 8)) := by
  refine exec_slotGiven h rfl ?_ (.findPlace hplace) hx (.putPending (slotGiven j.owner i off (swClass (j.n 16 8)) (swSealed (j.n 16 8)) u).1
    (takeLatch j.owner u).2.1 _)
  simp only [allocVol, hown, Bool.not_true, Bool.false_eq_true, if_false, hplace]
  rfl

/-- SLOT of a context is held while its pool is below HARD (R259). -/
theorem exec_allocSlot_held (hown : ownsVol s (jobVol s j 12) = true) (h : accepted s id 0x0B 1 = some j) (hstew : j.fromStew = false)
    (hlow : belowPercent s (volPool s (jobVol s j 12)) (getF s F.TA_LEES_HARD) = true) (hheld : id ∉ s.ta.held) :
    ∃ t, exec (.allocSlot id) s = .next t ∧ id ∈ t.ta.held ∧ kget t.jobs id = some { j with started := true } ∧ t.mem = s.mem ∧
      getF t ⟨.TA_HELD_CNT, 47, 0⟩ = (getF s ⟨.TA_HELD_CNT, 47, 0⟩ + 1) % 2 ^ 48 := by
  have hnew : s.ta.held.contains id = false := by simpa using hheld
  obtain ⟨l, hnext, hl⟩ := exec_runsOn (ins := .allocSlot id) (t := bump .TA_HELD_CNT { s with ta := { s.ta with held := id :: s.ta.held } }) h rfl
    (by simp only [allocVol, hown, hstew, hlow, hnew, Bool.not_true, Bool.not_false, Bool.and_self, Bool.false_eq_true, if_false, if_true]) rfl
  exact ⟨_, hnext, List.mem_cons_self, hl, rfl, bumpBy_count 1 .TA_HELD_CNT _ 0⟩

end

theorem slotAllocation : Claim.SlotAllocation := by
  intro id i off x j s u v c tag slot hown
  exact ⟨fun h hheld hroom hplace hx => exec_allocSlot hown h hheld hroom hplace hx, fun h hplace hx => exec_allocMove hown h hplace hx,
    fun h hstew hlow hheld => exec_allocSlot_held hown h hstew hlow hheld⟩

end Sys2Proof.Machine
end

section
/-! PROOFS. Lees reclaim (R239, R259, R260). -/

namespace Sys2Proof.Machine

/-! ### The segment that is picked -/

theorem crossing_of_noted {p : Nat} {s : State} (hlow : belowPercent s p (getF s F.TA_LEES_LOW) = s.plc.low.contains p)
    (hhard : belowPercent s p (getF s F.TA_LEES_HARD) = s.plc.hard.contains p) : crossing p s = s := by
  simp only [crossing, hlow, if_true, hhard]

/-- The choice of a segment of least LIVEK among those before and one more (R259). -/
def leastOf (s : State) (p : Nat) (b : Option Nat) (kv : Nat × Nat) : Option Nat :=
  match b with
  | some g => if segLivek s p kv.2 < segLivek s p g then some kv.2 else b
  | none => some kv.2

theorem leastOf_spec (s : State) (p : Nat) (b : Option Nat) (kv : Nat × Nat) : ∃ g, leastOf s p b kv = some g ∧ (g = kv.2 ∨ b = some g) ∧
    segLivek s p g ≤ segLivek s p kv.2 ∧ ∀ x, b = some x → segLivek s p g ≤ segLivek s p x := by
  cases b with
  | none => exact ⟨kv.2, rfl, Or.inl rfl, le_rfl, fun x hx => by cases hx⟩
  | some x =>
    by_cases hlt : segLivek s p kv.2 < segLivek s p x
    · exact ⟨kv.2, if_pos hlt, Or.inl rfl, le_rfl, fun y hy => by cases hy; exact hlt.le⟩
    · exact ⟨x, if_neg hlt, Or.inr rfl, Nat.le_of_not_lt hlt, fun y hy => by cases hy; exact le_rfl⟩

/-- After a list the choice is one of least LIVEK of it and of the choice before. -/
theorem foldl_leastOf (s : State) (p : Nat) (l : List (Nat × Nat)) (b : Option Nat) (h : b ≠ none ∨ l ≠ []) :
    ∃ g, l.foldl (leastOf s p) b = some g ∧ (b = some g ∨ ∃ k, (k, g) ∈ l) ∧ (∀ x, b = some x → segLivek s p g ≤ segLivek s p x) ∧
      ∀ kv ∈ l, segLivek s p g ≤ segLivek s p kv.2 := by
  induction l generalizing b with
  | nil =>
    obtain ⟨g, hg⟩ := Option.ne_none_iff_exists'.mp (h.resolve_right fun h => h rfl)
    exact ⟨g, hg, Or.inl hg, fun x hx => by rw [hg, Option.some.injEq] at hx; rw [hx], fun kv hkv => absurd hkv List.not_mem_nil⟩
  | cons kv l ih =>
    obtain ⟨c, hc, hcfrom, hcv, hcb⟩ := leastOf_spec s p b kv
    obtain ⟨g, hg, hfrom, hle, hall⟩ := ih (some c) (Or.inl (Option.some_ne_none c))
    have hgc := hle c rfl
    refine ⟨g, by rw [List.foldl_cons, hc, hg], ?_, fun x hx => hgc.trans (hcb x hx), fun kv' hkv => ?_⟩
    · rcases hfrom with hfrom | ⟨k, hk⟩
      · obtain rfl := Option.some.inj hfrom
        exact hcfrom.elim (fun hc => Or.inr ⟨kv.1, by rw [hc]; exact List.mem_cons_self⟩) Or.inl
      · exact Or.inr ⟨k, List.mem_cons_of_mem _ hk⟩
    · rcases List.mem_cons.mp hkv with rfl | hkv
      · exact hgc.trans hcv
      · exact hall kv' hkv

/-- Whether lees reclaim may pick the segment of a frame. -/
def reclaimable (s : State) (p : Nat) (kv : Nat × Nat) : Bool :=
  decide (kv.1 / 2 ^ 26 = p) && decide (segState s p kv.2 = sSealed) && !segMeta s p kv.2 && !s.plc.picked.contains (p * 2 ^ 26 + kv.2)

theorem leesNext_eq (s : State) (p : Nat) : leesNext s p = (s.plc.frames.filter (reclaimable s p)).foldl (leastOf s p) none := rfl

theorem reclaimable_iff (s : State) (p : Nat) (kv : Nat × Nat) : reclaimable s p kv = true ↔
    kv.1 / 2 ^ 26 = p ∧ segState s p kv.2 = sSealed ∧ segMeta s p kv.2 = false ∧ s.plc.picked.contains (p * 2 ^ 26 + kv.2) = false := by
  unfold reclaimable
  rw [Bool.and_eq_true, Bool.and_eq_true, Bool.and_eq_true, decide_eq_true_eq, decide_eq_true_eq, Bool.not_eq_true', Bool.not_eq_true', and_assoc, and_assoc]

theorem reclaimable_of_sealed {p f g0 : Nat} {s : State} (hpool : f / 2 ^ 26 = p) (hsealed : segState s p g0 = sSealed)
    (hmeta : segMeta s p g0 = false) (hpicked : s.plc.picked = []) : reclaimable s p (f, g0) = true := by
  rw [reclaimable_iff]
  exact ⟨hpool, hsealed, hmeta, by rw [hpicked, List.contains_nil]⟩

/-- The segment that lees reclaim moves next is SEALED, no META one, and has the least LIVEK (R259). -/
theorem leesNext_spec {p f g0 : Nat} {s : State} (hf : (f, g0) ∈ s.plc.frames) (hpool : f / 2 ^ 26 = p) (hsealed : segState s p g0 = sSealed)
    (hmeta : segMeta s p g0 = false) (hpicked : s.plc.picked = []) :
    ∃ g, leesNext s p = some g ∧ segState s p g = sSealed ∧ segMeta s p g = false ∧ segLivek s p g ≤ segLivek s p g0 := by
  have hmem : (f, g0) ∈ s.plc.frames.filter (reclaimable s p) :=
    List.mem_filter.mpr ⟨hf, reclaimable_of_sealed hpool hsealed hmeta hpicked⟩
  obtain ⟨g, hg, hfrom, -, hall⟩ := foldl_leastOf s p (s.plc.frames.filter (reclaimable s p)) none (Or.inr (List.ne_nil_of_mem hmem))
  obtain ⟨k, hk⟩ := hfrom.resolve_left fun h => by cases h
  have hgood : reclaimable s p (k, g) = true := (List.mem_filter.mp hk).2
  rw [reclaimable_iff] at hgood
  obtain ⟨hin, hstate, hmeta', -⟩ := hgood
  exact ⟨g, (leesNext_eq s p).trans hg, hstate, hmeta', hall (f, g0) hmem⟩

theorem exec_leesSelect {p : BitVec 3} {s : State} {g : Nat} (hen : isF s F.TA_LEES_EN = true) (hbelow : belowPercent s p.toNat (getF s F.TA_LEES_LOW) = true)
    (hlow : p.toNat ∈ s.plc.low) (hhard : belowPercent s p.toNat (getF s F.TA_LEES_HARD) = s.plc.hard.contains p.toNat) (hpicked : s.plc.picked = [])
    (hrate : leesCount s p.toNat < leesRateOf s p.toNat) (hnext : leesNext s p.toNat = some g) : exec (.leesSelect p) s = .next { s with plc := { s.plc with
      picked := [p.toNat * 2 ^ 26 + g], leesDone := kput s.plc.leesDone p.toNat (s.dtime.toNat / 10 ^ 9, leesCount s p.toNat + 1) } } := by
  have hsame : crossing p.toNat s = s := crossing_of_noted (hbelow.trans (List.contains_iff_mem.mpr hlow).symm) hhard
  show execLeesSelect p s = _
  simp only [execLeesSelect, hsame, hen, hbelow, Bool.not_true, Bool.or_self, Bool.false_or, decide_eq_true_eq, Nat.not_le.mpr hrate, if_false, hnext, hpicked]
  rfl

end Sys2Proof.Machine
end

section
/-! PROOFS. A segment is moved (R239, R260). -/

namespace Sys2Proof.Machine

theorem rdN_of_mget {s t : State} {a n : Nat} (h : ∀ b, a ≤ b → b < a + n → mget t.mem b = mget s.mem b) : rdN t a n = rdN s a n := by
  have hread : rdB t a n = rdB s a n := List.map_congr_left fun i hi => h (a + i) (by omega) (by have := List.mem_range.mp hi; omega)
  exact congrArg leNat hread

theorem rdBits_wrBits_self {s : State} (hm : Memory.wf s.mem = true) (a : Nat) {hi lo : Nat} (h : hi < 64) (v : Nat) :
    rdBits (wrBits a 8 hi lo v s) a 8 hi lo = v % 2 ^ (hi + 1 - lo) := by
  have hword : (setBits (BitVec.ofNat 64 (rdN s a 8)) hi lo v).toNat < 256 ^ 8 := (setBits (BitVec.ofNat 64 (rdN s a 8)) hi lo v).isLt
  rw [rdBits, wrBits, rdN_wrN hm, Nat.mod_eq_of_lt hword, ← bits, bits_setBits_self _ h]

/-! ### The state of a segment -/

/-- A segment's entry lies below the record ring, and records leave it. -/
theorem segEntry_of_below {s t : State} {p g : Nat} (hu : SameUnit 0xB s t) (hp : p < 8) (hbelow : segAddr s p g + 8 ≤ ownRing)
    (hmem : ∀ a, a < ownRing → mget t.mem a = mget s.mem a) : segEntry t p g = segEntry s p g := by
  rw [segEntry, segEntry, segAddr_of_sameUnit hu hp]
  exact rdN_of_mget fun b _ hb => hmem b (by omega)

theorem segFrame_of_sameUnit {s t : State} {p : Nat} (hu : SameUnit 0xB s t) (hp : p < 8) (hmem : t.mem = s.mem) (g : Nat) :
    segFrame t p g = segFrame s p g := by
  rw [segFrame, segFrame, segEntry, segEntry, segAddr_of_sameUnit hu hp, rdN_of_mem hmem]

/-- What a change of a segment's state leaves: its frame and where its entry lies, the slot references, the forwarding table, and the frames in use but its own. -/
structure SegChanged (p g st : Nat) (s t : State) : Prop where
  wf : Memory.wf t.mem = true
  addr : segAddr t p g = segAddr s p g
  state : segState t p g = st
  frame : segFrame t p g = segFrame s p g
  srt : t.me.srt = s.me.srt
  fwd : t.plc.fwd = s.plc.fwd
  frames : t.plc.frames = if st = sForwarded ∨ st = sFree then kdel s.plc.frames (frameKey p (segFrame s p g)) else s.plc.frames

/-- A change of a segment's state before its record. -/
def segWritten (p g st : Nat) (s : State) : State :=
  let f := segFrame s p g
  let s := setSegState p g st s
  let s := { s with plc := { s.plc with frames := if st = sForwarded ∨ st = sFree then kdel s.plc.frames (frameKey p f) else s.plc.frames } }
  if st = sFree then { s with plc := { s.plc with cache := s.plc.cache.filter fun kv => !(decide (slotPool kv.1 = p) && decide (slotSeg kv.1 = g)) } } else s

theorem segTo_eq (p g st : Nat) (s : State) : segTo p g st s = crossing p (journal tyTun (g + p * 2 ^ 28) 32
    [.segment p g (segEntry (segWritten p g st s) p g)] none [] (segWritten p g st s)) := rfl

theorem segWritten_spec (p g st : Nat) (s : State) : (segWritten p g st s).mem = (setSegState p g st s).mem ∧ (segWritten p g st s).csr = s.csr ∧
    (segWritten p g st s).me = s.me ∧ (segWritten p g st s).plc.fwd = s.plc.fwd ∧ (segWritten p g st s).plc.frames =
      if st = sForwarded ∨ st = sFree then kdel s.plc.frames (frameKey p (segFrame s p g)) else s.plc.frames := by
  unfold segWritten
  dsimp only
  split <;> exact ⟨rfl, rfl, rfl, rfl, rfl⟩

section
variable {p g st : Nat} {s : State} (hm : Memory.wf s.mem = true) (hp : p < 8) (hbelow : segAddr s p g + 8 ≤ ownRing) (hst : st < 16)
include hm hp hbelow hst

theorem segChanged_segTo : SegChanged p g st s (segTo p g st s) := by
  obtain ⟨hmem, hcsr, hme, hfwd, hframes⟩ := segWritten_spec p g st s
  rw [segTo_eq]
  generalize segWritten p g st s = w at hmem hcsr hme hfwd hframes ⊢
  have hj := Journalled.journal tyTun (g + p * 2 ^ 28) 32 [.segment p g (segEntry w p g)] none [] w
  generalize journal tyTun (g + p * 2 ^ 28) 32 [.segment p g (segEntry w p g)] none [] w = v at hj ⊢
  have hc := crossed_crossing p v
  have hcmem : (crossing p v).mem = v.mem := by rw [hc.eq]
  have hunit : SameUnit 0xB w (crossing p v) := (hj.units 0xB (by decide) (by decide)).trans (hc.units 0xB (by decide))
  have hwaddr : segAddr w p g = segAddr s p g := segAddr_of_sameUnit (.of_csr hcsr) hp g
  have hwm : Memory.wf w.mem = true := by
    rw [hmem]
    exact wf_wrBits hm _ _ _ _ _
  have hentry : segEntry (crossing p v) p g = segEntry (setSegState p g st s) p g := by
    refine (segEntry_of_below hunit hp (by rw [hwaddr]; exact hbelow) fun a ha => by rw [hcmem, hj.mem a ha]).trans ?_
    rw [segEntry, hwaddr, rdN_of_mem hmem]
    rfl
  refine ⟨?_, (segAddr_of_sameUnit hunit hp g).trans hwaddr, ?_, ?_, ?_, ?_, ?_⟩
  · rw [hcmem]
    exact hj.wf hwm
  · rw [segState, hentry]
    exact (rdBits_wrBits_self hm (segAddr s p g) (by decide) st).trans (Nat.mod_eq_of_lt hst)
  · rw [segFrame, hentry]
    exact rdBits_wrBits_of_apart hm (segAddr s p g) (by decide) st
  · rw [hc.eq]
    exact (congrArg MapEng.srt hj.me).trans (congrArg MapEng.srt hme)
  · rw [hc.eq]
    dsimp only
    rw [hj.plc]
    exact hfwd
  · rw [hc.eq]
    dsimp only
    rw [hj.plc]
    exact hframes

end

/-! ### SEGMENT_MOVE of a segment without slots -/

theorem segSlots_of_srt {s t : State} (h : t.me.srt = s.me.srt) (p g : Nat) : segSlots t p g = segSlots s p g := by rw [segSlots, segSlots, h]

/-- A picked segment without slots, with nothing forwarded, becomes MOVING, FORWARDED and FREE in one step. -/
theorem moveSegment_of_empty {p g : Nat} {reads : List (Nat × DriveAns)} {s v : State} (hstate : segState s p g = sSealed)
    (hpicked : p * 2 ^ 26 + g ∈ s.plc.picked)
    (hv : v = segTo p g sMoving { s with plc := { s.plc with picked := s.plc.picked.erase (p * 2 ^ 26 + g), racked := s.plc.racked.erase (p * 2 ^ 26 + g) } })
    (hslots : segSlots v p g = []) (hfwd : v.plc.fwd = []) (hfwd' : (segTo p g sForwarded v).plc.fwd = []) :
    moveSegment p g reads s = segTo p g sFree (bump .TA_LEES_CNT (segTo p g sForwarded v)) := by
  have hreclaim : reclaimOpen v p g = false := by rw [reclaimOpen, hfwd]; rfl
  have hfwd'' : (bump .TA_LEES_CNT (segTo p g sForwarded v)).plc.fwd = [] := hfwd'
  unfold moveSegment
  dsimp only
  rw [hstate, if_pos (by rw [List.contains_iff_mem.mpr hpicked]; rfl), if_pos rfl, ← hv, hslots, List.foldl_nil, hslots, if_pos ⟨rfl, by simp [hreclaim]⟩, hfwd'']
  rfl

theorem leesReclaim : Claim.LeesReclaim := by
  intro p s hm hkeys
  refine ⟨fun f g0 hen hbelow hlow hhard hf hpool hsealed hmeta hpicked hrate => ?_, fun g hstate hpicked hslots hfwd hbelow => ?_⟩
  · obtain ⟨g, hnext, hg, hgmeta, hle⟩ := leesNext_spec hf hpool hsealed hmeta hpicked
    exact ⟨g, exec_leesSelect hen hbelow hlow hhard hpicked hrate hnext, hg, hgmeta, hle⟩
  · let u := { s with plc := { s.plc with picked := s.plc.picked.erase (p.toNat * 2 ^ 26 + g.toNat), racked := s.plc.racked.erase (p.toNat * 2 ^ 26 + g.toNat) } }
    let v := segTo p.toNat g.toNat sMoving u
    have hp : p.toNat < 8 := p.isLt
    have hmoving : SegChanged p.toNat g.toNat sMoving u v := segChanged_segTo hm hp hbelow (by decide)
    let w := segTo p.toNat g.toNat sForwarded v
    have hforwarded : SegChanged p.toNat g.toNat sForwarded v w := segChanged_segTo hmoving.wf hp (by rw [hmoving.addr]; exact hbelow) (by decide)
    have hunit : SameUnit 0xB w (bump .TA_LEES_CNT w) := .bump (by decide) w
    have hfree := segChanged_segTo (s := bump .TA_LEES_CNT w) (st := sFree) hforwarded.wf hp
      (by rw [segAddr_of_sameUnit hunit hp, hforwarded.addr, hmoving.addr]; exact hbelow) (by decide)
    have hmove := moveSegment_of_empty (reads := []) hstate hpicked rfl ((segSlots_of_srt hmoving.srt _ _).trans hslots) (hmoving.fwd.trans hfwd)
      (hforwarded.fwd.trans (hmoving.fwd.trans hfwd))
    have hframe : segFrame (bump .TA_LEES_CNT w) p.toNat g.toNat = segFrame s p.toNat g.toNat := by
      rw [segFrame_of_sameUnit hunit hp rfl, hforwarded.frame, hmoving.frame]
      rfl
    refine ⟨_, congrArg ok hmove, hfree.state, ?_⟩
    rw [hfree.frames, if_pos (Or.inr rfl), hframe]
    refine kget_kdel_self (lo := 0) ?_ _
    show keysFrom 0 w.plc.frames = true
    rw [hforwarded.frames, if_pos (Or.inl rfl), hmoving.frames]
    exact keysFrom_kdel hkeys _

/-- Settles O30: slots are handed out, tuns are sealed, a member fails with a strip write, and segments are picked and freed. -/
theorem tunResults : Obligations.TunResults := ⟨slotAllocation, tunsAreSealed, stripWritesFail, leesReclaim⟩

end Sys2Proof.Machine
end

section
/-! PROOFS. The bytes of the records of the cask journal, which pass the checks of replay (R251, R256). -/

namespace Sys2Proof.Machine

/-! ### The bytes of a record -/

theorem fieldN_append_of_length {a b : List Byte} {k i n lo : Nat} (hk : a.length = k) (hlo : lo = k + i) : fieldN (a ++ b) lo n = fieldN b i n := by
  rw [hlo, ← hk, fieldN_append]

theorem fieldN_leBytes (n v : Nat) (b : List Byte) (hv : v < 256 ^ n) : fieldN (leBytes n v ++ b) 0 n = v := by
  have h := fieldN_left (leBytes n v) b
  rw [leBytes_length, leNat_leBytes, Nat.mod_eq_of_lt hv] at h
  exact h

/-- The body of a record, padded to whole units (R251). -/
def paddedBody (r : JRec) : List Byte := r.body ++ zeros (64 * r.len - 64 - r.body.length)

/-- The header of a record without its check code (R251). -/
def recordHead (r : JRec) (dtime : Nat) : List Byte :=
  leBytes 4 0x4B53_4143 ++ leBytes 1 r.ty ++ leBytes 1 r.flags ++ leBytes 2 r.len ++ leBytes 8 r.seq ++ leBytes 4 r.arg ++ leBytes 4 r.nent ++
    leBytes 8 (if r.len = 1 then 0 else crc64 (paddedBody r)) ++ leBytes 8 dtime ++ zeros 16

theorem recordBytes_eq (r : JRec) (dtime : Nat) :
    recordBytes r dtime = recordHead r dtime ++ (leBytes 8 (crc64 (recordHead r dtime)) ++ paddedBody r) := by
  rw [← List.append_assoc]
  rfl

theorem recordHead_length (r : JRec) (dtime : Nat) : (recordHead r dtime).length = 56 := by
  simp [recordHead, zeros]

section
variable {r : JRec} (hlen : r.body.length ≤ 64 * r.len - 64) (hunits : 1 ≤ r.len)
include hlen

theorem paddedBody_length : (paddedBody r).length = 64 * r.len - 64 := by
  rw [paddedBody, List.length_append, zeros, List.length_replicate]
  omega

include hunits

theorem recordBytes_length (dtime : Nat) : (recordBytes r dtime).length = 64 * r.len := by
  rw [recordBytes_eq, List.length_append, List.length_append, recordHead_length, leBytes_length, paddedBody_length hlen]
  omega

omit hlen hunits in
/-- The fields of a header that replay reads (R256). -/
theorem fieldN_recordHead (hseq : r.seq < 2 ^ 64) (hsize : r.len < 2 ^ 16) (dtime : Nat) (b : List Byte) :
    fieldN (recordHead r dtime ++ b) 0 4 = 0x4B53_4143 ∧ fieldN (recordHead r dtime ++ b) 6 2 = r.len ∧ fieldN (recordHead r dtime ++ b) 8 8 = r.seq ∧
      fieldN (recordHead r dtime ++ b) 24 8 = if r.len = 1 then 0 else crc64 (paddedBody r) := by
  have hcrc : (if r.len = 1 then 0 else crc64 (paddedBody r)) < 256 ^ 8 := by
    split
    · decide
    · exact crc64_lt _
  simp only [recordHead, List.append_assoc]
  refine ⟨fieldN_leBytes 4 _ _ (by decide), ?_, ?_, ?_⟩
  · rw [fieldN_append_of_length (k := 4) (i := 2) (by simp) rfl, fieldN_append_of_length (k := 1) (i := 1) (by simp) rfl,
      fieldN_append_of_length (k := 1) (i := 0) (by simp) rfl]
    exact fieldN_leBytes 2 _ _ hsize
  · rw [fieldN_append_of_length (k := 4) (i := 4) (by simp) rfl, fieldN_append_of_length (k := 1) (i := 3) (by simp) rfl,
      fieldN_append_of_length (k := 1) (i := 2) (by simp) rfl, fieldN_append_of_length (k := 2) (i := 0) (by simp) rfl]
    exact fieldN_leBytes 8 _ _ hseq
  · rw [fieldN_append_of_length (k := 4) (i := 20) (by simp) rfl, fieldN_append_of_length (k := 1) (i := 19) (by simp) rfl,
      fieldN_append_of_length (k := 1) (i := 18) (by simp) rfl, fieldN_append_of_length (k := 2) (i := 16) (by simp) rfl,
      fieldN_append_of_length (k := 8) (i := 8) (by simp) rfl, fieldN_append_of_length (k := 4) (i := 4) (by simp) rfl,
      fieldN_append_of_length (k := 4) (i := 0) (by simp) rfl]
    exact fieldN_leBytes 8 _ _ hcrc

omit hlen hunits in
/-- What follows the header of a record and its check code is its body. -/
theorem drop_recordBytes (dtime : Nat) : (recordBytes r dtime).drop 64 = paddedBody r := by
  rw [recordBytes_eq, ← List.append_assoc, List.drop_left' (by rw [List.length_append, recordHead_length, leBytes_length])]

omit hunits in
/-- The bytes of a record pass the checks of replay (R251, R256). -/
theorem recordGood_recordBytes (hseq : r.seq < 2 ^ 64) (hsize : r.len < 2 ^ 16) (dtime : Nat) : recordGood (recordBytes r dtime) r.seq = true := by
  obtain ⟨hmark, hl, hs, hcrc⟩ := fieldN_recordHead hseq hsize dtime (leBytes 8 (crc64 (recordHead r dtime)) ++ paddedBody r)
  have hcheck : fieldN (recordBytes r dtime) 56 8 = crc64 ((recordBytes r dtime).take 56) := by
    rw [recordBytes_eq, List.take_left' (recordHead_length r dtime), fieldN_append_of_length (i := 0) (recordHead_length r dtime) rfl]
    exact fieldN_leBytes 8 _ _ (crc64_lt _)
  have hbody : ((recordBytes r dtime).drop 64).take (64 * r.len - 64) = paddedBody r := by
    rw [drop_recordBytes, List.take_of_length_le (paddedBody_length hlen).le]
  rw [← recordBytes_eq] at hmark hl hs hcrc
  rw [recordGood, hl, hs, hcrc, hmark, hcheck, hbody]
  by_cases hone : r.len = 1
  · simp [hone]
  · simp [hone]

end

end Sys2Proof.Machine
end

section
/-! PROOFS. How APPEND and MARK append their records (R251, R252, R257). -/

namespace Sys2Proof.Machine

/-! ### A record at the head of the ring -/

/-- A part of what is read is read at its place. -/
theorem rdB_eq_drop_take (s : State) (a : Nat) {i n k : Nat} (h : i + n ≤ k) : rdB s (a + i) n = ((rdB s a k).drop i).take n := by
  apply List.ext_getElem
  · rw [rdB, rdB, mread_length, List.length_take, List.length_drop, mread_length]
    omega
  · intro x hx _
    simp only [rdB, mread, List.getElem_map, List.getElem_range, List.getElem_take, List.getElem_drop, Nat.add_assoc]

/-- The body of a record lies behind its header. -/
theorem rdB_body {r : JRec} {s : State} {a dtime : Nat} (hread : rdB s a (64 * r.len) = recordBytes r dtime) (h : 64 + r.body.length ≤ 64 * r.len) :
    rdB s (a + 64) r.body.length = r.body := by
  rw [rdB_eq_drop_take s a h, hread, drop_recordBytes, paddedBody, List.take_left' rfl]

/-- A record with the number and the place that it has at the head of the ring. -/
def atHead (r : JRec) (s : State) : JRec := { r with seq := nextSeq s, off := s.ta.woff, flags := b2n (soloMode s) }

theorem sendRecord_csr (r : JRec) (s : State) : (sendRecord r s).csr = s.csr := by
  unfold sendRecord
  dsimp only
  split
  · rfl
  · split <;> rfl

theorem sendRecord_ta (r : JRec) (s : State) : (sendRecord r s).ta = s.ta := by
  unfold sendRecord
  dsimp only
  split
  · rfl
  · split <;> rfl

section
variable {r : JRec} {s : State}

theorem noteSeq_of_acts_nil (hacts : r.acts = []) : noteSeq r s = s := by
  rw [noteSeq, hacts, List.foldl_nil]

/-- The head of the ring moves past a record. -/
def headMoved (r : JRec) (s : State) : State :=
  setF F.TA_JSEQ_NEXT (r.seq + 1) { s with ta := { s.ta with recs := s.ta.recs ++ [r], woff := (s.ta.woff + 64 * r.len) % ringSize s } }

theorem putRecord_eq (hacts : r.acts = []) (hcopies : r.copies = []) : putRecord r s =
    sendRecord (atHead r s) (pmc 0x1202 0 1 (headMoved (atHead r s) (wrB (ownRing + s.ta.woff) (recordBytes (atHead r s) s.dtime.toNat) s))) := by
  have hput : noteSeq (atHead r s) (putCopies ownRing r.copies (wrB (ownRing + s.ta.woff) (recordBytes (atHead r s) s.dtime.toNat) s)) =
      wrB (ownRing + s.ta.woff) (recordBytes (atHead r s) s.dtime.toNat) s := by
    rw [noteSeq_of_acts_nil (r := atHead r s) hacts, hcopies]
    rfl
  rw [← hput]
  rfl

theorem putRecord_ta (hacts : r.acts = []) (hcopies : r.copies = []) :
    (putRecord r s).ta = { s.ta with recs := s.ta.recs ++ [atHead r s], woff := (s.ta.woff + 64 * r.len) % ringSize s } := by
  rw [putRecord_eq hacts hcopies, sendRecord_ta, (sameButLog_pmc _ _ _ _).ta]
  rfl

/-- The bytes of the record are what memory holds at the ring's head. -/
theorem rdB_putRecord (hwf : Memory.wf s.mem = true) (hcopies : r.copies = []) {n : Nat} (hlen : (recordBytes (atHead r s) s.dtime.toNat).length = n) :
    rdB (putRecord r s) (ownRing + s.ta.woff) n = recordBytes (atHead r s) s.dtime.toNat ∧ SameMemBut (ownRing + s.ta.woff) n s (putRecord r s) :=
  rdB_and_sameMemBut_of_wrB hwf hlen ((putRecord_mem hcopies s).trans (wrB_mem _ _ _).symm)

/-- NEXT is the number after the record's. -/
theorem nextSeq_putRecord (hacts : r.acts = []) (hcopies : r.copies = []) (hnext : nextSeq s < 0xFFFF_FFFF_FFFF_FFFF) :
    nextSeq (putRecord r s) = nextSeq s + 1 := by
  rw [putRecord_eq hacts hcopies, nextSeq, getF_of_csr (sendRecord_csr _ _), getF, rd, kgetD, kget_pmc (by decide)]
  exact (getF_setF_self (f := F.TA_JSEQ_NEXT) (by decide) _ _ _ _).trans (Nat.mod_eq_of_lt (Nat.succ_lt_succ hnext))

end

/-! ### APPEND and MARK jobs -/

/-- The body of the record of an APPEND or MARK job (R252). -/
def jobBody (op : Nat) (j : Job) (s : State) : List Byte := rdB s (j.n 8 8) (if op = 1 then 16 * j.n 16 4 else j.n 16 4)

/-- The deltas of an APPEND; a MARK has none. -/
def jobDeltas (op : Nat) (j : Job) (s : State) : List Delta := if op = 1 then deltasOf (jobBody op j s) (j.n 16 4) else []

/-- The record of an APPEND or MARK job (R252). -/
def jobRecord (id op : Nat) (j : Job) (s : State) : JRec := {
  seq := 0, len := recordUnits (jobBody op j s).length, ty := if op = 1 then tyDelta else tyStew
  arg := if op = 1 then jobVol s j 20 else 0, nent := if op = 1 then j.n 16 4 else 0, body := jobBody op j s
  copies := slotCopies s (jobDeltas op j s), job := some id, imgs := imagesOf s (jobDeltas op j s) }

/-- The head keeps the number of the record of a context's job. -/
def notedAppend (j : Job) (t : State) : State :=
  match j.owner with
  | .ctx c => { t with str := { t.str with lastApp := kput t.str.lastApp c (nextSeq t - 1) } }
  | .stew _ => t

/-- What an APPEND or MARK job does. -/
def appendBody (id op : Nat) (j : Job) (s : State) : State :=
  if (s.ta.recs.any fun r => r.job = some id) || (decide (op = 1) && decide (3 ≤ getF s F.PWR_PF_STEP)) then s
  else if op = 1 && !mayAppend s (jobVol s j 20) then finish id (JobResult.of rFenced) s
  else
    match appendRecord (jobRecord id op j s) s with
    | none => s
    | some t => notedAppend j t

theorem tryAppend_eq (id op : Nat) (s : State) : tryAppend id op s = runJob id cJrnl op (appendBody id op) s := rfl

theorem accepted_of_op_ne {id cls op : Nat} {j : Job} {s : State} (hj : kget s.jobs id = some j) (hop : j.op ≠ op) : accepted s id cls op = none := by
  rw [accepted, hj]
  dsimp only
  split
  · exact if_neg fun h => hop h.2.1
  all_goals rfl

theorem runJob_of_none {id cls op : Nat} {s : State} (h : accepted s id cls op = none) (f : Job → State → State) : runJob id cls op f s = s := by
  rw [runJob, h]

/-- A job that runs leaves the other jobs as they were. -/
theorem runJob_jobs_of_ne {id cls op : Nat} {j : Job} {s t : State} (h : accepted s id cls op = some j) {f : Job → State → State} (hf : f j s = t)
    (ht : t.jobs = s.jobs) {k : Nat} (hk : k ≠ id) : kget (runJob id cls op f s).jobs k = kget s.jobs k := by
  simp only [runJob, h, hf, markStarted, ← ht]
  split
  · split
    · exact kget_kput_ne _ hk _
    · rfl
  · rfl

theorem drainWaiting_nil {s : State} (h : s.ta.waiting = []) : drainWaiting s.ta.waiting s = s :=
  calc drainWaiting s.ta.waiting s = { s with ta := { s.ta with waiting := [] } } := by rw [h]; rfl
    _ = { s with ta := { s.ta with waiting := s.ta.waiting } } := by rw [h]
    _ = s := rfl

theorem recordUnits_le {n : Nat} (h : n ≤ 262144) : recordUnits n < 2 ^ 16 := by
  unfold recordUnits
  omega

theorem add_le_recordUnits (n : Nat) : 64 + n ≤ 64 * recordUnits n := by
  unfold recordUnits
  omega

theorem le_recordUnits (n : Nat) : n ≤ 64 * recordUnits n - 64 := Nat.le_sub_of_add_le' (add_le_recordUnits n)

section
variable {id op : Nat} {j : Job} {s : State}

theorem jobBody_length : (jobBody op j s).length = if op = 1 then 16 * j.n 16 4 else j.n 16 4 := mread_length _ _ _

/-- Where no record of the job is in the ring and there is room, the job's record is put there. -/
theorem appendBody_of_room (hdrain : s.rekey.draining = false) (hnew : ∀ r ∈ s.ta.recs, r.job ≠ some id)
    (hop : op = 1 → mayAppend s (jobVol s j 20) = true ∧ getF s F.PWR_PF_STEP < 3)
    (hend : s.ta.woff + 64 * (jobRecord id op j s).len ≤ ringSize s) (hroom : ringUsed s + 64 * (jobRecord id op j s).len ≤ ringSize s) :
    appendBody id op j s = notedAppend j (putRecord (jobRecord id op j s) s) := by
  have hheld : ((s.ta.recs.any fun r => r.job = some id) || (decide (op = 1) && decide (3 ≤ getF s F.PWR_PF_STEP))) = false := by
    rw [Bool.or_eq_false_iff, List.any_eq_false, Bool.and_eq_false_imp]
    refine ⟨fun r hr => by simpa using hnew r hr, fun h => ?_⟩
    have := (hop (of_decide_eq_true h)).2
    exact decide_eq_false (by omega)
  have hfenced : (decide (op = 1) && !mayAppend s (jobVol s j 20)) = false := by
    rw [Bool.and_eq_false_imp]
    intro h
    rw [(hop (of_decide_eq_true h)).1]
    rfl
  have hpad : padFor s (jobRecord id op j s).len = 0 := if_neg (Nat.not_lt.mpr hend)
  have happend : appendRecord (jobRecord id op j s) s = some (putRecord (jobRecord id op j s) s) := by
    simp [appendRecord, ringTakes, hpad, hdrain, hroom]
  rw [appendBody, if_neg (by simp [hheld]), if_neg (by simpa using hfenced), happend]

theorem notedAppend_eq (j : Job) (t : State) : ∃ x, notedAppend j t = { t with str := x } := by
  unfold notedAppend
  split
  · exact ⟨_, rfl⟩
  · exact ⟨t.str, rfl⟩

/-- The instructions that append the record of a job come to the same. -/
theorem exec_append {i : Instr} (h : accepted s id 0x0C op = some j)
    (hi : (op = 1 ∧ i = .jrnlAppend id) ∨ (op = 2 ∧ i = .jrnlMark id) ∨ ((op = 1 ∨ op = 2) ∧ i = .appendUnblocked id ∧ s.ta.waiting = []))
    (hrun : op = 1 → ∃ k, kget (tryAppend id 1 s).jobs id = some k ∧ k.op = 1) : exec i s = ok (tryAppend id op s) := by
  obtain ⟨hj, -, -, hjop⟩ := accepted_eq_some h
  obtain ⟨rfl, rfl⟩ | ⟨rfl, rfl⟩ | ⟨hop, rfl, hwait⟩ := hi
  · rfl
  · rfl
  · show ok (tryAppend id 2 (tryAppend id 1 (drainWaiting s.ta.waiting s))) = _
    rw [drainWaiting_nil hwait]
    obtain rfl | rfl := hop
    · obtain ⟨k, hk, hkop⟩ := hrun rfl
      rw [tryAppend_eq id 2, runJob_of_none (accepted_of_op_ne hk (by rw [hkop]; decide))]
    · rw [tryAppend_eq id 1, runJob_of_none (accepted_of_op_ne hj (by rw [hjop]; decide))]

end

/-- The APPEND and MARK forms of O29 (R251, R252, R256, R257). -/
theorem journalAppends : Claim.JournalAppends := by
  intro id op i j s hwf h hi hdrain hnew hop n body units a hn hn1 hcopies hend hroom hnext
  have hlen : (jobBody op j s).length ≤ 262144 := by
    rw [jobBody_length]
    split
    · next h1 => have := hn1 h1; omega
    · exact hn
  have hta := putRecord_ta (r := jobRecord id op j s) (s := s) rfl hcopies
  have hseq := nextSeq_putRecord (r := jobRecord id op j s) rfl hcopies hnext
  have hjobs := (sameButJournal_putRecord (jobRecord id op j s) s).field_eq State.jobs fun _ _ _ _ _ _ _ _ => rfl
  have hf := appendBody_of_room (id := id) hdrain hnew hop hend hroom
  have hbytes : (recordBytes (atHead (jobRecord id op j s) s) s.dtime.toNat).length = 64 * units :=
    recordBytes_length (r := atHead (jobRecord id op j s) s) (le_recordUnits _) (Nat.le_add_right _ _) _
  obtain ⟨hread, hsame⟩ := rdB_putRecord (r := jobRecord id op j s) hwf hcopies hbytes
  generalize putRecord (jobRecord id op j s) s = u at hta hread hsame hseq hjobs hf
  obtain ⟨x, hx⟩ := notedAppend_eq j u
  rw [hx] at hf
  obtain ⟨l, hrun, hl⟩ := runJob_runsOn h hf hjobs
  have hothers := fun k (hk : k ≠ id) => runJob_jobs_of_ne h hf hjobs hk
  obtain ⟨-, -, -, hjop⟩ := accepted_eq_some h
  have hexec := exec_append h hi fun h1 => by
    subst h1
    rw [tryAppend_eq, show cJrnl = 0x0C from rfl, hrun]
    exact ⟨_, hl, hjop⟩
  rw [tryAppend_eq, show cJrnl = 0x0C from rfl, hrun] at hexec
  rw [hrun] at hothers
  have hgood : recordGood (rdB u a (64 * units)) (atHead (jobRecord id op j s) s).seq = true := by
    rw [hread]
    exact recordGood_recordBytes (r := atHead (jobRecord id op j s) s) (le_recordUnits _) (hnext.trans (by decide)) (recordUnits_le hlen) _
  refine ⟨_, atHead (jobRecord id op j s) s, hexec, congrArg TaSt.recs hta, rfl, rfl, rfl, rfl, rfl, rfl, rfl, hgood,
    rdB_body (r := atHead (jobRecord id op j s) s) hread (add_le_recordUnits _), hsame, (getF_of_csr (s := u) rfl _ _ _).trans hseq, congrArg TaSt.woff hta, hl, hothers⟩

end Sys2Proof.Machine
end

section
/-! PROOFS. The mirror receiver, the retirement of records, and replay (R223, R254 to R256, R424, R425). -/

namespace Sys2Proof.Machine

theorem fieldN_lt (l : List Byte) (lo n : Nat) : fieldN l lo n < 256 ^ n := by
  refine Nat.lt_of_lt_of_le (leNat_lt _) (Nat.pow_le_pow_right (by decide) ?_)
  rw [List.length_take]
  exact Nat.min_le_left _ _

/-! ### Records of the mirror -/

section
variable {r : Rec} {s : State}

/-- A record that the mirror has accepted. -/
def mirrorWritten (r : Rec) (s : State) : State :=
  setF F.SYS_PTR_SEQ_MACC (recordOf r).seq { wrB (mirrorRing + r.off) r.bytes s with ta := { s.ta with mrecs := s.ta.mrecs ++ [recordOf r] } }

theorem acceptRecord_of_plain (hcopies : r.copies = []) (hty : (recordOf r).ty = 6) : acceptRecord r s = mirrorWritten r s := by
  unfold acceptRecord
  dsimp only
  rw [if_neg (by rw [hty]; decide), hcopies]
  rfl

theorem acceptHeld_of_nil (h : s.ta.mheld = []) (fuel : Nat) : acceptHeld fuel s = s := by
  cases fuel with
  | zero => rfl
  | succ fuel => rw [acceptHeld, h, List.find?_nil]

/-- A record of changes that has none is applied by being marked. -/
theorem runMirror_of_plain {x : JRec} (hrecs : s.ta.mrecs = [x]) (hdone : x.done = false) (hty : x.ty = 6) (hacts : x.acts = []) :
    runMirror s = { s with ta := { s.ta with mrecs := [{ x with done := true }] } } := by
  have happly : applyBacklog [x] s = { s with ta := { s.ta with mrecs := [{ x with done := true }] } } := by
    rw [applyBacklog, if_neg (by rw [hdone]; decide), if_neg (by rw [hty]; decide)]
    simp only [applyBacklog, applyRecord, hty, tyDelta, hacts, hrecs, List.foldl_nil, List.map_cons, List.map_nil, if_pos, Nat.reduceEqDiff, if_false]
  rw [runMirror, hrecs, happly]
  simp only [List.flatMap_cons, List.flatMap_nil, ownerGroups, hacts, List.filterMap_nil, List.append_nil, List.foldl_nil]

theorem applyLag_of_nil (h : s.ta.mrecs = []) : applyLag s = 0 := by
  rw [applyLag, h]
  rfl

/-- Below its lag the receiver goes by the record's number (R254, R426). -/
theorem exec_mirrorRecordReceived (hstop : s.ta.mstop = false) (hrecs : s.ta.mrecs = []) : exec (.mirrorRecordReceived r true) s =
    .next (if (recordOf r).seq ≤ getF s F.SYS_PTR_SEQ_MACC then s
      else if (recordOf r).seq = getF s F.SYS_PTR_SEQ_MACC + 1 then runMirror (acceptHeld (s.ta.mheld.length + 1) (acceptRecord r s))
      else { s with ta := { s.ta with mheld := s.ta.mheld ++ [r] } }) := by
  show execMirrorRecordReceived r true s = _
  simp only [execMirrorRecordReceived, hstop, applyLag_of_nil hrecs, Nat.not_lt_zero, decide_false, Bool.or_false, Bool.false_or, Bool.not_true, Bool.false_eq_true, if_false,
    decide_eq_true_eq]
  rfl

end

/-- A slot reference entry that a message replaces (R425). -/
theorem slotRefMessages (slot : BitVec 48) (entry : Word) (s : State) (hkeys : keysFrom 0 s.me.srt = true) :
    ∃ t, exec (.slotRefMessage slot entry) s = .next t ∧ srt t slot.toNat = entry.toNat ∧ (∀ k, k ≠ slot.toNat → srt t k = srt s k) ∧
      t.mem = s.mem ∧ t.ta = s.ta ∧ t.jobs = s.jobs ∧ t.out = s.out := by
  have h := SameButFrames.setSrt slot.toNat entry.toNat s
  refine ⟨_, rfl, ?_, fun k hk => ?_, h.mem, h.ta, h.jobs, by rw [h.eq]⟩
  · rw [srt, h.srt]
    exact kgetD_kputD_self hkeys _ _
  · rw [srt, h.srt]
    exact kgetD_kputD_ne _ hk _

/-- The mirror forms of O29 (R223, R254, R424, R425). -/
theorem mirrorTakesRecords : Claim.MirrorTakesRecords := by
  refine ⟨fun r s hwf hstop hrecs => ?_, slotRefMessages⟩
  intro x macc
  have hexec := exec_mirrorRecordReceived (r := r) hstop hrecs
  refine ⟨fun hseq hty hacts hcopies hheld => ?_, fun hgap => ?_, fun hold => ?_, ?_⟩
  · rw [if_neg (Nat.not_le.mpr hseq.ge), if_pos hseq, acceptRecord_of_plain hcopies hty, acceptHeld_of_nil (s := mirrorWritten r s) hheld,
      runMirror_of_plain (s := mirrorWritten r s) (x := x) (congrArg (· ++ [x]) hrecs) rfl hty hacts] at hexec
    refine ⟨_, hexec, ?_, rfl, rdB_and_sameMemBut_of_wrB hwf rfl rfl⟩
    exact (getF_of_csr rfl _ _ _).trans ((getF_setF_self (f := F.SYS_PTR_SEQ_MACC) (by decide) _ _ _ _).trans
      ((Nat.mod_eq_of_lt (fieldN_lt _ _ _)).trans hseq))
  · rw [hexec, if_neg (Nat.not_le.mpr (Nat.lt_of_succ_lt hgap)), if_neg (Nat.ne_of_gt hgap)]
  · rw [hexec, if_pos hold]
  · refine ⟨_, rfl, ?_, ?_, ?_⟩
    · exact (sameButLog_celOpen _ _ _ _ _).ta
    · exact (sameButLog_celOpen _ _ _ _ _).mem
    · refine (SameUnit.celOpen (u := 0x10) (by decide) _ _ _ _ _).getF (f := ⟨.XE_AUTHFAIL_CNT, 47, 0⟩) (by decide) |>.trans ?_
      exact bumpBy_count 1 .XE_AUTHFAIL_CNT s 0

/-! ### Retirement -/

/-- A DELTA that may retire (R255). -/
theorem mayRetire_of_delta {r : JRec} {s : State} (hdone : r.done = true) (hty : r.ty = 1) (hck : r.seq < ckptSeq s false) (hlow : r.seq < s.ta.plow)
    (himgs : ∀ i ∈ r.imgs, tunSealed s i = true) (hctxs : s.str.ctxs = []) (hwaits : s.str.waits = []) : mayRetire r s = true := by
  rw [mayRetire, hdone, if_pos (show r.ty = tyDelta from hty), decide_eq_true hck, decide_eq_true hlow, List.all_eq_true.mpr himgs, hctxs, hwaits]
  simp only [Bool.or_true, List.any_nil, Bool.not_false, Bool.and_true]

theorem mayRetire_of_not {r : JRec} {s : State} (h : r.done = false ∨ (r.ty = 1 ∧ ckptSeq s false ≤ r.seq)) : mayRetire r s = false := by
  obtain hdone | ⟨hty, hck⟩ := h
  · rw [mayRetire, hdone, Bool.false_and]
  · rw [mayRetire, if_pos (show r.ty = tyDelta from hty), decide_eq_false (Nat.not_lt.mpr hck)]
    simp only [Bool.false_and, Bool.and_false]

/-- The retirement forms of O29 (R255). -/
theorem recordsRetire : Claim.RecordsRetire := by
  intro r l s
  refine ⟨fun hrecs hdone hty htun hck hlow himgs hctxs hwaits => ?_, fun hrecs hnot => ?_, fun hrecs hdone hck => ?_⟩
  · show execRecordRetire false s = _
    simp only [execRecordRetire, hrecs, mayRetire_of_delta hdone hty hck hlow himgs hctxs hwaits, htun, Bool.not_true, Bool.false_eq_true, if_false]
    rfl
  · show execRecordRetire false s = _
    simp only [execRecordRetire, hrecs, mayRetire_of_not hnot, Bool.not_false, Bool.false_eq_true, if_false, if_true]
    rfl
  · show execRecordRetire true s = _
    simp only [execRecordRetire, hrecs, hdone, hck, decide_true, Bool.and_self, if_true]
    rfl

/-! ### Replay -/

section
variable {r : Rec} {s : State}

theorem applyRecord_of_plain {mirror : Bool} {x : JRec} (hty : x.ty = 6) (hacts : x.acts = []) : applyRecord mirror x s = s := by
  rw [applyRecord, if_neg (by rw [hty]; decide), hacts, List.foldl_nil]

theorem adoptTuns_of_nil (h : s.ta.ptuns = []) (base : Nat) : adoptTuns base s = s :=
  calc adoptTuns base s = { s with ta := { s.ta with ptuns := [] } } := by rw [adoptTuns, h]; rfl
    _ = { s with ta := { s.ta with ptuns := s.ta.ptuns } } := by rw [h]
    _ = s := rfl

/-- The ring of one record gives it where it passes the checks (R256). -/
theorem goodRecords_single (ring : Nat) (hoff : r.off % 64 = 0) :
    goodRecords ring (recordOf r).seq r.off [r] = if recordGood r.bytes (recordOf r).seq = true then [r] else [] := by
  simp only [goodRecords, hoff, decide_true, Bool.and_true]

/-- The state in which replay has written a record and counted it. -/
def replayWritten (r : Rec) (s : State) : State := bump .TA_REPLAY_CNT (wrB (ownRing + r.off) r.bytes s)

theorem ringSize_replayWritten : ringSize (replayWritten r s) = ringSize s :=
  congrArg (fun n => 2 ^ 34 - 2 ^ 25 * n) (getF_setF_of_addr_ne (f := ⟨.TA_REPLAY_CNT, 47, 0⟩) (g := F.TA_JCFG_TUNS) (by decide) _ _)

/-- The state in which the ring holds that record, as DONE. -/
def replayed (r : Rec) (s : State) : State :=
  setF F.TA_JSEQ_NEXT ((recordOf r).seq + 1) { replayWritten r s with
    ta := { s.ta with recs := [{ recordOf r with done := true }], woff := (r.off + 64 * (recordOf r).len) % ringSize (replayWritten r s) } }

/-- The places that the slots of the records' deltas have now are noted. -/
def noteImages (s : State) : State :=
  { s with ta := { s.ta with recs := s.ta.recs.map fun r => { r with imgs := if r.ty = tyDelta then imagesOf s (deltasOf r.body r.nent) else r.imgs } } }

theorem noteImages_of_nil (h : s.ta.recs = []) : noteImages s = s :=
  calc noteImages s = { s with ta := { s.ta with recs := [] } } := by rw [noteImages, h]; rfl
    _ = { s with ta := { s.ta with recs := s.ta.recs } } := by rw [h]
    _ = s := rfl

theorem noteImages_of_single {x : JRec} (h : s.ta.recs = [x]) (hty : x.ty = 6) : noteImages s = s :=
  calc noteImages s = { s with ta := { s.ta with recs := [{ x with imgs := if x.ty = tyDelta then imagesOf s (deltasOf x.body x.nent) else x.imgs }] } } := by
        rw [noteImages, h]; rfl
    _ = { s with ta := { s.ta with recs := [x] } } := by rw [if_neg (by rw [hty]; decide)]
    _ = { s with ta := { s.ta with recs := s.ta.recs } } := by rw [h]
    _ = s := rfl

/-- A ring whose first record fails a check gives nothing. -/
theorem replay_of_bad (hptuns : s.ta.ptuns = []) (hrecs : s.ta.recs = []) (hl : goodRecords (ringSize s) (recordOf r).seq r.off [r] = []) :
    replay false [r] s = s := by
  have h : replay false [r] s = noteImages (adoptTuns ownRing s) := by
    unfold replay
    dsimp only
    rw [show goodRecords (ringSize s) (fieldN r.bytes 8 8) r.off [r] = [] from hl]
    rfl
  rw [h, adoptTuns_of_nil hptuns, noteImages_of_nil hrecs]

/-- A ring of one good record without changes gives it back as DONE. -/
theorem replay_of_good (hptuns : s.ta.ptuns = []) (hacts : r.acts = []) (hcopies : r.copies = []) (hty : (recordOf r).ty = 6)
    (hl : goodRecords (ringSize s) (recordOf r).seq r.off [r] = [r]) : replay false [r] s = replayed r s := by
  have hwritten : bump .TA_REPLAY_CNT (applyRecord false (recordOf r) (putCopies ownRing r.copies (wrB (ownRing + r.off) r.bytes s))) = replayWritten r s := by
    rw [applyRecord_of_plain hty hacts, hcopies]
    rfl
  have h : replay false [r] s = noteImages (adoptTuns ownRing (replayed r s)) := by
    unfold replay
    dsimp only
    rw [show goodRecords (ringSize s) (fieldN r.bytes 8 8) r.off [r] = [r] from hl]
    simp only [List.foldl_cons, List.foldl_nil, Bool.false_eq_true, if_false, hwritten]
    rfl
  rw [h, adoptTuns_of_nil (s := replayed r s) hptuns, noteImages_of_single (s := replayed r s) rfl hty]

end

/-- The replay forms of O29 (R256). -/
theorem replayTakesGoodRecords : Claim.ReplayTakesGoodRecords := by
  intro r s hwf hptuns hrecs hoff hacts hcopies hty
  have hgood := goodRecords_single (r := r) (ringSize s) hoff
  refine ⟨fun h hseq => ?_, fun h => ?_⟩
  · rw [if_pos h] at hgood
    refine ⟨_, congrArg ok (replay_of_good hptuns hacts hcopies hty hgood), rfl, ?_, ?_, ?_, ?_⟩
    · exact (getF_setF_self (f := F.TA_JSEQ_NEXT) (by decide) _ _ _ _).trans (Nat.mod_eq_of_lt (Nat.succ_lt_succ hseq))
    · exact rdB_wrB hwf _ _
    · exact sameMemBut_wrB (sameMemBut_of_mem rfl _ _) le_rfl le_rfl
    · exact congrArg (fun n => (r.off + 64 * (recordOf r).len) % n) ringSize_replayWritten
  · rw [if_neg (by rw [h]; decide)] at hgood
    exact congrArg ok (replay_of_bad hptuns hrecs hgood)

end Sys2Proof.Machine
end

section
/-! PROOFS. A record that becomes DONE returns to its job (R253). -/

namespace Sys2Proof.Machine

/-! ### What the handovers go by -/

/-- What decides whether a handover begins is unchanged. -/
structure Quiet (s t : State) : Prop where
  pwr : t.pwr = s.pwr
  upd : t.upd = s.upd
  partner : t.partner = s.partner
  rootRecs : t.rootRecs = s.rootRecs
  unit : SameUnit 2 s t

namespace Quiet
variable {s t u : State}

theorem refl (s : State) : Quiet s s := ⟨rfl, rfl, rfl, rfl, .refl s⟩

theorem trans (h : Quiet s t) (k : Quiet t u) : Quiet s u :=
  ⟨k.pwr.trans h.pwr, k.upd.trans h.upd, k.partner.trans h.partner, k.rootRecs.trans h.rootRecs, h.unit.trans k.unit⟩

theorem handing (h : Quiet s t) : handing t = handing s := by
  have hstep : getF t F.PWR_PF_STEP = getF s F.PWR_PF_STEP := h.unit.getF (by decide)
  have hhoms : getF t F.PWR_PF_HOMS = getF s F.PWR_PF_HOMS := h.unit.getF (by decide)
  rw [Machine.handing, Machine.handing, hstep, hhoms, h.pwr, h.upd]

/-- No handover begins where none is under way. -/
theorem nextHandover (h : Quiet s t) (hhand : Machine.handing s = false) (hfail : s.partner.failback = false) : nextHandover t = t := by
  rw [Machine.nextHandover, h.handing, hhand, nextFailback, h.partner, hfail]
  rfl

end Quiet

/-! ### The records and their jobs -/

/-- The record of a state becomes DONE. -/
def markDone (r : JRec) (s : State) : State :=
  { s with ta := { s.ta with recs := s.ta.recs.map fun x => if x.seq = r.seq then { x with done := true } else x } }

theorem markDone_recs {r : JRec} {l : List JRec} {s : State} (hrecs : s.ta.recs = r :: l) (hl : ∀ x ∈ l, x.seq ≠ r.seq) :
    (markDone r s).ta.recs = { r with done := true } :: l := by
  have hrest : l.map (fun x => if x.seq = r.seq then { x with done := true } else x) = l :=
    (List.map_congr_left fun x hx => if_neg (hl x hx)).trans (List.map_id' l)
  show s.ta.recs.map _ = _
  rw [hrecs, List.map_cons, hrest, if_pos rfl]

/-- DONE returns to the job of a record, where the record is DONE. -/
def returnTo (t : State) (r : JRec) : State :=
  match r.job with
  | some id => if r.done then finish id ⟨r.code, 0, if r.ty = tyStew then 1 else r.nent, r.seq⟩ t else t
  | none => t

theorem returnTo_eq (t : State) (r : JRec) : ∃ l, returnTo t r = { t with jobs := l } := by
  unfold returnTo
  split
  · split
    · exact ⟨_, rfl⟩
    · exact ⟨t.jobs, rfl⟩
  · exact ⟨t.jobs, rfl⟩

theorem returnTo_of_ne {id : Nat} {t : State} {r : JRec} (h : r.job ≠ some id) : kget (returnTo t r).jobs id = kget t.jobs id := by
  unfold returnTo
  split
  · next k hk =>
    split
    · exact finish_of_ne (fun heq => h (hk.trans (congrArg some heq.symm))) _ _
    · rfl
  · rfl

theorem foldl_returnTo_eq (l : List JRec) (t : State) : ∃ j, l.foldl returnTo t = { t with jobs := j } := by
  induction l generalizing t with
  | nil => exact ⟨t.jobs, rfl⟩
  | cons r l ih =>
    obtain ⟨j, hj⟩ := returnTo_eq t r
    rw [List.foldl_cons, hj]
    exact ih _

theorem foldl_returnTo_of_ne {id : Nat} {l : List JRec} (h : ∀ r ∈ l, r.job ≠ some id) (t : State) : kget (l.foldl returnTo t).jobs id = kget t.jobs id := by
  induction l generalizing t with
  | nil => rfl
  | cons r l ih =>
    rw [List.foldl_cons, ih fun x hx => h x (List.mem_cons_of_mem _ hx), returnTo_of_ne (h r List.mem_cons_self)]

/-- A record that is DONE is released from its job. -/
def released (r : JRec) : JRec := if r.done then { r with job := none } else r

/-- DONE returns to the jobs of the records, which then have none (R253). -/
theorem returnDone_of_no_fence {s : State} (h : s.snap.fence = false) :
    returnDone s = { s with jobs := (s.ta.recs.foldl returnTo s).jobs, ta := { s.ta with recs := s.ta.recs.map released } } := by
  obtain ⟨j, hj⟩ := foldl_returnTo_eq s.ta.recs s
  have hfold : returnDone s =
      { s.ta.recs.foldl returnTo s with ta := { (s.ta.recs.foldl returnTo s).ta with recs := (s.ta.recs.foldl returnTo s).ta.recs.map released } } := by
    rw [returnDone, h]
    rfl
  rw [hfold, hj]

/-- DONE returns to jobs, and nothing else of the state but the records changes. -/
theorem returnDone_eq (s : State) : ∃ j l, returnDone s = { s with jobs := j, ta := { s.ta with recs := l } } := by
  cases h : s.snap.fence with
  | true => exact ⟨s.jobs, s.ta.recs, by rw [returnDone, h]; rfl⟩
  | false => exact ⟨_, _, returnDone_of_no_fence h⟩

theorem quiet_returnDone (s : State) : Quiet s (returnDone s) := by
  obtain ⟨j, l, h⟩ := returnDone_eq s
  rw [h]
  exact ⟨rfl, rfl, rfl, rfl, .of_csr rfl⟩

theorem drainRoots_of_nil {s : State} (h : s.rootRecs = []) : drainRoots s = s := if_pos h

/-- The lowest record that is not DONE, without changes, becomes DONE; no handover begins (R253). -/
theorem exec_jrnlRecordDone {r : JRec} {l : List JRec} {s t : State} (hrecs : s.ta.recs = r :: l) (hdone : r.done = false) (hacts : r.acts = [])
    (hroots : s.rootRecs = []) (hfail : s.partner.failback = false) (hhand : handing s = false) (ht : recordDone r (markDone r s) = t) (hquiet : Quiet s t) :
    exec .jrnlRecordDone s = .next (returnDone t) := by
  show ok (match s.ta.recs.find? fun r => !r.done with
    | none => s
    | some r => nextHandover (r.acts.foldl (fun t a => giveGroup a t) (journalDone r s))) = _
  rw [hrecs, List.find?_cons_of_pos (by rw [hdone]; rfl)]
  dsimp only
  have hjournal : journalDone r s = returnDone t := by
    show returnDone (drainRoots (recordDone r (markDone r s))) = _
    rw [ht, drainRoots_of_nil (hquiet.rootRecs.trans hroots)]
  rw [hacts, List.foldl_nil, hjournal, (hquiet.trans (quiet_returnDone t)).nextHandover hhand hfail]
  rfl

/-- The MARK form of DONE (R253). -/
theorem markReturns {r : JRec} {l : List JRec} {s : State} (hrecs : s.ta.recs = r :: l) (hdone : r.done = false) (hacts : r.acts = [])
    (hroots : s.rootRecs = []) (hfail : s.partner.failback = false) (hfence : s.snap.fence = false) (hhand : handing s = false)
    (hl : ∀ x ∈ l, x.seq ≠ r.seq ∧ x.job ≠ r.job) {id : Nat} {j : Job} (hty : r.ty = 6) (hjob : r.job = some id) (hj : kget s.jobs id = some j) :
    ∃ t, exec .jrnlRecordDone s = .next t ∧ JobDone t id ⟨r.code, 0, 1, r.seq⟩ ∧ t.ta.recs.head? = some { r with done := true, job := none } ∧ t.mem = s.mem := by
  have hmarked : recordDone r (markDone r s) = markDone r s := by
    rw [recordDone, if_neg (by rw [hty]; decide), hacts, List.foldl_nil]
  have hexec := exec_jrnlRecordDone hrecs hdone hacts hroots hfail hhand hmarked ⟨rfl, rfl, rfl, rfl, .of_csr rfl⟩
  have hreturn := returnDone_of_no_fence (s := markDone r s) hfence
  rw [markDone_recs hrecs fun x hx => (hl x hx).1] at hreturn
  refine ⟨_, hexec, ?_, ?_, ?_⟩
  · have hreturned : returnTo (markDone r s) { r with done := true } = finish id ⟨r.code, 0, 1, r.seq⟩ (markDone r s) := by
      simp only [returnTo, hjob, hty, tyStew, if_true]
    have hend : kget (({ r with done := true } :: l).foldl returnTo (markDone r s)).jobs id = some { j with phase := .done ⟨r.code, 0, 1, r.seq⟩ } := by
      rw [List.foldl_cons, foldl_returnTo_of_ne fun x hx => hjob ▸ (hl x hx).2, hreturned]
      exact finish_phase (s := markDone r s) hj _
    rw [hreturn]
    exact ⟨_, hend, rfl⟩
  · rw [hreturn]
    rfl
  · rw [hreturn]
    rfl

end Sys2Proof.Machine
end

section
/-! PROOFS. The way of a delta to a leaf of its own volume (R128, R135, R291). -/

namespace Sys2Proof.Machine

/-! ### Pages that are a volume's own to change -/

/-- A page in an HBM frame that is a volume's own to change (R291). -/
def OwnPageAt (s : State) (v id : Nat) (p : Page) : Prop := pageOf s id = some p ∧ p.resident = true ∧ p.ddr = false ∧ volEpoch s v ≤ p.epoch

theorem OwnPageAt.bringIn {s : State} {v id : Nat} {p : Page} (h : OwnPageAt s v id p) : bringIn id s = s := by
  obtain ⟨hp, hres, hddr, -⟩ := h
  exact bringIn_of_resident hp hres hddr

/-- Such a page is changed in place. -/
theorem OwnPageAt.ownPage {s : State} {v id : Nat} {p : Page} (h : OwnPageAt s v id p) : ownPage id v s = (id, s) := by
  unfold Machine.ownPage
  rw [h.bringIn]
  obtain ⟨hp, -, -, hepoch⟩ := h
  simp only [hp, if_pos hepoch]

theorem OwnPageAt.of_page {s : State} {v id : Nat} {p : Page} (h : OwnPageAt s v id p) {m : MapEng} (hm : kget m.pages id = pageOf s id) :
    OwnPageAt { s with me := m } v id p := by
  obtain ⟨hp, hres, hddr, hepoch⟩ := h
  exact ⟨hm.trans hp, hres, hddr, hepoch⟩

/-! ### The descent -/

/-- One map engine differs from another in a page at most. -/
def SameBut (id : Nat) (m n : MapEng) : Prop := n.nextPage = m.nextPage ∧ ∀ k, k ≠ id → kget n.pages k = kget m.pages k

theorem setKid_sameBut (id i c : Nat) (s : State) : ∃ m, setKid id i c s = { s with me := m } ∧ SameBut id s.me m := by
  unfold setKid
  split
  · exact ⟨_, rfl, rfl, fun k hk => kget_kmod_ne _ hk _⟩
  · exact ⟨s.me, rfl, rfl, fun _ _ => rfl⟩

/-- On the path of a volume's own pages the descent goes on with the child, and only the page that it leaves may have changed (R291). -/
theorem descend_of_own {v lba level id c : Nat} {seq : Option RingSeq} {p q : Page} {s : State} (hp : OwnPageAt s v id p)
    (hkid : kget p.kid (levelIndex lba (level + 1)) = some c) (hq : OwnPageAt s v c q) :
    ∃ m, descend v lba seq (level + 1) id s = descend v lba seq level c { s with me := m } ∧ SameBut id s.me m := by
  obtain ⟨m, hm, hnext, hpages⟩ := setKid_sameBut id (levelIndex lba (level + 1)) c s
  have hchild : (pageOf s id).bind (fun p => kget p.kid (levelIndex lba (level + 1))) = some c := by
    rw [hp.1]
    exact hkid
  rw [descend]
  simp only [hchild, hq.ownPage, hp.bringIn, hm]
  split
  · exact ⟨m, rfl, hnext, hpages⟩
  · refine ⟨_, rfl, hnext, fun k hk => (kget_kmod_ne _ hk _).trans (hpages k hk)⟩

/-- A path has the page that it starts from, and goes on with its child. -/
theorem walk_eq_cons {s : State} {lba level id c : Nat} {l : List Nat} (h : walk s lba (level + 1) id = id :: c :: l) :
    ∃ p, pageOf s id = some p ∧ kget p.kid (levelIndex lba (level + 1)) = some c ∧ walk s lba level c = c :: l := by
  have hhead (n k : Nat) : ∃ r, walk s lba n k = k :: r := by cases n <;> exact ⟨_, rfl⟩
  rw [walk] at h
  obtain ⟨-, hrest⟩ := List.cons.inj h
  cases hp : pageOf s id with
  | none => simp [hp] at hrest
  | some p =>
    rw [hp] at hrest
    dsimp only at hrest
    cases hk : kget p.kid (levelIndex lba (level + 1)) with
    | none => simp [hk] at hrest
    | some k =>
      rw [hk] at hrest
      dsimp only at hrest
      obtain ⟨r, hr⟩ := hhead level k
      rw [hr] at hrest
      obtain ⟨rfl, rfl⟩ := List.cons.inj hrest
      exact ⟨p, rfl, hk, hr⟩

/-- The leaf of a volume's own path is reached as it is. -/
theorem leafForUpdate_of_ownPath {s : State} {v lba a b c x : Nat} {p : Page} (h : OwnPath s v lba a b c x p) (seq : Option RingSeq) :
    ∃ m, leafForUpdate v lba seq s = (x, { s with me := m }) ∧ kget m.pages x = some p ∧ m.nextPage = s.me.nextPage := by
  obtain ⟨hpath, hnodup, hx, -, -, hown⟩ := h
  have hat {i : Nat} {q : Page} (hi : i ∈ [a, b, c, x]) (hq : pageOf s i = some q) : OwnPageAt s v i q := ⟨hq, hown i q hi hq⟩
  simp only [List.nodup_cons, List.mem_cons, List.not_mem_nil, or_false, not_or] at hnodup
  obtain ⟨⟨hab, hac, hax⟩, ⟨hbc, hbx⟩, hcx, -⟩ := hnodup
  obtain ⟨r, hroot, hwalk⟩ : ∃ r, kget s.me.root v = some r ∧ walk s lba 3 r = [a, b, c, x] := by
    unfold volPath at hpath
    split at hpath
    · next r hr => exact ⟨r, hr, hpath⟩
    · cases hpath
  obtain rfl : r = a := (List.cons.inj (show r :: _ = _ from hwalk)).1
  obtain ⟨pa, hpa, hka, hwb⟩ := walk_eq_cons hwalk
  obtain ⟨pb, hpb, hkb, hwc⟩ := walk_eq_cons hwb
  obtain ⟨pc, hpc, hkc, -⟩ := walk_eq_cons hwc
  have ha := hat (by simp) hpa
  have hb := hat (by simp) hpb
  have hc := hat (by simp) hpc
  have hl := hat (by simp) hx
  obtain ⟨m1, hd1, hn1, hp1⟩ := descend_of_own (seq := seq) (ha.of_page (m := { s.me with root := kput s.me.root v r }) rfl) hka (hb.of_page rfl)
  obtain ⟨m2, hd2, hn2, hp2⟩ := descend_of_own (seq := seq) (hb.of_page (hp1 b (Ne.symm hab))) hkb (hc.of_page (hp1 c (Ne.symm hac)))
  have hx2 : kget m2.pages x = pageOf s x := (hp2 x (Ne.symm hbx)).trans (hp1 x (Ne.symm hax))
  obtain ⟨m3, hd3, hn3, hp3⟩ := descend_of_own (seq := seq) (hc.of_page ((hp2 c (Ne.symm hbc)).trans (hp1 c (Ne.symm hac)))) hkc (hl.of_page hx2)
  refine ⟨m3, ?_, (hp3 x (Ne.symm hcx)).trans (hx2.trans hx), hn3.trans (hn2.trans hn1)⟩
  unfold leafForUpdate
  simp only [hroot, ha.ownPage]
  rw [hd1, hd2, hd3]
  rfl

/-! ### A page whose entries are in order -/

/-- A page is there, with its entries in order. -/
def OrderedAt (k : Nat) (s : State) : Prop := ∃ q, pageOf s k = some q ∧ keysFrom 0 q.ent = true

namespace OrderedAt
variable {k : Nat} {s t : State}

theorem of_pages (h : OrderedAt k s) (hp : t.me.pages = s.me.pages) : OrderedAt k t := by
  unfold OrderedAt pageOf at *
  rw [hp]
  exact h

theorem modPage (h : OrderedAt k s) (id : Nat) {f : Page → Page} (hf : ∀ p, keysFrom 0 p.ent = true → keysFrom 0 (f p).ent = true) :
    OrderedAt k (modPage id f s) := by
  obtain ⟨p, hp, hord⟩ := h
  by_cases hk : k = id
  · subst hk
    exact ⟨f p, kget_kmod_self hp f, hf p hord⟩
  · exact ⟨p, (kget_kmod_ne _ hk f).trans hp, hord⟩

theorem modPage_of_ne (h : OrderedAt k s) {id : Nat} (hk : k ≠ id) (f : Page → Page) : OrderedAt k (Machine.modPage id f s) := by
  obtain ⟨p, hp, hord⟩ := h
  exact ⟨p, (kget_kmod_ne _ hk f).trans hp, hord⟩

theorem markDirty (h : OrderedAt k s) (id : Nat) (seq : Option RingSeq) : OrderedAt k (markDirty id seq s) := by
  refine h.modPage id fun p hp => ?_
  cases seq with
  | none => cases hst : p.st <;> simpa [hst] using hp
  | some q => cases hq : q.mirror <;> cases hst : p.st <;> simpa [hst, hq] using hp

theorem leaveFrame (h : OrderedAt k s) (id : Nat) (p : Page) : OrderedAt k (leaveFrame id p s) := by
  unfold Machine.leaveFrame
  dsimp only
  split
  · exact OrderedAt.modPage (s := dropLines _ s) (h.of_pages rfl) id fun _ hp => hp
  · exact OrderedAt.modPage (s := dropLines _ s) (h.of_pages rfl) id fun _ _ => rfl

theorem makeRoom (h : OrderedAt k s) : OrderedAt k (makeRoom s) := by
  unfold Machine.makeRoom evictFrame
  split
  · split
    · refine OrderedAt.leaveFrame ?_ _ _
      exact h.of_pages rfl
    · exact h
  · exact h

end OrderedAt

theorem leaveFrame_nextPage (id : Nat) (p : Page) (s : State) : (leaveFrame id p s).me.nextPage = s.me.nextPage := by
  unfold leaveFrame
  dsimp only
  split <;> rfl

theorem makeRoom_nextPage (s : State) : (makeRoom s).me.nextPage = s.me.nextPage := by
  unfold makeRoom evictFrame
  split
  · split
    · rw [leaveFrame_nextPage]
      rfl
    · rfl
  · rfl

namespace OrderedAt
variable {k : Nat} {s : State}

theorem newPage (h : OrderedAt k s) (hk : k < s.me.nextPage) (ty level owner index epoch : Nat) : OrderedAt k (newPage ty level owner index epoch s).2 := by
  obtain ⟨p, hp, hord⟩ := h.makeRoom
  exact ⟨p, (kget_kput_ne _ (by rw [makeRoom_nextPage]; exact hk.ne) _).trans hp, hord⟩

/-- A page that has changed is not brought in again. -/
theorem bringIn (h : OrderedAt k s) {p : Page} (hp : pageOf s k = some p) (hchanged : p.changed = true) (id : Nat) : OrderedAt k (bringIn id s) := by
  by_cases hk : k = id
  · subst hk
    have hstays : Machine.bringIn k s = s := by
      unfold Machine.bringIn
      simp only [hp]
      cases hst : p.st <;> simp [Page.changed, hst] at hchanged ⊢
    rw [hstays]
    exact h
  · have hroom (framed : Bool) : OrderedAt k (if framed then s else Machine.makeRoom s) := by
      cases framed
      · exact h.makeRoom
      · exact h
    unfold Machine.bringIn
    split
    · split
      · exact OrderedAt.of_pages ((hroom _).modPage_of_ne hk _) rfl
      · exact OrderedAt.of_pages ((hroom _).modPage_of_ne hk _) rfl
      · split
        · exact h
        · exact h.makeRoom.modPage_of_ne hk _
      · exact h
      · exact h
      · exact h
    · exact h

theorem srtPageFor (h : OrderedAt k s) {p : Page} (hp : pageOf s k = some p) (hchanged : p.changed = true) (hk : k < s.me.nextPage) (slot : Nat) :
    OrderedAt k (srtPageFor slot s).2 := by
  cases hpage : srtPageId s slot with
  | some id =>
    rw [Machine.srtPageFor, hpage]
    exact h.bringIn hp hchanged id
  | none =>
    rw [srtPageFor_of_none hpage]
    exact (h.newPage hk _ _ _ _ _).of_pages rfl

/-- The entry of a slot reference is written in another page, or the page is in its frame. -/
theorem setSrtBy (h : OrderedAt k s) {p : Page} (hp : pageOf s k = some p) (hchanged : p.changed = true) (hk : k < s.me.nextPage) (seq : Option RingSeq)
    (slot v : Nat) : OrderedAt k (setSrtBy seq slot v s) := by
  have hpage := h.srtPageFor hp hchanged hk slot
  unfold Machine.setSrtBy
  generalize Machine.srtPageFor slot s = q at hpage ⊢
  obtain ⟨id, t⟩ := q
  dsimp only at hpage ⊢
  split
  · exact OrderedAt.markDirty (OrderedAt.of_pages hpage (by rw [(samePages_touchLine _ _ t).1])) id seq
  · exact OrderedAt.markDirty (OrderedAt.of_pages hpage rfl) id seq

end OrderedAt

end Sys2Proof.Machine
end

section
/-! PROOFS. A DELTA that becomes DONE and unmaps its block (R135, R253), and O29. -/

namespace Sys2Proof.Machine

/-! ### What the steps of a delta leave of the handovers -/

namespace Quiet
variable {s t : State}

theorem of_me (m : MapEng) (s : State) : Quiet s { s with me := m } := ⟨rfl, rfl, rfl, rfl, .of_csr rfl⟩

theorem of_frames (h : SameButFrames s t) : Quiet s t where
  pwr := by rw [h.eq]
  upd := by rw [h.eq]
  partner := by rw [h.eq]
  rootRecs := by rw [h.eq]
  unit := h.units 2 (by decide) (by decide)

theorem setSrtBy (seq : Option RingSeq) (slot v : Nat) (s : State) : Quiet s (setSrtBy seq slot v s) :=
  (Quiet.of_me { s.me with srt := kputD 0 s.me.srt slot v } s).trans (.of_frames (.setSrtBy seq slot v s))

theorem subLivek (slot c : Nat) (s : State) : Quiet s (subLivek slot c s) := by
  unfold Machine.subLivek
  split
  · exact .refl s
  · exact ⟨rfl, rfl, rfl, rfl, .of_csr rfl⟩

theorem queueRemoval (slot : Nat) (s : State) : Quiet s (queueRemoval slot s) := by
  unfold Machine.queueRemoval
  split
  · exact ⟨rfl, rfl, rfl, rfl, .bump (by decide) s⟩
  · exact ⟨rfl, rfl, rfl, rfl, .of_csr rfl⟩

theorem fpOnDelta (v w : Nat) (s : State) : Quiet s (fpOnDelta v w s) := by
  unfold Machine.fpOnDelta
  split
  · dsimp only
    split <;> exact ⟨rfl, rfl, rfl, rfl, .of_csr rfl⟩
  · exact .refl s

theorem touchPath (path : List Nat) (lba : Nat) (write : Bool) (s : State) : Quiet s (touchPath path lba write s) := by
  unfold Machine.touchPath
  generalize 3 = level
  induction path generalizing level s with
  | nil => exact .refl s
  | cons id path ih =>
    rw [List.foldl_cons]
    dsimp only
    split
    · exact (Quiet.of_frames (.touchLine _ _ _)).trans (ih _ _)
    · exact ih _ _

end Quiet

/-! ### A reference that a delta takes away -/

theorem subLivek_me (slot c : Nat) (s : State) : (subLivek slot c s).me = s.me := by
  unfold subLivek
  split <;> rfl

theorem queueRemoval_me (slot : Nat) (s : State) : (queueRemoval slot s).me = s.me := by
  unfold queueRemoval
  split <;> rfl

/-- A slot reference that is taken away is written once at most; beside that LIVEK and the removal queue may change (R132, R179, R239). -/
theorem srtSubBy_cases (seq : Option RingSeq) (slot : Nat) (s : State) :
    srtSubBy seq slot s = s ∨ ∃ n, (srtSubBy seq slot s).me = (setSrtBy seq slot n s).me ∧ Quiet (setSrtBy seq slot n s) (srtSubBy seq slot s) := by
  unfold srtSubBy
  dsimp only
  split
  · exact .inl rfl
  · refine .inr ⟨withCount (srt s slot) (srtCount (srt s slot) - 1), ?_⟩
    generalize setSrtBy seq slot _ s = u
    have hlivek (b : Bool) : (if b then subLivek slot (srtClass (srt s slot)) u else u).me = u.me ∧
        Quiet u (if b then subLivek slot (srtClass (srt s slot)) u else u) := by
      cases b
      · exact ⟨rfl, .refl u⟩
      · exact ⟨subLivek_me _ _ u, .subLivek _ _ u⟩
    split
    · exact ⟨(queueRemoval_me _ _).trans (hlivek _).1, (hlivek _).2.trans (.queueRemoval _ _)⟩
    · exact hlivek _

theorem wordSubNew_cases (seq : RingSeq) (done : List Nat) (w : Nat) (s : State) :
    wordSubNew seq done w s = s ∨ wordSubNew seq done w s = srtSubBy (some seq) (swSlot (resolve s w)) s := by
  unfold wordSubNew wordSubBy
  split
  · exact .inl rfl
  · dsimp only
    split
    · exact .inr rfl
    · exact .inl rfl

theorem quiet_wordSubNew (seq : RingSeq) (done : List Nat) (w : Nat) (s : State) : Quiet s (wordSubNew seq done w s) := by
  obtain h | h := wordSubNew_cases seq done w s
  · rw [h]
    exact .refl s
  · rw [h]
    obtain h | ⟨n, -, hquiet⟩ := srtSubBy_cases (some seq) (swSlot (resolve s w)) s
    · rw [h]
      exact .refl s
    · exact (Quiet.setSrtBy _ _ _ s).trans hquiet

/-- A changed page keeps its entries in order while a reference is taken away. -/
theorem OrderedAt.wordSubNew {k : Nat} {s : State} (h : OrderedAt k s) {p : Page} (hp : pageOf s k = some p) (hchanged : p.changed = true)
    (hk : k < s.me.nextPage) (seq : RingSeq) (done : List Nat) (w : Nat) : OrderedAt k (wordSubNew seq done w s) := by
  obtain heq | heq := wordSubNew_cases seq done w s
  · rw [heq]
    exact h
  · rw [heq]
    obtain heq | ⟨n, hme, -⟩ := srtSubBy_cases (some seq) (swSlot (resolve s w)) s
    · rw [heq]
      exact h
    · exact (h.setSrtBy hp hchanged hk (some seq) (swSlot (resolve s w)) n).of_pages (by rw [hme])

/-! ### The delta -/

/-- A resident page that changes keeps its entries, and has changed. -/
theorem pageOf_markDirty {id : Nat} {p : Page} {s : State} (hp : pageOf s id = some p) (hres : p.resident = true) (seq : RingSeq) :
    ∃ q, pageOf (markDirty id (some seq) s) id = some q ∧ q.ent = p.ent ∧ q.changed = true := by
  refine ⟨_, kget_kmod_self hp _, ?_⟩
  cases hq : seq.mirror <;> cases hst : p.st <;> simp [Page.resident, hst] at hres <;> simp [Page.changed, hq]

/-- Where nothing stands for it, the word zero stays (R261). -/
theorem resolve_zero {s : State} (h : kget s.plc.fwd 0 = none) : resolve s 0 = 0 := by
  have hstep : resolveStep s 0 = none := by
    unfold resolveStep
    rw [show swSlot 0 = 0 from rfl, h]
  unfold resolve
  cases s.plc.fwd.length with
  | zero => rfl
  | succ n => rw [resolveIn, hstep]

/-- The word of an entry goes, its numbers stay. -/
def clearWord (i numbers : Nat) (p : Page) : Page :=
  { p with ent := kputD (0, 0) p.ent i (0, numbers % 2 ^ 32 + numbers / 2 ^ 32 * 2 ^ 32) }

theorem entry_clearWord {p : Page} (h : keysFrom 0 p.ent = true) (i numbers : Nat) : (clearWord i numbers p).entry i = (0, numbers) := by
  rw [Page.entry, clearWord, kgetD_kputD_self h, Nat.mul_comm, Nat.mod_add_div]

/-- What a delta that unmaps a block does once the reference of the old word `e.1` is taken away: the entry has no slot word, and MAPPED counts. -/
def unmapEntry (v lba l : Nat) (e : Nat × Nat) (s : State) : State :=
  let s := fpOnDelta v 0 (modPage l (clearWord (lba % 256) e.2) s)
  touchPath (volPath s v lba) lba true (pmc 0x0D03 0 1 (wrN (volAddr v + 40) 8 (volMapped s v + b2n (swValid 0) - b2n (swValid e.1)) s))

theorem applyDelta_of_unmap {v l : Nat} {seq : RingSeq} {done : List Nat} {d : Delta} {p : Page} {s u : State} (hword : resolve s d.word = 0)
    (hleaf : leafForUpdate v d.lba (some seq) s = (l, u)) (hdone : l ∉ done) (hp : pageOf (markDirty l (some seq) u) l = some p) :
    applyDelta v seq done d s =
      unmapEntry v d.lba l (p.entry (d.lba % 256)) (wordSubNew seq done (p.entry (d.lba % 256)).1 (markDirty l (some seq) u)) := by
  have hnot : done.contains l = false := by simpa using hdone
  unfold applyDelta
  simp only [hword, hleaf, hp, hnot, Bool.false_eq_true, if_false, show swValid 0 = false from rfl, Bool.false_and, if_true]
  rfl

theorem unmapEntry_spec {v lba l : Nat} {e : Nat × Nat} {s : State} (h : OrderedAt l s) : Quiet s (unmapEntry v lba l e s) ∧
    ∃ q, pageOf (unmapEntry v lba l e s) l = some q ∧ q.entry (lba % 256) = (0, e.2) := by
  obtain ⟨p, hp, hord⟩ := h
  unfold unmapEntry
  generalize hm : modPage l (clearWord (lba % 256) e.2) s = m
  have hquiet : Quiet s m := hm ▸ .of_me _ s
  have hpage : pageOf m l = some (clearWord (lba % 256) e.2 p) :=
    hm ▸ kget_kmod_self hp _
  have hfp := samePages_fpOnDelta v 0 m
  have hfpQuiet := Quiet.fpOnDelta v 0 m
  dsimp only
  generalize fpOnDelta v 0 m = f at hfp hfpQuiet ⊢
  generalize hw : wrN (volAddr v + 40) 8 _ f = w
  have hsame : SamePages f w := hw ▸ ⟨rfl, rfl⟩
  have hwQuiet : Quiet f w := hw ▸ ⟨rfl, rfl, rfl, rfl, .of_csr rfl⟩
  have hend : SamePages m (touchPath (volPath f v lba) lba true (pmc 0x0D03 0 1 w)) :=
    ((hfp.trans hsame).trans (sameButLog_pmc _ _ _ _).samePages).trans (samePages_touchPath _ _ _ _)
  refine ⟨(((hquiet.trans hfpQuiet).trans hwQuiet).trans (.of_frames (.pmc _ _ _ _))).trans (.touchPath _ _ _ _), clearWord (lba % 256) e.2 p, ?_,
    entry_clearWord hord _ _⟩
  rw [pageOf, hend.1]
  exact hpage

/-- A delta that unmaps a block of a volume's own path, in a page that does not reflect it yet (R135). -/
theorem applyDelta_unmaps {v a b c x : Nat} {seq : RingSeq} {done : List Nat} {d : Delta} {p : Page} {s : State} (hpath : OwnPath s v d.lba a b c x p)
    (hword : d.word = 0) (hfwd : kget s.plc.fwd 0 = none) (hdone : x ∉ done) : Quiet s (applyDelta v seq done d s) ∧
      ∃ q, pageOf (applyDelta v seq done d s) x = some q ∧ q.entry (d.lba % 256) = (0, (p.entry (d.lba % 256)).2) := by
  obtain ⟨m, hleaf, hx, hnext⟩ := leafForUpdate_of_ownPath hpath (some seq)
  obtain ⟨-, -, hp, hord, hbelow, hown⟩ := hpath
  obtain ⟨hres, -⟩ := hown x p (by simp) hp
  obtain ⟨q, hq, hent, hchanged⟩ := pageOf_markDirty (s := { s with me := m }) hx hres seq
  rw [applyDelta_of_unmap (by rw [hword, resolve_zero hfwd]) hleaf hdone hq]
  have hkept : OrderedAt x (markDirty x (some seq) { s with me := m }) := ⟨q, hq, by rw [hent]; exact hord⟩
  have hsub := hkept.wordSubNew hq hchanged (show x < m.nextPage by rw [hnext]; exact hbelow) seq done (q.entry (d.lba % 256)).1
  obtain ⟨hquiet, r, hr, hentry⟩ := unmapEntry_spec (v := v) (lba := d.lba) (e := q.entry (d.lba % 256)) hsub
  refine ⟨?_, r, hr, hentry.trans (by rw [Page.entry, hent, Page.entry])⟩
  exact (((Quiet.of_me m s).trans (.of_me _ { s with me := m })).trans (quiet_wordSubNew _ _ _ _)).trans hquiet

/-! ### DONE -/

theorem queueStream_spec (opc n nmsg seq src nent cask : Nat) (mirror : Bool) (s : State) :
    (queueStream opc n nmsg seq src nent cask mirror s).me = s.me ∧ Quiet s (queueStream opc n nmsg seq src nent cask mirror s) :=
  ⟨rfl, rfl, rfl, rfl, rfl, .of_csr rfl⟩

/-- A record that starts a stream context changes no page. -/
theorem streamRecord_spec (r : JRec) (src : Nat) (mirror : Bool) (s : State) :
    (streamRecord r src mirror s).me = s.me ∧ Quiet s (streamRecord r src mirror s) := by
  unfold streamRecord
  split
  · exact ⟨rfl, .refl s⟩
  · next n _ =>
    have hqueued (b : Bool) (opc nmsg seq nent cask : Nat) :
        (if b then queueStream opc n nmsg seq src nent cask mirror s else s).me = s.me ∧
          Quiet s (if b then queueStream opc n nmsg seq src nent cask mirror s else s) := by
      cases b
      · exact ⟨rfl, .refl s⟩
      · exact queueStream_spec _ _ _ _ _ _ _ _ s
    exact hqueued _ _ _ _ _ _

theorem applyCuts_of_nil {s : State} (h : s.snap.cuts = []) : applyCuts s = s :=
  calc applyCuts s = { s with snap := { s.snap with cuts := [] } } := by rw [applyCuts, h]; rfl
    _ = { s with snap := { s.snap with cuts := s.snap.cuts } } := by rw [h]
    _ = s := rfl

/-- A DELTA of one entry that the head applies as it becomes DONE. -/
theorem recordDone_of_delta {r : JRec} {d : Delta} {s : State} (hty : r.ty = 1) (hcuts : s.snap.cuts = []) (hds : deltasOf r.body r.nent = [d])
    (hok : updateOk s (bitsN r.arg 17 0) [d] = true) (hmay : mayUpdate s (bitsN r.arg 17 0) = true) :
    recordDone r s = streamRecord r (ownRing + r.off) false (applyDelta (bitsN r.arg 17 0) ⟨false, r.seq⟩ (reflecting s ⟨false, r.seq⟩) d s) := by
  rw [recordDone, if_pos (show r.ty = tyDelta from hty)]
  simp only [applyCuts_of_nil hcuts, hds, hok, hmay, Bool.and_self, if_true, applyDeltas, List.foldl_cons, List.foldl_nil]

/-! ### The mark of a record changes no page -/

section
variable {s t : State} (hme : t.me = s.me)
include hme

theorem pageOf_of_me (id : Nat) : pageOf t id = pageOf s id := by rw [pageOf, hme, pageOf]

theorem walk_of_me (lba level id : Nat) : walk t lba level id = walk s lba level id := by
  induction level generalizing id with
  | zero => rfl
  | succ level ih => simp only [walk, pageOf_of_me hme, ih]

theorem OwnPath.of_me {v lba a b c x : Nat} {p : Page} (h : OwnPath s v lba a b c x p) (hmem : t.mem = s.mem) : OwnPath t v lba a b c x p := by
  obtain ⟨hpath, hnodup, hx, hord, hbelow, hown⟩ := h
  refine ⟨?_, hnodup, (pageOf_of_me hme x).trans hx, hord, by rw [hme]; exact hbelow, fun i q hi hq => ?_⟩
  · rw [← hpath, volPath, volPath, hme]
    simp only [walk_of_me hme]
  · rw [volEpoch, rdN_of_mem hmem]
    exact hown i q hi ((pageOf_of_me hme i).symm.trans hq)

theorem reflecting_of_me (seq : RingSeq) : reflecting t seq = reflecting s seq := by rw [reflecting, hme, reflecting]

end

theorem updateOk_markDone (r : JRec) (s : State) (v : Nat) (l : List Delta) : updateOk (markDone r s) v l = updateOk s v l := rfl

theorem mayUpdate_markDone (r : JRec) (s : State) (v : Nat) : mayUpdate (markDone r s) v = mayUpdate s v := rfl

theorem quiet_markDone (r : JRec) (s : State) : Quiet s (markDone r s) := ⟨rfl, rfl, rfl, rfl, .of_csr rfl⟩

/-- The DONE forms of O29 (R253). -/
theorem journalRecordsBecomeDone : Claim.JournalRecordsBecomeDone := by
  intro r l s hrecs hdone hacts hroots hfail hfence hhand hl
  refine ⟨fun id j hty hjob hj => markReturns hrecs hdone hacts hroots hfail hfence hhand hl hty hjob hj, ?_⟩
  intro d a b c x p hty hcuts hds hword hfwd hok hmay hnot hpath
  obtain ⟨hquiet, q, hq, hentry⟩ := applyDelta_unmaps (s := markDone r s) (seq := ⟨false, r.seq⟩) (done := reflecting s ⟨false, r.seq⟩)
    (hpath.of_me rfl rfl) hword hfwd hnot
  have hrec := recordDone_of_delta (s := markDone r s) hty hcuts hds
    ((updateOk_markDone r s _ _).trans hok) ((mayUpdate_markDone r s _).trans hmay)
  rw [reflecting_of_me (s := s) (t := markDone r s) rfl] at hrec
  generalize applyDelta (bitsN r.arg 17 0) ⟨false, r.seq⟩ (reflecting s ⟨false, r.seq⟩) d (markDone r s) = u at hquiet hq hrec
  obtain ⟨hme, hstream⟩ := streamRecord_spec r (ownRing + r.off) false u
  generalize streamRecord r (ownRing + r.off) false u = w at hme hstream hrec
  have hexec := exec_jrnlRecordDone hrecs hdone hacts hroots hfail hhand hrec (((quiet_markDone r s).trans hquiet).trans hstream)
  obtain ⟨jobs, recs, hreturn⟩ := returnDone_eq w
  rw [hreturn] at hexec
  exact ⟨_, q, hexec, (pageOf_of_me (s := u) (t := { w with jobs := jobs, ta := { w.ta with recs := recs } }) hme x).trans hq, hentry⟩

/-- Settles O29: the record of a job passes the checks of replay where it stands, what becomes DONE returns or unmaps its block, the mirror and replay take the records
that follow in order, and the oldest leaves the ring when it may. -/
theorem journalResults : Obligations.JournalResults := ⟨journalAppends, journalRecordsBecomeDone, mirrorTakesRecords, recordsRetire, replayTakesGoodRecords⟩

end Sys2Proof.Machine
end
